-- ==== Sys2Proof/Word.lean ====
section
/-! DEFINITION. The word types of the HV-8312 model (spec/00_scope.md R9, R10) and nothing that a spec rule could make wrong. -/

namespace Sys2Proof

/-- One byte. -/
abbrev Byte := BitVec 8

/-- A register (R459): 32 bits. -/
abbrev Word := BitVec 32

/-- A 64-bit pointer, counter or packed time. -/
abbrev DWord := BitVec 64

/-- An AES-256 key (R110). -/
abbrev Key := BitVec 256

end Sys2Proof
end

