-- ==== Sys2Proof/Syntax.lean ====
section
/-! DEFINITION. The commands of the block: one constructor of Instr per row of spec/opcode_table.json, with the operands
that come from outside the block (the function and value of a register access, the bytes of a received packet, the
completion tag an operation holds, a choice the placement engine makes freely under R304). -/

namespace Sys2Proof

/-- Where a packet came from and where its answer goes (R127, R367). -/
structure SrcAddr where
  port : Nat := 0
  mac : Nat := 0
  v6 : Bool := false
  ip : Nat := 0
  udp : Nat := 0
  deriving DecidableEq, Repr

/-- PTP messages the ordinary clock acts on (R362, R363). Times are in ns since the PTP epoch. -/
inductive PtpMsg where
  | announce (priority1 clockClass priority2 identity : Nat)
  | sync (identity origin : Nat) (twoStep : Bool)
  | followUp (identity origin : Nat)
  | delayReq (identity : Nat)
  | delayResp (identity receiveStamp : Nat)
  | pdelayReq (identity : Nat)
  | pdelayResp (identity turnaround : Nat)
  | management
  deriving DecidableEq, Repr

/-- The transports of PTP messages (R362, NET_CTRL.TRANSPORT). -/
inductive PtpTransport where
  | udp4 | udp6 | ethernet
  deriving DecidableEq, Repr

/-- What a received Ethernet frame carries (R365, R366). -/
inductive RxProto where
  | ptp (t : PtpTransport) (domain : Nat) (m : PtpMsg)
  | udp (dstMac dstIp dstPort : Nat) (v6 fragment badChecksum : Bool) (src : SrcAddr) (payload : List Byte)
  | pause
  | other
  deriving DecidableEq, Repr

/-- A received Ethernet frame: port, whether its FCS is good, its bytes from the destination MAC address on without
FCS (R372), and its decoded content. -/
structure RxFrame where
  port : Nat := 0
  fcsOk : Bool := true
  bytes : List Byte := []
  proto : RxProto := .other
  deriving DecidableEq, Repr

/-- HELLO and JOIN bodies (R387). -/
structure Hello where
  arrayId : Nat := 0
  port : Nat := 0
  dimX : Nat := 1
  dimY : Nat := 1
  dimZ : Nat := 1
  coordValid : Bool := false
  coord : Nat := 0
  tileSize : Nat := 8
  leader : Nat := 0
  viewNo : Nat := 0
  epochPeriod : Nat := 50
  version : Nat := 1
  deriving DecidableEq, Repr

/-- One record of BARRIER_PUBLISH (R387): tile, owner, mirror (0xFF for none under R315), TAKEOVER. -/
structure PublishRec where
  ix : Int := 0
  iy : Int := 0
  owner : Nat := 0
  mirror : Nat := 255
  takeover : Bool := false
  deriving DecidableEq, Repr

/-- A search result record (R229). -/
structure SearchRec where
  key : Nat := 0
  dist : Nat := 0
  session : Nat := 0
  time : Nat := 0
  ix : Int := 0
  iy : Int := 0
  kind : Nat := 0
  inlet : Bool := false
  deriving DecidableEq, Repr

/-- A QUERY message's parameters (R387, R231). -/
structure QueryMsg where
  xid : Nat := 0
  src : Nat := 0
  epoch : Nat := 0
  peerDeadline : Nat := 0
  k : Nat := 1
  beam : Nat := 0
  entry : Nat := 0
  probes : Nat := 0
  filters : Nat := 0
  kindMask : Nat := 0
  maxVisits : Nat := 0
  index : Nat := 1
  filterBlock : List Byte := []
  vector : List Byte := []
  deriving DecidableEq, Repr

/-- An ANSWER message (R387, R232): result 0 answered, 1 epoch gone, 2 data error. -/
structure AnswerMsg where
  xid : Nat := 0
  src : Nat := 0
  visits : Nat := 0
  result : Nat := 0
  recs : List SearchRec := []
  deriving DecidableEq, Repr

/-- A REMOTE_REQ segment (R387, R388). -/
structure RemoteReqMsg where
  xid : Nat := 0
  src : Nat := 0
  offset : Nat := 0
  total : Nat := 0
  desc : List Byte := []
  data : List Byte := []
  deriving DecidableEq, Repr

/-- A REMOTE_RESP segment (R387, R388). -/
structure RemoteRespMsg where
  xid : Nat := 0
  src : Nat := 0
  status : Nat := 0
  offset : Nat := 0
  count : Nat := 0
  detail : Nat := 0
  total : Nat := 0
  data : List Byte := []
  deriving DecidableEq, Repr

/-- What a MIRROR_ITEM changes in a tile (R395; the spec leaves the item's bytes to the device). -/
inductive MirrorChange where
  | objects (image : List Byte)
  | copyEnd
  deriving DecidableEq, Repr

/-- A MIRROR_ITEM message (R387). -/
structure MirrorItemMsg where
  src : Nat := 0
  seq : Nat := 0
  ix : Int := 0
  iy : Int := 0
  epoch : Nat := 0
  change : MirrorChange := .copyEnd
  deriving DecidableEq, Repr

/-- Farzako header fields of a message to forward (R385, R386). -/
structure FzlHeader where
  type : Nat := 0
  cls : Nat := 0
  src : Nat := 0
  dst : Nat := 0
  bodyLen : Nat := 0
  hops : Nat := 16
  xid : Nat := 0
  deriving DecidableEq, Repr

/-- The units whose wear the device watches (R406, in the row order of its table). -/
inductive WearUnit where
  | coreMargin (core : Nat)
  | coreErrors (core : Nat)
  | pondRow (cluster bank : Nat)
  | basinLane (pc : Nat)
  | lakeFrame (frame : Nat)
  | fabricLane (port lane : Nat)
  | ringContext (fn n : Nat)
  | pll (gen : Nat)
  deriving DecidableEq, Repr

/-- The pieces of work that a unit below an operation retries (R399). -/
inductive Piece where
  | matrixTile | visionStrip | abacusStep | soundingBatch | basinRead | lakeRead | hostRead | tierAccess
  deriving DecidableEq, Repr

/-- Units that fail suddenly (R401, R409). -/
inductive FailedUnit where
  | core (id : Nat)
  | pondBank (cluster bank : Nat)
  | crossbar (cluster : Nat)
  | spinePort (cluster : Nat)
  | basinLane (pc : Nat)
  | ringContext (fn n : Nat)
  | dieUnit (n : Nat)
  deriving DecidableEq, Repr

/-- The causes of a tamper event, as TAMPER_CAUSE numbers them (R450, R456). -/
inductive TamperCause where
  | pin | supply | clock | temperature
  deriving DecidableEq, Repr

/-- Tiers above the home tier (R335). -/
inductive UpperTier where
  | basin
  | pond (cluster : Nat)
  deriving DecidableEq, Repr

/-- A late tier (R339). -/
inductive LateTier where
  | basin | lake
  deriving DecidableEq, Repr

/-- The commands: one constructor per row of the table of operations and events. -/
inductive Instr where
  -- rings and doorbells (03)
  | doorbellSweep (fn : Nat) (group : Option Nat)
  | nudge (fn : Nat)
  | descriptorFetch (fn sq : Nat)
  | operationStart (op : Nat)
  | completionPost (op : Nat)
  | interruptTimer (fn cq : Nat)
  | deadlineExpiry (op : Nat)
  | ringEnable (fn : Nat) (val : Word)
  | ringDisable (fn : Nat) (val : Word)
  | fnRingsWrite (fn : Nat) (val : Word)
  -- registers (16 and the blocks)
  | registerWrite (fn off size val : Nat)
  | bitAliasWrite (fn off : Nat) (val : Word)
  | shadowApplyLink (fabric : Bool)
  | configParityFault (off idx : Nat)
  | privKeyWrite (fn : Nat) (val : Word)
  | privEnter (fn : Nat)
  | privLeave (fn : Nat)
  | hostTagWrite (fn : Nat) (val : Word)
  | resetKeyWrite (fn : Nat) (val : Word)
  | resetCtrlWarm (fn : Nat)
  | resetCtrlCold (fn : Nat)
  | timeCmdSet (fn : Nat)
  | timeCmdStep (fn : Nat)
  | timeRateWrite (fn : Nat) (val : Word)
  | timeNsRead (fn : Nat)
  | tallyHeadAckRead (fn size : Nat)
  | eventSummaryRead (fn size : Nat)
  | springRegisterWrite (fn off : Nat) (val : Word)
  | springWriteArrival
  | lcRequestWrite (fn : Nat) (val : Word)
  | fzlLeave (fn : Nat)
  | forceView (fn reachable : Nat)
  | extentEnable (fn : Nat) (val : Word)
  | extentDisable (fn : Nat) (val : Word)
  | bar2Access (fn : Nat) (write : Bool) (off len : Nat) (data : List Byte)
  -- operations (the opcodes), named by the operation that runs
  | nop (op : Nat)
  | fence (op : Nat)
  | sessionOpen (op : Nat)
  | sessionClose (op : Nat)
  | sessionKey (op : Nat)
  | setFilter (op : Nat)
  | setThresholds (op : Nat)
  | setTimers (op : Nat)
  | setMaxLoad (op : Nat)
  | setHostRate (op : Nat)
  | setLimits (op : Nat)
  | eventWait (op : Nat)
  | setGates (op : Nat)
  | setPrecedence (op : Nat)
  | setReply (op : Nat)
  | setTime (op : Nat)
  | setPose (op : Nat)
  | setCalibRefine (op : Nat)
  | setCalibration (op : Nat)
  | setRefine (op : Nat)
  | setSearch (op : Nat)
  | setFeatures (op : Nat)
  | setStereo (op : Nat)
  | setRetain (op : Nat)
  | frameSubmit (op : Nat)
  | trackQueryFeatures (op : Nat)
  | trackQueryTracks (op : Nat)
  | trackQueryDisparity (op : Nat)
  | trackQueryProject (op : Nat)
  | mapReadTileImage (op : Nat)
  | mapReadKeyframes (op : Nat)
  | mapReadLinks (op : Nat)
  | mapReadPoints (op : Nat)
  | mapReadObservations (op : Nat)
  | tileRestore (op : Nat)
  | keyframeDelete (op : Nat)
  | keyframePose (op : Nat)
  | linkAdd (op : Nat)
  | linkDelete (op : Nat)
  | quarantine (op : Nat)
  | release (op : Nat)
  | indexCreate (op : Nat)
  | indexDrop (op : Nat)
  | tileAffinity (op : Nat)
  | epochWait (op : Nat)
  | search (op : Nat)
  | vecInsert (op : Nat)
  | vecDelete (op : Nat)
  | settle (op : Nat)
  | recallProbe (op : Nat)
  | solve (op : Nat)
  | scheduleLoad (op : Nat)
  | scheduleDrop (op : Nat)
  | infer (op cluster : Nat)
  | programLoad (op : Nat)
  | programDrop (op : Nat)
  | weightsBind (op : Nat)
  | weightsUnbind (op : Nat)
  | move (op : Nat)
  | moveFill (op : Nat)
  | residencyHint (op : Nat)
  | netSend (op : Nat)
  | netRecvPost (op : Nat)
  | logRead (op : Nat)
  | diagSessions (op : Nat)
  | diagClusters (op : Nat)
  | diagTiles (op : Nat)
  | diagCounters (op : Nat)
  | retire (op : Nat)
  | safeHoldAction (op : Nat)
  | prepare (op : Nat) (pass : Bool)
  | stage (op : Nat) (signed : Bool) (version secVersion : Nat)
  | activate (op : Nat)
  | revert (op : Nat)
  -- sessions, vision, fusion and replies (04 to 06)
  | netFrameReceive (f : RxFrame)
  | reassemblyTimeout (sid frameNo : Nat)
  | silentTimeout (sid : Nat)
  | lingerExpiry (sid : Nat)
  | visionFrame (sid frameNo : Nat)
  | fusionFrame (sid frameNo : Nat)
  | motionShort (sid frameNo : Nat)
  | fusionIntervalClose (sid : Nat)
  | loopClosure (sid : Nat) (keyA keyB : Nat)
  | calibSolveQueue (sid : Nat)
  | calibSolveResult (sid : Nat)
  | replyLaunch (sid : Nat)
  | frameLaunch (port : Nat)
  | sessionMove (sid cluster : Nat)
  -- search, settling and remote operations (07, 13)
  | settlingPass (index : Nat)
  | settlingPassDone (index : Nat)
  | peerDeadline (op : Nat)
  | query (m : QueryMsg)
  | answer (m : AnswerMsg)
  | remoteReq (m : RemoteReqMsg)
  | remoteResp (m : RemoteRespMsg)
  -- mirrors, handover, epochs (10, 13)
  | mirrorItem (m : MirrorItemMsg)
  | mirrorAck (src seq : Nat)
  | mirrorAckTimer (src : Nat)
  | mirrorSyncComplete (ix iy : Int)
  | handoverPropose (src : Nat) (ix iy : Int) (epoch : Nat)
  | handoverReply (src : Nat) (ix iy : Int) (code : Nat)
  | snapshot (src : Nat) (ix iy : Int) (offset : Nat) (last : Bool) (data : List Byte)
  | synced (src : Nat) (ix iy : Int) (seq : Nat)
  | handoverAbort (src : Nat) (ix iy : Int) (reason : Nat)
  | handoverCopyTimeout (ix iy : Int)
  | tick
  | epochBoundary
  | epochReadySend
  | barrierReady (src epoch viewNo : Nat) (tiles : List (Int × Int))
  | barrierPublish (epoch viewNo : Nat) (recs : List PublishRec)
  -- membership and the fabric (13)
  | hello (port : Nat) (h : Hello)
  | helloTimer (port : Nat)
  | join (src : Nat) (h : Hello)
  | joinReply (code : Nat)
  | view (viewNo leader members : Nat)
  | viewAck (src viewNo : Nat)
  | heartbeat (src viewNo : Nat) (leaving : Bool)
  | heartbeatTimer
  | memberTimeout (id : Nat)
  | leave (src reason : Nat)
  | gracefulLeaveComplete
  | timeSync (port stamp hops master : Nat)
  | timeSyncTimer
  | timeSyncTimeout
  | delayReq (port stamp : Nat)
  | delayReqTimer
  | delayResp (port stamp : Nat)
  | fzlLinkUp (port : Nat)
  | flitNak (port ack : Nat)
  | flitReplayTimeout (port : Nat)
  | portRetrainTimeout (port : Nat)
  | laneFailure (port lane : Nat)
  -- time, network and triggers (12)
  | ptpMessage (m : PtpMsg)
  | ptpAnnounceTimeout
  | ppsInEdge
  | ppsSeenTimeout
  | holdoverLimit
  | ppsOutRise
  | ppsOutFall
  | triggerEdge (t : Nat)
  | triggerPulseEnd (t : Nat)
  | netLinkChange (port : Nat) (up : Bool)
  -- memory tiers (11)
  | parcelPromote (parcel : Nat) (tier : UpperTier)
  | promotionCopyEnd (parcel : Nat)
  | parcelDemote (parcel : Nat)
  | demotionWriteBackEnd (parcel : Nat)
  | tierAccessLate (tier : LateTier) (repair : Bool)
  | scrubPass (lake : Bool) (frame : Nat) (corrected uncorrectable : Bool)
  | pondTestStep (cluster bank : Nat) (fails : Bool)
  | laneRepairWalk (pc lane : Nat)
  | laneRepairSwitch (pc : Nat)
  | inferLayerStart (op layer : Nat)
  -- faults and the reservoir (14)
  | pieceFailure (op : Nat) (piece : Piece) (core : Nat) (recurs : Bool)
  | retryBudgetExpiry (op : Nat)
  | unitRetired (u : FailedUnit)
  | wearDetected (u : WearUnit)
  | drainComplete (core : Nat)
  | spareInService (core : Nat)
  | reservoirClusterReady
  | reservoirDailyTest (pass : Bool)
  | clockLoss (gen : Nat)
  | sparePllLocked (gen : Nat)
  | safeHold (code : Nat)
  | thermalLimit
  | hostPathFailure
  -- power, clocks and reset (15, 17)
  | clusterRetention (c : Nat)
  | clusterOff (c : Nat)
  | matrixDomainOff (c : Nat)
  | clusterWake (c : Nat) (mx : Bool)
  | clusterWakeComplete (c : Nat)
  | powerOn
  | railExcursion (rail mV us : Nat)
  | tamper (cause : TamperCause)
  | resetNAssert
  | resetNRelease
  | parked
  | perstNAssert
  | perstNRelease
  | functionLevelReset (fn : Nat)
  | watchdogExpiry
  | bringUp
  | domainRelease (domain : Nat)
  | firmwareVerified
  | tidyFirmwareStart
  -- the management port (16)
  | mgmtStatus (args : List Byte)
  | mgmtTemperature (args : List Byte)
  | mgmtReservoirLevel (args : List Byte)
  | mgmtTallyRead (args : List Byte)
  | resetArm (args : List Byte)
  | resetGo (args : List Byte)
  | mgmtArmExpiry
  | mgmtResetTaken
  | mgmtDynamicAddress (addr : Nat)
  -- further rows
  | ptpMessageInterval
  | flitReceiveError (port expected : Nat)
  | messageForward (port : Nat) (h : FzlHeader)
  | keyframeMaskComplete (key : Nat) (masked : List Nat)
  | securityCoreRequest
  | hbmRefreshRate (stack : Nat) (hot : Bool)
  deriving DecidableEq, Repr

end Sys2Proof
end

