-- ==== Sys2Proof/Machine/State.lean ====
section
/-! DEFINITION. The state of the block as plain data: every register, ring, buffer, counter, mode and pin the spec names,
the queue of waiting commands, and the reset state. Registers without a field of their own stand in the shadow and applied
register stores, whose unlisted entries read the reset value of their row (Machine/Regs.lean). -/

namespace Sys2Proof.Machine

/-- A sparse table in canonical form: keys strictly rising, no entry equal to what an unlisted key reads as. -/
abbrev Store (β : Type) := List (Nat × β)

/-- Memory (R79, R321): bytes by the 64-bit pointer that names them; bit 63 set is the device range, clear is host memory. -/
abbrev Memory := List Host.Cell

/-- The variants of R3. -/
inductive Part where
  | hv8312 | hv8309 | hv8306
  deriving DecidableEq, Repr

/-- The life-cycle states of R451. -/
inductive LifeCycle where
  | blank | provisioned | field | returned | scrapped
  deriving DecidableEq, Repr

/-- A firmware slot of the boot flash (R448, R417): signed by the key that the life-cycle state asks for, or a vendor image (R451). -/
structure Slot where
  signed : Bool := true
  version : Nat := 1
  secVersion : Nat := 1
  returnAuth : Bool := false
  vendor : Bool := false
  deriving DecidableEq, Repr

/-- The options in force (R449). -/
structure Options where
  arrayId : Nat := 0
  dimX : Nat := 1
  dimY : Nat := 1
  dimZ : Nat := 1
  tileSize : Nat := 8
  wdt : Nat := 4
  lake : Nat := 8
  totalVfs : Nat := 63
  bar2En : Bool := true
  parkOnResetN : Bool := false
  deriving DecidableEq, Repr

/-- Clusters in service of a part (R3, R44); every part also holds one reservoir cluster. -/
def Part.clusters : Part → Nat
  | .hv8312 => 12
  | .hv8309 => 9
  | .hv8306 => 6

/-- Fuse map, OTP and boot flash (R3, R45, R377, R448 to R451): what no reset clears. clusters are the physical indices that the fuse map leaves
enabled; Chip.present holds them to the part's number. -/
structure Chip where
  part : Part := .hv8312
  fuseProgrammed : Bool := true
  clusters : List Nat := [0, 1, 2, 3, 4, 5, 6, 7, 8, 9, 10, 11, 12]
  reservoir : Nat := 12
  serial : Nat := 0
  mac0 : Nat := 0
  mac1 : Nat := 0
  otpOptions : Options := {}
  otpLock : Nat := 0
  flashOptions : List Byte := []
  slotA : Slot := {}
  slotB : Slot := {}
  slotRecord : Nat := 0
  minSecVersion : Nat := 0
  lifeCycle : LifeCycle := .field
  tamperCount : Nat := 0
  deriving DecidableEq, Repr

/-- The states of device time (R358). -/
inductive TimeState where
  | unset | free | locked | holdover
  deriving DecidableEq, Repr

/-- The time unit (R356 to R363, R375, R376). -/
structure Clock where
  now : Nat := 0
  dev : Nat := 0
  state : TimeState := .unset
  goodRun : Nat := 0
  lastOffset : Int := 0
  rate : Int := 0
  sourceLost : Bool := false
  ppsSeen : Bool := false
  lastPps : Nat := 0
  ppsSetPending : Bool := false
  latchSec : Nat := 0
  holdoverSince : Nat := 0
  ptpMaster : Bool := false
  ptpParent : Option Nat := none
  ptpDelay : Option Int := none
  ptpSet : List Nat := []
  ptpSyncRx : Option Nat := none
  ptpReqTx : Option Nat := none
  ptpLastSync : Option (Nat × Nat) := none
  lastTick : Nat := 0
  lastBoundary : Nat := 0
  deriving DecidableEq, Repr

/-- The configuration registers without fields of their own (R459, R469, R479): shadow and applied values by
offset × 64 + instance, the registers that hold a parity fault, the writes that await a boundary (R470), and the value the last register read returned. -/
structure Regs where
  shadow : Store Word := []
  applied : Store Word := []
  faults : List (Nat × Nat) := []
  waiting : List (Nat × Nat) := []
  lastRead : DWord := 0
  springQueue : List (Nat × Nat × Word) := []
  springStalled : List (Nat × Nat × Word) := []
  deriving DecidableEq, Repr

/-- The host unit (R439, R442, R444, R455, R465, R466), and each function's MSI-X table, by function × 65536 + offset, with its pending
vectors (R96, R458). msixOff and msixMasked are the functions whose MSI-X Enable is clear and whose Function Mask is set; no row of the table writes
PCIe configuration space, so they stay as reset leaves them. -/
structure HostIf where
  linkUp : Bool := false
  detect : Bool := false
  perstLow : Bool := true
  privileged : Bool := false
  privKeyAt : Option Nat := none
  resetKeyAt : Option Nat := none
  hostTag : Word := 0
  hostTagSet : Bool := false
  msixTable : Store Word := []
  msixPending : List (Nat × Nat) := []
  msixOff : List Nat := []
  msixMasked : List Nat := []
  deriving DecidableEq, Repr

/-- A submission ring context (R62 to R76, R106, R107); wantsTag while a fetch was refused a tag and none has been made since (R59); dead once its
storage has failed with no spare left (R409). -/
structure SqCtx where
  cfg : Word := 0x2044
  baseLo : Word := 0
  baseHi : Word := 0
  deadline : Word := 1000000
  cfgErr : Bool := false
  parityErr : Bool := false
  dead : Bool := false
  head : Nat := 0
  tail : Nat := 0
  wantsTag : Bool := false
  stalledTags : Bool := false
  stalledCq : Bool := false
  tagsSince : Nat := 0
  cqSince : Nat := 0
  deriving DecidableEq, Repr

/-- A completion ring context (R67, R88 to R97, R106, R107). -/
structure CqCtx where
  cfg : Word := 0x2044
  baseLo : Word := 0
  baseHi : Word := 0
  deadline : Word := 1000000
  int : Word := 0x40000000
  cfgErr : Bool := false
  parityErr : Bool := false
  dead : Bool := false
  hostHead : Nat := 0
  post : Nat := 0
  phase : Bool := true
  reserved : Nat := 0
  unsignalled : Nat := 0
  firstUnsignalled : Nat := 0
  deriving DecidableEq, Repr

/-- Sweeps asked for by NUDGE (R73). -/
inductive NudgeState where
  | idle | pending | further
  deriving DecidableEq, Repr

/-- A function's grants and doorbell registers (R63, R68, R71, R72, R108), and the end of the poll interval of each ring group (R72). -/
structure FnCtx where
  sqCount : Nat := 0
  cqCount : Nat := 0
  dbLo : Word := 0
  dbHi : Word := 0
  wbLo : Word := 0
  wbHi : Word := 0
  sweep : Word := 0
  nudge : NudgeState := .idle
  sweepAt : List Nat := [0, 0, 0, 0, 0, 0, 0, 0, 0, 0, 0, 0, 0, 0, 0, 0]
  deriving DecidableEq, Repr

/-- The ring contexts, by function × 32768 + local number, and the function contexts (R62, R63). -/
structure Rings where
  sq : Store SqCtx := []
  cq : Store CqCtx := []
  fns : Store FnCtx := []
  deriving DecidableEq, Repr

/-- Where an operation stands (R80, R100): held by a fence or ORDERED; ready to run; run and waiting for an event; or final. -/
inductive Phase where
  | held | started | waiting | final
  deriving DecidableEq, Repr

/-- An operation in flight (R57, R77, R93, R95, R100, R399 to R404); readyAt is when it could start, blurred is set once result buffers that its
outcome leaves undefined have been given free bytes (R92, R100); snap holds the register values taken at fetch (R242, R270), and
bufs the spans of its result buffers (R92). -/
structure Op where
  id : Nat := 0
  fn : Nat := 0
  sq : Nat := 0
  cq : Nat := 0
  ringClass : Nat := 2
  pool : Nat := 2
  desc : List Byte := []
  fetchedAt : Nat := 0
  fetchedDev : Nat := 0
  deadlineAt : Nat := 0
  deadlineUs : Nat := 0
  epochAtFetch : Nat := 0
  lateDefault : Nat := 1
  snap : List Nat := []
  bufs : List (Nat × Nat) := []
  phase : Phase := .started
  began : Bool := false
  committed : Bool := false
  status : Nat := 0
  count : Nat := 0
  detail : Nat := 0
  finalAt : Nat := 0
  waitedFor : Nat := 0
  retried : Bool := false
  replayed : Bool := false
  late : Bool := false
  attempts : Nat := 0
  attemptsMax : Nat := 0
  attemptEnds : Nat := 0
  retrying : Bool := false
  wasHeld : Bool := false
  readyAt : Nat := 0
  blurred : Bool := false
  deriving DecidableEq, Repr

/-- A fence in force (R100): the operation that set it, its scope and what the scope names. -/
structure Fence where
  id : Nat := 0
  fn : Nat := 0
  sq : Nat := 0
  handle : Nat := 0
  scope : Nat := 0
  deriving DecidableEq, Repr

/-- The operations in flight in fetch order, the fences in force, and the completion tags in use of each pool (R57 to R60). -/
structure Ops where
  list : List Op := []
  fences : List Fence := []
  nextId : Nat := 0
  used0 : Nat := 0
  used1 : Nat := 0
  usedShared : Nat := 0
  deriving DecidableEq, Repr

/-- A tally log entry (R419). -/
structure TallyEntry where
  time : Nat := 0
  seq : Nat := 0
  source : Nat := 0
  code : Nat := 0
  cls : Nat := 4
  springTime : Bool := false
  fn : Nat := 255
  subject : Nat := 0
  detail : Nat := 0
  deriving DecidableEq, Repr

/-- The tally log, its read marks, and the tally counters by ID × 2²⁴ + instance (R419 to R427). -/
structure Tally where
  entries : List TallyEntry := []
  head : Nat := 0
  ackedTo : Nat := 0
  summary : Nat := 0
  alertMask : Word := 12
  sel : Store Nat := []
  counters : Store Nat := []
  lastLogged : Store Nat := []
  deriving DecidableEq, Repr

/-- Session kinds (R30). -/
inductive Kind where
  | vehicle | arm | station
  deriving DecidableEq, Repr

/-- Session states (R114). -/
inductive SessState where
  | admitted | opened | silent | closed
  deriving DecidableEq, Repr

/-- A rate declaration (R129). -/
structure Decl where
  width : Nat := 0
  height : Nat := 0
  images : Nat := 0
  frameRate : Nat := 0
  samplePeriod : Nat := 0
  channelMask : Nat := 0
  maxFrag : Nat := 8192
  deriving DecidableEq, Repr

/-- Filter, threshold and timer settings of a session (R112, R117, R148). -/
structure BaseCfg where
  preset : Nat := 0
  mode : Nat := 0
  shockLimit : Word := 0x421CCCCD
  tipRate : Word := 0x3FC00000
  replyOffset : Nat := 0
  keepalive : Nat := 1000
  linger : Nat := 30
  window : Nat := 20
  maxLoad : Nat := 0
  hostRate : Nat := 0
  deriving DecidableEq, Repr

/-- Fusion settings of a session (R208, R210). -/
structure FusionCfg where
  contraLimit : Nat := 8
  recover : Nat := 100
  gate : Word := 0x41866666
  precedence : Nat := 1
  lateDrop : Bool := false
  holdLimit : Word := 0x3F000000
  unlockSearch : Nat := 8
  calibEnable : Bool := true
  calibPeriod : Nat := 600
  deriving DecidableEq, Repr

/-- Tracking settings of a session (R153, R155, R174, R179). -/
structure TrackCfg where
  confThreshold : Nat := 160
  refineLimit : Nat := 25
  forcePyramid : Bool := false
  window : Nat := 24
  minMatches : Nat := 24
  segThreshold : Nat := 20
  cellLimit : Nat := 4
  maxCorners : Nat := 1024
  disp64 : Bool := false
  flatLimit : Nat := 16
  retain : Nat := 3
  calib : List Byte := []
  calibVersion : Nat := 0
  deriving DecidableEq, Repr

/-- All settings that a frame boundary applies (R117). -/
structure SessCfg where
  base : BaseCfg := {}
  fusion : FusionCfg := {}
  track : TrackCfg := {}
  deriving DecidableEq, Repr

/-- A pose: position in units of 2⁻²⁰ m (R11) and FP32 quaternion words. -/
structure Pose where
  x : Int := 0
  y : Int := 0
  z : Int := 0
  q : List Word := [0x3F800000, 0, 0, 0]
  deriving DecidableEq, Repr

/-- The fusion context (R182, R190 to R198): cov is the 15 × 15 covariance by rows, empty before the first pose; fixed is set from a new pose (R193)
to the end of the interval that takes it; a correction (R202) is its epoch and the poses before and after of the keyframes that moved. A STATION
session, which has no context, leaves it as it is here. -/
structure Fusion where
  pose : Pose := {}
  hasPose : Bool := false
  delta : List Word := [0, 0, 0]
  vel : List Word := [0, 0, 0]
  gyroBias : List Word := [0, 0, 0]
  accBias : List Word := [0, 0, 0]
  wheelScale : List Word := [0x3F800000, 0x3F800000]
  steerOffset : Word := 0
  theta : Int := 0
  cov : List Word := []
  step : Nat := 3
  sourceStep : Nat := 3
  trustStep : Nat := 0
  timeStep : Nat := 0
  run : Nat := 0
  clean : Nat := 0
  held : Bool := true
  unlockCause : Nat := 0
  lateRun : Nat := 0
  relockRun : List Int := []
  epoch : Nat := 0
  lastAcceptedCapture : Nat := 0
  intervalEnd : Nat := 0
  pendingCorrection : Option (Nat × List (Pose × Pose)) := none
  fixed : Bool := false
  deriving DecidableEq, Repr

/-- One filtered motion output (R143, R147). -/
structure FilterOut where
  stamp : Int := 0
  vals : List Word := []
  unsettled : Bool := false
  deriving DecidableEq, Repr

/-- The ingest filter's state for one session (R143 to R148, R185). -/
structure Filter where
  running : Bool := false
  k : Nat := 0
  hist : List (Nat × List Word) := []
  lastSample : Option Nat := none
  lastSettled : Option Int := none
  outs : List FilterOut := []
  spanFrom : Int := 0
  settled : Bool := false
  spans : List (Int × Int) := []
  shockArmed : Bool := true
  shockLow : Option Int := none
  tipArmed : Bool := true
  tipLow : Option Int := none
  overs : List Int := []
  deriving DecidableEq, Repr

/-- A frame in reassembly (R132, R133): per image its fragment count and the length of fragment 0; the fragments held, as
image and fragment index, with their data. -/
structure Reasm where
  frameNo : Nat := 0
  capture : Nat := 0
  firstArrival : Nat := 0
  shapes : List (Nat × Nat × Nat) := []
  frags : List (Nat × Nat × List Byte) := []
  deriving DecidableEq, Repr

/-- A feature record (R159). -/
structure Feature where
  x : Nat := 0
  y : Nat := 0
  disp : Nat := 0xFFFF
  score : Nat := 0
  level : Nat := 0
  right : Bool := false
  angle : Nat := 0
  conf : Nat := 255
  flags : Nat := 0
  trackId : Nat := 0
  desc : Nat := 0
  deriving DecidableEq, Repr

/-- A track record (R167). -/
structure Track where
  id : Nat := 0
  age : Nat := 0
  cost : Nat := 0
  prevX : Nat := 0
  prevY : Nat := 0
  x : Nat := 0
  y : Nat := 0
  conf : Nat := 0
  flags : Nat := 0
  desc : Nat := 0
  deriving DecidableEq, Repr

/-- A frame's results (R150, R176, R177); outside counts the pixels mapped from outside the source images (R150). -/
structure VisionResult where
  frameNo : Nat := 0
  capture : Nat := 0
  mode : Nat := 0
  flags : Nat := 0
  windowUsed : Nat := 0
  refined : Nat := 0
  calibVersion : Nat := 0
  features : List Feature := []
  tracks : List Track := []
  disparity : List Nat := []
  confidence : List Nat := []
  width : Nat := 0
  height : Nat := 0
  retain : Nat := 3
  outside : Nat := 0
  deriving DecidableEq, Repr

/-- An accepted frame being processed (R134, R152, R162, R184): rate is the declared frame rate in mHz, prevCapture the capture time of the frame
accepted before it, and seq its place in the device's order of acceptance. -/
structure Frame where
  frameNo : Nat := 0
  capture : Nat := 0
  arrival : Nat := 0
  left : Option (List Byte) := none
  right : Option (List Byte) := none
  width : Nat := 0
  height : Nat := 0
  rate : Nat := 0
  cfg : SessCfg := {}
  vision : Option VisionResult := none
  motionShort : Bool := false
  reloc : Nat := 0
  visionTaken : Bool := false
  prevCapture : Option Nat := none
  seq : Nat := 0
  op : Option Nat := none
  deriving DecidableEq, Repr

/-- A pose record (R138, R201). -/
structure PoseRec where
  pose : Pose := {}
  vel : List Word := [0, 0, 0]
  cov : List Word := []
  step : Nat := 3
  flags : Nat := 0
  epoch : Nat := 0
  ix : Int := 0
  iy : Int := 0
  deriving DecidableEq, Repr

/-- A reply that is eligible (R200): frame, capture time, launch time, declared frame rate in mHz and pose record. -/
structure Reply where
  frameNo : Nat := 0
  capture : Nat := 0
  launch : Nat := 0
  eligible : Nat := 0
  rate : Nat := 0
  record : PoseRec := {}
  deriving DecidableEq, Repr

/-- An event record (R119, R209): packed time, code and the three data bytes. -/
structure EventRec where
  time : Nat := 0
  code : Nat := 0
  data : Nat := 0
  deriving DecidableEq, Repr

/-- A frame whose time-offset residual is still to be computed (R194): the interval, its declared rate, and its results. -/
structure Resid where
  start : Int := 0
  capture : Nat := 0
  rate : Nat := 0
  result : VisionResult := {}
  deriving DecidableEq, Repr

/-- What the estimators of an interval work on (R183): the context, settings, declaration, filter outputs, the frame's results, and the interval on the
motion timeline. -/
structure FuseIn where
  fusion : Fusion := {}
  cfg : SessCfg := {}
  decl : Decl := {}
  outs : List FilterOut := []
  vision : Option VisionResult := none
  start : Int := 0
  stop : Int := 0
  deriving DecidableEq, Repr

/-- The replay window of one key (R125). -/
structure Replay where
  highest : Option Nat := none
  seen : List Nat := []
  deriving DecidableEq, Repr

/-- Net-path state of a session ID (R114, R123 to R139). -/
structure NetPath where
  src : SrcAddr := {}
  haveSrc : Bool := false
  lastValid : Nat := 0
  replay : Replay := {}
  nextReplay : Replay := {}
  txSeq : Nat := 0
  lastErrorAt : Option Nat := none
  authFails : List Nat := []
  authBurst : Bool := false
  deriving DecidableEq, Repr

/-- A session (R109 to R148, R155, R166, R172, R177, R306). oldCfgs holds the settings that earlier boundaries replaced, latest first, each with the
capture time before which it governs motion samples, and restartFrom the capture time from which settling restarts (R117); pendingDecls the
geometries of accepted RATE packets, oldest first, each with the highest FRAME_NO received before it (R130); bootObs the projected stereo points and
their right features of the bootstrap in progress (R172); copies the queries that copy results, with the frame (R177); silentAt and silentSpent the
time spent SILENT (R207). -/
structure Session where
  id : Nat := 0
  fn : Nat := 0
  kind : Kind := .vehicle
  hostPath : Bool := false
  state : SessState := .admitted
  cfg : SessCfg := {}
  nextCfg : SessCfg := {}
  decl : Decl := {}
  pendingDecls : List (Option Nat × Decl) := []
  declLoad : Nat := 0
  restartAtFrame : Bool := false
  restartFrom : Option Nat := none
  oldCfgs : List (Nat × SessCfg) := []
  stationPose : Pose := {}
  pendingPose : Option Pose := none
  reasm : List Reasm := []
  lastDone : Option Nat := none
  highestFrame : Option Nat := none
  lastAccepted : Option Nat := none
  frames : List Frame := []
  results : List VisionResult := []
  replies : List Reply := []
  lastSent : Option Nat := none
  filter : Filter := {}
  fusion : Fusion := {}
  tracks : List Track := []
  nextTrack : Nat := 1
  prevLeft : List Nat := []
  prevWidth : Nat := 0
  prevHeight : Nat := 0
  bootstrap : Option Nat := none
  bootstrapDone : Bool := false
  bootObs : List (List Byte × Feature) := []
  copies : List (Nat × Nat) := []
  residuals : List Resid := []
  silentAt : Option Nat := none
  silentSpent : Nat := 0
  events : List EventRec := []
  cluster : Nat := 0
  moves : Nat := 0
  movesAbandoned : Nat := 0
  moving : Option Nat := none
  calibDue : Nat := 0
  calibQueued : Bool := false
  acceptedNos : List Nat := []
  openedAt : Nat := 0
  deriving DecidableEq, Repr

/-- The keys of one session ID in the secure pond (R110, R111, R124, R126). -/
structure KeySlot where
  sid : Nat := 0
  fn : Nat := 0
  cur : Option (Key × Nat) := none
  next : Option (Key × Nat) := none
  erased : List Nat := []
  net : NetPath := {}
  deriving DecidableEq, Repr

/-- All sessions, keys, keyframes whose mask program runs with their features (R300), frames accepted so far (R152), and admission limits (R32, R109, R118). -/
structure Sess where
  list : List Session := []
  keys : List KeySlot := []
  masks : List (Nat × List (Nat × Nat × List Byte)) := []
  acceptSeq : Nat := 0
  openLimit : Nat := 4096
  streamLimit : Nat := 81920
  deriving DecidableEq, Repr

/-- A keyframe (R19, R20). -/
structure Keyframe where
  key : Nat := 0
  capture : Nat := 0
  pose : Pose := {}
  ix : Int := 0
  iy : Int := 0
  kind : Nat := 0
  quarantined : Bool := false
  version : Nat := 1
  maskPending : Bool := false
  deriving DecidableEq, Repr

/-- A link with its 128-byte factor record (R19, R20, R252). -/
structure Link where
  keyA : Nat := 0
  keyB : Nat := 0
  factor : List Byte := []
  deriving DecidableEq, Repr

/-- A map point (R19, R20). -/
structure MapPoint where
  number : Nat := 0
  x : Int := 0
  y : Int := 0
  z : Int := 0
  observed : Nat := 0
  desc : List Byte := []
  deriving DecidableEq, Repr

/-- An observation (R19, R20). -/
structure Observation where
  key : Nat := 0
  number : Nat := 0
  u : Nat := 0
  v : Nat := 0
  ix : Int := 0
  iy : Int := 0
  deriving DecidableEq, Repr

/-- The states of a handover (R310). -/
inductive HandoverState where
  | proposed | copying | synced | switched
  deriving DecidableEq, Repr

/-- A handover in progress (R308 to R313): the other party, the direction, the epoch COPYING began, and the snapshot
bytes received. -/
structure Handover where
  peer : Nat := 0
  outgoing : Bool := true
  state : HandoverState := .proposed
  copyEpoch : Nat := 0
  received : List Byte := []
  streamed : Bool := false
  deriving DecidableEq, Repr

/-- A tile (R16, R19, R308, R314 to R317). The device is its owner when owner is its own array ID. -/
structure Tile where
  ix : Int := 0
  iy : Int := 0
  owner : Nat := 0
  mirror : Option Nat := none
  syncing : Bool := false
  since : Nat := 0
  keyframes : List Keyframe := []
  links : List Link := []
  points : List MapPoint := []
  obs : List Observation := []
  nextPoint : Nat := 0
  prefer : Option Nat := none
  hold : Bool := false
  ownerSince : Nat := 0
  noProposalUntil : Nat := 0
  refusedBy : List (Nat × Nat) := []
  accesses : List (Nat × Nat × Nat) := []
  handover : Option Handover := none
  deriving DecidableEq, Repr

/-- An index entry in a slot of the device's shard (R214, R215, R220). -/
structure Entry where
  slot : Nat := 0
  gen : Nat := 0
  code : List Nat := []
  key : Nat := 0
  time : Nat := 0
  session : Nat := 0
  ix : Int := 0
  iy : Int := 0
  kind : Nat := 3
  tomb : Bool := false
  quar : Bool := false
  inlet : Bool := true
  neigh : List (Nat × Nat) := []
  deriving DecidableEq, Repr

/-- Settling of one shard (R224, R240): a pass asked for, running with what it took, the SETTLE operations of this pass and of
the next, and the passes that ended and await publication: operations, entries merged, nodes removed, epoch. -/
structure Settling where
  asked : Bool := false
  running : Bool := false
  ops : List Nat := []
  nextOps : List Nat := []
  takenInlet : List Nat := []
  takenTomb : List Nat := []
  finished : List (List Nat × Nat × Nat × Nat) := []
  deriving DecidableEq, Repr

/-- A vector index and the device's shard of it (R211 to R225). -/
structure Index where
  handle : Nat := 1
  metric : Nat := 0
  m : Nat := 32
  degree : Nat := 16
  dim : Nat := 32
  cells : Nat := 16
  codebook : List Word := []
  mask : Nat := 0
  entries : List Entry := []
  entryNodes : List (Nat × List Nat) := []
  settling : Settling := {}
  deriving DecidableEq, Repr

/-- The map and indexes as of one epoch, or as recorded so far: with the member that owns every tile not listed, the keyframes of the whole array that
are quarantined, the generation of each slot of an index, and the next slot number of the device's own (R206, R215, R220). -/
structure MapView where
  tiles : List Tile := []
  indexes : List Index := []
  leader : Nat := 0
  quar : List Nat := []
  gens : Store Nat := []
  nextSlot : Nat := 0
  deriving DecidableEq, Repr

/-- A keyframe that a commit moves: the version and pose read, and the pose it gets (R263, R264). -/
structure PoseMove where
  key : Nat := 0
  version : Nat := 0
  old : Pose := {}
  new : Pose := {}
  deriving DecidableEq, Repr

/-- A change of several members that the device has taken to record (R24, R206, R213, R263, R264): the member that coordinates it, its number there,
the epoch the device answered with, the commit epoch once that is known, and the change: a descriptor and its data. -/
structure HeldCommit where
  peer : Nat := 0
  id : Nat := 0
  answered : Nat := 0
  epoch : Option Nat := none
  desc : List Byte := []
  data : List Byte := []
  deriving DecidableEq, Repr

/-- The map: recorded state, the sealed change waiting for publication, and the views of the latest published epoch and
the three before it (R16, R18, R27, R225, R253, R393). -/
structure MapS where
  cur : MapView := {}
  sealedView : Option MapView := none
  held : List (Nat × MapView) := [(0, {})]
  published : Nat := 0
  commits : List HeldCommit := []
  deriving DecidableEq, Repr

/-- A SEARCH being coordinated (R228 to R234). -/
structure SearchSt where
  op : Nat := 0
  xid : Nat := 0
  epoch : Nat := 0
  k : Nat := 1
  peerDeadline : Nat := 0
  queried : List Nat := []
  gone : List Nat := []
  answers : List AnswerMsg := []
  scale : Word := 0x3F800000
  visitLimit : Bool := false
  deriving DecidableEq, Repr

/-- An operation whose map work is done at its owner (R29, R388): the segments of the answer held so far. -/
structure RemoteSt where
  xid : Nat := 0
  peer : Nat := 0
  op : Nat := 0
  total : Nat := 0
  segs : List (Nat × List Byte) := []
  status : Nat := 0
  count : Nat := 0
  detail : Nat := 0
  desc : List Byte := []
  bad : Bool := false
  answered : Bool := false
  deriving DecidableEq, Repr

/-- The sounding unit's outstanding work (R223, R226, R231, R388). -/
structure Sounding where
  searches : List SearchSt := []
  requests : List RemoteSt := []
  responses : List RemoteSt := []
  later : List RemoteSt := []
  laterQueries : List QueryMsg := []
  nextXid : Nat := 0
  deriving DecidableEq, Repr

/-- A schedule held (R244 to R249). -/
structure Sched where
  handle : Nat := 0
  fn : Nat := 0
  image : List Byte := []
  fingerprint : Nat := 0
  vars : Nat := 0
  slots : Nat := 0
  supernodes : Nat := 0
  workBytes : Nat := 0
  deriving DecidableEq, Repr

/-- The stages of a MAP solve over several owners (R253, R263): gathering, running, the owners' checks, their records. -/
inductive SolveStage where
  | gather | run | check | record
  deriving DecidableEq, Repr

/-- A solve running on an abacus core (R243, R254, R263, R265), with the image it runs against and, once it has run, its result
buffer, status, detail, and the poses and links it sends to the owners. -/
structure SolveSt where
  op : Nat := 0
  sched : Sched := {}
  cluster : Nat := 0
  stage : SolveStage := .run
  warm : Bool := false
  warmBad : Bool := false
  warmVals : List (List Byte) := []
  got : List (List Byte) := []
  res : List Byte := []
  frozen : List Nat := []
  status : Nat := 0
  detail : Nat := 0
  moves : List PoseMove := []
  links : List Link := []
  epoch : Nat := 0
  deriving DecidableEq, Repr

/-- The abacus unit (R243 to R270). -/
structure Abacus where
  scheds : List Sched := []
  running : List SolveSt := []
  deriving DecidableEq, Repr

/-- A version of a weight set: per slot the version that bound it and its stored bytes, none where never bound (R290, R291). -/
structure WeightSet where
  set : Nat := 0
  version : Nat := 0
  slots : List (Option (Nat × List Byte)) := []
  deriving DecidableEq, Repr

/-- A program held (R283 to R291, R301). -/
structure Prog where
  handle : Nat := 0
  fn : Nat := 0
  image : List Byte := []
  sets : List WeightSet := []
  lateTime : Nat := 0
  inferCount : Nat := 0
  deriving DecidableEq, Repr

/-- Privilege modes of a tidy core (R297). -/
inductive Priv where
  | user
  | machine
  deriving DecidableEq, Repr

/-- What one tidy core holds for a logical core of a program (R297, R298): the registers of the published RISC-V specifications, x, f and v
(VLEN 256), the control and status registers, 16 PMP entries, a reservation, and the bytes the code has written in the program part of the data
scratch. -/
structure Hart where
  mode : Priv := .user
  pc : Nat := 0
  x : List DWord := []
  f : List Word := []
  v : List Byte := []
  reservation : Option (Nat × Nat) := none
  fflags : Nat := 0
  frm : Nat := 0
  vstart : Nat := 0
  vxsat : Bool := false
  vxrm : Nat := 0
  vl : Nat := 0
  vtype : Nat := 0
  vill : Bool := true
  mstatus : Nat := 0
  mie : Nat := 0
  mip : Nat := 0
  mtvec : Nat := 0
  mscratch : Nat := 0
  mepc : Nat := 0
  mcause : Nat := 0
  mtval : Nat := 0
  mcounteren : Nat := 0
  mcycle : Nat := 0
  minstret : Nat := 0
  pmpcfg : List Byte := []
  pmpaddr : List Nat := []
  scratch : Store Byte := []
  deriving DecidableEq, Repr

/-- An INFER running (R292 to R296). -/
structure InferSt where
  op : Nat := 0
  harts : List Hart := []
  handle : Nat := 0
  fn : Nat := 0
  weights : WeightSet := {}
  cluster : Nat := 0
  layer : Nat := 0
  bufs : List (List Byte) := []
  stallNs : Nat := 0
  deriving DecidableEq, Repr

/-- The matrix and tidy program unit (R283 to R301). -/
structure Matrix where
  progs : List Prog := []
  infers : List InferSt := []
  deriving DecidableEq, Repr

/-- The roles of TOPO (R320). -/
inductive Role where
  | inService | reserve | preparing | draining | retired
  deriving DecidableEq, Repr

/-- A cluster (R39 to R41, R45, R307, R318, R320, R342): its role, which of its cores are in service or retired, and the time in ns that work of
each class has waited at its dispatchers since the last publication (R56). -/
structure Cluster where
  idx : Nat := 0
  role : Role := .inService
  matrixIn : Nat := 0x0F
  tidyIn : Nat := 0xFF
  matrixRetired : Nat := 0
  tidyRetired : Nat := 0
  draining : List Nat := []
  pondTwin : Bool := false
  load : Nat := 0
  waits : List Nat := [0, 0, 0, 0, 0]
  waiting : List Nat := [0, 0, 0, 0, 0]
  deriving DecidableEq, Repr

/-- The placement engine (R302 to R320). -/
structure Place where
  clusters : List Cluster := []
  movesThisEpoch : Nat := 0
  movesDone : Nat := 0
  movesLastEpoch : Nat := 0
  imbalanceRun : Nat := 0
  imbalanceEpoch : Nat := 0
  deriving DecidableEq, Repr

/-- The states of a parcel (R335). -/
inductive ParcelState where
  | home | promoting | up | demoting
  deriving DecidableEq, Repr

/-- The residency wishes of R351. -/
inductive Wish where
  | cold | preferBasin | holdBasin
  deriving DecidableEq, Repr

/-- An allocated parcel (R322, R335 to R338, R352). A parcel of the pool carries the object it belongs to; its number is a
serial one, since no software can see it. -/
structure Parcel where
  num : Nat := 0
  owner : List Nat := []
  state : ParcelState := .home
  upper : Option UpperTier := none
  newUpper : Option UpperTier := none
  dirty : Bool := false
  lastAccess : Nat := 0
  deferred : Bool := false
  wishes : List (Nat × Wish) := []
  deriving DecidableEq, Repr

/-- A function's extent registers (R324, R325, R354). -/
structure Extent where
  base : Word := 0
  size : Word := 0
  err : Bool := false
  deriving DecidableEq, Repr

/-- The memory tiers (R321 to R355, R495). -/
structure Tiers where
  extents : Store Extent := []
  parcels : List Parcel := []
  nextPool : Nat := 0
  retiredLake : List Nat := []
  retiredBasin : List Nat := []
  scrubCounts : Store Nat := []
  repairing : List (Nat × Nat) := []
  spareUsed : List Nat := []
  worn : List Nat := []
  pondFails : List (Nat × Nat) := []
  hotStacks : List Nat := []
  hintOps : List (Nat × List Nat) := []
  waitCycles : Store Nat := []
  writeLost : Store Nat := []
  deriving DecidableEq, Repr

/-- A frame queued at a net port (R368, R369): when it may leave, its class and order, and what it is. -/
structure TxFrame where
  launch : Option Nat := none
  cls : Nat := 2
  seq : Nat := 0
  len : Nat := 60
  op : Option Nat := none
  drop : Bool := false
  stamp : Bool := false
  bytes : List Byte := []
  deriving DecidableEq, Repr

/-- A net port (R365, R367, R377); busyUntil, in 1/100 ns since power-on, is the earliest next stamp point (R368). -/
structure NetPort where
  up : Bool := false
  at10g : Bool := false
  fec : Bool := false
  queue : List TxFrame := []
  busyUntil : Nat := 0
  deriving DecidableEq, Repr

/-- A trigger output (R373, R374, R378, R452). -/
structure Trig where
  running : Bool := false
  level : Bool := false
  cfgErr : Bool := false
  period : Nat := 100000000
  phase : Nat := 0
  width : Nat := 1000
  invert : Bool := false
  endsAt : Nat := 0
  idleUntil : Nat := 0
  lastEdge : Option Nat := none
  deriving DecidableEq, Repr

/-- The net unit and the trigger and PPS outputs (R364 to R378). -/
structure Net where
  ports : List NetPort := [{}, {}]
  txSeq : Nat := 0
  stopped : Bool := false
  trigs : List Trig := [{}, {}, {}, {}, {}, {}, {}, {}]
  ppsOut : Bool := false
  ppsRoseAt : Nat := 0
  deriving DecidableEq, Repr

/-- A spine packet (R48): its header flit's class, stops and tag, and its payload flits. -/
structure MeshPkt where
  cls : Nat := 2
  src : Nat := 0
  dst : Nat := 0
  tag : Nat := 0
  payload : Nat := 0
  deriving DecidableEq, Repr

/-- A packet that waits at a router (R47, R50): the router, the input it came by, and the hops it has made. -/
structure OnMesh where
  pkt : MeshPkt := {}
  router : Nat := 0
  input : Nat := 0
  hops : Nat := 0
  deriving DecidableEq, Repr

/-- The spine (R47 to R53): the packets that wait, oldest first in each virtual channel; the round-robin pointer of each output and class, by
(router × 8 + output) × 8 + class; and the packets that have reached their stops, newest first, with the hops they made. -/
structure Mesh where
  waiting : List OnMesh := []
  turn : Store Nat := []
  arrived : List (MeshPkt × Nat) := []
  deriving DecidableEq, Repr

/-- A DATA flit that waits at a fabric port (R382, R383, R385): its class, its payload, and whether it is the last of its message. -/
structure Flit where
  cls : Nat := 0
  data : List Byte := []
  last : Bool := true
  deriving DecidableEq, Repr

/-- The flow control of a fabric port (R383): the DATA flits that wait, the credits held for each class, the credits to be returned for flits that were
consumed or forwarded, the instant, in 1/100 ns since power-on, from which the wire is free, and the flits kept for replay with their SEQ (R384). -/
structure FlitPort where
  waiting : List Flit := []
  credits : List Nat := [64, 128, 256, 256, 64]
  owed : List Nat := [0, 0, 0, 0, 0]
  wireFree : Nat := 0
  kept : List (Nat × List Byte) := []
  deriving DecidableEq, Repr

/-- A fabric port (R379 to R389, R396, R397). -/
structure FzPort where
  up : Bool := false
  spareUsed : Bool := false
  degraded : Bool := false
  isolated : Bool := false
  lanes : Nat := 0
  agreed : Bool := false
  neighbour : Nat := 0
  neighbourKnown : Bool := false
  txSeq : Nat := 0
  ackSeq : Nat := 4095
  replayed : Nat := 0
  retraining : Bool := false
  retrainAt : Nat := 0
  nacked : Option Nat := none
  rxNext : Nat := 0
  delay : Int := 0
  reqTx : Option Nat := none
  lastSync : Option (Nat × Nat) := none
  masterSeen : Option (Nat × Nat) := none
  coord : Option Nat := none
  flits : FlitPort := {}
  deriving DecidableEq, Repr

/-- One mirror stream (R395): the other party, the last ITEM_SEQ, the last acknowledged, and the items not yet acknowledged: ITEM_SEQ, tile,
epoch of publication. -/
structure Stream where
  peer : Nat := 0
  seq : Nat := 0
  acked : Nat := 0
  items : List (Nat × Int × Int × Nat) := []
  deriving DecidableEq, Repr

/-- A change that the owner has sent to the tile's mirror and that is recorded when the mirror acknowledges it (R411): the operation, or the
request of another member (peer, class, XID), its outcome and data, and the peers and ITEM_SEQs it waits for. -/
structure AckWait where
  op : Option Nat := none
  remote : Option (Nat × Nat × Nat) := none
  status : Nat := 0
  count : Nat := 0
  detail : Nat := 0
  data : List Byte := []
  needs : List (Nat × Nat) := []
  deriving DecidableEq, Repr

/-- Membership, the epoch barrier and the mirror streams (R379 to R397). -/
structure Fabric where
  ports : List FzPort := [{}, {}, {}, {}, {}, {}]
  stopped : Bool := false
  viewNo : Nat := 0
  leader : Nat := 0
  members : Nat := 1
  isolated : Bool := false
  coord : Nat := 0
  coordValid : Bool := false
  leaving : Bool := false
  joinSeen : Bool := false
  lastBeat : Store Nat := []
  acks : List Nat := []
  barrier : Option Nat := none
  readySent : Bool := false
  readys : List (Nat × List (Int × Int)) := []
  leavers : List Nat := []
  outStreams : List Stream := []
  inStreams : List Stream := []
  ackWaits : List AckWait := []
  timeMaster : Nat := 0
  timeHops : Nat := 0
  parentPort : Option Nat := none
  lastParentSync : Nat := 0
  deriving DecidableEq, Repr

/-- The reservoir, safe hold and firmware slots (R404 to R418, R426): the spares used of each kind, the spare rows and columns used of each pond
bank (R39, R407), by cluster × 32 + bank with 15 for the die-level ponds. -/
structure FaultS where
  safeHold : Bool := false
  used : Store Nat := []
  pondUsed : Store (Nat × Nat) := []
  exhausted : Nat := 0
  activeSlot : Nat := 0
  stagedValid : Bool := false
  switchOp : Option (Nat × Nat) := none
  retireOps : List (Nat × Nat) := []
  wearDrains : List Nat := []
  powering : List (Nat × Nat) := []
  deriving DecidableEq, Repr

/-- Power domain states (R430, R456). -/
inductive DomState where
  | off | retention | on | fused
  deriving DecidableEq, Repr

/-- A power domain, its wake count, and the end of a wake in progress (R430, R432, R456). -/
structure Domain where
  state : DomState := .off
  wakes : Nat := 0
  released : Bool := false
  wakeEnds : Option Nat := none
  deriving DecidableEq, Repr

/-- Reset levels (R441, R447). -/
inductive Level where
  | cold | warm
  deriving DecidableEq, Repr

/-- Bring-up (R454): held by RESET_N; waiting for the options; powered; released; image verified; running. -/
inductive Boot where
  | phaseA | heldInReset | start | powered | released | verified | running | failed
  deriving DecidableEq, Repr

/-- Power, clocks, reset and bring-up (R428 to R456, R488 to R490): among others the epoch from which each cluster has held no work, and the
starts of the latest wakes (R433, R434), and whether debug access has been authenticated (R451, R487). -/
structure Power where
  domains : List Domain := []
  boot : Boot := .start
  options : Options := {}
  optFromOtp : Bool := false
  bootSlot : Nat := 0
  bootFail : Bool := false
  cause : Nat := 1
  level : Level := .cold
  tamperCause : Nat := 0
  parked : Bool := false
  brought : Bool := false
  resetAt : Nat := 0
  wdtAt : Nat := 0
  clockLost : List (Nat × Nat) := []
  pllUsed : List Nat := []
  version : Nat := 0
  idleSince : Store Nat := []
  wakeStarts : List Nat := []
  powerMw : Nat := 0
  tjMax : Nat := 0
  debugAuth : Bool := false
  deriving DecidableEq, Repr

/-- The management port (R481 to R484). -/
structure Mgmt where
  armedAt : Option Nat := none
  response : List Byte := []
  pendingReset : Option Level := none
  pendingAt : Nat := 0
  staticAddr : Nat := 0x58
  dynAddr : Option Nat := none
  deriving DecidableEq, Repr

/-- A USP packet the device sends (R120, R122, R127, R138): type, session, plaintext body, where it goes, and the UDP datagram with the sealed packet. -/
structure UspOut where
  kind : Nat := 0
  session : Nat := 0
  keyId : Nat := 0
  seq : Nat := 0
  key : Key := 0
  dst : SrcAddr := {}
  port : Nat := 0
  body : List Byte := []
  datagram : List Byte := []
  deriving DecidableEq, Repr

/-- A Farzako message the device sends (R385, R387). -/
structure FzOut where
  hdr : FzlHeader := {}
  port : Nat := 0
  body : List Byte := []
  deriving DecidableEq, Repr

/-- A PTP message the device sends (R362). -/
structure PtpOut where
  port : Nat := 0
  msg : PtpMsg := .management
  deriving DecidableEq, Repr

/-- What the block has sent to the outside, newest first: MSI-X messages (R96), USP packets, other Ethernet frames with
their stamps (R371), PTP messages, Farzako messages, link flits (R384), and the 128-byte flits by port (R382). -/
structure Out where
  msix : List (Nat × Nat) := []
  usp : List UspOut := []
  eth : List (Nat × Nat × List Byte) := []
  ptp : List PtpOut := []
  fzl : List FzOut := []
  naks : List (Nat × Nat) := []
  replays : List (Nat × Nat) := []
  flits : List (Nat × List Byte) := []
  deriving DecidableEq, Repr

/-- The state of the block. -/
structure State where
  pending : List Instr := []
  chip : Chip := {}
  clock : Clock := {}
  mem : Memory := []
  regs : Regs := {}
  host : HostIf := {}
  rings : Rings := {}
  ops : Ops := {}
  tally : Tally := {}
  sess : Sess := {}
  map : MapS := {}
  sound : Sounding := {}
  abacus : Abacus := {}
  matrix : Matrix := {}
  place : Place := {}
  tiers : Tiers := {}
  net : Net := {}
  fabric : Fabric := {}
  fault : FaultS := {}
  power : Power := {}
  mgmt : Mgmt := {}
  out : Out := {}
  mesh : Mesh := {}
  free : Nat := 0
  deriving DecidableEq, Repr

/-- Faults. No meaning of this block raises one: the spec gives every command an effect, and an event whose condition does
not hold does not happen. noFault is raised by nobody (safe). -/
inductive Fault where
  /-- Raised by nobody; it stands so that the type has a name (safe). -/
  | noFault
  deriving DecidableEq, Repr

/-- Refusals. -/
inductive Refusal where
  /-- Raised by exec's arm for a command that has no meaning yet (safe). -/
  | notModelled (mnemonic : String)
  deriving DecidableEq, Repr

/-- Whether power domain d exists on a part (R3, R430, R431). -/
def domainFused (p : Part) (d : Nat) : Bool :=
  match p with
  | .hv8312 => false
  | .hv8309 => decide (9 ≤ d ∧ d ≤ 10) || decide (d = 12)
  | .hv8306 => decide (d = 4) || decide (7 ≤ d ∧ d ≤ 10) || decide (11 ≤ d ∧ d ≤ 12)

/-- The clusters present, ascending: those that the fuse map enables, held to the part's number and its reservoir cluster (R3, R44, R45). -/
def Chip.present (c : Chip) : List Nat := ((List.range 13).filter fun i => c.clusters.contains i).take (c.part.clusters + 1)

/-- The reservoir cluster of the fuse map, which is one of the clusters present (R45). -/
def Chip.spareCluster (c : Chip) : Nat := if c.present.contains c.reservoir then c.reservoir else c.present.getLastD 12

/-- The 41 domains with only SPRING on (R428, R430, R431). -/
def coldDomains (c : Chip) : List Domain :=
  (List.range 41).map fun d =>
    if d = 0 then { state := .on, released := true }
    else if domainFused c.part d then { state := .fused }
    else if 15 ≤ d ∧ d < 28 ∧ ¬ c.present.contains (d - 15) then { state := .fused }
    else if 28 ≤ d ∧ ¬ c.present.contains (d - 28) then { state := .fused }
    else {}

/-- The clusters present, the reservoir cluster in RESERVE and the others in service (R39, R45, R320). -/
def freshClusters (c : Chip) : List Cluster :=
  c.present.map fun i => { idx := i, role := if i = c.spareCluster then .reserve else .inService }

/-- The spares of each kind at manufacture (R407; R44 for the other variants). -/
def spareCounts (p : Part) : List Nat :=
  match p with
  | .hv8312 => [24, 12, 1, 3072, 1536, 32, 6, 1024, 20]
  | .hv8309 => [18, 9, 1, 2400, 1200, 16, 4, 1024, 17]
  | .hv8306 => [12, 6, 1, 1728, 864, 0, 2, 1024, 14]

/-- A chip right after power-on release (R439, R441, R454): a COLD reset with the power-on cause, bring-up not yet run, no command waiting. -/
def State.fresh (c : Chip) : State := { chip := c, power := { domains := coldDomains c }, place := { clusters := freshClusters c } }

/-- The HV-8312 right after power-on release. -/
def State.reset : State := State.fresh {}

end Sys2Proof.Machine
end

