-- ==== Sys2Proof/Machine/Bits.lean ====
section
/-! DEFINITION. Bit fields, byte orders (R9, R10, R121), two's complement, and the CRCs the spec names (R21, R246, R482). -/

namespace Sys2Proof.Machine

/-- Bits hi down to lo of a number (R9). -/
def bits (v hi lo : Nat) : Nat := v / 2 ^ lo % 2 ^ (hi + 1 - lo)

/-- Bit i of a number. -/
def bit (v i : Nat) : Bool := v.testBit i

/-- 1 for true. -/
def b2n (b : Bool) : Nat := if b then 1 else 0

/-- v with bits hi down to lo replaced by x. -/
def setBits (v hi lo x : Nat) : Nat := v - bits v hi lo * 2 ^ lo + x % 2 ^ (hi + 1 - lo) * 2 ^ lo

/-- v with bit i set or cleared. -/
def setBit (v i : Nat) (b : Bool) : Nat := setBits v i i (b2n b)

/-- Number of a list of bits, bit 0 first. -/
def ofBits : List Bool → Nat
  | [] => 0
  | b :: t => b2n b + 2 * ofBits t

/-- Number of set bits among the lowest n. -/
def popCount (v : Nat) : Nat → Nat
  | 0 => 0
  | n + 1 => b2n (bit v n) + popCount v n

/-- The set bits among the lowest n, ascending. -/
def bitList (v n : Nat) : List Nat := (List.range n).filter fun i => bit v i

/-- The lowest set bit among the lowest n. -/
def lowestBit (v n : Nat) : Option Nat := (List.range n).find? fun i => bit v i

/-- Little-endian value of bytes (R10). -/
def leNat : List Byte → Nat
  | [] => 0
  | b :: t => b.toNat + 256 * leNat t

/-- n bytes of v, least significant first (R10). -/
def leBytes (v : Nat) : Nat → List Byte
  | 0 => []
  | n + 1 => BitVec.ofNat 8 v :: leBytes (v / 256) n

/-- Big-endian value of bytes (R121). -/
def beNat (l : List Byte) : Nat := leNat l.reverse

/-- n bytes of v, most significant first (R121). -/
def beBytes (v n : Nat) : List Byte := (leBytes v n).reverse

/-- n zero bytes. -/
def zeros (n : Nat) : List Byte := List.replicate n 0

/-- len bytes from offset off; bytes beyond the end are missing. -/
def slice (l : List Byte) (off len : Nat) : List Byte := (l.drop off).take len

/-- Little-endian field of len bytes at off. -/
def fld (l : List Byte) (off len : Nat) : Nat := leNat (slice l off len)

/-- Big-endian field of len bytes at off. -/
def bfld (l : List Byte) (off len : Nat) : Nat := beNat (slice l off len)

/-- Two's complement value of the low n bits. -/
def sext (n v : Nat) : Int :=
  let u := v % 2 ^ n
  if 2 * u < 2 ^ n then (u : Int) else (u : Int) - 2 ^ n

/-- The low n bits of an integer. -/
def tc (n : Nat) (v : Int) : Nat := (v % (2 ^ n : Int)).toNat

/-- Signed little-endian field. -/
def sfld (l : List Byte) (off len : Nat) : Int := sext (8 * len) (fld l off len)

/-- FP32 word of 4 little-endian bytes at off. -/
def wfld (l : List Byte) (off : Nat) : Word := BitVec.ofNat 32 (fld l off 4)

/-- n consecutive FP32 words from off. -/
def wflds (l : List Byte) (off : Nat) : Nat → List Word
  | 0 => []
  | n + 1 => wfld l off :: wflds l (off + 4) n

/-- Bytes of FP32 words, little-endian. -/
def wBytes (l : List Word) : List Byte := l.flatMap fun w => leBytes w.toNat 4

/-- v brought into lo to hi by taking the nearer end. -/
def clampN (lo hi v : Nat) : Nat := max lo (min hi v)

/-- v brought into lo to hi by taking the nearer end. -/
def clampI (lo hi v : Int) : Int := max lo (min hi v)

/-- Whether every byte is 0. -/
def allZero (l : List Byte) : Bool := l.all fun b => b == 0

/-- The offset of the first byte that is not 0 among bytes off to off + len - 1. -/
def firstNonZero (l : List Byte) (off : Nat) : Nat → Option Nat
  | 0 => none
  | n + 1 => if fld l off 1 ≠ 0 then some off else firstNonZero l (off + 1) n

/-- Eight steps of the reflected CRC-32 of IEEE 802.3. -/
def crc32Bits (c : Nat) : Nat → Nat
  | 0 => c
  | n + 1 => crc32Bits (if c % 2 = 1 then (c / 2) ^^^ 0xEDB88320 else c / 2) n

/-- CRC-32 register over bytes. -/
def crc32Run (c : Nat) : List Byte → Nat
  | [] => c
  | b :: t => crc32Run (crc32Bits (c ^^^ b.toNat) 8) t

/-- CRC-32 with the IEEE 802.3 polynomial (R21, R244, R283, R382, R449). PRESUMED: the reflected form of that standard. -/
def crc32 (l : List Byte) : Nat := crc32Run 0xFFFFFFFF l ^^^ 0xFFFFFFFF

/-- Eight steps of the CRC-64 of R246. -/
def crc64Bits (c : Nat) : Nat → Nat
  | 0 => c
  | n + 1 => crc64Bits (if c / 2 ^ 63 % 2 = 1 then (c * 2 % 2 ^ 64) ^^^ 0x42F0E1EBA9EA3693 else c * 2 % 2 ^ 64) n

/-- CRC-64 with polynomial 0x42F0_E1EB_A9EA_3693, initial value 0, no reflection (R246). -/
def crc64 (c : Nat) : List Byte → Nat
  | [] => c
  | b :: t => crc64 (crc64Bits (c ^^^ (b.toNat * 2 ^ 56)) 8) t

/-- Eight steps of the CRC-8 of R482. -/
def crc8Bits (c : Nat) : Nat → Nat
  | 0 => c
  | n + 1 => crc8Bits (if c / 128 % 2 = 1 then (c * 2 % 256) ^^^ 7 else c * 2 % 256) n

/-- CRC-8 with polynomial 0x07 and initial value 0 (R482). -/
def crc8 (c : Nat) : List Byte → Nat
  | [] => c
  | b :: t => crc8 (crc8Bits (c ^^^ b.toNat) 8) t

end Sys2Proof.Machine
end

