-- ==== Sys2Proof/Machine/F32.lean ====
section
/-! DEFINITION. FP32 (IEEE 754 binary32) by exact rational arithmetic and one rounding, to nearest with ties to even
(R11, R275, R277, R299); and the comparisons and checks of FP32 fields. -/

namespace Sys2Proof.Machine

namespace F32

/-- Exponent field. -/
def expField (w : Word) : Nat := w.toNat / 2 ^ 23 % 256

/-- Fraction field. -/
def frac (w : Word) : Nat := w.toNat % 2 ^ 23

/-- Sign bit. -/
def neg (w : Word) : Bool := w.toNat ≥ 2 ^ 31

/-- Whether the value is neither Inf nor NaN. -/
def finite (w : Word) : Bool := expField w ≠ 255

/-- Whether the value is NaN. -/
def isNaN (w : Word) : Bool := expField w = 255 && frac w ≠ 0

/-- The exact value of a finite word as an integer count of 2⁻¹⁴⁹. -/
def units (w : Word) : Int :=
  let m := if expField w = 0 then frac w else (frac w + 2 ^ 23) * 2 ^ (expField w - 1)
  if neg w then -(m : Int) else m

/-- The number of units in 1. -/
def one : Int := 2 ^ 149

/-- Whether a word is zero of either sign. -/
def isZero (w : Word) : Bool := expField w = 0 && frac w = 0

/-- The canonical NaN (R279). -/
def nan : Word := 0x7FC00000

/-- Infinity of a sign. -/
def inf (s : Bool) : Word := if s then 0xFF800000 else 0x7F800000

/-- Zero of a sign. -/
def zero (s : Bool) : Word := if s then 0x80000000 else 0

/-- Nearest integer to n / d with ties to even. -/
def rne (n d : Nat) : Nat :=
  let q := n / d
  let r := n % d
  if 2 * r < d then q else if d < 2 * r then q + 1 else if q % 2 = 0 then q else q + 1

/-- Round the positive value (n / d) × 2⁻¹⁴⁹ to FP32: the bits below the sign. -/
def roundMag (n d : Nat) : Nat :=
  let e := (n / d).log2
  if e < 24 then
    let m := rne n d
    m
  else
    let sh := e - 23
    let m := rne n (d * 2 ^ sh)
    let bitsv := m + sh * 2 ^ 23
    if bitsv ≥ 255 * 2 ^ 23 then 255 * 2 ^ 23 else bitsv

/-- Round (n / d) × 2⁻¹⁴⁹ to FP32; s is the sign of a zero result. -/
def round (s : Bool) (n : Int) (d : Nat) : Word :=
  if n = 0 then zero s
  else if n < 0 then BitVec.ofNat 32 (2 ^ 31 + roundMag n.natAbs d)
  else BitVec.ofNat 32 (roundMag n.natAbs d)

/-- The FP32 sum (R277). -/
def add (a b : Word) : Word :=
  if isNaN a || isNaN b then nan
  else if !finite a then (if !finite b && neg a != neg b then nan else inf (neg a))
  else if !finite b then inf (neg b)
  else round (neg a && neg b) (units a + units b) 1

/-- Negation. -/
def negate (a : Word) : Word := a ^^^ 0x80000000

/-- The FP32 difference. -/
def sub (a b : Word) : Word := if isNaN b then nan else add a (negate b)

/-- The FP32 product. -/
def mul (a b : Word) : Word :=
  if isNaN a || isNaN b then nan
  else if !finite a || !finite b then (if isZero a || isZero b then nan else inf (neg a != neg b))
  else round (neg a != neg b) (units a * units b) (2 ^ 149)

/-- The FP32 quotient. -/
def div (a b : Word) : Word :=
  if isNaN a || isNaN b then nan
  else if !finite a then (if !finite b then nan else inf (neg a != neg b))
  else if !finite b then zero (neg a != neg b)
  else if isZero b then (if isZero a then nan else inf (neg a != neg b))
  else
    let n := units a * one
    let d := units b
    round (neg a != neg b) (if d < 0 then -n else n) d.natAbs

/-- FP32 nearest to the integer n. -/
def ofInt (n : Int) : Word := round false (n * one) 1

/-- a < b on finite words. -/
def lt (a b : Word) : Bool := units a < units b

/-- a ≤ b on finite words. -/
def le (a b : Word) : Bool := units a ≤ units b

/-- floor(a + 1/2) of a finite word (R218). -/
def floorHalf (a : Word) : Int := (2 * units a + one) / (2 * one)

/-- Sum of squares of finite words, in units of 2⁻²⁹⁸. -/
def sumSq (l : List Word) : Int := l.foldl (fun s w => s + units w * units w) 0

/-- Integer square root, by bits from the top. -/
def isqrtGo (n : Nat) : Nat → Nat → Nat
  | 0, r => r
  | k + 1, r => let c := r + 2 ^ k; isqrtGo n k (if c * c ≤ n then c else r)

/-- floor of the square root of n. -/
def isqrt (n : Nat) : Nat := isqrtGo n (n.log2 / 2 + 1) 0

/-- Round the square root of n × 2⁻²⁹⁸ to FP32. The value is scaled by 2⁶⁰ so that a sticky bit stands below the result. -/
def sqrtOfSq (n : Nat) : Word :=
  let r := isqrt (n * 2 ^ 60)
  let r2 := 2 * r + b2n (decide (r * r ≠ n * 2 ^ 60))
  round false (r2 : Int) (2 ^ 31)

/-- |norm − 1| ≤ 2⁻¹⁰ for a quaternion of finite words (R112, R153, R208, R252). -/
def unitQuat (q : List Word) : Bool :=
  q.all finite &&
    decide ((1023 : Int) * 1023 * one * one ≤ sumSq q * 1024 * 1024) &&
    decide (sumSq q * 1024 * 1024 ≤ (1025 : Int) * 1025 * one * one)

/-- The normalised quaternion, each element q / norm with each step rounded (R112, R252). -/
def normalise (q : List Word) : List Word :=
  let n := sqrtOfSq (sumSq q).toNat
  q.map fun w => div w n

/-- A pair (hi, lo) of FP32 (R275). -/
abbrev Pair := Word × Word

/-- TwoSum (R277). -/
def twoSum (a b : Word) : Pair :=
  let s := add a b
  let bb := sub s a
  (s, add (sub a (sub s bb)) (sub b bb))

/-- FastTwoSum (R277). -/
def fastTwoSum (a b : Word) : Pair :=
  let s := add a b
  (s, sub b (sub s a))

/-- Addition of pairs (R277). -/
def addPair (a b : Pair) : Pair :=
  let p := twoSum a.1 b.1
  fastTwoSum p.1 (add p.2 (add a.2 b.2))

/-- The pair of the exact value (n / d) × 2⁻¹⁴⁹ (R275). -/
def pairOf (n : Int) (d : Nat) : Pair :=
  if n = 0 then (0, 0)
  else
    let hi := round false n d
    if !finite hi then (hi, 0) else (hi, round false (n - units hi * d) d)

end F32

end Sys2Proof.Machine
end

