-- ==== Sys2Proof/Machine/Exact.lean ====
section
/-! DEFINITION. Exact rational arithmetic, against which R258 bounds what a solve stores: linear systems, and the quaternion of a small rotation. -/

namespace Sys2Proof.Machine

/-- The value of a finite FP32 word. -/
def ratOf (w : Word) : Rat := mkRat (F32.units w) (2 ^ 149)

/-- The FP32 word nearest to a rational. -/
def F32.ofRat (r : Rat) : Word := F32.round (decide (r < 0)) (r.num * 2 ^ 149) r.den

/-- The magnitude of a rational. -/
def ratAbs (r : Rat) : Rat := if r < 0 then -r else r

/-- A word held within a tolerance of a rational: one that lies outside gives way to the rational, rounded. -/
def heldWithin (tol d : Rat) (w : Word) : Word := if F32.finite w ∧ ratAbs (ratOf w - d) ≤ tol then w else F32.ofRat d

/-- Entry c of a row. -/
def entryAt (r : List Rat) (c : Nat) : Rat := (r[c]?).getD 0

/-- The solution of n linear equations, each row with its right side last: none where they have no single one. -/
def solveRows : Nat → List (List Rat) → Option (List Rat)
  | 0, _ => some []
  | n + 1, rows =>
    match rows.find? fun r => r.headD 0 ≠ 0 with
    | none => none
    | some p =>
      let p := p.map fun v => v / p.headD 1
      let rest := (rows.map fun r => (List.zipWith (fun a b => a - b * r.headD 0) r p)).filter fun r => !r.all (· = 0)
      match solveRows n (rest.map List.tail) with
      | none => none
      | some ys => some ((List.zipWith (· * ·) p.tail ys).foldl (· - ·) (p.getLastD 0) :: ys)

/-- Σ (−t)ᵏ / (2k + odd)! for eight terms: cos and sinc of √t, for a small t. -/
def trigSeries (odd : Nat) (t : Rat) : Rat := ((List.range 8).map fun k => (-t) ^ k / ((2 * k + odd).factorial : Nat)).foldl (· + ·) 0

/-- The unit quaternion of a small rotation vector, to eight terms of its series. -/
def rotationQuat (w : List Rat) : List Rat :=
  let t := (w.map fun a => a * a).foldl (· + ·) 0 / 4
  trigSeries 0 t :: w.map fun a => a * trigSeries 1 t / 2

/-- The product of two quaternions, W first. -/
def quatMul (p q : List Rat) : List Rat :=
  let a := entryAt p
  let b := entryAt q
  [a 0 * b 0 - a 1 * b 1 - a 2 * b 2 - a 3 * b 3, a 0 * b 1 + a 1 * b 0 + a 2 * b 3 - a 3 * b 2,
   a 0 * b 2 - a 1 * b 3 + a 2 * b 0 + a 3 * b 1, a 0 * b 3 + a 1 * b 2 - a 2 * b 1 + a 3 * b 0]

/-- Whether two quaternions stand for orientations at most 0.25 µrad apart: the square of the sine of half the angle, cleared of denominators. -/
def quatNear (p q : List Rat) : Bool :=
  let sq (l : List Rat) : Rat := (l.map fun a => a * a).foldl (· + ·) 0
  let dot := (List.zipWith (· * ·) p q).foldl (· + ·) 0
  decide ((sq p * sq q - dot * dot) * 64000000000000 ≤ sq p * sq q)

end Sys2Proof.Machine
end

