-- ==== Sys2Proof/Machine/Gcm.lean ====
section
/-! DEFINITION. Sealing of USP packets (R122, R123): AES-256 in Galois/Counter Mode with a 96-bit IV and a 128-bit tag, as FIPS 197 and NIST SP
800-38D publish it, and the UDP checksum (R120). Blocks are numbers of 128 bits, the first byte highest. -/

namespace Sys2Proof.Machine

/-! ## AES-256 -/

/-- Byte i of a number of n bytes, the first byte highest. -/
def byteOf (n v i : Nat) : Nat := v / 2 ^ (8 * (n - 1 - i)) % 256

/-- The number whose bytes are given, the first highest. -/
def ofBytes (l : List Nat) : Nat := l.foldl (fun a b => a * 256 + b) 0

/-- The S-box (FIPS 197), by rows of 16 bytes. -/
def sboxRows : List Nat :=
  [0x637c777bf26b6fc53001672bfed7ab76, 0xca82c97dfa5947f0add4a2af9ca472c0, 0xb7fd9326363ff7cc34a5e5f171d83115, 0x04c723c31896059a071280e2eb27b275,
   0x09832c1a1b6e5aa0523bd6b329e32f84, 0x53d100ed20fcb15b6acbbe394a4c58cf, 0xd0efaafb434d338545f9027f503c9fa8, 0x51a3408f929d38f5bcb6da2110fff3d2,
   0xcd0c13ec5f974417c4a77e3d645d1973, 0x60814fdc222a908846eeb814de5e0bdb, 0xe0323a0a4906245cc2d3ac629195e479, 0xe7c8376d8dd54ea96c56f4ea657aae08,
   0xba78252e1ca6b4c6e8dd741f4bbd8b8a, 0x703eb5664803f60e613557b986c11d9e, 0xe1f8981169d98e949b1e87e9ce5528df, 0x8ca1890dbfe6426841992d0fb054bb16]

/-- The substitution of one byte. -/
def sbox (b : Nat) : Nat := byteOf 16 ((sboxRows[b / 16 % 16]?).getD 0) (b % 16)

/-- Multiplication by x in the field of AES. -/
def xtime (b : Nat) : Nat := if b < 128 then 2 * b else (2 * b - 256) ^^^ 0x1B

/-- The substitution of each byte of a word. -/
def subWord (w : Nat) : Nat := ofBytes ((List.range 4).map fun i => sbox (byteOf 4 w i))

/-- A word rotated left by one byte. -/
def rotWord (w : Nat) : Nat := w % 2 ^ 24 * 256 + w / 2 ^ 24

/-- The key schedule: n more words after the words l, latest first; rc is the next round constant. -/
def expandKey : Nat → Nat → Nat → List Nat → List Nat
  | 0, _, _, l => l
  | n + 1, i, rc, l =>
    let prev := l.headD 0
    let back := (l[7]?).getD 0
    if i % 8 = 0 then expandKey n (i + 1) (xtime rc) ((back ^^^ subWord (rotWord prev) ^^^ (rc * 2 ^ 24)) :: l)
    else if i % 8 = 4 then expandKey n (i + 1) rc ((back ^^^ subWord prev) :: l)
    else expandKey n (i + 1) rc ((back ^^^ prev) :: l)

/-- The 15 round keys of a 32-byte key. -/
def roundKeys (key : Nat) : List Nat :=
  let first := ((List.range 8).map fun i => key / 2 ^ (32 * (7 - i)) % 2 ^ 32).reverse
  let words := (expandKey 52 8 1 first).reverse
  (List.range 15).map fun r => (List.range 4).foldl (fun a i => a * 2 ^ 32 + (words[4 * r + i]?).getD 0) 0

/-- One column mixed. -/
def mixColumn (a b c d : Nat) : List Nat :=
  let t := a ^^^ b ^^^ c ^^^ d
  [a ^^^ t ^^^ xtime (a ^^^ b), b ^^^ t ^^^ xtime (b ^^^ c), c ^^^ t ^^^ xtime (c ^^^ d), d ^^^ t ^^^ xtime (d ^^^ a)]

/-- Bytes substituted and rows shifted. -/
def subShift (v : Nat) : List Nat := (List.range 16).map fun i => sbox (byteOf 16 v ((i + 4 * (i % 4)) % 16))

/-- Columns mixed. -/
def mixColumns (l : List Nat) : List Nat :=
  (List.range 4).flatMap fun c => mixColumn ((l[4 * c]?).getD 0) ((l[4 * c + 1]?).getD 0) ((l[4 * c + 2]?).getD 0) ((l[4 * c + 3]?).getD 0)

/-- The rounds after the first key addition. -/
def aesRounds : List Nat → Nat → Nat
  | [], v => v
  | [k], v => ofBytes (subShift v) ^^^ k
  | k :: rest, v => aesRounds rest (ofBytes (mixColumns (subShift v)) ^^^ k)

/-- One block under round keys. -/
def aesBlock (ks : List Nat) (v : Nat) : Nat := aesRounds ks.tail (v ^^^ ks.headD 0)

/-! ## GCM -/

/-- The product of two blocks in the field of GCM: n bits of x are left, from the highest, v is y shifted and z the sum so far. -/
def gfMul (x : Nat) : Nat → Nat → Nat → Nat
  | 0, _, z => z
  | n + 1, v, z =>
    gfMul x n (if v % 2 = 1 then (v / 2) ^^^ (0xE1 * 2 ^ 120) else v / 2) (if x / 2 ^ n % 2 = 1 then z ^^^ v else z)

/-- Bytes cut into blocks of 16, the last filled with zeros; n bounds how many. -/
def blocksOf : Nat → List Byte → List Nat
  | 0, _ => []
  | n + 1, l => if l.isEmpty then [] else ofBytes (((l.take 16).map BitVec.toNat) ++ List.replicate (16 - (l.take 16).length) 0) :: blocksOf n (l.drop 16)

/-- GHASH of the additional data and the ciphertext. -/
def ghash (h : Nat) (aad ct : List Byte) : Nat :=
  (blocksOf (aad.length + 1) aad ++ blocksOf (ct.length + 1) ct ++ [aad.length * 8 * 2 ^ 64 + ct.length * 8]).foldl (fun y b => gfMul (y ^^^ b) 128 h 0) 0

/-- The n bytes of a block, the first highest. -/
def blockBytes (v n : Nat) : List Byte := (List.range n).map fun i => BitVec.ofNat 8 (byteOf 16 v i)

/-- Bytes under the key stream from counter block c on; n bounds the blocks. -/
def ctrStream (ks : List Nat) : Nat → Nat → List Byte → List Byte
  | 0, _, _ => []
  | n + 1, c, l =>
    if l.isEmpty then []
    else ((l.take 16).zip (blockBytes (aesBlock ks c) 16)).map (fun p => p.1 ^^^ p.2) ++ ctrStream ks n (c / 2 ^ 32 * 2 ^ 32 + (c + 1) % 2 ^ 32) (l.drop 16)

/-- The round keys of a session key, whose first byte is its lowest. -/
def keysOf (k : Key) : List Nat := roundKeys (ofBytes ((List.range 32).map fun i => k.toNat / 2 ^ (8 * i) % 256))

/-- The counter block of a 12-byte IV. -/
def ivBlock (iv : List Byte) : Nat := ofBytes (iv.map BitVec.toNat) * 2 ^ 32 + 1

/-- The tag of a ciphertext. -/
def gcmTag (ks : List Nat) (iv aad ct : List Byte) : List Byte := blockBytes (ghash (aesBlock ks 0) aad ct ^^^ aesBlock ks (ivBlock iv)) 16

/-- Plaintext to ciphertext, or back. -/
def gcmStream (ks : List Nat) (iv text : List Byte) : List Byte := ctrStream ks (text.length + 1) (ivBlock iv + 1) text

/-- A USP packet of the device or a robot (R122, R123): the header, the body sealed under the key with the IV in bytes 4 to 15, and the tag. -/
def sealUsp (key : Key) (kind keyId session seq : Nat) (body : List Byte) : List Byte :=
  let head := beBytes 1 1 ++ beBytes kind 1 ++ beBytes keyId 1 ++ beBytes 0 1 ++ beBytes session 4 ++ beBytes seq 8
  let ks := keysOf key
  let ct := gcmStream ks (head.drop 4) body
  head ++ ct ++ gcmTag ks (head.drop 4) head ct

/-- The body of a packet of at least 32 bytes whose tag verifies under a key (R123, R124). -/
def openUsp (key : Key) (b : List Byte) : Option (List Byte) :=
  let head := b.take 16
  let ct := (b.drop 16).take (b.length - 32)
  let ks := keysOf key
  if gcmTag ks (head.drop 4) head ct = b.drop (b.length - 16) then some (gcmStream ks (head.drop 4) ct) else none

/-- A USP packet as its checks leave it (R122): header fields and the plaintext body. -/
structure UspPacket where
  kind : Nat := 0
  keyId : Nat := 0
  session : Nat := 0
  seq : Nat := 0
  body : List Byte := []
  deriving DecidableEq, Repr

/-- The header fields of a packet's bytes, with a body (R122). -/
def UspPacket.ofBytes (b body : List Byte) : UspPacket :=
  { kind := bfld b 1 1, keyId := bfld b 2 1, session := bfld b 4 4, seq := bfld b 8 8, body := body }

/-! ## UDP -/

/-- The ones' complement sum of 16-bit words, the last one filled with a zero byte; n bounds how many. -/
def sum16 : Nat → List Byte → Nat
  | 0, _ => 0
  | _, [] => 0
  | _, [a] => a.toNat * 256
  | n + 1, a :: b :: t => a.toNat * 256 + b.toNat + sum16 n t

/-- The UDP header and payload of a datagram with its checksum over the pseudo-header of IPv4 or IPv6 (R120; RFC 768, RFC 8200). -/
def udpDatagram (v6 : Bool) (srcIp dstIp srcPort dstPort : Nat) (payload : List Byte) : List Byte :=
  let n := if v6 then 16 else 4
  let len := 8 + payload.length
  let pseudo := beBytes srcIp n ++ beBytes dstIp n ++ (if v6 then beBytes len 4 ++ beBytes 17 4 else beBytes 17 2 ++ beBytes len 2)
  let ports := beBytes srcPort 2 ++ beBytes dstPort 2 ++ beBytes len 2
  let sum := sum16 (40 + len) (pseudo ++ ports) + sum16 len payload
  let c := 65535 - (if sum = 0 then 0 else (sum - 1) % 65535 + 1)
  ports ++ beBytes (if c = 0 then 65535 else c) 2 ++ payload

end Sys2Proof.Machine
end

