-- ==== Sys2Proof/Config.lean ====
section
/-! DEFINITION. The free values: what the spec leaves open and the machine goes on after. No constant here has a body, so a
claim about one holds whatever it is. Each is named in a row of notes/assumptions. -/

namespace Sys2Proof.Config

open Machine

/-- A fresh free word; applied to the counter that State holds. -/
opaque freeWord : Nat → Word

/-- Packets of a class that a router's input holds beyond one (R50; the depth of a virtual channel is not given). -/
opaque channelDepth : Nat

/-- A fresh free number; applied to the counter that State holds. -/
opaque freeNat : Nat → Nat

/-- The output of one ingest filter channel for a preset and its input window, newest first (R143; the taps are not given). -/
opaque firOut : Nat → List Word → Word

/-- A number that the spec leaves open, at a place and for the numbers it depends on. -/
opaque given : Nat → List Int → Nat

/-- Whether a value between two that its format holds is taken up, at a place and for the numbers it depends on. -/
opaque up : Nat → List Int → Bool

/-- The source position, in 1/256 pixel, of a grid point of the warp, for a calibration block and an image side (R155; the camera model's order
of operations is not given). -/
opaque gridSource : List Byte → Bool → Nat → Nat → Int × Int

/-- The patch alignment of a track (R168): from the previous and the new image, their width, the track and the matched position, the position in
1/16 pixel and the aligned patch's Hamming distance. -/
opaque alignPatch : List Nat → List Nat → Nat → Track → Nat × Nat → Nat × Nat × Nat

/-- The projection of a point through a calibration block, into the right camera or the left, from the body frame or the left camera's: U and V in
1/16 pixel and the depth (R171, R176; the FP32 order is not given). -/
opaque project : List Byte → Bool → Bool → List Word → Int × Int × Word

/-- The stereo point of a left feature at a position and disparity, in the left camera's frame (R172). -/
opaque stereoPoint : List Byte → Nat → Nat → Nat → List Word

/-- The correction of the right-from-left rotation that fits projected points to right features: a quaternion (R172). -/
opaque bootstrapFit : List Byte → List (List Byte × Feature) → List Word

/-- A map position seen from a pose, in the body frame (R173; the FP32 order is not given). -/
opaque fromPose : Pose → Int × Int × Int → List Word

/-- The place embedding of a frame's results that relocalisation searches with (R173, R239). -/
opaque frameEmbedding : VisionResult → List Word

/-- The position of a track that ego-motion predicts for a capture time, in 1/16 pixel (R162, R163). -/
opaque predictTrack : Fusion → List FilterOut → List Byte → Nat → Track → Int × Int

/-- The relative-motion estimate of a source over an interval, vision 0, inertial 1, wheel 2: six components, then its 6 × 6 covariance (R186; the
estimators are not given). -/
opaque sourceEstimate : Nat → FuseIn → List Word

/-- The fusion context after an interval in which two lists of sources give rotation and translation: delta 3, quaternion 4, velocity 3, biases 6,
wheel scales 2, steering offset 1, covariance 225 (R182, R183; the order of operations is not given). -/
opaque estimate : FuseIn → List Nat → List Nat → List Word

/-- A pose after a map correction: a position and a quaternion, from the poses before and after of the keyframes that moved (R202). -/
opaque corrected : Pose → List (Pose × Pose) → (Int × Int × Int) × List Word

/-- The rotation that vision measured since the last accepted frame, in 1/1000 degree (R194). -/
opaque frameRotation : FuseIn → Nat

/-- The angle between that rotation and the gyro rotation over an interval shifted by s ns, on a scale that keeps its order (R194). -/
opaque rotationGap : FuseIn → Int → Nat

/-- A calibration solve over keyframes: its status, then the transforms, scales and pose it estimates (R207). -/
opaque calibSolve : Session → List Keyframe → Nat × List Word × (Int × Int × Int)

/-- One operand of a tile: from the bytes of its source, the source's record, the tile record and a selector, the codes of its
elements in row and column order (R284; the layout of a matrix in a buffer is not given). -/
opaque tileOperand : List Byte → List Byte → List Byte → Nat → List Nat

/-- The longest softmax or score row of a plan, in FP32 values (R288; the records do not mark such rows). -/
opaque softmaxRow : List Byte → Nat

/-- Lake frames that an object of the device with n parts takes, by kind (R327; the sizes of tiles, shards and sessions in the
pool are not given). -/
opaque objectFrames : Nat → Nat → Nat

/-- A buffer with an output tile written into it (R284; the layout is not given). -/
opaque tileStore : List Byte → List Byte → List Nat → List Byte

/-- The linearised contribution of a factor slot: from its record, the integer difference of its anchors, and the orientations of its variables, the
words of H's blocks AA, AB and BB (36 each) and of b's blocks A and B (6 each); a one-variable slot's AA and A (R254, R255; the linearisation of a
factor is not given). -/
opaque linearise : List Byte → Int × Int × Int → List Word → List Word → List Word

/-- A compensated FP32 sum in list order (R254, R255; the compensation is not given). -/
opaque compSum : List Word → Word

/-- Pivot i of the factorisation before it is regularised: from the schedule image, H and b, the pinned components and the pivots before it (R254,
R255, R259; the rounding within a step is not given). -/
opaque rawPivot : List Byte → List Word → List Bool → List Word → Word

/-- The factor elements, Schur updates, solution elements and refinement elements of a supernode, from the image, H and b, the pinned components and
the pivots (R254, R260). -/
opaque solveElements : List Byte → List Word → List Bool → List Word → Nat → List Word

/-- The refined step of each variable, position then rotation, from the image, H and b, the pinned components and the pivots (R254). -/
opaque solveStep : List Byte → List Word → List Bool → List Word → List (List Word)

/-- The normalised product of a quaternion and the quaternion of a rotation step (R257; the FP32 order is not given). -/
opaque rotate : List Word → List Word → List Word

/-- χ² of a slot at given values (R262). -/
opaque chiSquare : List Byte → List Byte → Nat → Word

/-- The place embedding of a keyframe (R239, R300). -/
opaque placeEmbedding : Nat → List Word

/-- The rate the time unit chooses to remove an offset (R360), in 2⁻¹⁰ ppb. -/
opaque slewRate : Int → Nat → Int

/-- A sampled slot of RECALL_PROBE (R241; the xorshift's shifts are not given). -/
opaque sampleSlot : Nat → Nat → Nat

/-- The coordinate of an array ID, packed as HELLO packs it (R386 routes by it; the spec does not say how a device learns the
coordinates of members that are not its neighbours). -/
opaque coordOf : Nat → Nat

/-- The neighbours settling chooses for a node of an index, as slots, nearest first (R224; the choice is not given). -/
opaque neighbours : Index → Nat → List Nat

/-- The position that triangulation gives the map point of a keyframe's feature: U, V and descriptor (R19; the solver is not given). -/
opaque pointAt : Nat → Nat × Nat × List Byte → Int × Int × Int

end Sys2Proof.Config
end

