-- ==== Sys2Proof/Machine/Operands.lean ====
section
/-! DEFINITION. The fields of a descriptor (R77, R78) and of the records that several chapters share (R20, R138, R214). -/

namespace Sys2Proof.Machine

namespace Op

/-- Byte at an offset of the descriptor. -/
def u8 (o : Op) (i : Nat) : Nat := fld o.desc i 1

/-- 16-bit field. -/
def u16 (o : Op) (i : Nat) : Nat := fld o.desc i 2

/-- 32-bit field. -/
def u32 (o : Op) (i : Nat) : Nat := fld o.desc i 4

/-- 64-bit field or pointer. -/
def u64 (o : Op) (i : Nat) : Nat := fld o.desc i 8

/-- Signed tile coordinate. -/
def i16 (o : Op) (i : Nat) : Int := sfld o.desc i 2

/-- FP32 field. -/
def f32 (o : Op) (i : Nat) : Word := wfld o.desc i

/-- Opcode (R77). -/
def opcode (o : Op) : Nat := o.u8 0

/-- FENCE_SCOPE (R78). -/
def scope (o : Op) : Nat := o.u8 1 % 4

/-- ORDERED (R78). -/
def ordered (o : Op) : Bool := bit (o.u8 1) 2

/-- LATE_POLICY with the ring default resolved: true drops (R78, R107). -/
def lateDrop (o : Op) : Bool :=
  let p := bits (o.u8 1) 5 4
  if p = 0 then o.lateDefault = 2 else p = 2

/-- Class (R77, R81). -/
def cls (o : Op) : Nat := bits (o.u8 2) 2 0

/-- Host tag (R77). -/
def hostTag (o : Op) : Nat := o.u32 4

/-- Bytes 12 to 15: session or handle (R77). -/
def handle (o : Op) : Nat := o.u32 12

end Op

/-- A pose block: bytes 0 to 35 of the pose record (R138, R112, R208). -/
def poseOfBytes (b : List Byte) : Pose :=
  { x := sfld b 0 6, y := sfld b 6 6, z := sfld b 12 6, q := wflds b 20 4 }

/-- The 36 bytes of a pose, little-endian (R138). -/
def Pose.bytes (p : Pose) : List Byte :=
  leBytes (tc 48 p.x) 6 ++ leBytes (tc 48 p.y) 6 ++ leBytes (tc 48 p.z) 6 ++ zeros 2 ++ wBytes p.q

/-- The 148 bytes of a pose record, little-endian (R138, R140). -/
def PoseRec.bytes (r : PoseRec) : List Byte :=
  r.pose.bytes ++ wBytes r.vel ++ wBytes ((r.cov ++ List.replicate 21 0).take 21) ++ leBytes r.step 1 ++ leBytes r.flags 1 ++
    zeros 2 ++ leBytes r.epoch 8 ++ leBytes (tc 16 r.ix) 2 ++ leBytes (tc 16 r.iy) 2

/-- FP32 words in big-endian bytes (R121). -/
def wBytesBe (l : List Word) : List Byte := l.flatMap fun w => beBytes w.toNat 4

/-- The 148 bytes of a pose record as a REPLY carries it, every field big-endian (R121, R138). -/
def PoseRec.bytesBe (r : PoseRec) : List Byte :=
  beBytes (tc 48 r.pose.x) 6 ++ beBytes (tc 48 r.pose.y) 6 ++ beBytes (tc 48 r.pose.z) 6 ++ zeros 2 ++ wBytesBe r.pose.q ++
    wBytesBe r.vel ++ wBytesBe ((r.cov ++ List.replicate 21 0).take 21) ++ beBytes r.step 1 ++ beBytes r.flags 1 ++
    zeros 2 ++ beBytes r.epoch 8 ++ beBytes (tc 16 r.ix) 2 ++ beBytes (tc 16 r.iy) 2

/-- Packed time (R357) of a device time in ns. -/
def packTime (ns : Nat) : Nat := ns / 1000000000 % 2 ^ 34 * 2 ^ 30 + ns % 1000000000

/-- Device time in ns of a packed time within the window (R357). -/
def unpackTime (p : Nat) : Nat := p / 2 ^ 30 * 1000000000 + p % 2 ^ 30

/-- A 10-byte wire time (R121) of a device time in ns. -/
def wireTime (ns : Nat) : List Byte := beBytes (ns / 1000000000 % 2 ^ 48) 6 ++ beBytes (ns % 1000000000) 4

/-- The device time in ns of a 10-byte wire time at an offset. -/
def ofWireTime (b : List Byte) (off : Nat) : Nat := bfld b off 6 * 1000000000 + bfld b (off + 6) 4

/-- Bytes of a keyframe record (R20). -/
def Keyframe.bytes (k : Keyframe) : List Byte :=
  leBytes k.key 8 ++ leBytes k.capture 8 ++ k.pose.bytes.take 18 ++ zeros 2 ++ wBytes k.pose.q ++ leBytes (tc 16 k.ix) 2 ++
    leBytes (tc 16 k.iy) 2 ++ leBytes k.kind 1 ++ leBytes (b2n k.quarantined) 1 ++ zeros 2 ++ leBytes k.version 4

/-- A keyframe from its record (R20). -/
def keyframeOf (b : List Byte) : Keyframe :=
  { key := fld b 0 8, capture := fld b 8 8, pose := { x := sfld b 16 6, y := sfld b 22 6, z := sfld b 28 6, q := wflds b 36 4 },
    ix := sfld b 52 2, iy := sfld b 54 2, kind := fld b 56 1, quarantined := bit (fld b 57 1) 0, version := fld b 60 4 }

/-- Bytes of a link record (R20). -/
def Link.bytes (l : Link) : List Byte := leBytes l.keyA 8 ++ leBytes l.keyB 8 ++ l.factor

/-- A link from its record (R20). -/
def linkOf (b : List Byte) : Link := { keyA := fld b 0 8, keyB := fld b 8 8, factor := slice b 16 128 }

/-- Bytes of a map point record (R20). -/
def MapPoint.bytes (p : MapPoint) : List Byte :=
  leBytes p.number 4 ++ leBytes (tc 48 p.x) 6 ++ leBytes (tc 48 p.y) 6 ++ leBytes (tc 48 p.z) 6 ++ leBytes (min p.observed 65535) 2 ++ p.desc

/-- A map point from its record (R20). -/
def mapPointOf (b : List Byte) : MapPoint :=
  { number := fld b 0 4, x := sfld b 4 6, y := sfld b 10 6, z := sfld b 16 6, observed := fld b 22 2, desc := slice b 24 32 }

/-- Bytes of an observation record (R20). -/
def Observation.bytes (o : Observation) : List Byte :=
  leBytes o.key 8 ++ leBytes o.number 4 ++ leBytes o.u 2 ++ leBytes o.v 2 ++ leBytes (tc 16 o.ix) 2 ++ leBytes (tc 16 o.iy) 2 ++ zeros 4

/-- An observation from its record (R20). -/
def observationOf (b : List Byte) : Observation :=
  { key := fld b 0 8, number := fld b 8 4, u := fld b 12 2, v := fld b 14 2, ix := sfld b 16 2, iy := sfld b 18 2 }

/-- The tile coordinate of a position in units of 2⁻²⁰ m for a tile size in m (R14). -/
def tileOf (size : Nat) (p : Int) : Int := p / ((size * 2 ^ 20 : Nat) : Int)

/-- Records of n bytes cut from a list, at most c of them. -/
def cut (n : Nat) : Nat → List Byte → List (List Byte)
  | 0, _ => []
  | c + 1, l => l.take n :: cut n c (l.drop n)

end Sys2Proof.Machine
end

