-- ==== Sys2Proof/Machine/Flags.lean ====
section
/-! DEFINITION. Status codes and detail words (R84, R86), completion flags (R88), pose and frame flags (R138, R176), session
event codes (R119, R209), USP error codes (R139) and the status of a kept frame (R141). -/

namespace Sys2Proof.Machine

namespace St
abbrev ok : Nat := 0x00
abbrev okPartial : Nat := 0x01
abbrev okDegraded : Nat := 0x02
abbrev okRegularised : Nat := 0x03
abbrev okColdStart : Nat := 0x04
abbrev timedOut : Nat := 0x10
abbrev cancelled : Nat := 0x11
abbrev badDescriptor : Nat := 0x12
abbrev noCapability : Nat := 0x13
abbrev accessDenied : Nat := 0x14
abbrev boundReached : Nat := 0x15
abbrev sessionLost : Nat := 0x16
abbrev epochGone : Nat := 0x17
abbrev dataError : Nat := 0x20
abbrev unsolvedPartial : Nat := 0x21
abbrev safeHold : Nat := 0x22
end St

/-- The outcome of an operation: status, result length or count, detail word. -/
structure Res where
  status : Nat := 0
  count : Nat := 0
  detail : Nat := 0
  deriving DecidableEq, Repr

/-- BAD_DESCRIPTOR with a reason and the offset of the first offending byte (R86). -/
def Res.bad (reason off : Nat) : Res := { status := St.badDescriptor, detail := off + reason * 256 }

/-- BAD_DESCRIPTOR for a payload field that is invalid (R86, reason 0x05). -/
def Res.field (off : Nat) : Res := Res.bad 5 off

/-- ACCESS_DENIED with a reason (R86). -/
def Res.denied (reason : Nat) : Res := { status := St.accessDenied, detail := reason }

/-- NO_CAPABILITY naming the absent unit (R86). -/
def Res.absent (cap : Nat) : Res := { status := St.noCapability, detail := cap }

/-- BOUND_REACHED with the opcode's code. -/
def Res.bound (code : Nat) : Res := { status := St.boundReached, detail := code }

/-- SESSION_LOST. -/
def Res.lost : Res := { status := St.sessionLost }

/-- OK with a count and a detail word. -/
def Res.ok (count detail : Nat) : Res := { count := count, detail := detail }

/-- CANCELLED with its cause (R86, R87). -/
def Res.cancelled (cause : Nat) : Res := { status := St.cancelled, detail := cause }

/-- The flags of byte 5 of a completion entry with the phase bit (R88). -/
def entryFlags (phase held retried replayed late : Bool) : Nat :=
  b2n phase + 2 * b2n held + 4 * b2n retried + 8 * b2n replayed + 16 * b2n late

/-- Pose record flags (R138). -/
def poseFlags (lost unreliable late unlocked unsettled noVision : Bool) : Nat :=
  b2n lost + 2 * b2n unreliable + 4 * b2n late + 8 * b2n unlocked + 16 * b2n unsettled + 32 * b2n noVision

/-- The status of an accepted host-path frame (R141). -/
def frameStatus (step flags : Nat) : Nat := if step = 0 ∧ ¬ bit flags 1 then St.ok else St.okDegraded

/-- Frame header flags (R176). -/
def frameFlags (fallback mono noVision limited bootstrap : Bool) : Nat :=
  b2n fallback + 2 * b2n mono + 4 * b2n noVision + 8 * b2n limited + 16 * b2n bootstrap

/-- Kind codes (R20, R112). -/
def Kind.code : Kind → Nat
  | .vehicle => 0
  | .arm => 1
  | .station => 2

/-- Time state codes (R358). -/
def TimeState.code : TimeState → Nat
  | .unset => 0
  | .free => 1
  | .locked => 2
  | .holdover => 3

/-- Role codes (R320). -/
def Role.code : Role → Nat
  | .inService => 0
  | .reserve => 1
  | .preparing => 2
  | .draining => 3
  | .retired => 4

/-- Life-cycle codes (R451). -/
def LifeCycle.code : LifeCycle → Nat
  | .blank => 0
  | .provisioned => 1
  | .field => 2
  | .returned => 3
  | .scrapped => 4

/-- Power domain state codes (R456). -/
def DomState.code : DomState → Nat
  | .off => 0
  | .retention => 1
  | .on => 2
  | .fused => 3

end Sys2Proof.Machine
end

