-- ==== Sys2Proof/Machine/Store.lean ====
section
/-! DEFINITION. Sparse tables in canonical form (strictly rising keys, no entry equal to what an unlisted key reads as),
and memory as such a table of bytes. -/

namespace Sys2Proof.Machine

/-- The value at key k; an unlisted key reads d k. -/
def Store.get {β : Type} (d : Nat → β) (k : Nat) : Store β → β
  | [] => d k
  | (j, v) :: t => if k = j then v else Store.get d k t

/-- Put v at key k, in its place among rising keys. -/
def Store.put {β : Type} (k : Nat) (v : β) : Store β → Store β
  | [] => [(k, v)]
  | (j, w) :: t => if k < j then (k, v) :: (j, w) :: t else if k = j then (k, v) :: t else (j, w) :: Store.put k v t

/-- Write v at key k, keeping the canonical form: a value that an unlisted key reads as is not listed. -/
def Store.set {β : Type} [DecidableEq β] (d : Nat → β) (k : Nat) (v : β) (l : Store β) : Store β :=
  if v = d k then l.filter fun e => e.1 ≠ k else Store.put k v l

/-- The canonical form: every key above lo, keys rising, no entry at its default. -/
def Store.wfFrom {β : Type} [DecidableEq β] (d : Nat → β) (lo : Nat) : Store β → Bool
  | [] => true
  | (j, v) :: t => decide (lo ≤ j) && decide (v ≠ d j) && Store.wfFrom d (j + 1) t

/-- The canonical form of a whole table. -/
def Store.wf {β : Type} [DecidableEq β] (d : Nat → β) (l : Store β) : Bool := Store.wfFrom d 0 l

/-- What a byte of memory that nothing has written reads as: 0. DESIGN CHOICE for host memory (unsafe); R325 for the device
range. -/
def memDefault (_ : Nat) : Byte := 0

/-- Read one byte of memory. -/
def Memory.byte (m : Memory) (a : Nat) : Byte := Store.get memDefault a m

/-- Write one byte of memory. -/
def Memory.setByte (m : Memory) (a : Nat) (b : Byte) : Memory := Store.set memDefault a b m

/-- The canonical form of memory. -/
def Memory.wf (m : Memory) : Bool := Store.wf memDefault m

/-- Read n bytes from address a upwards. -/
def Memory.read (m : Memory) (a : Nat) : Nat → List Byte
  | 0 => []
  | n + 1 => m.byte a :: Memory.read m (a + 1) n

/-- Write bytes from address a upwards. -/
def Memory.write (m : Memory) (a : Nat) : List Byte → Memory
  | [] => m
  | b :: t => Memory.write (m.setByte a b) (a + 1) t

/-- Zero n bytes from address a upwards by dropping the entries of the range (R325). -/
def Memory.clear (m : Memory) (a n : Nat) : Memory := m.filter fun c => decide (c.1 < a ∨ a + n ≤ c.1)

/-- The first element that meets p, replaced by f of it. -/
def updFirst {α : Type} (p : α → Bool) (f : α → α) : List α → List α
  | [] => []
  | x :: t => if p x then f x :: t else x :: updFirst p f t

/-- Element i replaced by f of it; nothing happens beyond the end. -/
def updAt {α : Type} (i : Nat) (f : α → α) : List α → List α
  | [] => []
  | x :: t => match i with
    | 0 => f x :: t
    | j + 1 => x :: updAt j f t

end Sys2Proof.Machine
end

