-- ==== Sys2Proof/Machine/Regs.lean ====
section
/-! DEFINITION. The tally counter IDs (R424), the tally log codes (R420), and the configuration register table: every register
of the blocks of chapters 03 to 16 that is configuration, with its fields, access kinds, reset values, boundaries, guarding
and reserved masks (R459 to R471). -/

namespace Sys2Proof.Machine

namespace Ctr
abbrev tagFullTime : Nat := 0x100
abbrev cqFullTime : Nat := 0x101
abbrev doorbellInvalid : Nat := 0x102
abbrev intVectorInvalid : Nat := 0x103
abbrev lockViolation : Nat := 0x104
abbrev guardedAccess : Nat := 0x105
abbrev configParity : Nat := 0x106
abbrev bar2Unmapped : Nat := 0x107
abbrev uspMalformed : Nat := 0x200
abbrev uspUnknownSession : Nat := 0x201
abbrev uspStaleKey : Nat := 0x202
abbrev uspAuthFail : Nat := 0x203
abbrev uspReplay : Nat := 0x204
abbrev uspIpFragment : Nat := 0x205
abbrev frameIncomplete : Nat := 0x206
abbrev frameOld : Nat := 0x207
abbrev rateExcess : Nat := 0x208
abbrev motionOld : Nat := 0x209
abbrev motionGap : Nat := 0x20a
abbrev eventOverflow : Nat := 0x20b
abbrev replyDiscardedClose : Nat := 0x20c
abbrev uspErrorSuppressed : Nat := 0x20d
abbrev fragmentLate : Nat := 0x20e
abbrev calibMissing : Nat := 0x300
abbrev trackExit : Nat := 0x301
abbrev searchFallback : Nat := 0x302
abbrev calibBootstrapReject : Nat := 0x303
abbrev motionShort : Nat := 0x304
abbrev visionReject : Nat := 0x305
abbrev inertialReject : Nat := 0x306
abbrev wheelSlip : Nat := 0x307
abbrev contradictAll : Nat := 0x308
abbrev timeUnlock : Nat := 0x309
abbrev replyLate : Nat := 0x30a
abbrev replyDroppedLate : Nat := 0x30b
abbrev replyStale : Nat := 0x30c
abbrev calibSolveReject : Nat := 0x30d
abbrev staleEdge : Nat := 0x400
abbrev visitLimit : Nat := 0x401
abbrev peerLate : Nat := 0x402
abbrev inletFull : Nat := 0x403
abbrev settleDeferHandover : Nat := 0x404
abbrev pivotRegularised : Nat := 0x405
abbrev supernodeFrozen : Nat := 0x406
abbrev warmInvalid : Nat := 0x407
abbrev solveConflict : Nat := 0x408
abbrev workspaceWait : Nat := 0x409
abbrev loopReject : Nat := 0x40a
abbrev weightLateTime : Nat := 0x40b
abbrev placeIndexMissing : Nat := 0x40c
abbrev sessionMoves : Nat := 0x500
abbrev moveAbandoned : Nat := 0x501
abbrev handoverRefused : Nat := 0x502
abbrev handoverAbort : Nat := 0x503
abbrev handoverForward : Nat := 0x504
abbrev tileLost : Nat := 0x505
abbrev evictDeferred : Nat := 0x506
abbrev lakeLate : Nat := 0x507
abbrev basinLate : Nat := 0x508
abbrev laneRepairActive : Nat := 0x509
abbrev frameRetired : Nat := 0x50a
abbrev pondTestFail : Nat := 0x50b
abbrev timeStep : Nat := 0x600
abbrev netRxError : Nat := 0x601
abbrev netNoLink : Nat := 0x602
abbrev passDrop : Nat := 0x603
abbrev fzlLaneRepair : Nat := 0x604
abbrev fzlReplay : Nat := 0x605
abbrev fzlRetrain : Nat := 0x606
abbrev fzlHopsExpired : Nat := 0x607
abbrev fzlMalformed : Nat := 0x608
abbrev epochLate : Nat := 0x609
abbrev netPauseDiscard : Nat := 0x60a
abbrev retry : Nat := 0x700
abbrev retryCancelled : Nat := 0x701
abbrev replay : Nat := 0x702
abbrev correctedError : Nat := 0x703
abbrev unitRetired : Nat := 0x704
abbrev clockLoss : Nat := 0x705
abbrev tallyLost : Nat := 0x706
def all : List Nat := [tagFullTime, cqFullTime, doorbellInvalid, intVectorInvalid, lockViolation, guardedAccess, configParity, bar2Unmapped, uspMalformed, uspUnknownSession, uspStaleKey, uspAuthFail, uspReplay, uspIpFragment, frameIncomplete, frameOld, rateExcess, motionOld, motionGap, eventOverflow, replyDiscardedClose, uspErrorSuppressed, fragmentLate, calibMissing, trackExit, searchFallback, calibBootstrapReject, motionShort, visionReject, inertialReject, wheelSlip, contradictAll, timeUnlock, replyLate, replyDroppedLate, replyStale, calibSolveReject, staleEdge, visitLimit, peerLate, inletFull, settleDeferHandover, pivotRegularised, supernodeFrozen, warmInvalid, solveConflict, workspaceWait, loopReject, weightLateTime, placeIndexMissing, sessionMoves, moveAbandoned, handoverRefused, handoverAbort, handoverForward, tileLost, evictDeferred, lakeLate, basinLate, laneRepairActive, frameRetired, pondTestFail, timeStep, netRxError, netNoLink, passDrop, fzlLaneRepair, fzlReplay, fzlRetrain, fzlHopsExpired, fzlMalformed, epochLate, netPauseDiscard, retry, retryCancelled, replay, correctedError, unitRetired, clockLoss, tallyLost]
end Ctr

/-- Access kinds (R461). -/
inductive Acc where
  | ro | rw | w1s | wo | rc | writeOnce
  deriving DecidableEq, Repr

/-- Boundaries (R469). -/
inductive Bnd where
  | imm | frame | tick | epoch | link
  deriving DecidableEq, Repr

/-- Which instance of a register an access reaches (R480, R377, R378). -/
inductive Inst where
  | single | perFn | port | trig
  deriving DecidableEq, Repr

/-- How many instances there are. -/
def Inst.count : Inst → Nat
  | .single => 1
  | .perFn => 64
  | .port => 2
  | .trig => 8

/-- A field of a register row. -/
structure Field where
  hi : Nat
  lo : Nat
  acc : Acc := .rw
  reset : Nat := 0
  at_ : Bnd := .imm
  reserved : Bool := false
  deriving DecidableEq, Repr

/-- A register row. -/
structure Row where
  off : Nat
  guarded : Bool := false
  inst : Inst := .single
  fields : List Field := []
  deriving DecidableEq, Repr

/-- A read-write field. -/
def rw (hi lo reset : Nat) (b : Bnd := .imm) : Field := { hi := hi, lo := lo, reset := reset, at_ := b }

/-- A reserved field that is written back as read. -/
def rsv (hi lo : Nat) (b : Bnd := .imm) : Field := { hi := hi, lo := lo, at_ := b, reserved := true }

/-- A read-only field. -/
def ro (hi lo : Nat) : Field := { hi := hi, lo := lo, acc := .ro }

/-- The rows of the registers held in the shadow and applied stores. -/
def regTable : List Row := [
  -- RINGS and DOORBELL (R106, R108)
  { off := 0x1000, inst := .perFn, fields := [rw 14 0 0, rw 15 15 0, rsv 31 16] },
  { off := 0x1020, guarded := true, inst := .perFn, fields := [rw 5 0 0, rsv 31 6] } ] ++
  (List.range 16).map (fun g => { off := 0x2040 + 4 * g, inst := .perFn, fields := [rw 9 0 0x64, rsv 31 10] }) ++ [
  -- TIERS (R354)
  { off := 0x3008, guarded := true, fields := [rw 15 0 0x40 .epoch, rw 31 16 0 .epoch] },
  { off := 0x300C, guarded := true, inst := .perFn, fields := [rw 5 0 0, rsv 7 6, rw 10 8 0, rsv 31 11] },
  { off := 0x3018, guarded := true, fields := [rw 17 0 0, rsv 31 18] },
  { off := 0x301C, guarded := true, fields := [rw 7 0 0x14, rw 15 8 0x0A, rsv 31 16] },
  { off := 0x3020, guarded := true, fields := [rw 0 0 0 .epoch, rw 1 1 1 .epoch, rsv 7 2 .epoch, rw 15 8 0x64 .epoch, rsv 31 16 .epoch] },
  { off := 0x3024, guarded := true, fields := [rw 7 0 0x18 .epoch, rw 8 8 1 .epoch, rsv 31 9 .epoch] },
  { off := 0x3028, inst := .perFn, fields := [rw 3 0 0, rsv 7 4, rw 12 8 0, rsv 31 13] },
  -- NET (R377)
  { off := 0x5000, guarded := true, fields := [rw 1 0 0 .link, rw 3 2 0 .link, rw 5 4 0 .link, rw 6 6 0 .link, rw 7 7 0 .link, rw 8 8 0 .link, rw 9 9 0 .link, rw 10 10 0 .link, rw 12 11 0 .link, rw 13 13 0 .link, rsv 31 14 .link] },
  { off := 0x5004, guarded := true, fields := [rw 7 0 0, rw 15 8 0x80, rw 23 16 0x80, rw 31 24 0xF8] },
  { off := 0x5008, guarded := true, fields := [rw 15 0 0x2F4A .link, rw 21 16 0 .link, rsv 31 22 .link] },
  { off := 0x500C, guarded := true, inst := .perFn, fields := [rw 0 0 0, rsv 31 1] },
  { off := 0x5010, guarded := true, inst := .port, fields := [rw 31 0 0 .link] },
  { off := 0x5014, guarded := true, inst := .port, fields := [rw 15 0 0 .link, rsv 31 16 .link] },
  { off := 0x5018, guarded := true, inst := .port, fields := [rw 31 0 0] },
  { off := 0x501C, guarded := true, inst := .port, fields := [rw 31 0 0] },
  { off := 0x5020, guarded := true, inst := .port, fields := [rw 31 0 0] },
  { off := 0x5024, guarded := true, inst := .port, fields := [rw 31 0 0] },
  { off := 0x5028, guarded := true, inst := .port, fields := [rw 31 0 0] },
  { off := 0x502C, guarded := true, inst := .port, fields := [rw 15 0 0, rw 31 16 0] },
  -- TIME (R376)
  { off := 0x6000, guarded := true, fields := [rw 2 0 0, rsv 3 3, rw 4 4 0, rsv 7 5, rw 15 8 0x0A, rsv 31 16] },
  { off := 0x6014, guarded := true, fields := [rw 29 0 0, rsv 31 30] },
  { off := 0x6018, guarded := true, fields := [rw 31 0 0] },
  { off := 0x601C, guarded := true, fields := [rw 31 0 0] },
  { off := 0x6024, guarded := true, fields := [rw 31 0 0] },
  -- TRIGGER (R378)
  { off := 0x7000, guarded := true, inst := .perFn, fields := [rw 2 0 0, rsv 31 3] },
  { off := 0x7004, guarded := true, inst := .trig, fields := [rw 31 0 0x05F5E100 .tick] },
  { off := 0x7008, guarded := true, inst := .trig, fields := [rw 29 0 0 .tick, rsv 31 30 .tick] },
  { off := 0x700C, guarded := true, inst := .trig, fields := [rw 0 0 0 .tick, rw 1 1 0 .tick, ro 2 2, rsv 7 3 .tick, rw 23 8 0x3E8 .tick, rsv 31 24 .tick] },
  -- FABRIC (R397)
  { off := 0x8004, guarded := true, fields := [rw 5 0 0 .link, rw 6 6 0, { hi := 7, lo := 7, acc := .w1s }, { hi := 8, lo := 8, acc := .w1s }, rsv 31 9] },
  { off := 0x8008, guarded := true, fields := [rw 7 0 0x0A .epoch, rw 23 8 0x32 .epoch, rsv 31 24 .epoch] },
  { off := 0x8020, inst := .perFn, fields := [rw 2 0 0, rsv 31 3] },
  -- VISION (R179)
  { off := 0x9000, guarded := true, fields := [rw 7 0 0xA0, rw 14 8 0x19, rsv 15 15, rw 22 16 0x18, rsv 23 23, rw 31 24 0x18] },
  { off := 0x9004, guarded := true, fields := [rw 12 0 0x400, rsv 15 13, rw 22 16 0x14, rsv 23 23, rw 27 24 4, rw 28 28 0, rsv 31 29] },
  { off := 0x9008, guarded := true, fields := [rw 7 0 0x10, rsv 31 8] },
  { off := 0x9014, guarded := true, fields := [rw 4 0 8 .frame, rsv 7 5 .frame, rw 15 8 0x3C .frame, rw 20 16 0x10 .frame, rsv 31 21 .frame] },
  -- FUSION (R210)
  { off := 0xB000, guarded := true, fields := [rw 31 0 0x41866666] },
  { off := 0xB004, guarded := true, fields := [rw 3 0 8, rsv 7 4, rw 14 8 0x64, rsv 15 15, rw 18 16 1, rw 19 19 0, rw 23 20 8, rsv 31 24] },
  { off := 0xB008, guarded := true, fields := [rw 31 0 0x3F000000] },
  { off := 0xB00C, guarded := true, fields := [rw 15 0 0x258, rw 16 16 1, rsv 31 17] },
  -- SOUNDING (R242)
  { off := 0xC000, guarded := true, fields := [rw 10 0 0x40, rsv 15 11, rw 20 16 4, rsv 23 21, rw 30 24 8, rsv 31 31] },
  { off := 0xC004, guarded := true, fields := [rw 19 0 0x1000, rsv 31 20] },
  { off := 0xC008, guarded := true, fields := [rw 15 0 0x100 .epoch, rw 22 16 0x0A .epoch, rsv 23 23 .epoch, rw 24 24 1 .epoch, rsv 31 25 .epoch] },
  { off := 0xC00C, guarded := true, fields := [rw 15 0 0x1F4, rsv 31 16] },
  -- ABACUS (R270)
  { off := 0xD000, guarded := true, fields := [rw 5 0 0x14, rsv 7 6, rw 13 8 0x0C, rsv 31 14] },
  { off := 0xD004, guarded := true, fields := [rw 31 0 0x4149999A] },
  -- MATRIX (R301)
  { off := 0xE004, inst := .perFn, fields := [rw 3 0 0, rsv 31 4] },
  { off := 0xE010, inst := .perFn, fields := [rw 11 0 0, rsv 31 12] },
  -- PLACEMENT (R320)
  { off := 0xF000, guarded := true, fields := [rw 0 0 0 .epoch, rsv 7 1 .epoch, rw 14 8 0x0F .epoch, rsv 15 15 .epoch, rw 22 16 0x46 .epoch, rsv 23 23 .epoch, rw 31 24 0x20 .epoch] },
  { off := 0xF004, guarded := true, fields := [rw 7 0 0x14 .epoch, rw 14 8 0x3C .epoch, rw 15 15 1 .epoch, rw 23 16 0xC8 .epoch, rw 27 24 8 .epoch, rsv 31 28 .epoch] },
  { off := 0xF008, guarded := true, fields := [rw 15 0 0x1000 .epoch, rsv 31 16 .epoch] },
  -- RESERVOIR (R426)
  { off := 0x10000, guarded := true, fields := [rw 9 0 0xC8, rsv 15 10, rw 16 16 1, rsv 31 17] },
  { off := 0x10004, inst := .perFn, fields := [rw 3 0 0, rsv 31 4] },
  -- POWER (R456)
  { off := 0x13000, inst := .perFn, fields := [rw 5 0 0, rsv 31 6] },
  { off := 0x13008, guarded := true, fields := [rw 9 0 0xC8 .epoch, rw 10 10 1 .epoch, rw 11 11 1 .epoch, rsv 15 12 .epoch, rw 23 16 0x14 .epoch, rsv 31 24 .epoch] } ]

/-- The row of an offset. -/
def rowOf (off : Nat) : Option Row := regTable.find? fun r => r.off = off

/-- The guarded registers that have fields of their own in the state or act on a write (R106, R354, R376, R397, R427, R456,
R457, R465). -/
def guardedOnly : List Nat :=
  [0x1024, 0x3010, 0x3014, 0x6020, 0x6028, 0x12C, 0x12000, 0x12004, 0x13018, 0x1301C] ++
    (List.range 6).map (fun i => 0x11000 + 4 * i) ++ (List.range 8).map (fun i => 0x11020 + 4 * i)

/-- Whether a register is guarded (R467). The read registers of TIME are not (R376). -/
def isGuarded (off : Nat) : Bool :=
  match rowOf off with
  | some r => r.guarded
  | none => guardedOnly.contains off

/-- The reset value of a row's fields. -/
def Row.resetValue (r : Row) : Nat := r.fields.foldl (fun v f => v + f.reset * 2 ^ f.lo) 0

/-- The key of a register instance. -/
def regKey (off idx : Nat) : Nat := off * 64 + idx

/-- The basin of a part in GB (R3, R354). -/
def Part.basinGb : Part → Nat
  | .hv8312 => 32
  | .hv8309 => 16
  | .hv8306 => 0

/-- What a register that nothing has written reads as: its reset value, with the OTP MAC addresses (R377) and half the
basin in HOLD_MAX (R354). -/
def regDefault (c : Chip) (key : Nat) : Word :=
  let off := key / 64
  let idx := key % 64
  if off = 0x5010 then BitVec.ofNat 32 (if idx = 0 then c.mac0 else c.mac1)
  else if off = 0x5014 then BitVec.ofNat 32 ((if idx = 0 then c.mac0 else c.mac1) / 2 ^ 32 % 2 ^ 16)
  else if off = 0x3008 then BitVec.ofNat 32 (0x40 + c.part.basinGb * 32 * 2 ^ 16)
  else match rowOf off with
    | some r => BitVec.ofNat 32 r.resetValue
    | none => 0

/-- The shadow value of a register instance (R469). -/
def Regs.shadowOf (c : Chip) (r : Regs) (off idx : Nat) : Word := Store.get (regDefault c) (regKey off idx) r.shadow

/-- The applied value of a register instance (R469). -/
def Regs.appliedOf (c : Chip) (r : Regs) (off idx : Nat) : Word := Store.get (regDefault c) (regKey off idx) r.applied

/-- Whether a register instance holds a parity fault (R479). -/
def Regs.faulted (r : Regs) (off idx : Nat) : Bool := r.faults.contains (off, idx)

/-- Set the shadow. -/
def Regs.setShadow (c : Chip) (r : Regs) (off idx : Nat) (v : Word) : Regs :=
  { r with shadow := Store.set (regDefault c) (regKey off idx) v r.shadow }

/-- Set the applied value; a rewrite that is applied clears the register's parity fault (R479). -/
def Regs.setApplied (c : Chip) (r : Regs) (off idx : Nat) (v : Word) : Regs :=
  { r with applied := Store.set (regDefault c) (regKey off idx) v r.applied, faults := r.faults.filter fun f => f ≠ (off, idx) }

/-- new with only the fields of old taken from sh that p selects. -/
def mergeFields (fs : List Field) (p : Field → Bool) (old sh : Nat) : Nat :=
  fs.foldl (fun v f => if p f then setBits v f.hi f.lo (bits sh f.hi f.lo) else v) old

/-- A write of val to a row's shadow: RW fields take the written bits; RO and WO fields keep (R461, R468). -/
def Row.newShadow (r : Row) (old val : Nat) : Nat := mergeFields r.fields (fun f => f.acc = .rw) old val

/-- Apply the shadow's fields of the boundaries that p selects (R469, R470). -/
def Row.apply (r : Row) (p : Bnd → Bool) (applied shadow : Nat) : Nat :=
  mergeFields r.fields (fun f => f.acc = .rw && p f.at_) applied shadow

/-- Apply, on every register instance with a waiting write in a selected offset range, the fields of the selected
boundaries, and take it off the waiting writes (R469, R470). -/
def Regs.applyAt (c : Chip) (p : Bnd → Bool) (q : Nat → Bool) (r : Regs) : Regs :=
  let hit (w : Nat × Nat) : Bool := q w.1 && ((rowOf w.1).any fun row => row.fields.any fun f => p f.at_)
  r.waiting.foldl
    (fun r w =>
      if hit w then
        match rowOf w.1 with
        | none => r
        | some row =>
          { r.setApplied c w.1 w.2 (BitVec.ofNat 32 (row.apply p (r.appliedOf c w.1 w.2).toNat (r.shadowOf c w.1 w.2).toNat)) with
            waiting := r.waiting.filter fun x => x ≠ w }
      else r) r

/-- Whether some register awaits a boundary of kind b (APPLY_PENDING, R465, R470). -/
def Regs.pendingAt (b : Bnd) (r : Regs) : Bool :=
  r.waiting.any fun w => (rowOf w.1).any fun row => row.fields.any fun f => f.at_ = b

end Sys2Proof.Machine
end

