-- ==== Sys2Proof/Machine/Ops.lean ====
section
/-! DEFINITION. The named operations that every unit shares: free values, time, the tally counters and the tally log (R419 to
R424), effective register values (R469, R479), operations in flight (R77, R88, R100), memory by pointer and reach (R79, R321
to R326). -/

namespace Sys2Proof.Machine

/-- What a meaning answers. -/
abbrev Result := Host.Outcome State Fault Refusal

/-- The counter of free values moved on by n. -/
def State.spend (s : State) (n : Nat) : State := { s with free := s.free + n }

/-! ## Time -/

/-- Units of device time in one ns, so that the rate of R376 is exact. -/
def devUnit : Nat := 1024 * 1000000000

/-- Device time in ns (R356). -/
def State.devNs (s : State) : Nat := s.clock.dev / devUnit

/-- The device units that pass in one ns at the present rate (R376). -/
def Clock.speed (c : Clock) : Nat := (devUnit + c.rate).toNat

/-- d ns pass. -/
def Clock.advance (c : Clock) (d : Nat) : Clock := { c with now := c.now + d, dev := c.dev + d * c.speed }

/-- Time moves on to an instant since power-on, never back. -/
def State.toTime (s : State) (t : Nat) : State := { s with clock := s.clock.advance (t - s.clock.now) }

/-- Time moves on until device time reaches t ns, never back. -/
def State.toDev (s : State) (t : Nat) : State :=
  { s with clock := s.clock.advance ((t * devUnit - s.clock.dev + s.clock.speed - 1) / s.clock.speed) }

/-- The packed device time of a result, 0 while it is not set (R88). -/
def State.stamp (s : State) : Nat := if s.clock.state = .unset then 0 else packTime s.devNs

/-- Spring periods of 32.768 kHz since power-on (R419, R429). -/
def State.springPeriods (s : State) : Nat := s.clock.now * 32768 / 1000000000

/-! ## Counters and the tally log -/

/-- The key of a counter instance (R423); CQ_FULL_TIME keeps its ring instances by function × 32768 + local number. -/
def ctrKey (id inst : Nat) : Nat := id * 2 ^ 24 + inst

/-- The value of a counter instance (R423). -/
def State.counter (s : State) (id inst : Nat) : Nat := Store.get (fun _ => 0) (ctrKey id inst) s.tally.counters

/-- Count n more: 64 bits that wrap (R423). -/
def State.bumpBy (s : State) (id inst n : Nat) : State :=
  { s with tally := { s.tally with counters := Store.set (fun _ => 0) (ctrKey id inst) ((s.counter id inst + n) % 2 ^ 64) s.tally.counters } }

/-- Count one event in a counter without instances (R423). -/
def State.bump (s : State) (id : Nat) : State := s.bumpBy id 0 1

/-- The core ID of a die-level unit, by the stop order of R42. PRESUMED numbering. -/
def dieUnit (n : Nat) : Nat := 0xF000 + n

/-- Append an entry to the tally log: the oldest is lost when 4,096 are held (R419, R421). -/
def State.log (s : State) (source code cls fn subject detail : Nat) : State :=
  let unset := decide (s.clock.state = .unset)
  let e : TallyEntry := { time := if unset then s.springPeriods else packTime s.devNs, seq := s.tally.head, source := source, code := code,
                          cls := cls, springTime := unset, fn := fn, subject := subject, detail := detail }
  let t := s.tally
  let s := { s with tally := { t with entries := t.entries.drop (t.entries.length - 4095) ++ [e], head := (t.head + 1) % 2 ^ 32,
                                      summary := setBit t.summary cls true } }
  if 4096 ≤ t.entries.length then s.bump Ctr.tallyLost else s

/-- Log at most once per second for each key (R398, R467). -/
def State.logLimited (s : State) (key source code cls fn subject detail : Nat) : State :=
  let last := Store.get (fun _ => 0) key s.tally.lastLogged
  if last ≠ 0 ∧ s.clock.now + 1 < last + 1000000000 then s
  else
    { s with tally := { s.tally with lastLogged := Store.set (fun _ => 0) key (s.clock.now + 1) s.tally.lastLogged } }.log source code cls fn
      subject detail

/-- A write refused by a lock: counted and logged (R471). -/
def State.lockViolation (s : State) (fn off : Nat) : State :=
  (s.bump Ctr.lockViolation).log (dieUnit 0) 0x0011 4 fn 0 off

/-- A guarded access refused: counted, and logged at most once per second for each function and register (R467). -/
def State.guardedAccess (s : State) (fn off : Nat) : State :=
  (s.bump Ctr.guardedAccess).logLimited ((0x0012 * 64 + fn) * 2 ^ 24 + off) (dieUnit 0) 0x0012 4 fn 0 off

/-- A corrected error: counted, and logged at most once per second for each source (R398, R420). -/
def State.eccCorrected (s : State) (source addr : Nat) : State :=
  (s.bump Ctr.correctedError).logLimited ((0x0001 * 64 + 63) * 2 ^ 24 + source) source 0x0001 0 255 0 addr

/-- The level of ALERT_N: true is driven low (R413, R427, R448); it is released until bring-up ends (R452). -/
def State.alertDriven (s : State) : Bool :=
  if s.power.boot = .failed then true
  else if s.power.boot ≠ .running then false
  else s.fault.safeHold || decide (s.tally.summary &&& s.tally.alertMask.toNat ≠ 0)

/-! ## Registers -/

/-- The value in force of a register instance: its reset value while it holds a parity fault, but for NET_CTRL and FZL_CTRL, whose blocks go on
with the value applied before (R469, R479). -/
def State.reg (s : State) (off idx : Nat) : Nat :=
  if s.regs.faulted off idx && off != 0x5000 && off != 0x8004 then (regDefault s.chip (regKey off idx)).toNat else (s.regs.appliedOf s.chip off idx).toNat

/-- A field of the value in force. -/
def State.regF (s : State) (off idx hi lo : Nat) : Nat := bits (s.reg off idx) hi lo

/-- RETRY_LIMIT in µs (R426). -/
def State.retryLimit (s : State) : Nat := clampN 10 1000 (s.regF 0x10000 0 9 0)

/-- EPOCH_PERIOD in ms (R397). -/
def State.epochPeriod (s : State) : Nat := clampN 10 1000 (s.regF 0x8008 0 23 8)

/-- MEMBER_TIMEOUT in ms (R397). -/
def State.memberTimeout (s : State) : Nat := clampN 5 100 (s.regF 0x8008 0 7 0)

/-- TILE_CAP (R320). -/
def State.tileCap (s : State) : Nat := max 16 (s.regF 0xF008 0 15 0)

/-! ## Operations in flight -/

/-- The operation with an id. -/
def State.findOp (s : State) (id : Nat) : Option Op := s.ops.list.find? fun o => o.id = id

/-- Change the operation with an id. -/
def State.updOp (s : State) (id : Nat) (f : Op → Op) : State :=
  { s with ops := { s.ops with list := updFirst (fun o => o.id = id) f s.ops.list } }

/-- Whether an operation of the same ring fetched before o has an outcome that is not final (R98). -/
def State.behind (s : State) (o : Op) : Bool :=
  s.ops.list.any fun p => p.fn = o.fn && p.sq = o.sq && decide (p.id < o.id) && p.phase != .final

/-- The outcome of an operation becomes final (R88, R100). -/
def State.finish (s : State) (id : Nat) (r : Res) : State :=
  s.updOp id fun o => { o with phase := .final, status := r.status, count := r.count, detail := r.detail, finalAt := s.stamp, wasHeld := s.behind o }

/-- Whether an operation's deadline point has come before its commit point (R85, R94). It runs no further; DEADLINE_EXPIRY ends it. -/
def State.overdue (s : State) (o : Op) : Bool := !o.committed && decide (o.deadlineAt ≤ s.clock.now)

/-- The outcome of an operation at its deadline point (R86, R94, R402): whether it had started, was retrying, or waited for a fence
or ORDERED, and the deadline in µs. -/
def Op.timedOut (o : Op) : Res :=
  let cancelled := o.replayed || (o.retrying && decide (o.deadlineAt ≤ o.attemptEnds))
  { status := St.timedOut, detail := b2n o.began + 2 * b2n cancelled + 4 * b2n (o.phase = .held) + o.deadlineUs * 2 ^ 32 }

/-- The outcome of an operation becomes final, where it is not yet: TIMED_OUT where its deadline point has come first (R94). -/
def State.complete (s : State) (id : Nat) (r : Res) : State :=
  match s.findOp id with
  | some o => if o.phase = .final then s else s.finish id (if s.overdue o then o.timedOut else r)
  | none => s

/-- An operation has reached its commit point (R85). -/
def State.commit (s : State) (id : Nat) : State := s.updOp id fun o => { o with committed := true }

/-- An operation has begun and waits for an event. -/
def State.await (s : State) (id : Nat) : State := s.updOp id fun o => { o with phase := .waiting, began := true }

/-- An operation has begun to execute (R86 STARTED, R87). -/
def State.begin (s : State) (id : Nat) : State := s.updOp id fun o => { o with began := true }

/-- Run f on operation id, when it may run before its deadline point and carries the opcode. -/
def State.runOp (s : State) (id code : Nat) (f : Op → State) : Result :=
  match s.findOp id with
  | some o => if o.phase = .started ∧ o.opcode = code ∧ s.overdue o = false then .next (f o) else .next s
  | none => .next s

/-- Run f on operation id, when it may run before its deadline point and carries the opcode and the SUBOP or REPORT in byte 16. -/
def State.runSub (s : State) (id code sub : Nat) (f : Op → State) : Result :=
  match s.findOp id with
  | some o => if o.phase = .started ∧ o.opcode = code ∧ s.overdue o = false ∧ o.u8 16 = sub then .next (f o) else .next s
  | none => .next s

/-- Whether an operation takes the grant of its engines' dispatcher (R53, R55, R81): no operation of a lower class number is ready for them. Among
those of one class the order is the commands'. -/
def State.classFirst (s : State) (o : Op) (mine : Op → Bool) : Bool :=
  !(s.ops.list.any fun p => mine p && p.phase = .started && !p.began && !s.overdue p && decide (p.cls < o.cls))

/-- Work of a class has waited at a cluster's dispatchers (R56, R318). -/
def State.waited (s : State) (c cls ns : Nat) : State :=
  { s with place := { s.place with clusters := updFirst (fun (k : Cluster) => k.idx = c) (fun k => { k with waiting := updAt cls (fun n => n + ns) k.waiting }) s.place.clusters } }

/-- Whether an operation o lies in the scope of a fence (R100). -/
def Fence.covers (f : Fence) (o : Op) : Bool :=
  f.fn = o.fn && (if f.scope = 1 then f.sq = o.sq else if f.scope = 2 then f.handle = o.handle else f.scope = 3)

/-- Whether earlier work in a fence's scope has no final outcome yet (R100). -/
def State.fencePending (s : State) (f : Fence) : Bool :=
  s.ops.list.any fun p => f.covers p && decide (p.id < f.id) && p.phase != .final

/-- Whether a fence holds operation o: a later one, or the fencing descriptor itself where it is no FENCE (R100). -/
def State.fenced (s : State) (o : Op) : Bool :=
  s.ops.fences.any fun f => f.covers o && (decide (f.id < o.id) || (decide (f.id = o.id) && o.opcode != 1)) && s.fencePending f

/-- Whether ORDERED holds operation o (R78). -/
def State.orderHeld (s : State) (o : Op) : Bool :=
  o.ordered &&
    match (s.ops.list.filter fun p => p.fn = o.fn && p.sq = o.sq && p.handle = o.handle && decide (p.id < o.id)).getLast? with
    | some p => p.phase != .final
    | none => false

/-! ## Spares (R407, R409) -/

/-- Spares of a kind at manufacture (R44, R407). -/
def State.sparesFitted (s : State) (kind : Nat) : Nat := ((spareCounts s.chip.part)[kind]?).getD 0

/-- Spares left of a kind. -/
def State.sparesLeft (s : State) (kind : Nat) : Nat := s.sparesFitted kind - Store.get (fun _ => 0) kind s.fault.used

/-- A spare of a kind is used; with the last one the kind is exhausted (R426). -/
def State.useSpare (s : State) (kind : Nat) : State :=
  let f := { s.fault with used := Store.set (fun _ => 0) kind (min (s.sparesFitted kind) (Store.get (fun _ => 0) kind s.fault.used + 1)) s.fault.used }
  { s with fault := if s.sparesLeft kind ≤ 1 then { f with exhausted := setBit f.exhausted kind true } else f }

/-- A unit is retired, with the core ID of its spare or 0xFFFF: counted and logged (R408, R420). -/
def State.unitGone (s : State) (source kind spare subject : Nat) : State :=
  (s.bump Ctr.unitRetired).log source 0x0031 2 255 subject (kind + spare % 65536 * 65536)

/-- A unit failed and no spare of its kind remains (R409). -/
def State.exhaust (s : State) (source kind : Nat) : State :=
  { s with fault := { s.fault with exhausted := setBit s.fault.exhausted kind true } }.log source 0x0032 2 255 0 kind

/-! ## Work that ends -/

/-- Whether a power domain is on and out of reset (R430, R445). -/
def State.domOn (s : State) (d : Nat) : Bool := (s.power.domains[d]?).any fun x => x.state = .on && x.released

/-- A cluster that the placement engine chooses freely among some (R304). -/
def State.pick (s : State) (l : List Nat) (i : Nat) : Option Nat := l[Config.freeNat (s.free + i) % l.length]?

/-- Set the states of power domains (R430). -/
def State.setDomain (s : State) (d : Nat) (f : Domain → Domain) : State :=
  { s with power := { s.power with domains := updAt d f s.power.domains } }

/-- A domain is powered and released. -/
def Domain.lit (d : Domain) : Domain := if d.state = .fused then d else { d with state := .on, released := true, wakeEnds := none }

/-- A domain is dark. -/
def Domain.dark (d : Domain) : Domain := if d.state = .fused then d else { d with state := .off, released := false, wakeEnds := none }

/-- Work is placed on a cluster, or found there at an epoch boundary: it has held no work only from the epoch now in progress on (R433). -/
def State.placed (s : State) (c : Nat) : State :=
  { s with power := { s.power with idleSince := Store.set (fun _ => 0) c (s.map.published + 1) s.power.idleSince } }

/-- Whether a cluster runs work: an INFER, a solve, or a session frame in progress (R433). -/
def State.clusterWorks (s : State) (c : Nat) : Bool :=
  (s.matrix.infers.any fun i => i.cluster = c) || (s.abacus.running.any fun r => r.cluster = c) ||
    s.sess.list.any fun x => x.cluster = c && (!x.frames.isEmpty || !x.reasm.isEmpty)

/-- Whether a cluster holds a session or runs work (R433). -/
def State.clusterBusy (s : State) (c : Nat) : Bool := s.clusterWorks c || s.sess.list.any fun x => x.cluster = c && x.state != .closed

/-- Clusters that work of a class may be placed on: for class 0, an ON one whenever some are ON (R55). -/
def State.onFirst (s : State) (cls : Nat) (l : List Nat) : List Nat :=
  let on := l.filter fun c => s.domOn (15 + c)
  if cls = 0 ∧ ¬ on.isEmpty then on else l

/-- The clusters in service (R303). -/
def State.serving (s : State) : List Nat := (s.place.clusters.filter fun c => c.role = .inService).map (·.idx)

/-- What an operation still has running or waiting for is forgotten: it has ended, or it is dropped. -/
def State.dropWork (s : State) (id : Nat) : State :=
  let trim (x : Index) : Index :=
    { x with settling := { x.settling with ops := x.settling.ops.filter (fun i => i ≠ id), nextOps := x.settling.nextOps.filter (fun i => i ≠ id) } }
  let cut (q : NetPort) : NetPort := { q with queue := q.queue.filter fun f => f.op ≠ some id }
  { s with
    sound := { s.sound with searches := s.sound.searches.filter (fun x => x.op ≠ id), requests := s.sound.requests.filter (fun x => x.op ≠ id) }
    abacus := { s.abacus with running := s.abacus.running.filter fun x => x.op ≠ id }
    matrix := { s.matrix with infers := s.matrix.infers.filter fun x => x.op ≠ id }
    tiers := { s.tiers with hintOps := s.tiers.hintOps.filter fun x => x.1 ≠ id }
    fabric := { s.fabric with ackWaits := s.fabric.ackWaits.filter fun x => x.op ≠ some id }
    net := { s.net with ports := s.net.ports.map cut }
    map := { s.map with cur := { s.map.cur with indexes := s.map.cur.indexes.map trim } }
    fault := { s.fault with switchOp := s.fault.switchOp.filter (fun x => x.1 ≠ id), retireOps := s.fault.retireOps.filter (fun x => x.1 ≠ id) } }

/-! ## Memory by pointer -/

/-- Whether a pointer has the right form (R79). -/
def ptrOk (p : Nat) : Bool := p < 2 ^ 63 || bits p 62 48 = 0

/-- Whether a pointer names the device range. -/
def isDev (p : Nat) : Bool := decide (2 ^ 63 ≤ p)

/-- First byte past an enabled extent that covers device address a, among the function's 8 extents (R324, R354). -/
def State.extentEnd (s : State) (fn a : Nat) : Option Nat :=
  (List.range 8).findSome? fun i =>
    let e := Store.get (fun _ => ({} : Extent)) (fn * 8 + i) s.tiers.extents
    let base := bits e.base.toNat 31 0 * 65536
    let size := bits e.size.toNat 23 0 * 65536
    let sound := !s.regs.faulted 0x3010 (fn * 8 + i) && !s.regs.faulted 0x3014 (fn * 8 + i)
    if sound ∧ bit e.size.toNat 31 ∧ base ≤ a ∧ a < base + size then some (base + size) else none

/-- Whether [a, a + len) of the device range lies within the function's extents (R326). -/
def State.covered (s : State) (fn a len : Nat) : Nat → Bool
  | 0 => decide (len = 0)
  | n + 1 =>
    if len = 0 then true
    else match s.extentEnd fn a with
      | none => false
      | some e => if a + len ≤ e then true else s.covered fn e (a + len - e) n

/-- Whether a function reaches len bytes at a pointer: host memory up to its end, or the device range within its extents (R79, R326). A span that
would run on past the last host address is not reached (DESIGN CHOICE, log entry 134). -/
def State.reach (s : State) (fn p len : Nat) : Bool := if isDev p then s.covered fn (p % 2 ^ 48) len 9 else decide (p + len ≤ 2 ^ 63)

/-- Read n bytes at a pointer (R79, R323). -/
def State.readMem (s : State) (p n : Nat) : List Byte := s.mem.read p n

/-- Whether a write to a parcel leaves its home frame stale (R335): it has an upper copy and no write-back runs. -/
def Parcel.dirties (q : Parcel) : Bool := q.state = .up || (q.state = .promoting && q.upper.isSome)

/-- Parcels that a write of len bytes at a pointer touches become dirty where they are promoted, and are accessed now (R335). -/
def Tiers.touched (t : Tiers) (p len now : Nat) : Tiers :=
  if p < 2 ^ 63 ∨ len = 0 then t
  else
    let lo := p % 2 ^ 48 / 65536
    let hi := (p % 2 ^ 48 + len - 1) / 65536
    { t with parcels := t.parcels.map fun q =>
        if lo ≤ q.num ∧ q.num ≤ hi then { q with dirty := q.dirty || q.dirties, lastAccess := now } else q }

/-- Write bytes at a pointer (R79, R323). -/
def State.writeMem (s : State) (p : Nat) (b : List Byte) : State :=
  { s with mem := s.mem.write p b, tiers := s.tiers.touched p b.length (s.devNs / 1000000) }

/-- The pointer of the first byte of a parcel (R322). -/
def parcelPtr (n : Nat) : Nat := 2 ^ 63 + n * 65536

/-- Whether the device does its work: bring-up has ended and it is not in safe hold (R412, R454). -/
def State.running (s : State) : Bool := s.power.boot = .running && !s.fault.safeHold

/-! ## Units present -/

/-- Whether the net unit, triggers and projection unit are present (R3). -/
def State.hasNet (s : State) : Bool := s.chip.part != .hv8306

/-- Whether the basin is present (R3). -/
def State.hasBasin (s : State) : Bool := s.chip.part != .hv8306

/-- Fabric ports of the part (R3). -/
def State.fzPorts (s : State) : Nat :=
  match s.chip.part with
  | .hv8312 => 6
  | .hv8309 => 4
  | .hv8306 => 2

/-- The device's own array ID (R449). -/
def State.self (s : State) : Nat := s.power.options.arrayId

/-- Tile size in m (R13, R449). -/
def State.tileSize (s : State) : Nat := s.power.options.tileSize

/-- Whether the array has one device (R37). -/
def State.single (s : State) : Bool :=
  let o := s.power.options
  decide (o.dimX * o.dimY * o.dimZ = 1)

end Sys2Proof.Machine
end

