-- ==== Sys2Proof/Machine/SessBase.lean ====
section
/-! DEFINITION. Sessions: ownership and lookup (R109), load (R33, R129), events (R119), the ingest filter (R142 to R148), USP
packets sent (R122, R123, R127, R139, R367), the time-alignment tests (R196, R198), frame acceptance (R134) and the end of a
session (R115). -/

namespace Sys2Proof.Machine

/-! ## Lookup -/

/-- The session with an ID. -/
def State.session (s : State) (sid : Nat) : Option Session := s.sess.list.find? fun x => x.id = sid

/-- The keys of a session ID. -/
def State.keySlot (s : State) (sid : Nat) : Option KeySlot := s.sess.keys.find? fun x => x.sid = sid

/-- Change a session. -/
def State.updSession (s : State) (sid : Nat) (f : Session → Session) : State :=
  { s with sess := { s.sess with list := updFirst (fun x => x.id = sid) f s.sess.list } }

/-- Change the keys of a session ID. -/
def State.updKeys (s : State) (sid : Nat) (f : KeySlot → KeySlot) : State :=
  { s with sess := { s.sess with keys := updFirst (fun x => x.sid = sid) f s.sess.keys } }

/-- Whether a value names a session (R109). -/
def sidOk (sid : Nat) : Bool := sid ≠ 0 && sid ≠ 0xFFFFFFFF

/-- The session an operation of a function names: another function's ID gives ACCESS_DENIED, a free or CLOSED one SESSION_LOST
(R109, R115). -/
def State.useSession (s : State) (fn sid : Nat) : Except Res Session :=
  match s.session sid, s.keySlot sid with
  | some x, _ => if x.fn ≠ fn then .error (Res.denied 3) else if x.state = .closed then .error Res.lost else .ok x
  | none, some k => if k.fn ≠ fn then .error (Res.denied 3) else .error Res.lost
  | none, none => .error Res.lost

/-! ## Load -/

/-- Full-rate pixels per second, times 1,000 mHz: one unit of 1/256 full-rate equivalent counts 1/256 of it (R33, R129). -/
def loadDen : Nat := 13107200000

/-- The load of a geometry and rate, times 256 × loadDen. -/
def loadOf (width height images rate : Nat) : Nat := width * height * images * rate * 256

/-- The load of a declaration. -/
def Decl.load (d : Decl) : Nat := loadOf d.width d.height d.images d.frameRate

/-- The total streaming load of OPEN and SILENT sessions (R114). -/
def State.totalLoad (s : State) : Nat :=
  s.sess.list.foldl (fun t x => if x.state = .opened ∨ x.state = .silent then t + x.declLoad else t) 0

/-- Whether a total load is within the streaming limit (R32). -/
def State.loadFits (s : State) (total : Nat) : Bool := decide (total ≤ s.sess.streamLimit * loadDen)

/-- Whether d ns are longer than n/m declared frame periods of 1,000 / rate s, the rate in mHz (R112, R129). -/
def pastPeriods (rate n m d : Nat) : Bool := decide (n * 1000000000000 < m * d * rate)

/-- The declared frame period in whole ns, 0 when parked (R112, R129). -/
def Decl.period (d : Decl) : Nat := if d.frameRate = 0 then 0 else 1000000000000 / d.frameRate

/-! ## Events -/

/-- Queue an event of a session: 64 undelivered, then one OVERFLOW record counts those lost (R119). -/
def State.queueEvent (s : State) (sid code data : Nat) : State :=
  match s.session sid with
  | none => s
  | some x =>
    let e : EventRec := { time := s.stamp, code := code, data := data }
    if x.events.length < 64 then s.updSession sid fun x => { x with events := x.events ++ [e] }
    else
      let bumpLast (r : EventRec) : EventRec := { r with data := min 65535 (r.data + 1) }
      let lost : EventRec := { time := s.stamp, code := 0x0F, data := 1 }
      (s.updSession sid fun x =>
        { x with events := if x.events.length = 64 then x.events ++ [lost] else updAt 64 bumpLast x.events }).bump Ctr.eventOverflow

/-- The 16 bytes of an event record (R119). -/
def EventRec.bytes (e : EventRec) (sid : Nat) : List Byte := leBytes e.time 8 ++ leBytes sid 4 ++ leBytes e.code 1 ++ leBytes e.data 3

/-- Take up to n queued events of the sessions p covers, with their records: session by session in the order the sessions were opened, each
session's in the order they were queued (DESIGN CHOICE, log entry 144: the spec gives no order among sessions). -/
def takeEvents (p : Session → Bool) : Nat → List Session → List Session × List (List Byte)
  | _, [] => ([], [])
  | n, x :: t =>
    if p x then
      let r := takeEvents p (n - x.events.length) t
      ({ x with events := x.events.drop n } :: r.1, (x.events.take n).map (fun e => e.bytes x.id) ++ r.2)
    else
      let r := takeEvents p n t
      (x :: r.1, r.2)

/-- Whether an EVENT_WAIT operation covers a session (R119). -/
def Op.coversEvents (o : Op) (x : Session) : Bool := x.fn = o.fn && (o.handle = 0xFFFFFFFF || o.handle = x.id)

/-- A waiting EVENT_WAIT takes the events queued for it and completes, when there is one (R119). -/
def State.serveWait (s : State) (o : Op) : State :=
  let r := takeEvents o.coversEvents (o.u16 32) s.sess.list
  if r.2.isEmpty then s
  else
    (({ s with sess := { s.sess with list := r.1 } }).writeMem (o.u64 24) r.2.flatten).finish o.id (Res.ok r.2.length 0)

/-- Each queued event goes to the earliest-fetched pending wait that covers it (R119). -/
def State.deliverEvents (s : State) : State :=
  (s.ops.list.filter fun o => o.phase = .waiting && o.opcode = 0x0B && o.u8 16 = 0x10).foldl State.serveWait s

/-- Queue an event and serve the pending waits. -/
def State.event (s : State) (sid code data : Nat) : State := (s.queueEvent sid code data).deliverEvents

/-! ## The ingest filter -/

/-- Taps, decimation of a preset (R143). -/
def firTaps (preset : Nat) : Nat × Nat := if preset = 0 then (15, 1) else if preset = 1 then (31, 2) else (63, 4)

/-- Whether a channel mask is allowed for a kind (R142). -/
def Kind.channelsOk (k : Kind) (mask : Nat) : Bool :=
  match k with
  | .vehicle => decide (mask < 2 ^ 9)
  | .arm => decide (mask < 2 ^ 6)
  | .station => decide (mask = 0)

/-- Restart settling: history and index are cleared, and the settling span runs from just after the last settled output, or
from the opening (R146, R185). -/
def Filter.restart (f : Filter) : Filter :=
  { f with k := 0, hist := [], settled := false,
           spanFrom := if f.settled then (match f.lastSettled with
             | some t => t + 1
             | none => f.spanFrom) else f.spanFrom }

/-- Restart a session's settling with its SETTLING event (R146). -/
def State.restartFilter (s : State) (sid cause : Nat) : State :=
  match s.session sid with
  | none => s
  | some _ => (s.updSession sid fun x => { x with restartFrom := none, filter := x.filter.restart }).event sid 0x08 cause

/-- The output at one index: each declared channel through the FIR filter over its newest N samples, samples before index 0
taken as sample 0 (R143, R147). -/
def firAll (preset mask n : Nat) (hist : List (List Word)) : List Word :=
  (List.range 9).map fun c =>
    if bit mask c then
      let ch := hist.map fun v => (v[c]?).getD 0
      Config.firOut preset (ch ++ List.replicate (n - ch.length) (ch.getLast?.getD 0))
    else 0

/-- Whether the magnitude of a vector of finite words exceeds a limit; one that is not finite does (R148). -/
def exceeds (v : List Word) (limit : Word) : Bool :=
  v.any (fun w => !F32.finite w) || decide (F32.units limit * F32.units limit < F32.sumSq v)

/-- Whether the magnitude stays below 0.8 × a limit (R148). -/
def belowRearm (v : List Word) (limit : Word) : Bool :=
  v.all F32.finite && decide (25 * F32.sumSq v < 16 * (F32.units limit * F32.units limit))

/-- A magnitude in units of 1/scale, saturated (R148); which way it is rounded is free. -/
def magnitude (v : List Word) (scale : Nat) : Nat :=
  if v.any (fun w => !F32.finite w) then 65535
  else
    let q := F32.isqrt ((F32.sumSq v).toNat * (scale * scale))
    let exact := decide (q % 2 ^ 149 = 0 ∧ q * q = (F32.sumSq v).toNat * (scale * scale))
    min 65535 (q / 2 ^ 149 + (if exact then 0 else b2n (Config.up 148 (v.map fun w => (w.toNat : Int)))))

/-- One threshold test of an output: armed, low since, and whether an event arises (R148). -/
def threshold (armed : Bool) (low : Option Int) (v : List Word) (limit : Word) (stamp : Int) : Bool × Option Int × Bool :=
  if exceeds v limit then (false, none, armed)
  else if armed then (true, none, false)
  else if belowRearm v limit then
    let since := low.getD stamp
    if since + 50000000 ≤ stamp then (true, none, false) else (false, some since, false)
  else (false, none, false)

/-- The settings that govern a motion sample taken at a time (R117). -/
def Session.cfgAt (x : Session) (time : Nat) : SessCfg :=
  x.oldCfgs.foldl (fun (c : SessCfg) p => if time < p.1 then p.2 else c) x.cfg

/-- Test an output of a session's filter against SHOCK_LIMIT and TIP_RATE (R148). -/
def State.shockTip (s : State) (sid : Nat) (base : BaseCfg) (o : FilterOut) : State :=
  match s.session sid with
  | none => s
  | some x =>
    let mask := x.decl.channelMask
    let acc := (o.vals.drop 3).take 3
    let gyro := o.vals.take 3
    let hasAcc := decide (bits mask 5 3 ≠ 0)
    let hasGyro := decide (bits mask 2 0 ≠ 0)
    let f := x.filter
    let a := if hasAcc then threshold f.shockArmed f.shockLow acc base.shockLimit o.stamp else (f.shockArmed, f.shockLow, false)
    let g := if hasGyro then threshold f.tipArmed f.tipLow gyro base.tipRate o.stamp else (f.tipArmed, f.tipLow, false)
    let isOver := (hasAcc && exceeds acc base.shockLimit) || (hasGyro && exceeds gyro base.tipRate)
    let s := s.updSession sid fun x =>
      { x with filter := { x.filter with shockArmed := a.1, shockLow := a.2.1, tipArmed := g.1, tipLow := g.2.1,
                                         overs := if isOver then x.filter.overs ++ [o.stamp] else x.filter.overs } }
    let s := if a.2.2 then s.event sid 0x04 (magnitude acc 10) else s
    if g.2.2 then s.event sid 0x05 (magnitude gyro 1000) else s

/-- The stamp of the output whose newest input is the head of a history: the time of input sample k − (N − 1)/2; where that lies before sample 0,
sample 0's time less the sample periods in between (R143, R147). -/
def centreStamp (hist : List (Nat × List Word)) (half period : Nat) : Int :=
  match hist[half]? with
  | some h => (h.1 : Int)
  | none => (((hist.getLast?.map Prod.fst).getD 0 : Nat) : Int) - ((half + 1 - hist.length) * period : Nat)

/-- One input sample of a session: the output it gives, if any, its stamp, the settling span, and the threshold tests
(R117, R143, R147, R148, R185). -/
def State.filterStep (s : State) (sid time : Nat) (v : List Word) : State :=
  match s.session sid with
  | none => s
  | some x =>
    let base := (x.cfgAt time).base
    let nd := firTaps base.preset
    let n := nd.1
    let d := nd.2
    let f := x.filter
    let hist := ((time, v) :: f.hist).take n
    let due := if base.mode = 1 then decide (f.k % d = (n - 1) % d) else decide (n - 1 ≤ f.k ∧ (f.k - (n - 1)) % d = 0)
    let settled := decide (n - 1 ≤ f.k)
    let stamp : Int := centreStamp hist ((n - 1) / 2) x.decl.samplePeriod
    let f := { f with hist := hist, k := f.k + 1, lastSample := some time }
    if due then
      let o : FilterOut := { stamp := stamp, vals := firAll base.preset x.decl.channelMask n (hist.map Prod.snd), unsettled := !settled }
      let f := { f with outs := f.outs ++ [o] }
      let f := if settled then
        { f with lastSettled := some stamp, settled := true, spans := if f.settled then f.spans else f.spans ++ [(f.spanFrom, stamp - 1)] } else f
      let s := s.updSession sid fun x => { x with filter := f }
      if settled then s.shockTip sid base o else s
    else s.updSession sid fun x => { x with filter := f }

/-- One input sample: settling restarts first where SET_FILTER takes effect with it (R117, R146); settings that govern no later sample are dropped. -/
def State.filterSample (s : State) (sid time : Nat) (v : List Word) : State :=
  let due := (s.session sid).any fun x => x.restartFrom.any fun c => decide (c ≤ time)
  let s := if due then s.restartFilter sid 0x04 else s
  (s.updSession sid fun x => { x with oldCfgs := x.oldCfgs.filter fun p => decide (time < p.1) }).filterStep sid time v

/-- Samples of a batch in order, sample j at first + j × period (R145). -/
def filterBatch (sid first period : Nat) : List (List Word) → Nat → State → State
  | [], _, s => s
  | v :: t, j, s => filterBatch sid first period t (j + 1) (s.filterSample sid (first + j * period) v)

/-- A batch: continues the filter, is dropped as old, or restarts it after a gap (R145). -/
def State.motionBatch (s : State) (sid first : Nat) (samples : List (List Word)) : State :=
  match s.session sid with
  | none => s
  | some x =>
    let p := x.decl.samplePeriod
    if samples.isEmpty then s
    else match x.filter.lastSample with
      | none => filterBatch sid first p samples 0 s
      | some last =>
        let e := last + p
        if e + p / 4 < first then
          filterBatch sid first p samples 0 ((s.bump Ctr.motionGap).restartFilter sid 0x02)
        else if 4 * first + p < 4 * e then s.bump Ctr.motionOld
        else filterBatch sid first p samples 0 s

/-! ## Packets the device sends -/

/-- Whether a net port carries traffic. -/
def State.portUp (s : State) (p : Nat) : Bool := (s.net.ports[p]?).any fun q => q.up

/-- The transmit and the receive latency of a port between its MAC/PCS boundary and the ball, in 1/100 ns (R364). -/
def NetPort.latency (q : NetPort) : Nat × Nat := if q.at10g then (7680, 10560) else if q.fec then (11260, 24130) else (3840, 5280)

/-- The latencies of port p. -/
def State.latency (s : State) (p : Nat) : Nat × Nat := ((s.net.ports[p]?).getD {}).latency

/-- The instants, in 1/100 ns of device time, at which the stamp point of a frame that is at the ball of port p now crosses the MAC/PCS boundary: outgoing,
then incoming (R364). -/
def State.macStamps (s : State) (p : Nat) : Int × Int := (100 * (s.devNs : Int) - (s.latency p).1, 100 * (s.devNs : Int) + (s.latency p).2)

/-- A time in 1/100 ns with the board correction of a port added, rounded to the nearest ns (R364). -/
def adjusted (time : Int) (adj : Nat) : Nat := ((16 * time + 100 * sext 16 adj + 800) / 1600).toNat

/-- The receive stamp of a frame that arrives now at a port: that of the boundary, corrected to the ball (R364). -/
def State.rxStamp (s : State) (p : Nat) : Nat := adjusted ((s.macStamps p).2 - (s.latency p).2) (s.regF 0x502C p 31 16)

/-- The transmit stamp of a frame that leaves a port now: that of the boundary, corrected to the ball (R364). -/
def State.txStamp (s : State) (p : Nat) : Nat := adjusted ((s.macStamps p).1 + (s.latency p).1) (s.regF 0x502C p 15 0)

/-- The receive stamp of a packet of a session (R196, R364). -/
def State.arrivalStamp (s : State) (sid : Nat) : Nat := s.rxStamp (((s.keySlot sid).map fun k => k.net.src.port).getD 0)

/-- Wire time in 1/100 ns from the stamp point of a frame of n bytes, without FCS, to the next: FCS, gap, preamble and
delimiter add 24 bytes (R365, R368). -/
def NetPort.wire (q : NetPort) (n : Nat) : Nat := (max 60 n + 24) * (if q.at10g then 80 else 32)

/-- The port that a packet to a session leaves by: that of its latest valid packet, else the other one (R367). -/
def State.exitPort (s : State) (a : SrcAddr) : Option Nat :=
  if s.portUp a.port then some a.port else if s.portUp (1 - a.port) then some (1 - a.port) else none

/-- The next stamp point, in 1/100 ns since power-on, at a port. -/
def State.portFree (s : State) (p : Nat) : Nat := max (s.clock.now * 100) (((s.net.ports[p]?).map fun q => q.busyUntil).getD 0)

/-- The device time, in 1/100 ns, of an instant given in 1/100 ns since power-on, at or after the present one. -/
def State.devAt (s : State) (t : Nat) : Nat := s.devNs * 100 + (t - s.clock.now * 100)

/-- A frame of n bytes leaves a port with its stamp point at an instant (R368). -/
def State.occupy (s : State) (p n at_ : Nat) : State :=
  { s with net := { s.net with ports := updAt p (fun (q : NetPort) => { q with busyUntil := at_ + q.wire n }) s.net.ports } }

/-- A port's IPv4 or IPv6 address (R365, R377). -/
def State.ownIp (s : State) (port : Nat) (v6 : Bool) : Nat :=
  if v6 then (List.range 4).foldl (fun a i => a * 2 ^ 32 + s.reg (0x501C + 4 * i) port) 0 else s.reg 0x5018 port

/-- Send a USP packet of a session with its UDP checksum: sealed under its current key with the next counter, to the source of its latest valid
packet, by that packet's port or else the other; with both down it is discarded and counted (R120, R122, R123, R127, R367). -/
def State.sendUsp (s : State) (sid kind : Nat) (body : List Byte) : State :=
  match s.keySlot sid with
  | none => s
  | some k =>
    match k.cur with
    | none => s
    | some (key, keyId) =>
      if k.net.haveSrc ∧ ¬ s.net.stopped then
        let a := k.net.src
        let s := s.updKeys sid fun k => { k with net := { k.net with txSeq := k.net.txSeq + 1 } }
        match s.exitPort a with
        | some p =>
          let s := s.occupy p (14 + (if a.v6 then 40 else 20) + 8 + 32 + body.length) (s.portFree p)
          let data := sealUsp key kind keyId sid (2 ^ 63 + k.net.txSeq) body
          let m : UspOut := { kind := kind, session := sid, keyId := keyId, seq := 2 ^ 63 + k.net.txSeq, key := key, dst := a, port := p, body := body,
                              datagram := udpDatagram a.v6 (s.ownIp p a.v6) a.ip (s.regF 0x5008 0 15 0) a.udp data }
          { s with out := { s.out with usp := m :: s.out.usp } }
        | none => s.bumpBy Ctr.netNoLink a.port 1
      else s

/-- Send an ERROR, at most one per session in any 100 ms (R139). -/
def State.sendError (s : State) (sid code seq : Nat) : State :=
  match s.keySlot sid with
  | none => s
  | some k =>
    if k.net.lastErrorAt.any fun t => decide (s.clock.now < t + 100000000) then s.bump Ctr.uspErrorSuppressed
    else
      (s.updKeys sid fun k => { k with net := { k.net with lastErrorAt := some s.clock.now } }).sendUsp sid 0x9
        (leBytes code 1 ++ zeros 7 ++ beBytes seq 8)

/-! ## Time alignment at arrival (R196, R198) -/

/-- n / d where it is whole, else one of the two neighbours: the spec states no rounding, so the choice is free. -/
def freeRound (n d : Nat) : Nat := n / d + (if n % d = 0 then 0 else b2n (Config.up 1 [(n : Int), (d : Int)]))

/-- A session becomes TIME_UNLOCKED with a cause, and the event carries the offending offset in ms (R196, R209). -/
def State.unlockTime (s : State) (sid cause offset : Nat) : State :=
  ((s.updSession sid fun x => { x with fusion := { x.fusion with unlockCause := cause, relockRun := [], lateRun := 0 } }).bump
    Ctr.timeUnlock).event sid 0x21 (cause + 256 * min 65535 (freeRound offset 1000000))

/-- A session relocks (R198): with cause 0x01 the median residual is added to θ, else the filters restart settling. -/
def State.relockTime (s : State) (sid : Nat) (x : Session) (run : List Int) : State :=
  let mid : Int := match run with
    | [a, b, c] => max (min a b) (min (max a b) c)
    | _ => 0
  let theta := if x.fusion.unlockCause = 1 then x.fusion.theta + mid else x.fusion.theta
  let s := s.updSession sid fun x => { x with fusion := { x.fusion with unlockCause := 0, relockRun := [], lateRun := 0, theta := theta } }
  let us : Int := (freeRound theta.natAbs 1000 : Nat)
  let s := s.event sid 0x22 (tc 24 (if theta < 0 then -us else us))
  if x.fusion.unlockCause = 1 then s else s.restartFilter sid 0x02

/-- A qualifying value joins the run; three that lie within a quarter of a frame period of each other relock; one that
disagrees restarts the run from itself (R198). -/
def State.relockStep (s : State) (sid : Nat) (v : Int) : State :=
  match s.session sid with
  | none => s
  | some x =>
    let run := if x.fusion.relockRun.all fun r => !pastPeriods x.decl.frameRate 1 4 (r - v).natAbs then x.fusion.relockRun ++ [v] else [v]
    if run.length = 3 then s.relockTime sid x run
    else s.updSession sid fun x => { x with fusion := { x.fusion with relockRun := run } }

/-- The arrival test of one frame's first fragment (R196 cause 0x03): three consecutive frames later than the window unlock. -/
def State.arrivalLate (s : State) (sid capture arrival : Nat) : State :=
  match s.session sid with
  | none => s
  | some x =>
    if x.kind = .station then s
    else if capture + x.cfg.base.window * 1000000 < arrival then
      let run := x.fusion.lateRun + 1
      let s := s.updSession sid fun x => { x with fusion := { x.fusion with lateRun := run } }
      if run = 3 ∧ x.fusion.unlockCause = 0 then s.unlockTime sid 3 (arrival - capture) else s
    else s.updSession sid fun x => { x with fusion := { x.fusion with lateRun := 0 } }

/-- The arrival tests of an accepted frame: a capture time ahead of arrival unlocks, and a qualifying lag counts towards relock
(R196 cause 0x02, R198). -/
def State.arrivalAccepted (s : State) (sid capture arrival : Nat) : State :=
  match s.session sid with
  | none => s
  | some x =>
    if x.kind = .station then s
    else if x.fusion.unlockCause = 0 then
      if arrival < capture ∧ pastPeriods x.decl.frameRate 1 1 (capture - arrival) then s.unlockTime sid 2 (capture - arrival) else s
    else if x.fusion.unlockCause ≠ 1 ∧ capture ≤ arrival ∧ arrival ≤ capture + x.cfg.base.window * 1000000 then
      s.relockStep sid ((arrival : Int) - capture)
    else s

/-! ## The time-offset residual (R194, R195, R198) -/

/-- The numbers 0, −1, 1, −2, 2, … up to n in magnitude. -/
def byMagnitude (n : Nat) : List Int := (0 : Int) :: (List.range n).flatMap fun i => [-((i : Int) + 1), (i : Int) + 1]

/-- Frame periods that the search for a residual spans on each side (R194). -/
def Session.searchSpan (x : Session) : Nat := if x.fusion.unlockCause = 0 then 2 else x.cfg.fusion.unlockSearch

/-- Steps of the filter output period within n frame periods (R194 step 3). -/
def Session.searchSteps (x : Session) (rate n : Nat) : Nat :=
  n * 1000000000000 / max 1 (rate * max 1 (x.decl.samplePeriod * (firTaps x.cfg.base.preset).2))

/-- The residual of a frame: the shift that makes the angle least, ties to the smaller and then to the negative one (R194). -/
def Session.argResidual (x : Session) (q : Resid) : Option Int :=
  let inp : FuseIn := { fusion := x.fusion, cfg := x.cfg, decl := x.decl, outs := x.filter.outs.filter (fun o => !o.unsettled), vision := some q.result,
                        start := q.start + x.fusion.theta, stop := (q.capture : Int) + x.fusion.theta }
  let out : Int := (x.decl.samplePeriod * (firTaps x.cfg.base.preset).2 : Nat)
  if Config.frameRotation inp < 1000 then none
  else some (((byMagnitude (x.searchSteps q.rate x.searchSpan)).foldl (fun (b : Int × Nat) k =>
    let g := Config.rotationGap inp (k * out)
    if g < b.2 then (k * out, g) else b) (0, Config.rotationGap inp 0)).1)

/-- A residual moves θ, unlocks, or counts towards relock (R195, R196, R198). A quarter that is not a whole ns is rounded freely. -/
def State.takeResidual (s : State) (sid : Nat) (q : Resid) : State :=
  match s.session sid with
  | none => s
  | some x =>
    match x.argResidual q with
    | none => s
    | some r =>
      if x.fusion.unlockCause = 0 then
        if pastPeriods q.rate 1 1 r.natAbs then s.unlockTime sid 1 r.natAbs
        else
          let e : Int := (freeRound r.natAbs 8 : Nat)
          s.updSession sid fun x => { x with fusion := { x.fusion with theta := x.fusion.theta + (if r < 0 then -e else e) } }
      else if x.fusion.unlockCause = 1 then s.relockStep sid r
      else s

/-- Whether the settled outputs cover the range that a residual is searched in (R194). -/
def Session.residualReady (x : Session) (q : Resid) : Bool :=
  let reach : Int := (x.searchSpan * 1000000000000 / max 1 q.rate : Nat)
  let t := x.fusion.theta
  (x.filter.outs.any fun o => !o.unsettled && decide (o.stamp ≤ q.start + t - reach)) &&
    x.filter.outs.any fun o => !o.unsettled && decide ((q.capture : Int) + t + reach ≤ o.stamp)

/-- The residuals whose search range the motion outputs now cover are computed, in the order of their frames (R194). -/
def State.settleResiduals (s : State) (sid : Nat) : State :=
  match s.session sid with
  | none => s
  | some x =>
    (x.residuals.filter x.residualReady).foldl (fun (s : State) q =>
      (s.updSession sid fun x => { x with residuals := x.residuals.filter fun p => p.capture ≠ q.capture }).takeResidual sid q) s

/-- A batch of motion samples enters the filter, and residuals that waited for its outputs are computed (R145, R194). -/
def State.motionIn (s : State) (sid first : Nat) (samples : List (List Word)) : State := (s.motionBatch sid first samples).settleResiduals sid

/-! ## Frame acceptance -/

/-- The 15 × 15 covariance a fusion context starts from a pose with: (0.05 m)² and (0.02 rad)² on the diagonal for position and orientation (R193); the
variances of velocity and biases, which the rule does not give, are free. -/
def startCov : List Word :=
  (List.range 225).map fun i =>
    if i / 15 ≠ i % 15 then 0
    else if i / 15 < 3 then 0x3B23D70A
    else if i / 15 < 6 then 0x39D1B717
    else BitVec.ofNat 32 (Config.given 193 [((i / 15 : Nat) : Int)])

/-- The fusion context started again from a pose: trust step and run 0; θ and the time state stay (R193). -/
def Fusion.from (f : Fusion) (p : Pose) : Fusion :=
  { pose := p, hasPose := true, fixed := true, cov := startCov, step := f.step, held := false, theta := f.theta, unlockCause := f.unlockCause, lateRun := f.lateRun,
    relockRun := f.relockRun, epoch := f.epoch, lastAcceptedCapture := f.lastAcceptedCapture, intervalEnd := f.intervalEnd,
    pendingCorrection := f.pendingCorrection }

/-- The declaration that governs a frame number: the rates in force, with the geometry of the latest RATE whose frames have come (R130). -/
def Session.declFor (x : Session) (frameNo : Nat) : Decl :=
  (x.pendingDecls.filter fun p => p.1.all fun n => decide (n < frameNo)).foldl
    (fun (d : Decl) p => { d with width := p.2.width, height := p.2.height, images := p.2.images, maxFrag := p.2.maxFrag }) x.decl

/-- The settings that a frame boundary applies (R117), a SET_POSE (R193, R208), and the geometry of a RATE from its first
frame on (R130). -/
def Session.boundary (x : Session) (frameNo : Nat) : Session :=
  let x : Session := { x with cfg := x.nextCfg }
  let x : Session := match x.pendingPose with
    | some p => if x.kind = .station then { x with stationPose := p, pendingPose := none } else { x with fusion := x.fusion.from p, pendingPose := none }
    | none => x
  let x := if x.hostPath then
    { x with decl := { x.decl with frameRate := x.cfg.base.hostRate }, declLoad := x.cfg.base.maxLoad * loadDen } else x
  { x with decl := x.declFor frameNo, pendingDecls := x.pendingDecls.filter fun p => !p.1.all fun n => decide (n < frameNo) }

/-- The outcome of the tests of R134: accepted, too old, or too soon. -/
inductive Accept where
  | accepted | old | excess
  deriving DecidableEq, Repr

/-- The tests of R134, by the rate in force until a frame is accepted (DEDUCED, log entry 176); a parked session's frame is too soon whatever its
capture time. -/
def Session.accepts (x : Session) (capture : Nat) : Accept :=
  if x.decl.frameRate = 0 then .excess
  else match x.lastAccepted with
    | some l => if capture ≤ l then .old else if (capture - l) * x.decl.frameRate < 900000000000 then .excess else .accepted
    | none => .accepted

/-- A frame is accepted: the boundary's settings apply, to motion samples from its capture time on, a session move in progress is abandoned, a
pending SET_FILTER restarts settling with the first such sample, and the frame waits for a vision core (R117, R134, R146, R152, R306). -/
def State.acceptFrame (s : State) (sid : Nat) (f : Frame) : State :=
  match s.session sid with
  | none => s
  | some x =>
    let y := x.boundary f.frameNo
    let y := { y with lastAccepted := some f.capture, restartAtFrame := false, moving := none,
                      restartFrom := if x.restartAtFrame then some f.capture else y.restartFrom,
                      oldCfgs := (f.capture, x.cfg) :: y.oldCfgs,
                      movesAbandoned := if x.moving.isSome then x.movesAbandoned + 1 else x.movesAbandoned }
    let g := { f with cfg := y.cfg, width := y.decl.width, height := y.decl.height, rate := y.decl.frameRate, reloc := s.reg 0x9014 0,
                      prevCapture := x.lastAccepted, seq := s.sess.acceptSeq }
    let s := { s with sess := { s.sess with acceptSeq := s.sess.acceptSeq + 1 } }
    let s := s.updSession sid fun _ => { y with frames := y.frames ++ [g], acceptedNos := f.frameNo :: y.acceptedNos }
    let s := if x.moving.isSome then s.bump Ctr.moveAbandoned else s
    let s := if x.restartAtFrame ∧ (x.filter.lastSample.all fun t => decide (f.capture ≤ t + x.decl.samplePeriod)) then s.restartFilter sid 0x04 else s
    s.arrivalAccepted sid f.capture f.arrival

/-! ## The end of a session -/

/-- Operations of a session by the meaning of their bytes 12 to 15 (R77, R87, R115). A SESSION_CLOSE is none of them: it finds the session CLOSED or
free and acts as R116 states. -/
def Op.ofSession (o : Op) (sid : Nat) : Bool :=
  o.handle = sid && ([0x08, 0x0A, 0x0B, 0x10, 0x11].contains o.opcode)

/-- The session's operations that have not started end with a result (R87, R115). -/
def State.endUnstarted (s : State) (sid : Nat) (r : Res) : State :=
  (s.ops.list.filter fun o => o.ofSession sid && o.phase != .final && !o.began).foldl (fun s o => s.finish o.id r) s

/-- What entering CLOSED or being freed does to a session: replies discarded and counted, frames in reassembly abandoned, the
filter stopped (R115). -/
def State.quiesce (s : State) (sid : Nat) : State :=
  match s.session sid with
  | none => s
  | some x =>
    (s.updSession sid fun x => { x with replies := [], reasm := [], filter := { x.filter with running := false } }).bumpBy
      Ctr.replyDiscardedClose 0 x.replies.length

/-- A session enters CLOSED with a reason: it is quiesced, its keys are erased, and the CLOSED event is queued (R114, R115, R119). -/
def State.enterClosed (s : State) (sid reason : Nat) : State :=
  let s := s.quiesce sid
  let s := s.updSession sid fun x => { x with state := .closed, declLoad := 0 }
  let s := s.updKeys sid fun k =>
    { k with cur := none, next := none, erased := k.erased ++ (k.cur.map (·.2)).toList ++ (k.next.map (·.2)).toList }
  s.event sid 0x03 reason

/-- A robot CLOSE or LINGER expiry: the session enters CLOSED, and its operations not yet started end with SESSION_LOST (R115). -/
def State.closeSession (s : State) (sid reason : Nat) : State := (s.enterClosed sid reason).endUnstarted sid Res.lost

/-- A session is freed: session and keys are gone (R111, R116). -/
def State.freeSession (s : State) (sid : Nat) : State :=
  { s with sess := { s.sess with list := s.sess.list.filter (fun x => x.id ≠ sid), keys := s.sess.keys.filter (fun k => k.sid ≠ sid) } }

end Sys2Proof.Machine
end

