-- ==== Sys2Proof/Machine/FabricBase.lean ====
section
/-! DEFINITION. Farzako messages and routes (R385 to R388), the members of the view (R390, R391), and the requests a device
sends to another member (R29, R388). -/

namespace Sys2Proof.Machine

/-- The members of the view other than the device itself, ascending. -/
def State.others (s : State) : List Nat := (bitList s.fabric.members 64).filter fun i => i ≠ s.self

/-- Whether the device's fabric carries traffic. -/
def State.fabricUp (s : State) : Bool := !s.fabric.stopped && !s.single

/-- Whether a port carries traffic other than HELLO (R389). -/
def FzPort.carries (p : FzPort) : Bool := p.up && !p.isolated && !p.retraining

/-- The three parts of a coordinate as HELLO packs it (R387). -/
def coordParts (c : Nat) : List Nat := [bits c 7 4, bits c 3 2, bits c 1 0]

/-- The sizes of the three dimensions (R380). -/
def Options.dims (o : Options) : List Nat := [o.dimX, o.dimY, o.dimZ]

/-- The port in dimension k towards d from m, the shorter way round, ties to +, the other way when that port is down (R386). -/
def State.portIn (s : State) (k n m d : Nat) : Option Nat :=
  if m = d then none
  else
    let fwd := (d + n - m) % n
    let first := if fwd ≤ n - fwd then 2 * k else 2 * k + 1
    let second := if fwd ≤ n - fwd then 2 * k + 1 else 2 * k
    let good (p : Nat) : Bool := (s.fabric.ports[p]?).any FzPort.carries
    if good first then some first else if good second then some second else none

/-- The packed coordinate of a member: what its HELLO said, for a neighbour (R387, R389), else the free one. -/
def State.coordOf (s : State) (dst : Nat) : Nat :=
  (s.fabric.ports.findSome? fun (p : FzPort) => if p.neighbourKnown && p.neighbour = dst then p.coord else none).getD (Config.coordOf dst)

/-- The port a message to a member leaves by: X, then Y, then Z (R386). -/
def State.route (s : State) (dst : Nat) : Option Nat :=
  let me := coordParts s.fabric.coord
  let there := coordParts (s.coordOf dst)
  let dims := s.power.options.dims
  (List.range 3).findSome? fun k => s.portIn k ((dims[k]?).getD 1) ((me[k]?).getD 0) ((there[k]?).getD 0)

/-- The flit buffers of a receiver, by class (R383). -/
def flitDepth (c : Nat) : Nat := ([64, 128, 256, 256, 64][c]?).getD 0

/-- Flits of a message: 116 bytes of header and body to a flit (R382, R385). -/
def flitCount (body : Nat) : Nat := (body + 131) / 116

/-- The 16-byte header of a message (R385). -/
def fzlHead (h : FzlHeader) : List Byte :=
  beBytes h.type 1 ++ beBytes (h.cls % 8) 1 ++ beBytes h.src 1 ++ beBytes h.dst 1 ++ beBytes h.bodyLen 2 ++ beBytes h.hops 1 ++ zeros 1 ++ beBytes h.xid 8

/-- The DATA flits of a message, consecutive and of one class; the last sets LAST (R385). -/
def flitsOf (h : FzlHeader) (body : List Byte) : List Flit :=
  let all := fzlHead h ++ body
  let n := flitCount body.length
  (List.range n).map fun i => { cls := h.cls, data := slice all (116 * i) 116, last := decide (i + 1 = n) }

/-- The 128 bytes of a flit (R382): TYPE, LAST, CLASS, SEQ, the highest SEQ received in order, and a returned credit. -/
def flitBytes (type : Nat) (f : Flit) (seq ack : Nat) (credit : Option (Nat × Nat)) : List Byte :=
  let c := credit.getD (0, 0)
  let b := beBytes (type * 16 + b2n f.last * 8 + f.cls % 8) 1 ++ beBytes f.data.length 1 ++ beBytes (seq % 4096) 2 ++ beBytes (ack % 4096) 2 ++
    beBytes (b2n credit.isSome * 128 + c.1 % 8) 1 ++ beBytes c.2 1 ++ f.data ++ zeros (116 - f.data.length)
  b ++ beBytes (crc32 b) 4

/-- Messages leave by the flits of their port. -/
def State.putFlits (s : State) (port : Nat) (l : List Flit) : State :=
  { s with fabric := { s.fabric with ports := updAt port (fun (q : FzPort) => { q with flits := { q.flits with waiting := q.flits.waiting ++ l } }) s.fabric.ports } }

/-- Send a message by a port: its flits wait there (R382, R383, R385). -/
def State.sendOn (s : State) (port type cls dst xid : Nat) (body : List Byte) : State :=
  let h : FzlHeader := { type := type, cls := cls, src := s.self, dst := dst, bodyLen := body.length, hops := 16, xid := xid }
  { s with out := { s.out with fzl := { hdr := h, port := port, body := body } :: s.out.fzl } }.putFlits port (flitsOf h body)

/-- The DATA flit that leaves next (R53, R383): the oldest of the lowest class that holds a credit. -/
def FlitPort.next (f : FlitPort) : Option Flit :=
  (List.range 5).findSome? fun c => if 0 < (f.credits[c]?).getD 0 then f.waiting.find? fun x => x.cls = c else none

/-- A list without the first flit of a class. -/
def dropFlit (c : Nat) : List Flit → List Flit
  | [] => []
  | x :: r => if x.cls = c then r else x :: dropFlit c r

/-- The credits that the far end has returned by an instant: a free number, up to those spent (R383; DESIGN CHOICE, log entry 153: no command brings
them). -/
def FlitPort.refill (f : FlitPort) (port now : Nat) : FlitPort :=
  { f with credits := f.credits.zipIdx.map fun c => c.1 + Config.given 383 [(port : Int), now, c.2] % (flitDepth c.2 + 1 - c.1) }

/-- The class whose credits are returned next, with how many, at most 255 (R382, R383). -/
def FlitPort.toReturn (f : FlitPort) : Option (Nat × Nat) :=
  (List.range 5).findSome? fun c => let n := (f.owed[c]?).getD 0; if 0 < n then some (c, min 255 n) else none

/-- Credits have been returned. -/
def FlitPort.returned (f : FlitPort) : Option (Nat × Nat) → FlitPort
  | none => f
  | some c => { f with owed := updAt c.1 (fun n => n - c.2) f.owed }

/-- The last 512 flits sent, with the newest one: what a replay sends again (R384). -/
def FlitPort.keep (f : FlitPort) (x : Nat × List Byte) : List (Nat × List Byte) := f.kept.drop (f.kept.length - 511) ++ [x]

/-- The time a flit takes on the wire in 1/100 ns: 5.12 ns, and twice that on a port narrowed to 2 lanes (R381, R382). -/
def FzPort.flitTime (q : FzPort) : Nat := if q.degraded then 1024 else 512

/-- One grant at a port whose wire is free (R382, R383): a DATA flit leaves, with credits it returns; with none to leave, a CREDIT flit returns them. -/
def FzPort.grant (q : FzPort) (port now : Nat) : FzPort × List (List Byte) :=
  if !q.up || q.retraining || decide (100 * now < q.flits.wireFree) then (q, [])
  else
    let f := if q.flits.waiting.isEmpty then q.flits else q.flits.refill port now
    let c := f.toReturn
    let ack := (q.rxNext + 4095) % 4096
    match f.next with
    | some x =>
      let b := flitBytes 1 x q.txSeq ack c
      ({ q with txSeq := (q.txSeq + 1) % 4096
                flits := { f.returned c with waiting := dropFlit x.cls f.waiting, credits := updAt x.cls (fun n => n - 1) f.credits, wireFree := 100 * now + q.flitTime,
                                             kept := f.keep (q.txSeq, b) } },
       [b])
    | none =>
      if c.isSome then ({ q with flits := { f.returned c with wireFree := 100 * now + q.flitTime } }, [flitBytes 2 { last := false } q.txSeq ack c])
      else ({ q with flits := f }, [])

/-- One grant at each fabric port (R383). -/
def State.flitRound (s : State) : State :=
  let r := s.fabric.ports.zipIdx.map fun q => (q.2, q.1.grant q.2 s.clock.now)
  { s with fabric := { s.fabric with ports := r.map fun q => q.2.1 }
           out := { s.out with flits := (r.flatMap fun q => q.2.2.map fun b => (q.1, b)).reverse ++ s.out.flits } }

/-- The flits of a message of n body bytes that came by a port have been consumed or forwarded: their credits are owed (R383). -/
def State.taken (s : State) (port cls n : Nat) : State :=
  let k := flitCount n
  let upd (q : FzPort) : FzPort :=
    if q.up then { q with rxNext := (q.rxNext + k) % 4096, flits := { q.flits with owed := updAt cls (fun m => min (flitDepth cls) (m + k)) q.flits.owed } } else q
  { s with fabric := { s.fabric with ports := updAt port upd s.fabric.ports } }

/-- The port that a message from a member comes by, and is counted at: the one that leads to it. -/
def State.portOf (s : State) (id : Nat) : Nat := (s.route id).getD 0

/-- Send a message to a member under R386; with no port up towards it, nothing is sent. -/
def State.sendFz (s : State) (type cls dst xid : Nat) (body : List Byte) : State :=
  if s.fabricUp then
    match s.route dst with
    | some p => s.sendOn p type cls dst xid body
    | none => s
  else s

/-- Segments of n bytes of data with their offsets; one empty segment where there is no data (R388). -/
def segments (n : Nat) (l : List Byte) : List (Nat × List Byte) :=
  if l.isEmpty then [(0, [])] else (List.range ((l.length + n - 1) / n)).map fun i => (i * n, slice l (i * n) n)

/-- A device ID in a tile record: IX then IY, big-endian (R382, R387). -/
def tileBe (ix iy : Int) : List Byte := beBytes (tc 16 ix) 2 ++ beBytes (tc 16 iy) 2

/-- Send the REMOTE_REQ segments of an operation to a member and note the request (R388). -/
def State.sendRequest (s : State) (op peer cls : Nat) (desc data : List Byte) : State :=
  let xid := s.sound.nextXid + 1
  let r : RemoteSt := { xid := xid, peer := peer, op := op, desc := desc }
  let s := { s with sound := { s.sound with nextXid := xid, requests := s.sound.requests ++ [r] } }
  (segments 65448 data).foldl (fun s g => s.sendFz 0x03 cls peer xid (beBytes g.1 4 ++ beBytes data.length 4 ++ desc ++ g.2)) s

/-- Send the REMOTE_RESP segments of a request carried out for another member (R388). -/
def State.sendResponse (s : State) (peer cls xid : Nat) (r : Res) (data : List Byte) : State :=
  (segments 65488 data).foldl (fun s g =>
    s.sendFz 0x04 cls peer xid
      (beBytes r.status 1 ++ zeros 3 ++ beBytes g.1 4 ++ beBytes r.count 8 ++ beBytes r.detail 8 ++ beBytes data.length 4 ++ zeros 4 ++ g.2)) s

/-- The requests of an operation. -/
def State.requestsOf (s : State) (op : Nat) : List RemoteSt := s.sound.requests.filter fun r => r.op = op

/-- Forget the requests of an operation; answers that come later find none. -/
def State.dropRequests (s : State) (op : Nat) : State :=
  { s with sound := { s.sound with requests := s.sound.requests.filter fun r => r.op ≠ op } }

/-- The data of the segments held, in OFFSET order. -/
def RemoteSt.data (r : RemoteSt) : List Byte :=
  ((r.segs.mergeSort fun a b => decide (a.1 ≤ b.1)).map (·.2)).flatten

/-- Whether all the data has arrived (R388). -/
def RemoteSt.full (r : RemoteSt) : Bool := !r.bad && decide ((r.segs.map fun g => g.2.length).sum = r.total)

/-- A segment joins those held: a repeat is discarded; a wrong TOTAL or OFFSET marks the operation (R388). Answers the state of
the assembly and whether the segment was malformed. -/
def RemoteSt.join (r : RemoteSt) (n offset total : Nat) (data : List Byte) : RemoteSt × Bool :=
  let r := if r.segs.isEmpty && !r.bad then { r with total := total } else r
  let right := decide (data.length = min n (total - offset))
  if total ≠ r.total ∨ offset % n ≠ 0 ∨ (total ≤ offset ∧ total ≠ 0) ∨ (total = 0 ∧ offset ≠ 0) ∨ ¬ right then ({ r with bad := true }, true)
  else if r.segs.any fun g => g.1 = offset then (r, false)
  else ({ r with segs := r.segs ++ [(offset, data)] }, false)

end Sys2Proof.Machine
end

