-- ==== Sys2Proof/Machine/MapBase.lean ====
section
/-! DEFINITION. The map: tiles and owners, map objects and their lists, tile images, epochs, the mirror stream and the
contributions of sessions (R16 to R26, R203, R206, R300, R395). -/

namespace Sys2Proof.Machine

/-! ## Tiles and views -/

/-- The order of tiles: (IY, IX) (R23). -/
def tileBefore (ax ay bx by_ : Int) : Bool := decide (ay < by_) || (decide (ay = by_) && decide (ax < bx))

/-- The tile at a coordinate. -/
def MapView.tile (v : MapView) (ix iy : Int) : Option Tile := v.tiles.find? fun t => t.ix = ix && t.iy = iy

/-- Put a tile into a list in (IY, IX) order. -/
def putTile (t : Tile) : List Tile → List Tile
  | [] => [t]
  | x :: r => if x.ix = t.ix ∧ x.iy = t.iy then t :: r else if tileBefore t.ix t.iy x.ix x.iy then t :: x :: r else x :: putTile t r

/-- Write a tile. -/
def MapView.setTile (v : MapView) (t : Tile) : MapView := { v with tiles := putTile t v.tiles }

/-- The index with a handle. -/
def MapView.index (v : MapView) (h : Nat) : Option Index := v.indexes.find? fun x => x.handle = h

/-- Change the index with a handle. -/
def MapView.updIndex (v : MapView) (h : Nat) (f : Index → Index) : MapView :=
  { v with indexes := updFirst (fun x => x.handle = h) f v.indexes }

/-- Change the recorded map. -/
def State.setCur (s : State) (v : MapView) : State := { s with map := { s.map with cur := v } }

/-- The recorded tile at a coordinate; one that nothing has written is empty and belongs to the member that led the array as the epoch before was
published, so that it too changes its owner at epoch boundaries only (R17, R18). DESIGN CHOICE. -/
def State.curTile (s : State) (ix iy : Int) : Tile :=
  (s.map.cur.tile ix iy).getD { ix := ix, iy := iy, owner := s.map.cur.leader }

/-- The owner of a tile in a view (R16). -/
def MapView.ownerOf (v : MapView) (ix iy : Int) : Nat := ((v.tile ix iy).map (·.owner)).getD v.leader

/-- Whether the device owns a tile in a view. -/
def State.ownsIn (s : State) (v : MapView) (ix iy : Int) : Bool := v.ownerOf ix iy = s.self

/-- Tiles the device owns, as recorded. -/
def State.owned (s : State) : List Tile := s.map.cur.tiles.filter fun t => t.owner = s.self

/-- The view of the latest published epoch. -/
def MapS.latest (m : MapS) : MapView := ((m.held.head?).map (·.2)).getD {}

/-- The oldest epoch held (R225). -/
def MapS.oldest (m : MapS) : Nat := ((m.held.getLast?).map (·.1)).getD 0

/-- The view of a held epoch. -/
def MapS.at (m : MapS) (e : Nat) : Option MapView := (m.held.find? fun h => h.1 = e).map (·.2)

/-- What the next publication starts from: the sealed change, or the latest epoch (R393). -/
def MapS.base (m : MapS) : MapView := m.sealedView.getD m.latest

/-- The epoch a change recorded now belongs to: E + 1, or E + 2 once E + 1 is sealed (R393). -/
def State.nextEpoch (s : State) : Nat := s.map.published + (if s.map.sealedView.isSome then 2 else 1)

/-- Whether commit points can be reached (R391). -/
def State.canCommit (s : State) : Bool := !s.fabric.isolated

/-- An access to a tile, counted for the device it came from in the epoch being filled (R308). -/
def State.access (s : State) (ix iy : Int) (dev : Nat) : State :=
  match s.map.cur.tile ix iy with
  | none => s
  | some t =>
    let e := s.map.published
    let acc := if t.accesses.any (fun a => a.1 = e && a.2.1 = dev) then
        updFirst (fun a => a.1 = e && a.2.1 = dev) (fun a => (a.1, a.2.1, a.2.2 + 1)) t.accesses
      else t.accesses ++ [(e, dev, 1)]
    s.setCur (s.map.cur.setTile { t with accesses := acc })

/-! ## Keyframes -/

/-- The keyframe with a key in a tile. -/
def Tile.keyframe (t : Tile) (key : Nat) : Option Keyframe := t.keyframes.find? fun k => k.key = key

/-- The tile of a view that holds a keyframe. -/
def MapView.homeOf (v : MapView) (key : Nat) : Option Tile := v.tiles.find? fun t => (t.keyframe key).isSome

/-- The keyframe with a key in a view. -/
def MapView.keyframe (v : MapView) (key : Nat) : Option Keyframe := (v.homeOf key).bind fun t => t.keyframe key

/-- Put a keyframe into a list by ascending KEY. -/
def putKeyframe (k : Keyframe) : List Keyframe → List Keyframe
  | [] => [k]
  | x :: r => if x.key = k.key then k :: r else if k.key < x.key then k :: x :: r else x :: putKeyframe k r

/-- Put a link into a list by ascending KEY_A then KEY_B; it replaces one from KEY_A to KEY_B. -/
def putLink (l : Link) : List Link → List Link
  | [] => [l]
  | x :: r =>
    if x.keyA = l.keyA ∧ x.keyB = l.keyB then l :: r
    else if l.keyA < x.keyA ∨ (l.keyA = x.keyA ∧ l.keyB < x.keyB) then l :: x :: r else x :: putLink l r

/-- Put an observation into a list by ascending KEY then NUMBER. -/
def putObs (o : Observation) : List Observation → List Observation
  | [] => [o]
  | x :: r => if o.key < x.key ∨ (o.key = x.key ∧ o.number < x.number) then o :: x :: r else x :: putObs o r

/-- A keyframe whose pose is changed now: VERSION is 1 above the one in the epoch it was last published in (R19). -/
def State.moved (s : State) (k : Keyframe) (p : Pose) : Keyframe :=
  match s.map.base.keyframe k.key with
  | some b => { k with pose := p, version := (b.version + 1) % 2 ^ 32 }
  | none => { k with pose := p }

/-! ## Lists and images -/

/-- Whether a keyframe is quarantined in a tile (R206). -/
def Tile.quarantined (t : Tile) (key : Nat) : Bool := (t.keyframe key).any fun k => k.quarantined

/-- The records of a tile for WHAT, with or without those of the array's quarantined keyframes (R22, R23). -/
def Tile.records (t : Tile) (quar : List Nat) (what : Nat) (excl : Bool) : List (List Byte) :=
  let out (key : Nat) : Bool := excl && (t.quarantined key || quar.contains key)
  if what = 2 then (t.keyframes.filter fun k => !out k.key).map Keyframe.bytes
  else if what = 3 then (t.links.filter fun l => !out l.keyA && !out l.keyB).map Link.bytes
  else if what = 4 then t.points.map MapPoint.bytes
  else (t.obs.filter fun o => !out o.key).map Observation.bytes

/-- Bytes of a record of WHAT (R20). -/
def recordSize (what : Nat) : Nat := if what = 2 then 64 else if what = 3 then 144 else if what = 4 then 56 else 24

/-- The 32 metadata bytes of an index entry (R214). -/
def Entry.metaBytes (e : Entry) : List Byte :=
  leBytes e.key 8 ++ leBytes e.time 8 ++ leBytes e.session 4 ++ leBytes (tc 16 e.ix) 2 ++ leBytes (tc 16 e.iy) 2 ++ leBytes e.kind 1 ++
    leBytes (b2n e.tomb + 2 * b2n e.quar) 1 ++ zeros 6

/-- An entry from CODE_BYTES code bytes and its metadata (R21, R214). -/
def entryOf (n : Nat) (b : List Byte) : Entry :=
  { code := (b.take n).map (·.toNat), key := fld b n 8, time := fld b (n + 8) 8, session := fld b (n + 16) 4, ix := sfld b (n + 20) 2,
    iy := sfld b (n + 22) 2, kind := fld b (n + 24) 1, tomb := bit (fld b (n + 25) 1) 0, quar := bit (fld b (n + 25) 1) 1 }

/-- The live entries of a tile in an index. -/
def Index.ofTile (x : Index) (ix iy : Int) : List Entry := x.entries.filter fun e => e.ix = ix && e.iy = iy && !e.tomb

/-- The image section of an index for a tile, none where it holds no entry of the tile (R21). -/
def Index.sectionOf (x : Index) (ix iy : Int) : Option (List Byte) :=
  let es := x.ofTile ix iy
  if es.isEmpty then none
  else some (leBytes x.handle 1 ++ leBytes x.m 1 ++ zeros 2 ++ leBytes es.length 4 ++ zeros 8 ++
    es.flatMap fun e => (e.code.map (BitVec.ofNat 8)) ++ e.metaBytes)

/-- The image of a tile in a view at an epoch (R21). -/
def tileImage (v : MapView) (t : Tile) (epoch size : Nat) : List Byte :=
  let secs := v.indexes.filterMap fun x => x.sectionOf t.ix t.iy
  let body := t.keyframes.flatMap Keyframe.bytes ++ t.links.flatMap Link.bytes ++ t.points.flatMap MapPoint.bytes ++
    t.obs.flatMap Observation.bytes ++ secs.flatten
  let head := leBytes 0x454C4954 4 ++ leBytes 1 2 ++ leBytes size 1 ++ zeros 1 ++ leBytes (tc 16 t.ix) 2 ++ leBytes (tc 16 t.iy) 2 ++ zeros 4 ++
    leBytes epoch 8 ++ leBytes t.keyframes.length 4 ++ leBytes t.links.length 4 ++ leBytes t.points.length 4 ++ leBytes t.obs.length 4 ++
    leBytes secs.length 4 ++ leBytes (64 + body.length) 4 ++ zeros 12
  head ++ leBytes (crc32 (head ++ body)) 4 ++ body

/-- The index sections of an image from an offset: handle, CODE_BYTES and entries; none where one runs past the end. -/
def imageSections : Nat → List Byte → Option (List (Nat × Nat × List Entry) × Nat)
  | 0, b => some ([], b.length)
  | n + 1, b =>
    let cb := fld b 1 1
    let count := fld b 4 4
    let len := 16 + count * (cb + 32)
    if b.length < len then none
    else match imageSections n (b.drop len) with
      | none => none
      | some (l, rest) => some ((fld b 0 1, cb, (cut (cb + 32) count (b.drop 16)).map (entryOf cb)) :: l, rest)

/-- A tile image taken apart: the tile's objects and its index sections; none where it is malformed (R21, R25 check 1). -/
def parseImage (b : List Byte) (imageBytes size : Nat) (ix iy : Int) : Option (Tile × List (Nat × Nat × List Entry)) :=
  let nk := fld b 24 4
  let nl := fld b 28 4
  let np := fld b 32 4
  let no := fld b 36 4
  let o1 := 64 + 64 * nk
  let o2 := o1 + 144 * nl
  let o3 := o2 + 56 * np
  let o4 := o3 + 24 * no
  if fld b 0 4 ≠ 0x454C4954 ∨ fld b 4 2 ≠ 1 ∨ fld b 6 1 ≠ size ∨ sfld b 8 2 ≠ ix ∨ sfld b 10 2 ≠ iy ∨ fld b 44 4 ≠ imageBytes ∨
      b.length ≠ imageBytes ∨ imageBytes < o4 ∨ crc32 (b.take 60 ++ b.drop 64) ≠ fld b 60 4 then none
  else match imageSections (fld b 40 4) (b.drop o4) with
    | none => none
    | some (secs, _) =>
      some ({ ix := ix, iy := iy, keyframes := (cut 64 nk (b.drop 64)).map keyframeOf, links := (cut 144 nl (b.drop o1)).map linkOf,
              points := (cut 56 np (b.drop o2)).map mapPointOf, obs := (cut 24 no (b.drop o3)).map observationOf }, secs)

/-! ## The mirror stream -/

/-- An entry with all that its slot holds: slot, generation, whether it is inlet, code, metadata and neighbour list (R214, R215, R216). -/
def Entry.full (e : Entry) : List Byte :=
  leBytes e.slot 4 ++ leBytes e.gen 1 ++ leBytes (b2n e.inlet) 1 ++ leBytes e.neigh.length 1 ++ e.code.map (BitVec.ofNat 8) ++ e.metaBytes ++
    e.neigh.flatMap fun g => leBytes g.1 4 ++ leBytes g.2 1

/-- n entries of m code bytes from such bytes, and what follows them. -/
def entriesOf (m : Nat) : Nat → List Byte → List Entry × List Byte
  | 0, b => ([], b)
  | n + 1, b =>
    let len := 39 + m + 5 * fld b 6 1
    let e : Entry := { entryOf m (b.drop 7) with
      slot := fld b 0 4, gen := fld b 4 1, inlet := bit (fld b 5 1) 0, neigh := (cut 5 (fld b 6 1) (b.drop (39 + m))).map fun g => (fld g 0 4, fld g 4 1) }
    let r := entriesOf m n (b.drop len)
    (e :: r.1, r.2)

/-- What an item carries of a tile besides its image: the next point number, each index's entries of the tile as their slots hold them, and the
generations of slots. DESIGN CHOICE, log entry 149: the spec does not lay an item out. -/
def itemTail (v : MapView) (t : Tile) : List Byte :=
  let of (x : Index) : List Entry := x.entries.filter fun e => e.ix = t.ix && e.iy = t.iy
  leBytes t.nextPoint 4 ++ leBytes v.indexes.length 1 ++
    (v.indexes.flatMap fun x => leBytes x.handle 1 ++ leBytes x.m 1 ++ leBytes (of x).length 4 ++ (of x).flatMap Entry.full) ++
    v.gens.flatMap fun g => leBytes g.1 4 ++ leBytes g.2 1

/-- The index parts of an item's tail: handle and entries, and what follows them. -/
def tailIndexes : Nat → List Byte → List (Nat × List Entry) × List Byte
  | 0, b => ([], b)
  | n + 1, b =>
    let r := entriesOf (fld b 1 1) (fld b 2 4) (b.drop 6)
    let q := tailIndexes n r.2
    ((fld b 0 1, r.1) :: q.1, q.2)

/-- An item of a tile: its image without index sections, and the tail (R387). -/
def tileItem (v : MapView) (t : Tile) (epoch size : Nat) : List Byte := tileImage { v with indexes := [] } t epoch size ++ itemTail v t

/-- A view with the contents that an item gives a tile, its entries included: none where the item is malformed. -/
def MapView.takeItem (v : MapView) (t : Tile) (size : Nat) (b : List Byte) : Option MapView :=
  let n := fld b 44 4
  match parseImage (b.take n) n size t.ix t.iy with
  | none => none
  | some (img, _) =>
    let tail := b.drop n
    let parts := tailIndexes (fld tail 4 1) (tail.drop 5)
    let v := v.setTile { t with keyframes := img.keyframes, links := img.links, points := img.points, obs := img.obs, nextPoint := fld tail 0 4 }
    let got (h : Nat) : List Entry := ((parts.1.find? fun p => p.1 = h).map (·.2)).getD []
    let gens := (cut 5 (parts.2.length / 5) parts.2).foldl (fun (g : Store Nat) r => Store.set (fun _ => 0) (fld r 0 4) (fld r 4 1) g) v.gens
    some { v with indexes := v.indexes.map (fun x => { x with entries := x.entries.filter (fun e => !(e.ix = t.ix && e.iy = t.iy)) ++ got x.handle }), gens := gens }

/-- The devices that receive a tile's stream: its mirror, and the target of its handover until it switches (R16, R310). -/
def Tile.streamTo (t : Tile) : List Nat :=
  let h := (t.handover.filter fun h => h.outgoing && (h.state = .copying || h.state = .synced)).map (·.peer)
  (t.mirror.toList ++ h.toList).eraseDups

/-- The stream to a peer, new where there is none. -/
def State.streamTo (s : State) (peer : Nat) : Stream := (s.fabric.outStreams.find? fun x => x.peer = peer).getD { peer := peer }

/-- Write the stream to a peer. -/
def State.setStream (s : State) (x : Stream) : State :=
  let l := s.fabric.outStreams
  let l' := if l.any (fun y => y.peer = x.peer) then updFirst (fun y => y.peer = x.peer) (fun _ => x) l else l ++ [x]
  { s with fabric := { s.fabric with outStreams := l' } }

/-- Send one item of the stream to a peer with a given ITEM_SEQ: the tile as recorded (R387, R395). -/
def State.sendItem (s : State) (peer seq : Nat) (ix iy : Int) (epoch : Nat) : State :=
  s.sendFz 0x10 3 peer 0
    (beBytes seq 4 ++ tileBe ix iy ++ beBytes epoch 8 ++ tileItem s.map.cur (s.curTile ix iy) epoch s.tileSize)

/-- Stream a tile's change to its mirror and to its handover target (R16, R310, R395). -/
def State.stream (s : State) (ix iy : Int) : State :=
  (s.curTile ix iy).streamTo.foldl (fun s peer =>
    let x := s.streamTo peer
    let n := (x.seq + 1) % 2 ^ 32
    (s.setStream { x with seq := n, items := x.items ++ [(n, ix, iy, s.nextEpoch)] }).sendItem peer n ix iy s.nextEpoch) s

/-- The mirror whose acknowledgement a tile's changes wait for (R411): none while it is syncing. -/
def Tile.liveMirror (t : Tile) : Option Nat := if t.syncing then none else t.mirror

/-- The items sent to live mirrors between two states, as peers and ITEM_SEQs (R411). -/
def State.ackNeeds (s old : State) : List (Nat × Nat) :=
  s.fabric.outStreams.filterMap fun x =>
    let before := (old.streamTo x.peer).seq
    if x.seq ≠ before ∧ x.items.any (fun i => before < i.1 && (s.curTile i.2.1 i.2.2.1).liveMirror = some x.peer) then some (x.peer, x.seq) else none

/-- An operation's change waits for its mirrors' acknowledgements (R411). -/
def State.awaitAcks (s : State) (w : AckWait) : State := { s with fabric := { s.fabric with ackWaits := s.fabric.ackWaits ++ [w] } }

/-- An operation whose change is done completes, at once or when the mirrors have acknowledged (R411). -/
def State.finishAcked (s old : State) (op : Nat) (r : Res) : State :=
  let needs := s.ackNeeds old
  if needs.isEmpty then s.complete op r
  else ((s.awaitAcks { op := some op, status := r.status, count := r.count, detail := r.detail, needs := needs }).commit op).await op

/-- Record a tile and stream the change. -/
def State.record (s : State) (t : Tile) : State := (s.setCur (s.map.cur.setTile t)).stream t.ix t.iy

/-! ## Contributions (R203, R239, R300) -/

/-- Where a pose lies (R14, R15). -/
def State.tileAt (s : State) (p : Pose) : Int × Int := (tileOf s.tileSize p.x, tileOf s.tileSize p.y)

/-- The keyframe enters its home tile at its owner, its mask not yet complete; its observation counts as an access (R19, R203,
R308). -/
def State.addKeyframe (s : State) (k : Keyframe) (dev : Nat) : State :=
  let t := s.curTile k.ix k.iy
  (s.record { t with keyframes := putKeyframe k t.keyframes }).access k.ix k.iy dev

/-- A descriptor of the device's own, for work at another member that no host operation asked for. DESIGN CHOICE: the spec gives
no message for a contribution to a tile that another member owns. -/
def ownDesc (edit : Nat) (ix iy : Int) (key : Nat) : List Byte :=
  [0x19] ++ zeros 1 ++ leBytes 2 1 ++ zeros 13 ++ leBytes edit 1 ++ zeros 3 ++ leBytes (tc 16 ix) 2 ++ leBytes (tc 16 iy) 2 ++ leBytes key 8 ++ zeros 32

/-- Ask a member for work whose answer nothing waits for (R388). -/
def State.tell (s : State) (peer cls : Nat) (desc data : List Byte) : State :=
  (segments 65448 data).foldl (fun s g => s.sendFz 0x03 cls peer 0 (beBytes g.1 4 ++ beBytes data.length 4 ++ desc ++ g.2)) s

/-- A map point of its own tile: its position and its descriptor. -/
structure NewPoint where
  ix : Int
  iy : Int
  pos : Int × Int × Int
  desc : List Byte

/-- A position in the 48-bit coordinates of R11. -/
def pos48 (p : Int × Int × Int) : Int × Int × Int := (sext 48 (tc 48 p.1), sext 48 (tc 48 p.2.1), sext 48 (tc 48 p.2.2))

/-- The new point of a keyframe's feature lies in the tile of its position (R19). -/
def State.newPoint (s : State) (key : Nat) (f : Nat × Nat × List Byte) : NewPoint :=
  let p := pos48 (Config.pointAt key f)
  { ix := tileOf s.tileSize p.1, iy := tileOf s.tileSize p.2.1, pos := p, desc := f.2.2 }

/-- A new point enters its tile at the owner, with the tile's next number (R19). -/
def State.addPoint (s : State) (p : NewPoint) : State :=
  let t := s.curTile p.ix p.iy
  let m : MapPoint := { number := t.nextPoint, x := p.pos.1, y := p.pos.2.1, z := p.pos.2.2, observed := 1, desc := p.desc }
  s.setCur (s.map.cur.setTile { t with points := t.points ++ [m], nextPoint := t.nextPoint + 1 })

/-- An observation enters the tile of its keyframe (R19). -/
def State.addObs (s : State) (ix iy : Int) (o : Observation) : State :=
  let t := s.curTile ix iy
  s.setCur (s.map.cur.setTile { t with obs := putObs o t.obs })

/-- One observation of a keyframe: of an existing map point of the tile or of a new one, which is free (R19, R300). The new point of a tile that
another member owns is asked for there; its answer brings the observation (DESIGN CHOICE, log entry 150). -/
def State.observe (s : State) (ix iy : Int) (key : Nat) (f : Nat × Nat × List Byte) : State × List (Int × Int) :=
  let t := s.curTile ix iy
  let cand := Config.given 19 [(key : Int), f.1, f.2.1]
  if t.points.any (fun p => p.number = cand) then
    let s := s.setCur (s.map.cur.setTile { t with points := updFirst (fun p => p.number = cand) (fun p => { p with observed := p.observed + 1 }) t.points })
    (s.addObs ix iy { key := key, number := cand, u := f.1, v := f.2.1, ix := ix, iy := iy }, [])
  else
    let p := s.newPoint key f
    if s.ownsIn s.map.cur p.ix p.iy then
      ((s.addPoint p).addObs ix iy { key := key, number := (s.curTile p.ix p.iy).nextPoint, u := f.1, v := f.2.1, ix := p.ix, iy := p.iy }, [(p.ix, p.iy)])
    else (s.tell (s.map.cur.ownerOf p.ix p.iy) 2 (ownDesc 0x7C p.ix p.iy key) (leBytes f.1 2 ++ leBytes f.2.1 2 ++ f.2.2), [])

/-- The mask of a keyframe is complete: the observations of the pixels it leaves are written (R300). -/
def State.addObservations (s : State) (ix iy : Int) (key : Nat) (fs : List (Nat × Nat × List Byte)) (dev : Nat) : State :=
  let t := s.curTile ix iy
  let s := s.setCur (s.map.cur.setTile { t with keyframes := updFirst (fun k => k.key = key) (fun k => { k with maskPending := false }) t.keyframes })
  let r := fs.foldl (fun (r : State × List (Int × Int)) f => let q := r.1.observe ix iy key f; (q.1, r.2 ++ q.2)) (s, [])
  ((((ix, iy) :: r.2).eraseDups).foldl (fun (s : State) c => s.stream c.1 c.2) r.1).access ix iy dev

/-- A point of another member's keyframe is asked for: it enters its tile, and its number goes back with the observation (R19). -/
def State.pointAsked (s : State) (peer key : Nat) (b : List Byte) : State :=
  let f := (fld b 0 2, fld b 2 2, slice b 4 32)
  let p := s.newPoint key f
  if s.ownsIn s.map.cur p.ix p.iy then
    let n := (s.curTile p.ix p.iy).nextPoint
    ((s.addPoint p).stream p.ix p.iy).tell peer 2 (ownDesc 0x7B p.ix p.iy key) (b.take 4 ++ leBytes n 4)
  else s

/-- The number of such a point comes back: the observation enters the keyframe's tile. -/
def State.pointGiven (s : State) (ix iy : Int) (key : Nat) (b : List Byte) : State :=
  match s.map.cur.homeOf key with
  | some t =>
    if t.owner = s.self then (s.addObs t.ix t.iy { key := key, number := fld b 4 4, u := fld b 0 2, v := fld b 2 2, ix := ix, iy := iy }).stream t.ix t.iy else s
  | none => s

/-! ## Free bytes -/

/-- n free bytes. -/
def freeBytes (from_ : Nat) : Nat → List Byte
  | 0 => []
  | n + 1 => BitVec.ofNat 8 (Config.freeNat from_) :: freeBytes (from_ + 1) n

end Sys2Proof.Machine
end

