-- ==== Sys2Proof/Machine/TierBase.lean ====
section
/-! DEFINITION. The frames of the lake and the basin (R322, R327, R330, R332, R334): how many there are, which are taken by the
home frames of parcels, by promotions and by the device's own objects, and which an allocation may take. -/

namespace Sys2Proof.Machine

/-- Whether a parcel number lies in the lake region (R321). -/
def inLake (p : Nat) : Bool := decide (0x100000 ≤ p ∧ p < 0x500000)

/-- Parcels of the basin region of a part (R321). -/
def Part.basinParcels (p : Part) : Nat := p.basinGb * 16384

/-- Whether a parcel number lies in the basin region (R321). -/
def State.inBasin (s : State) (p : Nat) : Bool := decide (p < s.chip.part.basinParcels)

/-- Frames of the usable lake: 31/32 of 8 channels (R332). -/
def State.lakeFrames (s : State) : Nat := s.power.options.lake * 8 * 16384 * 31 / 32

/-- Whole 64 KB parcels of n bytes. -/
def parcelsFor (n : Nat) : Nat := (n + 65535) / 65536

/-- The bound slots of a version: the object they are, by handle, set, slot and binding version, and their parcels (R290). -/
def WeightSet.keys (w : WeightSet) (h : Nat) : List (List Nat × Nat) :=
  w.slots.zipIdx.filterMap fun p => p.1.map fun v => ([1, h, w.set, p.2, v.1], parcelsFor v.2.length)

/-- The bound slots of the weight-set versions a program holds or an INFER still uses, each once (R290, R291). -/
def State.weightKeys (s : State) : List (List Nat × Nat) :=
  ((s.matrix.progs.flatMap fun p => p.sets.flatMap fun w => w.keys p.handle) ++ s.matrix.infers.flatMap fun i => i.weights.keys i.handle).eraseDups

/-- Bytes of an entry of an index (R214). -/
def Index.entryBytes (x : Index) : Nat := x.m + 5 * x.degree + 32

/-- Parcels of the device's copy of an index (R214, R327). -/
def Index.parcels (x : Index) (n : Nat) : Nat := parcelsFor (n * x.entryBytes)

/-- The pool objects whose parcels a wish can name: weight slots, schedule images, and the device's shards of an index (R351). -/
def State.poolKeys (s : State) : List (List Nat × Nat) :=
  s.weightKeys ++ (s.abacus.scheds.map fun x => ([2, x.handle], parcelsFor x.image.length)) ++
    s.map.cur.indexes.map fun x => ([3, x.handle], x.parcels x.entries.length)

/-- The wishes held on an object: those of the weight set's earlier parcels, since a wish covers every version (R351). -/
def Tiers.wishesOn (t : Tiers) (key : List Nat) : List (Nat × Wish) :=
  ((t.parcels.find? fun q => q.owner ≠ [] && q.owner.take 3 = key.take 3).map (·.wishes)).getD []

/-- An object holds as many parcels as it needs: new ones take the wishes held on it, those beyond its size are freed (R322, R327). -/
def Tiers.sized (t : Tiers) (k : List Nat × Nat) (wishes : List (Nat × Wish)) : Tiers :=
  let have_ := t.parcels.filter fun q => q.owner = k.1
  let kept := have_.take k.2
  let fresh := (List.range (k.2 - have_.length)).map fun i => ({ num := 0x800000 + t.nextPool + i, owner := k.1, wishes := wishes } : Parcel)
  { t with parcels := (t.parcels.filter fun q => q.owner ≠ k.1 || kept.any fun p => p.num = q.num) ++ fresh, nextPool := t.nextPool + fresh.length }

/-- Parcels of pool objects that are gone are freed, and each object has the parcels of its size (R322, R327). -/
def State.syncPool (s : State) : State :=
  let keys := s.poolKeys
  let kept := s.tiers.parcels.filter fun q => q.owner = [] || keys.any fun k => k.1 = q.owner
  { s with tiers := keys.foldl (fun (t : Tiers) k => t.sized k (s.tiers.wishesOn k.1)) { s.tiers with parcels := kept } }

/-- The schedule images held: those loaded, and those dropped that a running solve still uses (R249). -/
def State.heldScheds (s : State) : List Sched :=
  s.abacus.scheds ++ ((s.abacus.running.map (·.sched)).filter fun x => !s.abacus.scheds.contains x).eraseDups

/-- Lake frames taken by the device's own objects (R327). -/
def State.poolUsed (s : State) : Nat :=
  (s.matrix.progs.map fun p => parcelsFor p.image.length).sum + (s.heldScheds.map fun x => parcelsFor x.image.length).sum +
    (s.weightKeys.map (·.2)).sum +
    (s.map.cur.tiles.map fun t => Config.objectFrames 0 (t.keyframes.length + t.links.length + t.points.length + t.obs.length)).sum +
    (s.map.cur.indexes.map fun x => x.parcels x.entries.length).sum +
    (s.sess.list.map fun x => Config.objectFrames 2 x.id).sum

/-- Free lake frames (R327, POOL_FREE). -/
def State.lakeFree (s : State) : Nat :=
  s.lakeFrames - s.tiers.retiredLake.length - (s.tiers.parcels.filter fun q => inLake q.num && q.owner = []).length - s.poolUsed

/-- POOL_RESERVE in frames (R354). -/
def State.poolReserve (s : State) : Nat := s.regF 0x3008 0 15 0 * 256

/-- Whether work of a class may take n lake frames (R327). -/
def State.poolFits (s : State) (cls n : Nat) : Bool :=
  if cls ≤ 1 then decide (n ≤ s.lakeFree) else decide (n + s.poolReserve ≤ s.lakeFree)

/-- Whether a parcel holds a basin frame above its home frame (R335). -/
def Parcel.inUpperBasin (q : Parcel) : Bool := q.upper = some .basin || q.newUpper = some .basin

/-- The bits of an address that number pseudo-channels: 5 for two stacks, 4 for one (R331). -/
def Part.pcBits (p : Part) : Nat := if p.basinGb = 32 then 5 else 4

/-- The pseudo-channel of a byte offset in the basin (R331): on the HV-8312 bit 4 selects the stack. -/
def Part.basinPc (p : Part) (b : Nat) : Nat := bits b (8 + p.pcBits) 9 ^^^ bits b (15 + p.pcBits) 16

/-- The offset within the pseudo-channel (R331). -/
def Part.basinOffset (p : Part) (b : Nat) : Nat := bits b (29 + p.pcBits) (9 + p.pcBits) * 2 ^ 9 ||| bits b 8 0

/-- The lake channel of a byte offset in the usable lake (R333). -/
def lakeChannel (a : Nat) : Nat := bits a 10 8 ^^^ bits a 18 16 ^^^ bits a 26 24 ^^^ bits a 34 32

/-- The offset within the lake channel (R333). -/
def lakeOffset (a : Nat) : Nat := bits a 37 11 * 2 ^ 8 ||| bits a 7 0

/-- Free basin frames (R330). -/
def State.basinFree (s : State) : Nat :=
  s.chip.part.basinParcels - s.tiers.retiredBasin.length -
    (s.tiers.parcels.filter fun q => (s.inBasin q.num && q.owner = []) || q.inUpperBasin).length

/-- An allocation of a program or schedule image that the pool cannot hold fails (R327); the chapters give no detail word for it,
so it is free. -/
def State.poolShort (s : State) : Res := Res.bound (Config.freeNat s.free % 2 ^ 64)

end Sys2Proof.Machine
end

