-- ==== Sys2Proof/Machine/IndexBase.lean ====
section
/-! DEFINITION. Vector indexes: encoding (R214), distance arithmetic (R218), ranking (R219), the search of a shard (R221, R222),
inserts and deletes (R223, R235 to R239) and settling (R224). -/

namespace Sys2Proof.Machine

/-! ## Encoding -/

/-- FP32 squared L2 distance in dimension order, each step rounded (R214). -/
def sqDist : List Word → List Word → Word → Word
  | a :: t, b :: u, acc => let d := F32.sub a b; sqDist t u (F32.add acc (F32.mul d d))
  | _, _, acc => acc

/-- FP32 inner product in dimension order, each step rounded (R218). -/
def dotProd : List Word → List Word → Word → Word
  | a :: t, b :: u, acc => dotProd t u (F32.add acc (F32.mul a b))
  | _, _, acc => acc

/-- The position of the smallest of a list of words, ties to the lower. -/
def argMin : List Word → Nat → Nat × Word → Nat
  | [], _, best => best.1
  | w :: t, i, best => argMin t (i + 1) (if F32.lt w best.2 then (i, w) else best)

/-- The position of the smallest of a list of words, ties to the lower. -/
def nearest : List Word → Nat
  | [] => 0
  | w :: t => argMin t 1 (0, w)

/-- n-word blocks of a list. -/
def blocks (n : Nat) (l : List Word) : Nat → List (List Word)
  | 0 => []
  | c + 1 => l.take n :: blocks n (l.drop n) c

/-- The coarse centroids (R213). -/
def Index.coarse (x : Index) : List (List Word) := blocks x.dim x.codebook x.cells

/-- Dimensions of a subquantiser. -/
def Index.sub (x : Index) : Nat := x.dim / x.m

/-- The 256 centroids of subquantiser i (R213). -/
def Index.centroids (x : Index) (i : Nat) : List (List Word) := blocks x.sub (x.codebook.drop (x.cells * x.dim + i * 256 * x.sub)) 256

/-- The coarse cell of a vector (R214). -/
def Index.cellOf (x : Index) (v : List Word) : Nat := nearest (x.coarse.map fun c => sqDist v c 0)

/-- The code of a vector (R214). -/
def Index.encode (x : Index) (v : List Word) : List Nat :=
  (List.range x.m).map fun i => nearest ((x.centroids i).map fun c => sqDist ((v.drop (i * x.sub)).take x.sub) c 0)

/-- The vector a code stands for (R241). -/
def Index.decode (x : Index) (code : List Nat) : List Word :=
  (List.range x.m).flatMap fun i => ((x.centroids i)[(code[i]?).getD 0]?).getD []

/-! ## Distances -/

/-- One row of the table of R218, its minimum subtracted. -/
def Index.row (x : Index) (q : List Word) (i : Nat) : List Word :=
  let part := (q.drop (i * x.sub)).take x.sub
  let t := (x.centroids i).map fun c => if x.metric = 0 then sqDist part c 0 else F32.negate (dotProd part c 0)
  let m := (t[nearest t]?).getD 0
  t.map fun w => F32.sub w m

/-- The largest of a list of words that are not negative. -/
def maxWord (l : List Word) : Word := l.foldl (fun a b => if F32.lt a b then b else a) 0

/-- The integer table of R218 and S. Where a table value overflows FP32 the spec states no result: the table and S are free functions of the index and
the query. -/
def Index.table (x : Index) (q : List Word) : List (List Nat) × Word :=
  let rows := (List.range x.m).map fun i => x.row q i
  let top := maxWord rows.flatten
  let inputs : List Int := (q ++ x.codebook).map fun w => (w.toNat : Int)
  let open_ := (List.range x.m).map fun i => (List.range 256).map fun c => Config.given 218 ((i : Int) :: (c : Int) :: inputs) % 65536
  if rows.flatten.all F32.finite then
    let sc := if F32.isZero top then 0x3F800000 else F32.div (F32.ofInt 65535) top
    if F32.finite sc then (rows.map fun r => r.map fun w => (F32.floorHalf (F32.mul w sc)).toNat, sc)
    else (open_, sc)
  else (open_, BitVec.ofNat 32 (Config.given 218 inputs))

/-- DIST of a code: the exact sum over its bytes (R218). -/
def distOf (table : List (List Nat)) (code : List Nat) : Nat :=
  (List.zipWith (fun (r : List Nat) (c : Nat) => (r[c]?).getD 0) table code).sum

/-! ## The search of a shard -/

/-- The filters of a query (R228): rectangles, a time window, kinds, and whether quarantined entries are left out. -/
structure Filters where
  tiles : Option (List (Int × Int × Int × Int)) := none
  time : Option (Nat × Nat) := none
  kinds : Option Nat := none
  noQuar : Bool := false
  deriving DecidableEq, Repr

/-- Whether a tile lies in one of the rectangles. -/
def inRects (rs : List (Int × Int × Int × Int)) (ix iy : Int) : Bool :=
  rs.any fun r => decide (r.1 ≤ ix ∧ ix ≤ r.2.2.1 ∧ r.2.1 ≤ iy ∧ iy ≤ r.2.2.2)

/-- Whether an entry is returnable (R221). -/
def Filters.admits (f : Filters) (e : Entry) : Bool :=
  !e.tomb && (f.tiles.all fun rs => inRects rs e.ix e.iy) && (f.time.all fun w => decide (w.1 ≤ e.time ∧ e.time ≤ w.2)) &&
    (f.kinds.all fun m => bit m e.kind) && (!f.noQuar || !e.quar)

/-- The parameters of a shard search. -/
structure SearchPar where
  k : Nat := 1
  beam : Nat := 64
  entry : Nat := 4
  probes : Nat := 8
  maxVisits : Nat := 4096
  deriving DecidableEq, Repr

/-- A node in a beam or a result: DIST, and the entry. -/
abbrev Scored := Nat × Entry

/-- The order of R219 within one shard: DIST, then KEY. -/
def better (a b : Scored) : Bool := decide (a.1 < b.1) || (decide (a.1 = b.1) && decide (a.2.key < b.2.key))

/-- Insert into a ranked list. -/
def rank (x : Scored) : List Scored → List Scored
  | [] => [x]
  | y :: r => if better x y then x :: y :: r else y :: rank x r

/-- A search in progress: beam, slots expanded, slots visited, result, visits and stale edges (R221). -/
structure Walk where
  beam : List Scored := []
  expanded : List Nat := []
  visited : List Nat := []
  result : List Scored := []
  visits : Nat := 0
  stale : Nat := 0
  deriving DecidableEq, Repr

/-- visit(s) of R221. -/
def Walk.visit (w : Walk) (par : SearchPar) (f : Filters) (table : List (List Nat)) (e : Entry) : Walk :=
  let x : Scored := (distOf table e.code, e)
  { w with visited := e.slot :: w.visited, visits := w.visits + 1, beam := (rank x w.beam).take par.beam,
           result := if f.admits e then (rank x w.result).take par.k else w.result }

/-- The edges of an expanded node, in list order (R221, R222). -/
def Walk.edges (par : SearchPar) (f : Filters) (table : List (List Nat)) (nodes : List Entry) (gens : Store Nat) : List (Nat × Nat) → Walk → Walk
  | [], w => w
  | (slot, gen) :: r, w =>
    if Store.get (fun _ => 0) slot gens ≠ gen then Walk.edges par f table nodes gens r { w with stale := w.stale + 1 }
    else if w.visited.contains slot then Walk.edges par f table nodes gens r w
    else match nodes.find? fun e => e.slot = slot with
      | some e => Walk.edges par f table nodes gens r (w.visit par f table e)
      | none => Walk.edges par f table nodes gens r w

/-- The expansion loop of R221; the fuel is the number of nodes. -/
def Walk.expand (par : SearchPar) (f : Filters) (table : List (List Nat)) (nodes : List Entry) (gens : Store Nat) : Nat → Walk → Walk
  | 0, w => w
  | n + 1, w =>
    if par.maxVisits ≤ w.visits then w
    else match w.beam.find? fun x => !w.expanded.contains x.2.slot with
      | none => w
      | some x => Walk.expand par f table nodes gens n (Walk.edges par f table nodes gens x.2.neigh { w with expanded := x.2.slot :: w.expanded })

/-- Insert into a list of cells by distance, ties to the lower cell. -/
def rankCell (c : Nat × Word) : List (Nat × Word) → List (Nat × Word)
  | [] => [c]
  | d :: r => if F32.lt c.2 d.2 then c :: d :: r else d :: rankCell c r

/-- The PROBES cells nearest a query (R221). -/
def Index.nearCells (x : Index) (q : List Word) (n : Nat) : List Nat :=
  ((((x.coarse.map fun c => sqDist q c 0).zipIdx).foldl (fun l w => rankCell (w.2, w.1) l) []).take n).map (·.1)

/-- Search the device's shard of an index, the entries it owns, with the generations of the slots (R221). -/
def Index.searchShard (x : Index) (gens : Store Nat) (own : Entry → Bool) (q : List Word) (par : SearchPar) (f : Filters) (table : List (List Nat)) : Walk :=
  let mine := x.entries.filter own
  let nodes := mine.filter fun e => !e.inlet
  let seed := (x.nearCells q par.probes).flatMap fun c =>
    ((((x.entryNodes.find? fun p => p.1 = c).map (·.2)).getD []).take par.entry).filterMap fun sl => nodes.find? fun e => e.slot = sl
  let w := seed.foldl (fun (w : Walk) e => if w.visited.contains e.slot then w else w.visit par f table e) {}
  let w := Walk.expand par f table nodes gens (nodes.length + 1) w
  (mine.filter fun e => e.inlet && f.admits e).foldl (fun (w : Walk) e =>
    { w with result := (rank (distOf table e.code, e) w.result).take par.k }) w

/-- A result record of an entry (R229). -/
def Scored.rec_ (x : Scored) : SearchRec :=
  { key := x.2.key, dist := x.1, session := x.2.session, time := x.2.time, ix := x.2.ix, iy := x.2.iy, kind := x.2.kind, inlet := x.2.inlet }

/-! ## Inserts and deletes -/

/-- Entries the inlet list holds (R223, R242). -/
def MapView.inletUsed (v : MapView) : Nat := (v.indexes.map fun x => (x.entries.filter fun e => e.inlet).length).sum

/-- SETTLE_INLET in entries (R242). -/
def State.settleInlet (s : State) : Nat := 1024 * clampN 1 4096 (s.regF 0xC008 0 15 0)

/-- Entries of the device's shard of an index, as recorded. -/
def State.shard (s : State) (x : Index) : List Entry := x.entries.filter fun e => s.ownsIn s.map.cur e.ix e.iy

/-- Slots that hold an entry, over all indexes, owned and mirrored (R215). -/
def MapView.slotsUsed (v : MapView) : List Nat := v.indexes.flatMap fun x => x.entries.map (·.slot)

/-- The first number from n on, of at most k, that is not in use. -/
def nextFree (used : Nat → Bool) (n : Nat) : Nat → Nat
  | 0 => n
  | k + 1 => if used n then nextFree used ((n + 1) % 2 ^ 25) k else n

/-- The next slot of a device: a slot keeps its number through handover and in the mirror (R216), so a device numbers its own slots apart from those of
the other members: number × 64 + array ID (DESIGN CHOICE, log entry 148). -/
def MapView.newSlot (v : MapView) (self : Nat) : Nat :=
  let used := v.slotsUsed
  nextFree (fun n => used.contains (n * 64 + self % 64)) v.nextSlot used.length * 64 + self % 64

/-- Append an entry to the inlet list of an index, in a new slot of a device (R223). -/
def MapView.append (v : MapView) (self h : Nat) (e : Entry) : MapView :=
  let slot := v.newSlot self
  let put (x : Index) : Index := { x with entries := x.entries ++ [{ e with slot := slot, gen := Store.get (fun _ => 0) slot v.gens, inlet := true }] }
  { v.updIndex h put with nextSlot := (slot / 64 + 1) % 2 ^ 25 }

/-- Whether a slot and the tiers have room for one more entry of an index (R215, R327). -/
def State.entryFits (s : State) (x : Index) : Bool :=
  let n := x.entries.length
  decide (s.map.cur.slotsUsed.length < 2 ^ 25) && decide (x.parcels (n + 1) ≤ s.lakeFree + x.parcels n)

/-- Ask for settling of every shard at or above SETTLE_INLET, when the inlet list is full (R238). -/
def State.inletFull (s : State) : State :=
  let ask (x : Index) : Index :=
    if s.settleInlet ≤ ((s.shard x).filter fun e => e.inlet).length then { x with settling := { x.settling with asked := true } } else x
  (s.setCur { s.map.cur with indexes := s.map.cur.indexes.map ask }).bump Ctr.inletFull

/-- Insert an entry into the device's shard: done, key already live, which only its own shard shows, or list full (R217, R237, R238); with no slot or lake frame left the outcome is
that of a full list (DESIGN CHOICE, log entry 148). -/
def State.insertEntry (s : State) (h : Nat) (e : Entry) : State × Nat :=
  match s.map.cur.index h with
  | none => (s, 4)
  | some x =>
    if (s.shard x).any fun y => y.key = e.key && !y.tomb then (s, 1)
    else if 4194304 ≤ s.map.cur.inletUsed then (s.inletFull, 2)
    else if !s.entryFits x then (s, 2)
    else ((s.setCur (s.map.cur.append s.self h e)).stream e.ix e.iy, 0)

/-- Delete the live entry with a key in a tile's shard (R236, R237). -/
def State.deleteEntry (s : State) (h key : Nat) (ix iy : Int) : State × Nat :=
  match s.map.cur.index h with
  | none => (s, 4)
  | some x =>
    if (s.shard x).any fun y => y.key = key && !y.tomb then
      let mark (x : Index) : Index :=
        { x with entries := x.entries.map fun y => if y.key = key && !y.tomb && s.ownsIn s.map.cur y.ix y.iy then { y with tomb := true } else y }
      ((s.setCur (s.map.cur.updIndex h mark)).stream ix iy, 0)
    else (s, 1)

/-- The place embedding of a keyframe enters handle 1, or is counted where handle 1 does not exist (R212, R239). -/
def State.insertPlace (s : State) (k : Keyframe) : State :=
  match s.map.cur.index 1 with
  | none => s.bump Ctr.placeIndexMissing
  | some x =>
    let e : Entry := { code := x.encode (Config.placeEmbedding k.key), key := k.key, time := k.capture, session := k.key / 2 ^ 32, ix := k.ix, iy := k.iy,
                       kind := k.kind }
    (s.insertEntry 1 e).1

/-! ## Settling -/

/-- Whether a pass is due on the device's shard (R224). -/
def State.settleDue (s : State) (x : Index) : Bool :=
  let es := s.shard x
  let inlets := (es.filter fun e => e.inlet).length
  let tombs := (es.filter fun e => e.tomb).length
  let auto_ := bit (s.reg 0xC008 0) 24
  x.settling.asked || !x.settling.nextOps.isEmpty ||
    (auto_ && (decide (s.settleInlet ≤ inlets) || (decide (0 < tombs) && decide (es.length * clampN 1 100 (s.regF 0xC008 0 22 16) ≤ 100 * tombs))))

/-- The entry nodes of each cell: up to 16 settled live nodes nearest its centroid, ties to the lower KEY (R220). -/
def Index.reseed (x : Index) (own : Entry → Bool) : Index :=
  let live := x.entries.filter fun e => own e && !e.inlet && !e.tomb
  let rankBy (c : List Word) : List (Entry × Word) := live.foldl (fun l e =>
    let d := sqDist (x.decode e.code) c 0
    let lt (p : Entry × Word) : Bool := F32.lt p.2 d || (!F32.lt d p.2 && decide (p.1.key < e.key))
    l.filter lt ++ (e, d) :: l.filter fun p => !lt p) []
  { x with entryNodes := x.coarse.zipIdx.map fun c => (c.2, ((rankBy c.1).take 16).map fun p => p.1.slot) }

/-- The neighbour list of a node as settling writes it: slots it chooses freely among the settled nodes of the shard, with their generations
(R220, R224). -/
def Index.relink (x : Index) (own : Entry → Bool) (gens : Store Nat) (e : Entry) : Entry :=
  let settled := x.entries.filter fun y => own y && !y.inlet && y.slot ≠ e.slot
  let pick := (Config.neighbours x e.slot).eraseDups.filter fun sl => settled.any fun y => y.slot = sl
  { e with neigh := (pick.take x.degree).map fun sl => (sl, Store.get (fun _ => 0) sl gens) }

/-- Slots within n hops of a set of slots. -/
def Index.hops (x : Index) : Nat → List Nat → List Nat
  | 0, l => l
  | n + 1, l => x.hops n (l ++ (x.entries.filter fun e => l.contains e.slot).flatMap fun e => e.neigh.map (·.1)).eraseDups

/-- One inlet entry enters the graph with a neighbour list. -/
def Index.mergeOne (own : Entry → Bool) (gens : Store Nat) (x : Index) (slot : Nat) : Index :=
  { x with entries := x.entries.map fun e => if e.slot = slot then { x.relink own gens e with inlet := false } else e }

/-- The merge of a pass: taken inlet entries enter the graph in append order; taken tombstones leave it and free their slots, whose generations go up;
and the lists of nodes within two hops of each merged or removed node are written again (R215, R224). -/
def Index.settle (x : Index) (own : Entry → Bool) (gens : Store Nat) : Index × Store Nat :=
  let st := x.settling
  let merged := st.takenInlet.foldl (Index.mergeOne own gens) x
  let near := merged.hops 2 (st.takenInlet ++ st.takenTomb).eraseDups
  let gone := st.takenTomb
  let gens' := gone.foldl (fun g sl => Store.set (fun _ => 0) sl ((Store.get (fun _ => 0) sl g + 1) % 256) g) gens
  let y := { merged with entries := merged.entries.filter fun e => !gone.contains e.slot }
  let y := { y with entries := y.entries.map fun (e : Entry) => if near.contains e.slot && !e.inlet && own e then y.relink own gens' e else e }
  (y.reseed own, gens')

end Sys2Proof.Machine
end

