-- ==== Sys2Proof/Machine/SessionOps.lean ====
section
/-! DEFINITION. SESSION_OPEN, SESSION_KEY, every subop of SESSION_TUNE (R110 to R119, R153, R174, R208) and
FRAME_SUBMIT (R140, R141). -/

namespace Sys2Proof.Machine

/-- The first outcome of a list of checks. -/
def firstRes (l : List (Option Res)) : Option Res := l.findSome? id

/-- A field check: BAD_DESCRIPTOR with reason 0x05 at an offset when the field is not good (R86). -/
def need (good : Bool) (off : Nat) : Option Res := if good then none else some (Res.field off)

/-- 0 or within lo to hi. -/
def zeroOr (lo hi v : Nat) : Bool := v = 0 || (lo ≤ v && v ≤ hi)

/-- v within lo to hi. -/
def within (lo hi v : Nat) : Bool := lo ≤ v && v ≤ hi

/-- A value brought into an FP32 range, a non-finite one replaced by the reset value (R210). -/
def clampF (lo hi reset v : Word) : Word :=
  if !F32.finite v then reset else if F32.lt v lo then lo else if F32.lt hi v then hi else v

/-- The fusion settings a session opens with (R210). -/
def State.fusionDefaults (s : State) : FusionCfg :=
  let d := s.reg 0xB004 0
  { contraLimit := max 1 (bits d 3 0), recover := max 1 (bits d 14 8),
    gate := clampF 0x3F800000 0x447A0000 0x41866666 (BitVec.ofNat 32 (s.reg 0xB000 0)), precedence := clampN 1 6 (bits d 18 16),
    lateDrop := bit d 19, holdLimit := clampF 0x3D4CCCCD 0x41200000 0x3F000000 (BitVec.ofNat 32 (s.reg 0xB008 0)),
    unlockSearch := max 2 (bits d 23 20), calibEnable := bit (s.reg 0xB00C 0) 16, calibPeriod := max 60 (s.regF 0xB00C 0 15 0) }

/-- The tracking settings a session opens with (R174, R179). -/
def State.trackDefaults (s : State) : TrackCfg :=
  let a := s.reg 0x9000 0
  let b := s.reg 0x9004 0
  { confThreshold := max 2 (bits a 7 0), refineLimit := clampN 1 100 (bits a 14 8), window := clampN 8 64 (bits a 22 16),
    minMatches := max 8 (bits a 31 24), maxCorners := clampN 64 4096 (bits b 12 0), segThreshold := max 1 (bits b 22 16),
    cellLimit := max 1 (bits b 27 24), disp64 := bit b 28, flatLimit := max 1 (s.regF 0x9008 0 7 0) }

/-- The kind a code names (R112). -/
def kindOf (c : Nat) : Kind := if c = 0 then .vehicle else if c = 1 then .arm else .station

/-- Whether a pose block is finite with a unit quaternion (R112, R208). -/
def poseOk (b : List Byte) : Bool := F32.unitQuat (wflds b 20 4)

/-- A pose block as the device reads it, its quaternion normalised (R112). -/
def readPose (b : List Byte) : Pose :=
  let p := poseOfBytes b
  { p with q := F32.normalise p.q }

/-- The host-path fields of SESSION_OPEN are in range (R112, R129). -/
def hostFields (o : Op) : Option Res :=
  let k := kindOf (o.u8 16)
  firstRes [need (within 128 2048 (o.u16 40) && o.u16 40 % 32 = 0) 40, need (within 96 1536 (o.u16 42) && o.u16 42 % 16 = 0) 42,
    need (within 1 2 (o.u8 44)) 44, need (k.channelsOk (o.u16 46)) 46,
    need (zeroOr 500000 10000000 (o.u32 48) && (o.u32 48 ≠ 0 || o.u16 46 = 0)) 48, need (within 1 60000 (o.u32 52)) 52]

/-- The STATION_POSE of SESSION_OPEN: its form, its reach and its block, among the fields of check 3 (R112, R113). -/
def stationPoseField (s : State) (o : Op) : Option Res :=
  let p := o.u64 32
  if o.u8 16 ≠ 2 then need (p = 0) 32
  else if p = 0 then some (Res.field 32)
  else if !ptrOk p then some (Res.bad 6 32)
  else if !s.reach o.fn p 36 then some (Res.denied 4)
  else need (poseOk (s.readMem p 36)) 32

/-- The fields of SESSION_OPEN out of range, the lowest offset first (R112, R113 check 3). -/
def openFields (s : State) (o : Op) : Option Res :=
  let host := decide (o.u8 17 = 1)
  let load := loadOf (o.u16 40) (o.u16 42) (o.u8 44) (o.u32 52)
  firstRes [need (decide (o.u8 16 ≤ 2)) 16, need (decide (o.u8 17 ≤ 1)) 17, need (decide (o.u8 18 ≤ 2)) 18, need (decide (o.u8 19 ≤ 1)) 19,
    need (within 1000 1000000 (o.u32 20)) 20,
    need (!host || (hostFields o).isSome || decide (load ≤ o.u16 24 * loadDen)) 24,
    need (zeroOr 100 10000 (o.u16 26)) 26, need (zeroOr 1 3600 (o.u16 28)) 28, need (zeroOr 5 200 (o.u8 30)) 30,
    stationPoseField s o,
    if host then hostFields o else (firstNonZero o.desc 40 16).map Res.field]

/-- The session that a SESSION_OPEN admits (R112, R114, R174, R179, R192), on a cluster that the placement engine chooses (R302, R304). -/
def openedSession (s : State) (o : Op) : Session :=
  let host := decide (o.u8 17 = 1)
  let orDefault (d v : Nat) : Nat := if v = 0 then d else v
  let base : BaseCfg := { preset := o.u8 18, mode := o.u8 19, replyOffset := o.u32 20, keepalive := orDefault 1000 (o.u16 26),
                          linger := orDefault 30 (o.u16 28), window := orDefault 20 (o.u8 30), maxLoad := o.u16 24, hostRate := o.u32 52 }
  let cfg : SessCfg := { base := base, fusion := s.fusionDefaults, track := s.trackDefaults }
  let decl : Decl := if host then { width := o.u16 40, height := o.u16 42, images := o.u8 44, frameRate := o.u32 52, samplePeriod := o.u32 48,
                                    channelMask := o.u16 46 } else {}
  { id := o.handle, fn := o.fn, kind := kindOf (o.u8 16), hostPath := host, state := if host then .opened else .admitted, cfg := cfg, nextCfg := cfg,
    decl := decl, declLoad := if host then o.u16 24 * loadDen else 0,
    stationPose := if o.u8 16 = 2 then readPose (s.readMem (o.u64 32) 36) else {},
    filter := { running := host, spanFrom := s.devNs }, openedAt := s.devNs, cluster := (s.pick s.serving 0).getD 0 }

/-- The checks of SESSION_OPEN in order (R31, R113). -/
def openCheck (s : State) (o : Op) : Option Res :=
  let keyed := match s.keySlot o.handle with
    | some k => decide (k.fn = o.fn) && (k.cur.isSome || (s.session o.handle).isSome)
    | none => false
  let openCount := s.sess.list.length
  firstRes [if o.u8 17 = 0 ∧ ¬ s.hasNet then some (Res.absent 0x20) else none,
    if keyed then none else some (Res.denied 3),
    openFields s o,
    if (s.session o.handle).isSome then some (Res.bound 3) else none,
    if s.sess.openLimit ≤ openCount then some (Res.bound 1) else none,
    if o.u8 17 = 1 ∧ ¬ s.loadFits (s.totalLoad + o.u16 24 * loadDen) then some (Res.bound 2) else none]

/-- SESSION_OPEN (R112 to R114). -/
def execSessionOpen (op : Nat) (s : State) : Result :=
  s.runOp op 0x08 fun o =>
    match openCheck s o with
    | some r => s.finish op r
    | none =>
      let x := openedSession s o
      let s := ({ s with sess := { s.sess with list := s.sess.list ++ [x] } }.placed x.cluster).spend 1
      let s := if x.hostPath then
          let s := s.event x.id 0x01 x.kind.code
          s.event x.id 0x08 0x01
        else s
      s.finish op (Res.ok 0 0)

/-- The refusal of a SESSION_KEY, by its payload and the state of the ID (R110). -/
def keyCheck (s : State) (o : Op) : Option Res :=
  let slot : Option KeySlot := s.keySlot o.handle
  let owner : Option Nat := match s.session o.handle with
    | some x => some x.fn
    | none => slot.map KeySlot.fn
  let cur : Option (Key × Nat) := slot.bind KeySlot.cur
  let admitted := (s.session o.handle).isSome
  firstRes [need (sidOk o.handle) 12,
    need (!((cur.map Prod.snd) == some (o.u8 48))) 48,
    need (decide (o.u8 49 ≤ 63) && owner.all fun f => decide (f = o.u8 49)) 49,
    if (s.session o.handle).any fun x => x.state = .closed then some (Res.bound 2) else none,
    if admitted && (slot.bind KeySlot.next).isSome then some (Res.bound 1) else none]

/-- SESSION_KEY (R110). -/
def execSessionKey (op : Nat) (s : State) : Result :=
  s.runOp op 0x0A fun o =>
    match keyCheck s o with
    | some r => s.finish op r
    | none =>
      let k : Key × Nat := (BitVec.ofNat 256 (fld o.desc 16 32), o.u8 48)
      let s := match s.keySlot o.handle with
        | none =>
          let slot : KeySlot := { sid := o.handle, fn := o.u8 49, cur := some k }
          { s with sess := { s.sess with keys := s.sess.keys ++ [slot] } }
        | some slot =>
          if (s.session o.handle).isSome then s.updKeys o.handle fun q => { q with next := some k }
          else s.updKeys o.handle fun _ =>
            { slot with cur := some k, erased := slot.erased ++ (slot.cur.map Prod.snd).toList, net := { slot.net with replay := {}, txSeq := 0 } }
      s.finish op (Res.ok 0 0)

/-- A SESSION_TUNE subop on a session: ownership and state first (R109, R115), then the subop. -/
def State.tune (s : State) (op sub : Nat) (f : Op → Session → State) : Result :=
  s.runSub op 0x0B sub fun o =>
    match s.useSession o.fn o.handle with
    | .error r => s.finish op r
    | .ok x => f o x

/-- A subop that sets base, fusion or tracking settings from the next frame boundary on (R117). -/
def State.setNext (s : State) (op sid : Nat) (f : SessCfg → SessCfg) : State :=
  (s.updSession sid fun x => { x with nextCfg := f x.nextCfg }).finish op (Res.ok 0 0)

/-- Set settings when the checks pass (R117). -/
def State.tuneCfg (s : State) (op sub : Nat) (chk : Op → Session → Option Res) (f : Op → SessCfg → SessCfg) : Result :=
  s.tune op sub fun o x =>
    match chk o x with
    | some r => s.finish op r
    | none => s.setNext op x.id (f o)

/-- v, or old where v is 0: a field given as 0 is left unchanged (R117, R174, R208). -/
def keep0 (v old : Nat) : Nat := if v = 0 then old else v

/-- SET_FILTER (R117): settling restarts at the frame boundary (R146). -/
def execSetFilter (op : Nat) (s : State) : Result :=
  s.tune op 0x01 fun o x =>
    match firstRes [need (decide (o.u8 17 ≤ 2)) 17, need (decide (o.u8 18 ≤ 1)) 18] with
    | some r => s.finish op r
    | none =>
      (s.updSession x.id fun x => { x with restartAtFrame := true }).setNext op x.id fun c =>
        { c with base := { c.base with preset := o.u8 17, mode := o.u8 18 } }

/-- A threshold field: 0.0 of either sign restores the default; otherwise it is finite and above 0 (R117). -/
def thresholdOk (w : Word) : Bool := F32.isZero w || (F32.finite w && !F32.neg w)

/-- SET_THRESHOLDS (R117, R148). -/
def execSetThresholds (op : Nat) (s : State) : Result :=
  s.tuneCfg op 0x02 (fun o _ => firstRes [need (thresholdOk (o.f32 20)) 20, need (thresholdOk (o.f32 24)) 24]) fun o c =>
    { c with base := { c.base with shockLimit := if F32.isZero (o.f32 20) then 0x421CCCCD else o.f32 20,
                                   tipRate := if F32.isZero (o.f32 24) then 0x3FC00000 else o.f32 24 } }

/-- SET_TIMERS (R117). -/
def execSetTimers (op : Nat) (s : State) : Result :=
  s.tuneCfg op 0x03 (fun o _ => firstRes [need (zeroOr 1000 1000000 (o.u32 20)) 20, need (zeroOr 100 10000 (o.u16 26)) 26,
      need (zeroOr 1 3600 (o.u16 28)) 28, need (zeroOr 5 200 (o.u8 30)) 30]) fun o c =>
    { c with base := { c.base with replyOffset := keep0 (o.u32 20) c.base.replyOffset, keepalive := keep0 (o.u16 26) c.base.keepalive,
                                   linger := keep0 (o.u16 28) c.base.linger, window := keep0 (o.u8 30) c.base.window } }

/-- SET_MAX_LOAD (R117). -/
def execSetMaxLoad (op : Nat) (s : State) : Result :=
  s.tuneCfg op 0x04 (fun o x =>
      let v := o.u16 24 * loadDen
      let need4 := if x.hostPath then loadOf x.decl.width x.decl.height x.decl.images x.nextCfg.base.hostRate else x.declLoad
      if v < need4 then some (Res.bound 4)
      else if x.hostPath ∧ x.declLoad < v ∧ ¬ s.loadFits (s.totalLoad - x.declLoad + v) then some (Res.bound 2) else none) fun o c =>
    { c with base := { c.base with maxLoad := o.u16 24 } }

/-- SET_HOST_RATE (R117). -/
def execSetHostRate (op : Nat) (s : State) : Result :=
  s.tuneCfg op 0x05 (fun o x =>
      if ¬ x.hostPath then some (Res.field 16)
      else if ¬ within 1 60000 (o.u32 20) then some (Res.field 20)
      else if x.nextCfg.base.maxLoad * loadDen < loadOf x.decl.width x.decl.height x.decl.images (o.u32 20) then some (Res.bound 4) else none) fun o c =>
    { c with base := { c.base with hostRate := o.u32 20 } }

/-- SET_LIMITS (R117, R118): from PF0, at once. STREAM_LIMIT's range is 0–81,920, but its field is bytes 22–23, so that a host can set at most
65,535 (DESIGN CHOICE, log entry 142: the 16 bits are read as they stand; the reset limit of 81,920 cannot be set again). -/
def execSetLimits (op : Nat) (s : State) : Result :=
  s.runSub op 0x0B 0x08 fun o =>
    match firstRes [if o.fn = 0 then none else some (Res.denied 1), need (o.handle = 0xFFFFFFFF) 12, need (decide (o.u16 20 ≤ 4096)) 20,
        need (decide (o.u16 22 ≤ 81920)) 22] with
    | some r => s.finish op r
    | none => ({ s with sess := { s.sess with openLimit := o.u16 20, streamLimit := o.u16 22 } }).finish op (Res.ok 0 0)

/-- EVENT_WAIT (R119): completes as soon as an event it covers is queued, else waits. -/
def execEventWait (op : Nat) (s : State) : Result :=
  s.runSub op 0x0B 0x10 fun o =>
    match need (within 1 4096 (o.u16 32)) 32 with
    | some r => s.finish op r
    | none =>
      if o.handle = 0xFFFFFFFF then (s.await op).deliverEvents
      else match s.useSession o.fn o.handle with
        | .error r => s.finish op r
        | .ok _ => (s.await op).deliverEvents

/-- 0, or an FP32 value within a range (R208). -/
def zeroOrF (lo hi w : Word) : Bool := w = 0 || (F32.finite w && F32.le lo w && F32.le w hi)

/-- SET_GATES (R187, R190, R208). -/
def execSetGates (op : Nat) (s : State) : Result :=
  s.tuneCfg op 0x20 (fun o _ => firstRes [need (decide (o.u8 17 ≤ 15)) 17, need (decide (o.u8 18 ≤ 127)) 18,
      need (zeroOrF 0x3F800000 0x447A0000 (o.f32 20)) 20]) fun o c =>
    { c with fusion := { c.fusion with contraLimit := keep0 (o.u8 17) c.fusion.contraLimit, recover := keep0 (o.u8 18) c.fusion.recover,
                                       gate := if o.f32 20 = 0 then c.fusion.gate else o.f32 20 } }

/-- SET_PRECEDENCE (R189, R208). -/
def execSetPrecedence (op : Nat) (s : State) : Result :=
  s.tuneCfg op 0x21 (fun o _ => need (decide (o.u8 17 ≤ 6)) 17) fun o c =>
    { c with fusion := { c.fusion with precedence := keep0 (o.u8 17) c.fusion.precedence } }

/-- SET_REPLY (R192, R200, R208). -/
def execSetReply (op : Nat) (s : State) : Result :=
  s.tuneCfg op 0x22 (fun o _ => firstRes [need (decide (o.u8 17 ≤ 2)) 17, need (zeroOrF 0x3D4CCCCD 0x41200000 (o.f32 20)) 20]) fun o c =>
    { c with fusion := { c.fusion with lateDrop := if o.u8 17 = 0 then c.fusion.lateDrop else decide (o.u8 17 = 2),
                                       holdLimit := if o.f32 20 = 0 then c.fusion.holdLimit else o.f32 20 } }

/-- SET_TIME (R194, R208). -/
def execSetTime (op : Nat) (s : State) : Result :=
  s.tuneCfg op 0x23 (fun o _ => need (zeroOr 2 15 (o.u8 17)) 17) fun o c =>
    { c with fusion := { c.fusion with unlockSearch := keep0 (o.u8 17) c.fusion.unlockSearch } }

/-- SET_POSE (R193, R208): takes effect at the next frame boundary; a zero pointer leaves the pose unchanged. -/
def execSetPose (op : Nat) (s : State) : Result :=
  s.tune op 0x24 fun o x =>
    if o.u64 24 = 0 then s.finish op (Res.ok 0 0)
    else
      let b := s.readMem (o.u64 24) 36
      if poseOk b then
        (s.updSession x.id fun x => { x with pendingPose := some (readPose b) }).finish op (Res.ok 0 0)
      else s.finish op (Res.field 24)

/-- SET_CALIB_REFINE (R207, R208). -/
def execSetCalibRefine (op : Nat) (s : State) : Result :=
  s.tuneCfg op 0x25 (fun o _ => firstRes [need (decide (o.u8 17 ≤ 2)) 17, need (zeroOr 60 65535 (o.u16 20)) 20]) fun o c =>
    { c with fusion := { c.fusion with calibEnable := if o.u8 17 = 0 then c.fusion.calibEnable else decide (o.u8 17 = 2),
                                       calibPeriod := keep0 (o.u16 20) c.fusion.calibPeriod } }

/-- Whether a calibration block is free of the faults of R153. -/
def calibOk (b : List Byte) : Bool :=
  let w := wflds b 4 32
  w.all F32.finite && [4, 8, 40, 44].all (fun i => F32.lt 0 (wfld b i)) && F32.unitQuat (wflds b 88 4) && F32.unitQuat (wflds b 116 4) &&
    allZero (slice b 132 4)

/-- SET_CALIBRATION (R153, R155): the block and a new version from the next frame boundary on. -/
def execSetCalibration (op : Nat) (s : State) : Result :=
  s.tune op 0x30 fun o x =>
    if o.u64 24 = 0 then s.finish op (Res.ok 0 0)
    else
      let b := s.readMem (o.u64 24) 136
      if calibOk b then
        s.setNext op x.id fun c => { c with track := { c.track with calib := b, calibVersion := (c.track.calibVersion + 1) % 2 ^ 32 } }
      else s.finish op (Res.field 24)

/-- SET_REFINE (R168, R174). -/
def execSetRefine (op : Nat) (s : State) : Result :=
  s.tuneCfg op 0x31 (fun o _ => firstRes [need (zeroOr 2 255 (o.u8 17)) 17, need (zeroOr 1 100 (o.u8 18)) 18]) fun o c =>
    { c with track := { c.track with confThreshold := keep0 (o.u8 17) c.track.confThreshold, refineLimit := keep0 (o.u8 18) c.track.refineLimit } }

/-- SET_SEARCH (R162, R165, R174). -/
def execSetSearch (op : Nat) (s : State) : Result :=
  s.tuneCfg op 0x32 (fun o _ => firstRes [need (decide (o.u8 17 ≤ 2)) 17, need (zeroOr 8 64 (o.u16 20)) 20, need (zeroOr 8 255 (o.u16 22)) 22]) fun o c =>
    { c with track := { c.track with forcePyramid := if o.u8 17 = 0 then c.track.forcePyramid else decide (o.u8 17 = 2),
                                     window := keep0 (o.u16 20) c.track.window, minMatches := keep0 (o.u16 22) c.track.minMatches } }

/-- SET_FEATURES (R157, R174). -/
def execSetFeatures (op : Nat) (s : State) : Result :=
  s.tuneCfg op 0x33 (fun o _ => firstRes [need (decide (o.u8 17 ≤ 127)) 17, need (decide (o.u8 18 ≤ 15)) 18, need (zeroOr 64 4096 (o.u16 20)) 20]) fun o c =>
    { c with track := { c.track with segThreshold := keep0 (o.u8 17) c.track.segThreshold, cellLimit := keep0 (o.u8 18) c.track.cellLimit,
                                     maxCorners := keep0 (o.u16 20) c.track.maxCorners } }

/-- SET_STEREO (R160, R161, R174). -/
def execSetStereo (op : Nat) (s : State) : Result :=
  s.tuneCfg op 0x34 (fun o _ => need (o.u8 17 = 0 || o.u8 17 = 64 || o.u8 17 = 128) 17) fun o c =>
    { c with track := { c.track with disp64 := if o.u8 17 = 0 then c.track.disp64 else decide (o.u8 17 = 64),
                                     flatLimit := keep0 (o.u8 18) c.track.flatLimit } }

/-- SET_RETAIN (R174): the kinds MASK selects take VALUE's bits. -/
def execSetRetain (op : Nat) (s : State) : Result :=
  s.tuneCfg op 0x35 (fun o _ => firstRes [need (decide (o.u8 17 < 8)) 17, need (decide (o.u8 18 < 8)) 18]) fun o c =>
    { c with track := { c.track with retain := (c.track.retain &&& (7 - o.u8 17)) + (o.u8 18 &&& o.u8 17) } }

/-! ## FRAME_SUBMIT -/

/-- The samples of a batch: 4-byte values sample by sample, channels in ascending position; read puts a value's bytes in
order (R135, R140). -/
def samplesOf (mask count : Nat) (read : Nat → Word) : List (List Word) :=
  (List.range count).map fun j =>
    (List.range 9).map fun c =>
      if bit mask c then read (4 * (j * popCount mask 9 + popCount mask c)) else 0

/-- Whether a motion block obeys R140 for a session. -/
def motionBlockOk (x : Session) (h : List Byte) : Bool :=
  fld h 14 2 = x.decl.channelMask && fld h 16 4 = x.decl.samplePeriod && decide (fld h 20 2 ≤ 1024) && allZero (slice h 22 2) &&
    decide (fld h 10 4 ≤ 999999999)

/-- Time of a motion block's first sample: 6 bytes of seconds, 4 of ns, little-endian (R135, R140). -/
def leTime (b : List Byte) (off : Nat) : Nat := fld b off 6 * 1000000000 + fld b (off + 6) 4

/-- The checks of FRAME_SUBMIT in order (R141). -/
def submitCheck (s : State) (o : Op) (x : Session) : Option Res :=
  let capture := fld o.desc 48 6 * 1000000000 + o.u32 54
  firstRes [if x.hostPath then none else some (Res.denied 3),
    if o.u64 32 = 0 then none
    else if x.decl.samplePeriod = 0 then some (Res.field 32)
    else if motionBlockOk x (s.readMem (o.u64 32) 24) then none else some (Res.field 32),
    need (decide (o.u32 54 ≤ 999999999)) 54,
    if x.decl.images = 1 ∧ o.u64 24 ≠ 0 then some (Res.field 24) else none,
    match x.accepts capture with
    | .accepted => none
    | .old => some (Res.field 48)
    | .excess => some (Res.bound 5)]

/-- FRAME_SUBMIT up to its commit point: an accepted frame's motion and images enter filter and fusion, and the operation no
longer times out; FUSION_FRAME completes it (R141). -/
def execFrameSubmit (op : Nat) (s : State) : Result :=
  s.runOp op 0x10 fun o =>
    match s.useSession o.fn o.handle with
    | .error r => s.finish op r
    | .ok x =>
      match submitCheck s o x with
      | some r => s.finish op r
      | none =>
        let capture := fld o.desc 48 6 * 1000000000 + o.u32 54
        let size := x.decl.width * x.decl.height
        let frame : Frame := { frameNo := o.u32 60, capture := capture, arrival := o.fetchedDev, left := some (s.readMem (o.u64 16) size),
                               right := if x.decl.images = 2 then some (s.readMem (o.u64 24) size) else none, op := some op }
        let h := s.readMem (o.u64 32) 24
        let n := fld h 20 2
        let d := s.readMem (o.u64 32 + 24) (4 * n * popCount x.decl.channelMask 9)
        let s := s.arrivalLate x.id capture o.fetchedDev
        let s := s.acceptFrame x.id frame
        let s := if o.u64 32 = 0 then s else s.motionIn x.id (leTime h 4) (samplesOf x.decl.channelMask n fun i => wfld d i)
        s.updOp op fun o => { o with phase := .waiting, began := true, committed := true }

end Sys2Proof.Machine
end

