-- ==== Sys2Proof/Machine/MapOps.lean ====
section
/-! DEFINITION. MAP_READ (R22, R23), MAP_EDIT (R24 to R26, R205, R206, R213, R316) and EPOCH_WAIT (R27), with the part of each that
the owner of a tile carries out for another member (R29, R388). -/

namespace Sys2Proof.Machine

/-! ## MAP_READ -/

/-- The rectangle of an operation: IX0, IY0, IX1, IY1 (R22, R316). -/
def Op.rect (o : Op) : Int × Int × Int × Int := (o.i16 20, o.i16 22, o.i16 24, o.i16 26)

/-- Tiles in a rectangle. -/
def rectArea (r : Int × Int × Int × Int) : Nat := (r.2.2.1 - r.1 + 1).toNat * (r.2.2.2 - r.2.1 + 1).toNat

/-- Whether a rectangle is well formed and holds at most 65,536 tiles (R23, R316). -/
def rectOk (r : Int × Int × Int × Int) : Bool := decide (r.1 ≤ r.2.2.1 ∧ r.2.1 ≤ r.2.2.2 ∧ rectArea r ≤ 65536)

/-- The epoch a read is pinned to: EPOCH, or the latest published at fetch (R22, R228, R250). -/
def Op.epoch (o : Op) (off : Nat) : Nat := if o.u64 off = 0 then o.epochAtFetch else o.u64 off

/-- The view of the epoch a read names: gone when older than the oldest held (R225). A later epoch than the latest published
is an invalid field (DEDUCED). -/
def State.viewFor (s : State) (o : Op) (off : Nat) : Except Res MapView :=
  let e := o.epoch off
  if s.map.published < e then .error (Res.field off)
  else match s.map.at e with
    | some v => .ok v
    | none => .error { status := St.epochGone, detail := s.map.oldest }

/-- The checks of MAP_READ's fields (R23). -/
def mapReadCheck (o : Op) : Option Res :=
  firstRes [if bits (o.u8 17) 7 1 = 0 then none else some (Res.bad 2 17),
    need (rectOk o.rect && (o.u8 16 ≠ 1 || decide (rectArea o.rect = 1))) 20, need (decide (64 ≤ o.u32 28)) 28]

/-- The listed tiles of a view in the rectangle that the device owns. -/
def State.ownTiles (s : State) (v : MapView) (r : Int × Int × Int × Int) : List Tile :=
  v.tiles.filter fun t => t.owner = s.self && inRects [r] t.ix t.iy

/-- The owners of the tiles of a rectangle (R22), with the owner of the tiles that are not listed. -/
def MapView.ownersOf (v : MapView) (r : Int × Int × Int × Int) : List Nat :=
  let listed := v.tiles.filter fun t => inRects [r] t.ix t.iy
  (listed.map (·.owner) ++ (if listed.length < rectArea r then [v.leader] else [])).eraseDups

/-- The owners of the tiles of a rectangle, other than the device (R22). -/
def State.peersOf (s : State) (v : MapView) (r : Int × Int × Int × Int) : List Nat := (v.ownersOf r).filter fun w => w ≠ s.self

/-- The records of one tile on the fabric: tile, count, records. DESIGN CHOICE: the spec does not lay out a list's result data. -/
def packTile (quar : List Nat) (t : Tile) (what : Nat) (excl : Bool) : List Byte :=
  let rs := t.records quar what excl
  tileBe t.ix t.iy ++ beBytes rs.length 4 ++ rs.flatten

/-- The tiles and records of packTile, from bytes; the fuel bounds the number of tiles. -/
def unpackTiles (size : Nat) : Nat → List Byte → List (Int × Int × List (List Byte))
  | 0, _ => []
  | n + 1, b =>
    if b.length < 8 then []
    else
      let c := bfld b 4 4
      (sext 16 (bfld b 0 2), sext 16 (bfld b 2 2), cut size c (b.drop 8)) :: unpackTiles size n (b.drop (8 + size * c))

/-- What the owner of tiles answers to a MAP_READ of them (R22, R29): the image, or its tiles' records. -/
def State.readData (s : State) (o : Op) (v : MapView) : List Byte :=
  let what := o.u8 16
  if what = 1 then
    tileImage v ((v.tile (o.i16 20) (o.i16 22)).getD { ix := o.i16 20, iy := o.i16 22 }) (o.epoch 40) s.tileSize
  else (s.ownTiles v o.rect).flatMap fun t => packTile v.quar t what (bit (o.u8 17) 0)

/-- Accesses of a device to the tiles a read covers (R308). -/
def State.countReads (s : State) (r : Int × Int × Int × Int) (dev : Nat) : State :=
  (s.ownTiles s.map.cur r).foldl (fun s t => s.access t.ix t.iy dev) s

/-- The list result of R23 from per-tile records in tile order, cut to CAPACITY. -/
def listResult (epoch what cap : Nat) (tiles : List (Int × Int × List (List Byte))) : List Byte × Nat × Nat :=
  let all := (tiles.mergeSort fun a b => !tileBefore b.1 b.2.1 a.1 a.2.1).flatMap fun t => t.2.2
  let n := min all.length ((cap - 32) / recordSize what)
  (leBytes epoch 8 ++ leBytes all.length 4 ++ leBytes n 4 ++ leBytes (recordSize what) 4 ++ zeros 12 ++ (all.take n).flatten, n, all.length)

/-- MAP_READ completes with its own tiles' data and the answers of the other owners (R23). -/
def State.mapReadDone (s : State) (o : Op) (v : MapView) : State :=
  let answers := s.requestsOf o.id
  let s := s.dropRequests o.id
  match answers.find? fun r => r.status ≠ St.ok with
  | some r => s.complete o.id { status := r.status, detail := r.detail }
  | none =>
    let what := o.u8 16
    if what = 1 then
      let img := match answers with
        | r :: _ => r.data
        | [] => s.readData o v
      if o.u32 28 < img.length then s.complete o.id (Res.bound (0x80 + img.length * 2 ^ 32))
      else (s.writeMem (o.u64 32) img).complete o.id (Res.ok img.length img.length)
    else
      let own := unpackTiles (recordSize what) (rectArea o.rect) (s.readData o v)
      let other := answers.flatMap fun r => unpackTiles (recordSize what) (rectArea o.rect) r.data
      let r := listResult (o.epoch 40) what (o.u32 28) (own ++ other)
      let res : Res := { status := if r.2.1 < r.2.2 then St.okPartial else St.ok, count := r.1.length, detail := r.2.1 }
      (s.writeMem (o.u64 32) r.1).complete o.id res

/-- A MAP_READ asked for by another member, at the epoch it names, the requester's own where EPOCH is 0 (R22, R29, R101): an epoch that the device
has not published yet is waited for. -/
def State.serveRead (s : State) (peer xid : Nat) (o : Op) (data : List Byte) : State :=
  let e := fld data 0 8
  if s.map.published < e then
    { s with sound := { s.sound with later := s.sound.later ++ [{ xid := xid, peer := peer, desc := o.desc, segs := [(0, data)] }] } }
  else match s.map.at e with
    | none => s.sendResponse peer o.cls xid { status := St.epochGone, detail := s.map.oldest } []
    | some v => (s.countReads o.rect peer).sendResponse peer o.cls xid (Res.ok 0 0) (s.readData { o with epochAtFetch := e } v)

/-- MAP_READ of one WHAT: read here, or ask the owners and wait (R22, R23, R29). -/
def State.mapRead (s : State) (o : Op) : State :=
  match mapReadCheck o with
  | some r => s.finish o.id r
  | none =>
    match s.viewFor o 40 with
    | .error r => s.finish o.id r
    | .ok v =>
      let s := s.countReads o.rect s.self
      let peers := s.peersOf v o.rect
      if peers.isEmpty then s.mapReadDone o v
      else (peers.foldl (fun s p => s.sendRequest o.id p o.cls o.desc (leBytes (o.epoch 40) 8)) s).await o.id

/-- MAP_READ with WHAT = TILE_IMAGE (R21 to R23). -/
def execMapReadTileImage (op : Nat) (s : State) : Result := s.runSub op 0x18 0x01 fun o => s.mapRead o

/-- MAP_READ with WHAT = KEYFRAMES (R22, R23). -/
def execMapReadKeyframes (op : Nat) (s : State) : Result := s.runSub op 0x18 0x02 fun o => s.mapRead o

/-- MAP_READ with WHAT = LINKS (R22, R23). -/
def execMapReadLinks (op : Nat) (s : State) : Result := s.runSub op 0x18 0x03 fun o => s.mapRead o

/-- MAP_READ with WHAT = POINTS (R22, R23). -/
def execMapReadPoints (op : Nat) (s : State) : Result := s.runSub op 0x18 0x04 fun o => s.mapRead o

/-- MAP_READ with WHAT = OBSERVATIONS (R22, R23). -/
def execMapReadObservations (op : Nat) (s : State) : Result := s.runSub op 0x18 0x05 fun o => s.mapRead o

/-! ## The owner's part of each edit -/

/-- TILE_RESTORE at the owner of the tile, its image given as data (R25). -/
def State.applyRestore (s : State) (o : Op) (data : List Byte) : State × Res :=
  let ix := o.i16 20
  let iy := o.i16 22
  match parseImage data (o.u32 32) s.tileSize ix iy with
  | none => (s, Res.field 24)
  | some (img, secs) =>
    let t := s.curTile ix iy
    let empty := t.keyframes.isEmpty && t.links.isEmpty && t.points.isEmpty && t.obs.isEmpty
    let count := (secs.map fun x => x.2.2.length).sum
    if t.handover.isSome then (s, Res.bound 0x85)
    else if !empty && !bit (o.u8 17) 0 then (s, Res.bound 0x81)
    else match secs.find? fun x => !(s.map.cur.index x.1).any fun y => y.m = x.2.1 with
      | some x => (s, Res.bound (0x82 + x.1 * 256))
      | none =>
        if 4194304 < s.map.cur.inletUsed + count then (s, Res.bound 0x83)
        else
          let top := img.points.foldl (fun m p => max m (p.number + 1)) t.nextPoint
          let t' := { t with keyframes := (img.keyframes.map fun k => { k with version := (k.version + 1) % 2 ^ 32 }).foldl (fun l k => putKeyframe k l) [],
                             links := img.links.foldl (fun l x => putLink x l) [], points := img.points.mergeSort (fun a b => decide (a.number ≤ b.number)),
                             obs := img.obs.foldl (fun l x => putObs x l) [], nextPoint := top }
          let clear (x : Index) : Index := { x with entries := x.entries.map fun e => if e.ix = ix ∧ e.iy = iy then { e with tomb := true } else e }
          let v := { s.map.cur with indexes := s.map.cur.indexes.map clear }
          let v := secs.foldl (fun v x => x.2.2.foldl (fun (v : MapView) e => v.append s.self x.1 e) v) v
          let s := (s.setCur v).record t'
          (s, Res.ok (img.keyframes.length + img.links.length + img.points.length + img.obs.length + count) s.nextEpoch)

/-- Observations removed are no longer counted at their points; a point left with none is removed (R26). -/
def dropPoints (removed : List Observation) (t : Tile) : Tile :=
  let hits (p : MapPoint) : Nat := (removed.filter fun o => o.number = p.number && o.ix = t.ix && o.iy = t.iy).length
  { t with points := (t.points.map fun p => { p with observed := p.observed - hits p }).filter fun p => !(p.observed = 0 && decide (0 < hits p)) }

/-- Objects a tile lost between two states of it. -/
def lostObjects (a b : Tile) : Nat :=
  (a.keyframes.length - b.keyframes.length) + (a.links.length - b.links.length) + (a.points.length - b.points.length) + (a.obs.length - b.obs.length)

/-- A keyframe's links, observations and points leave the tiles the device owns; the removed observations of another owner come
as data (R26). Answers the objects changed. -/
def State.purge (s : State) (key : Nat) (removed : List Observation) : State × Nat :=
  (s.map.cur.tiles.filter fun t => t.owner = s.self).foldl (fun (r : State × Nat) t =>
    let t' := dropPoints removed { t with keyframes := t.keyframes.filter (fun k => k.key ≠ key),
                                          links := t.links.filter (fun l => l.keyA ≠ key ∧ l.keyB ≠ key), obs := t.obs.filter (fun o => o.key ≠ key) }
    if t' = t then r else (r.1.record t', r.2 + lostObjects t t')) (s, 0)

/-- The observations of a keyframe in its home tile. -/
def Tile.obsOf (t : Tile) (key : Nat) : List Observation := t.obs.filter fun o => o.key = key

/-- What an edit of a keyframe or link checks at the owner: the key in the tile at the latest epoch, no handover (R26). -/
def State.editBar (s : State) (ix iy : Int) (key : Nat) : Option Res :=
  if ((s.map.latest.tile ix iy).bind fun t => t.keyframe key).isNone then some (Res.bound 0x84) else if (s.curTile ix iy).handover.isSome then some (Res.bound 0x85) else none

/-- The observations of the keyframe that KEYFRAME_DELETE names, from its home tile. -/
def State.deleteData (s : State) (o : Op) : List Byte := ((s.curTile (o.i16 20) (o.i16 22)).obsOf (o.u64 24)).flatMap Observation.bytes

/-- KEYFRAME_DELETE at an owner, with the keyframe's observations as data (R26): its entry in handle 1 is tombstoned, and what refers to it leaves the
tiles. -/
def State.applyDelete (s : State) (o : Op) (data : List Byte) : State × Res :=
  let ix := o.i16 20
  let iy := o.i16 22
  let key := o.u64 24
  match if s.ownsIn s.map.cur ix iy then s.editBar ix iy key else none with
  | some r => (s, r)
  | none =>
    let mark (x : Index) : Index :=
      { x with entries := x.entries.map fun e => if e.key = key ∧ e.ix = ix ∧ e.iy = iy then { e with tomb := true } else e }
    let r := (s.setCur (s.map.cur.updIndex 1 mark)).purge key ((cut 24 (data.length / 24) data).map observationOf)
    (r.1, Res.ok r.2 s.nextEpoch)

/-- KEYFRAME_POSE at the owner (R26, R19). -/
def State.applyPose (s : State) (o : Op) (data : List Byte) : State × Res :=
  let key := o.u64 24
  match s.editBar (o.i16 20) (o.i16 22) key with
  | some r => (s, r)
  | none =>
    let t := s.curTile (o.i16 20) (o.i16 22)
    (s.record { t with keyframes := updFirst (fun k => k.key = key) (fun k => s.moved k (poseOfBytes data)) t.keyframes },
     Res.ok (b2n (t.keyframe key).isSome) s.nextEpoch)

/-- LINK_ADD at the owner (R26). -/
def State.applyLinkAdd (s : State) (o : Op) (data : List Byte) : State × Res :=
  match s.editBar (o.i16 20) (o.i16 22) (o.u64 24) with
  | some r => (s, r)
  | none =>
    let t := s.curTile (o.i16 20) (o.i16 22)
    if (t.keyframe (o.u64 24)).isNone then (s, Res.ok 0 s.nextEpoch)
    else (s.record { t with links := putLink (linkOf data) t.links }, Res.ok 1 s.nextEpoch)

/-- LINK_DELETE at the owner (R26). -/
def State.applyLinkDelete (s : State) (o : Op) : State × Res :=
  let t := s.curTile (o.i16 20) (o.i16 22)
  let is (l : Link) : Bool := l.keyA = o.u64 24 && l.keyB = o.u64 32
  let old := ((s.map.latest.tile (o.i16 20) (o.i16 22)).map fun t => t.links.any is).getD false
  if !old then (s, Res.bound 0x84)
  else if t.handover.isSome then (s, Res.bound 0x85)
  else (s.record { t with links := t.links.filter fun l => !is l }, Res.ok (b2n (t.links.any is)) s.nextEpoch)

/-- The keyframes of the tiles the device owns that a QUARANTINE or RELEASE changes: those of the session captured in the window (R205, R206). -/
def State.quarKeys (s : State) (o : Op) (on : Bool) : List Nat :=
  (s.owned.flatMap fun t => t.keyframes.filter fun k =>
    k.key / 2 ^ 32 = o.handle && decide (o.u64 20 ≤ k.capture ∧ k.capture ≤ o.u64 28) && k.quarantined != on).map (·.key)

/-- QUARANTINE or RELEASE at a member: the keyframes of its own tiles, their index entries, and the count of their observations; the keyframes that
the other members change come as data (R205, R206). -/
def State.applyQuarantine (s : State) (o : Op) (data : List Byte) (on : Bool) : State × Res :=
  let hit (key time : Nat) : Bool := key / 2 ^ 32 = o.handle && decide (o.u64 20 ≤ time ∧ time ≤ o.u64 28)
  let keys := s.quarKeys o on
  let all := keys ++ (cut 8 (data.length / 8) data).map fun b => fld b 0 8
  let own := s.owned
  let n := (own.map fun t => (t.obs.filter fun o => keys.contains o.key).length).sum
  let mark (x : Index) : Index :=
    { x with entries := x.entries.map fun e => if e.session = o.handle ∧ hit e.key e.time ∧ s.ownsIn s.map.cur e.ix e.iy then { e with quar := on } else e }
  let rest := s.map.cur.quar.filter fun k => !all.contains k
  let s := s.setCur { s.map.cur with indexes := s.map.cur.indexes.map mark, quar := if on then rest ++ all.eraseDups else rest }
  let s := own.foldl (fun (s : State) t =>
    if t.keyframes.any (fun k => keys.contains k.key) then
      s.record { t with keyframes := t.keyframes.map fun k => if keys.contains k.key then { k with quarantined := on } else k }
    else s) s
  (s, Res.ok n s.nextEpoch)

/-- INDEX_CREATE at each member, the codebook given as data (R213). -/
def State.applyCreate (s : State) (o : Op) (data : List Byte) : State × Res :=
  if (s.map.cur.index o.handle).isSome then (s, Res.bound 0x20)
  else
    let x : Index := { handle := o.handle, metric := o.u8 17, m := o.u8 18, degree := o.u8 19, dim := o.u16 20, cells := o.u16 22,
                       codebook := wflds data 0 (data.length / 4), mask := o.u64 32 }
    let before := s.map.cur.indexes.filter fun y => y.handle < o.handle
    let after := s.map.cur.indexes.filter fun y => o.handle < y.handle
    (s.setCur { s.map.cur with indexes := before ++ x :: after }, Res.ok 0 s.nextEpoch)

/-- INDEX_DROP at each member (R213). SETTLE operations on the index began before the drop and complete with what their passes have merged and
removed. -/
def State.applyDrop (s : State) (o : Op) : State × Res :=
  let st := ((s.map.cur.index o.handle).map (·.settling)).getD {}
  let s := s.setCur { s.map.cur with indexes := s.map.cur.indexes.filter fun x => x.handle ≠ o.handle }
  let s := st.finished.foldl (fun (s : State) f => f.1.foldl (fun (s : State) op => s.complete op (Res.ok (f.2.1 % 2 ^ 32 + f.2.2.1 * 2 ^ 32) s.nextEpoch)) s) s
  ((st.ops ++ st.nextOps).foldl (fun (s : State) op => s.complete op (Res.ok 0 s.map.published)) s, Res.ok 0 s.nextEpoch)

/-- The tiles of a rectangle. -/
def rectTiles (r : Int × Int × Int × Int) : List (Int × Int) :=
  (List.range (r.2.2.2 - r.2.1 + 1).toNat).flatMap fun j => (List.range (r.2.2.1 - r.1 + 1).toNat).map fun i => (r.1 + (i : Nat), r.2.1 + (j : Nat))

/-- TILE_AFFINITY at each member: the settings of each tile of the rectangle are replaced (R316). -/
def State.applyAffinity (s : State) (o : Op) : State × Res :=
  let prefer := if o.u8 17 = 255 then none else some (o.u8 17)
  let hold := bit (o.u8 18) 0
  let v := (rectTiles o.rect).foldl (fun (v : MapView) c =>
    if (v.tile c.1 c.2).isNone && prefer.isNone && !hold then v
    else v.setTile { ((v.tile c.1 c.2).getD { ix := c.1, iy := c.2, owner := s.map.cur.leader }) with prefer := prefer, hold := hold }) s.map.cur
  (s.setCur v, Res.ok (rectArea o.rect) s.nextEpoch)

/-- The owner's part of the edit a descriptor names (R24). -/
def State.applyEdit (s : State) (o : Op) (data : List Byte) : State × Res :=
  match o.u8 16 with
  | 0x01 => s.applyRestore o data
  | 0x02 => s.applyDelete o data
  | 0x03 => s.applyPose o data
  | 0x04 => s.applyLinkAdd o data
  | 0x05 => s.applyLinkDelete o
  | 0x10 => s.applyQuarantine o data true
  | 0x11 => s.applyQuarantine o data false
  | 0x20 => s.applyCreate o data
  | 0x21 => s.applyDrop o
  | _ => s.applyAffinity o

/-! ## A solve's change (R202, R263, R264) -/

/-- A commit as bytes: key, version, old and new pose of each keyframe, then the links. -/
def commitBytes (moves : List PoseMove) (links : List Link) : List Byte :=
  leBytes moves.length 4 ++ (moves.flatMap fun m => leBytes m.key 8 ++ leBytes m.version 4 ++ m.old.bytes ++ m.new.bytes) ++ links.flatMap Link.bytes

/-- A commit from bytes. -/
def commitOf (b : List Byte) : List PoseMove × List Link :=
  let n := fld b 0 4
  let rest := b.drop (4 + 84 * n)
  ((cut 84 n (b.drop 4)).map fun r => { key := fld r 0 8, version := fld r 8 4, old := poseOfBytes (r.drop 12), new := poseOfBytes (r.drop 48) },
   (cut 144 (rest.length / 144) rest).map linkOf)

/-- Whether the device owns the home tile of a keyframe. -/
def State.ownsKey (s : State) (key : Nat) : Bool := (s.map.cur.homeOf key).any fun t => t.owner = s.self

/-- Whether a commit changes a tile of the device. -/
def State.commitHere (s : State) (c : List PoseMove × List Link) : Bool := (c.1.any fun m => s.ownsKey m.key) || c.2.any fun l => s.ownsKey l.keyA

/-- A commit is checked at an owner (R264): every keyframe of its own that would move still has the version read, and no other commit has taken it. -/
def State.commitFits (s : State) (moves : List PoseMove) : Bool :=
  (moves.filter fun m => s.ownsKey m.key).all fun m =>
    ((s.map.cur.keyframe m.key).any fun k => k.version = m.version) && ((s.map.base.keyframe m.key).all fun b => b.version = m.version) &&
      !(s.map.commits.any fun h => fld h.desc 0 1 = 0x28 && (commitOf h.data).1.any fun n => n.key = m.key)

/-- A keyframe with the pose that a solve gives it, and the version after the one that the solve saw (R263). -/
def Keyframe.moved (base : MapView) (m : PoseMove) (k : Keyframe) : Keyframe :=
  { k with pose := m.new, version := ((((base.keyframe m.key).map (·.version)).getD (k.version + 2 ^ 32 - 1)) + 1) % 2 ^ 32 }

/-- An owner records the poses and links of a commit that lie in its own tiles (R263); a pose's version is 1 above the one in a view (R19). -/
def State.recordMoves (s : State) (base : MapView) (moves : List PoseMove) (links : List Link) : State :=
  let s := moves.foldl (fun (s : State) m =>
    match s.map.cur.homeOf m.key with
    | none => s
    | some t => if t.owner ≠ s.self then s else s.record { t with keyframes := updFirst (fun k => k.key = m.key) (Keyframe.moved base m) t.keyframes }) s
  links.foldl (fun (s : State) l =>
    match s.map.cur.homeOf l.keyA with
    | none => s
    | some t => if t.owner ≠ s.self then s else s.record { t with links := putLink l t.links }) s

/-- Sessions localised in a tile that a solve moved take the correction at their next frame, with the solve's epoch (R202). -/
def State.correct (s : State) (moves : List PoseMove) (epoch : Nat) : State :=
  let tiles := moves.flatMap fun m => [s.tileAt m.old, s.tileAt m.new]
  let upd (x : Session) : Session :=
    if x.kind != .station && tiles.contains (s.tileAt x.fusion.pose) then
      { x with fusion := { x.fusion with pendingCorrection := some (epoch, ((x.fusion.pendingCorrection.map (·.2)).getD []) ++ moves.map fun m => (m.old, m.new)) } }
    else x
  { s with sess := { s.sess with list := s.sess.list.map upd } }

/-! ## Changes of several members

A change that several members record (R24, R206, R213, R263, R264, R316) is agreed in two rounds. Each member asked takes it and answers the epoch it
is filling, or refuses; then the member that coordinates tells them the commit epoch, the latest of the answers, and each publishes its part in that
epoch. A refusal or a timeout before that withdraws the change, and nothing is published. DESIGN CHOICE (log entry 151): the spec gives the outcome,
not the messages. -/

/-- The kinds of message of a change: 1 asks a member to take it, 2 gives the commit epoch, 3 withdraws it. -/
def changeBytes (kind id epoch : Nat) (data : List Byte) : List Byte := leBytes kind 1 ++ leBytes id 8 ++ leBytes epoch 8 ++ data

/-- Carry a change out on the device's own tiles. -/
def State.carryOut (s : State) (base : MapView) (o : Op) (data : List Byte) : State × Res :=
  if o.opcode = 0x28 then (s.recordMoves base (commitOf data).1 (commitOf data).2, Res.ok 0 s.nextEpoch) else s.applyEdit o data

/-- What a member answers as it is asked to take a change: the outcome, with the count of what it would change. -/
def State.preview (s : State) (o : Op) (data : List Byte) : Res :=
  if o.opcode = 0x28 then if s.commitFits (commitOf data).1 then Res.ok 0 s.nextEpoch else Res.bound 0x31
  else if o.u8 16 = 0x20 && s.map.commits.any fun h => fld h.desc 0 1 = 0x19 && fld h.desc 16 1 = 0x20 && fld h.desc 12 4 = o.handle then Res.bound 0x20
  else (s.applyEdit o data).2

/-- The keyframes of the device's own that a change quarantines or releases, for the other members. -/
def State.changeKeys (s : State) (o : Op) : List Byte :=
  if o.opcode = 0x19 && (o.u8 16 = 0x10 || o.u8 16 = 0x11) then (s.quarKeys o (o.u8 16 = 0x10)).flatMap fun k => leBytes k 8 else []

/-- Hold a change. -/
def State.hold (s : State) (h : HeldCommit) : State := { s with map := { s.map with commits := s.map.commits ++ [h] } }

/-- The change of a member with a number. -/
def State.heldOf (s : State) (peer id : Nat) : Option HeldCommit := s.map.commits.find? fun h => h.peer = peer && h.id = id

/-- Forget a change. -/
def State.unhold (s : State) (peer id : Nat) : State := { s with map := { s.map with commits := s.map.commits.filter fun h => !(h.peer = peer && h.id = id) } }

/-- Do something to the sealed change, which the next epoch publishes. -/
def State.inSealed (s : State) (f : State → State) : State :=
  match s.map.sealedView with
  | none => s
  | some v =>
    let t := f { s with map := { s.map with cur := v, sealedView := none } }
    { t with map := { t.map with cur := s.map.cur, sealedView := some t.map.cur } }

/-- Carry out a change that belongs to an epoch: into what is being filled, and into the sealed change too where that is the change's epoch. -/
def State.applyChange (s : State) (epoch : Nat) (o : Op) (data : List Byte) : State :=
  if epoch < s.nextEpoch then
    let base := s.map.latest
    ((s.inSealed fun t => (t.carryOut base o data).1).carryOut base o data).1
  else (s.carryOut s.map.base o data).1

/-- The commit epoch of a change is known at a member: it is carried out, or held until the device fills that epoch. -/
def State.settleChange (s : State) (peer id epoch : Nat) (desc data : List Byte) : State :=
  let o : Op := { desc := desc }
  let s := s.unhold peer id
  let s := if o.opcode = 0x28 then s.correct (commitOf data).1 epoch else s
  if s.nextEpoch < epoch then s.hold { peer := peer, id := id, answered := s.nextEpoch, epoch := some epoch, desc := desc, data := data }
  else s.applyChange epoch o data

/-- Changes held for the epoch that the device now fills are carried out. -/
def State.dueChanges (s : State) : State :=
  let due := s.map.commits.filter fun h => h.epoch.any fun e => decide (e ≤ s.nextEpoch)
  due.foldl (fun (s : State) h => (s.unhold h.peer h.id).applyChange (h.epoch.getD 0) { desc := h.desc } h.data) s

/-- A member is asked to take a change: it holds it and answers the epoch it fills, or refuses. -/
def State.takeChange (s : State) (peer id : Nat) (o : Op) (data : List Byte) : State × Res × List Byte :=
  let r := s.preview o data
  if r.status ≠ St.ok then (s, r, [])
  else if o.opcode = 0x28 && !s.commitHere (commitOf data) then (s, Res.ok 0 0, [])
  else (s.hold { peer := peer, id := id, answered := s.nextEpoch, desc := o.desc, data := data }, { r with detail := s.nextEpoch }, s.changeKeys o)

/-- What another member asks of a change. -/
def State.serveChange (s : State) (peer : Nat) (o : Op) (data : List Byte) : State × Res × List Byte :=
  let id := fld data 1 8
  let epoch := fld data 9 8
  match fld data 0 1 with
  | 1 => s.takeChange peer id o (data.drop 17)
  | 2 => (s.settleChange peer id epoch o.desc (data.drop 17), Res.ok 0 epoch, [])
  | _ => (s.unhold peer id, Res.ok 0 0, [])

/-- The device coordinates a change: it takes it itself and asks the other members. -/
def State.proposeChange (s : State) (id cls : Nat) (desc data : List Byte) : State :=
  let s := s.hold { peer := s.self, id := id, answered := s.nextEpoch, desc := desc, data := data }
  s.others.foldl (fun (s : State) p => s.sendRequest id p cls desc (changeBytes 1 id 0 data)) s

/-- A change that the device coordinates is withdrawn, where its commit epoch is not known yet. -/
def State.withdrawChange (s : State) (id : Nat) : State :=
  match s.heldOf s.self id with
  | none => s
  | some h =>
    if h.epoch.isSome then s
    else s.others.foldl (fun (s : State) p => s.tell p 2 h.desc (changeBytes 3 id 0 [])) (s.unhold s.self id)

/-- Every member asked has taken a change: the commit epoch is the latest of the answers, and all are told (R263). -/
def State.decideChange (s : State) (id cls : Nat) (desc data : List Byte) (answers : List RemoteSt) : State × Nat :=
  let e := answers.foldl (fun m r => max m r.detail) (((s.heldOf s.self id).map (·.answered)).getD s.nextEpoch)
  let s := s.settleChange s.self id e desc data
  (s.others.foldl (fun (s : State) p => s.sendRequest id p cls desc (changeBytes 2 id e data)) s, e)

/-! ## The edit at the device that fetched it -/

/-- An edit of one tile: the owner records it, here or on the other member; an isolated device never reaches the commit point
(R24, R29, R391). -/
def State.editTile (s : State) (o : Op) (data : List Byte) : State :=
  let w := s.map.cur.ownerOf (o.i16 20) (o.i16 22)
  if !s.canCommit then s.begin o.id
  else if w = s.self then
    let r := s.applyEdit o data
    (r.1.access (o.i16 20) (o.i16 22) s.self).finishAcked s o.id r.2
  else (s.sendRequest o.id w o.cls o.desc data).await o.id

/-- An edit that several members record: it commits when all have (R24, R206, R213, R316). -/
def State.editAll (s : State) (o : Op) (data : List Byte) : State :=
  if !s.canCommit then s.begin o.id
  else if s.others.isEmpty then
    let r := s.applyEdit o data
    r.1.finishAcked s o.id r.2
  else
    let r := s.preview o data
    if r.status ≠ St.ok then s.complete o.id r
    else ((s.proposeChange o.id o.cls o.desc data).updOp o.id fun p => { p with count := r.count }).await o.id

/-- The data of an edit that several members record, at its commit: the keyframes that the members quarantine or release, else what they took. -/
def State.editData (s : State) (o : Op) (answers : List RemoteSt) : List Byte :=
  if o.u8 16 = 0x10 ∨ o.u8 16 = 0x11 then s.changeKeys o ++ answers.flatMap RemoteSt.data else ((s.heldOf s.self o.id).map (·.data)).getD []

/-- Every member asked has answered an edit (R24, R206): an edit of one tile completes; one that several members record reaches its commit point, then
completes once they have recorded it; the observations of a keyframe that another member holds have come, and its deletion starts. -/
def State.editAnswered (s : State) (o : Op) : State :=
  if o.committed ∧ (s.fabric.ackWaits.any fun w => w.op = some o.id) then s
  else
    let answers := s.requestsOf o.id
    let t := s.dropRequests o.id
    match answers.find? fun r => r.status ≠ St.ok with
    | some r => if o.committed then t.complete o.id (Res.ok o.count o.detail)
                else (t.withdrawChange o.id).complete o.id { status := r.status, count := r.count, detail := r.detail }
    | none =>
      if o.committed then t.complete o.id (Res.ok o.count o.detail)
      else if (t.heldOf t.self o.id).isSome then
        let sum := if o.u8 16 < 0x20 then (answers.map (·.count)).sum else 0
        let r := (t.commit o.id).decideChange o.id o.cls o.desc (t.editData o answers) answers
        let s' := r.1.updOp o.id fun p => { p with count := p.count + sum, detail := r.2 }
        let needs := s'.ackNeeds t
        if needs.isEmpty then s' else s'.awaitAcks { op := some o.id, status := St.ok, count := o.count + sum, detail := r.2, needs := needs }
      else if o.u8 16 = 0x02 then t.editAll o (answers.flatMap RemoteSt.data)
      else t.complete o.id (Res.ok (answers.map (·.count)).sum (answers.foldl (fun m r => max m r.detail) 0))

/-- PF0-only edits (R24, R213, R316). -/
def pf0Only (o : Op) : Option Res := if o.fn = 0 then none else some (Res.denied 1)

/-- TILE_RESTORE (R25). -/
def execTileRestore (op : Nat) (s : State) : Result :=
  s.runSub op 0x19 0x01 fun o =>
    match firstRes [pf0Only o, if bits (o.u8 17) 7 1 = 0 then none else some (Res.bad 2 17)] with
    | some r => s.finish op r
    | none => s.editTile o (s.readMem (o.u64 24) (o.u64 32))

/-- KEYFRAME_DELETE (R26). -/
def execKeyframeDelete (op : Nat) (s : State) : Result :=
  s.runSub op 0x19 0x02 fun o =>
    match firstRes [pf0Only o, need (o.u64 32 = 0) 32] with
    | some r => s.finish op r
    | none =>
      if s.ownsIn s.map.cur (o.i16 20) (o.i16 22) then (s.access (o.i16 20) (o.i16 22) s.self).editAll o (s.deleteData o)
      else if !s.canCommit then s.begin op
      else (s.sendRequest op (s.map.cur.ownerOf (o.i16 20) (o.i16 22)) o.cls o.desc []).await op

/-- KEYFRAME_POSE (R26). -/
def execKeyframePose (op : Nat) (s : State) : Result :=
  s.runSub op 0x19 0x03 fun o =>
    let b := s.readMem (o.u64 32) 36
    match firstRes [pf0Only o, need (poseOk b) 32] with
    | some r => s.finish op r
    | none => s.editTile o b

/-- LINK_ADD (R26). -/
def execLinkAdd (op : Nat) (s : State) : Result :=
  s.runSub op 0x19 0x04 fun o =>
    let b := s.readMem (o.u64 32) 144
    match firstRes [pf0Only o, need (fld b 16 1 = 1 && fld b 0 8 = o.u64 24 && F32.unitQuat (wflds b 40 4)) 32] with
    | some r => s.finish op r
    | none => s.editTile o b

/-- LINK_DELETE (R26). -/
def execLinkDelete (op : Nat) (s : State) : Result :=
  s.runSub op 0x19 0x05 fun o =>
    match pf0Only o with
    | some r => s.finish op r
    | none => s.editTile o []

/-- Whether a function may quarantine a session's contributions (R205), and the order of the window. -/
def State.quarCheck (s : State) (o : Op) : Option Res :=
  let owned := ((s.session o.handle).any fun x => x.fn = o.fn) || ((s.keySlot o.handle).any fun k => k.fn = o.fn)
  firstRes [if o.fn = 0 ∨ owned then none else some (Res.denied 3), need (decide (o.u64 20 ≤ o.u64 28)) 20]

/-- QUARANTINE (R205, R206). -/
def execQuarantine (op : Nat) (s : State) : Result :=
  s.runSub op 0x19 0x10 fun o =>
    match s.quarCheck o with
    | some r => s.finish op r
    | none => s.editAll o []

/-- RELEASE (R205, R206). -/
def execRelease (op : Nat) (s : State) : Result :=
  s.runSub op 0x19 0x11 fun o =>
    match s.quarCheck o with
    | some r => s.finish op r
    | none => s.editAll o []

/-- Whether a value is a handle of an index (R211). -/
def indexHandleOk (h : Nat) : Bool := within 1 255 h

/-- The fields of INDEX_CREATE out of range, the lowest offset first (R212, R213). -/
def createFields (o : Op) : Option Res :=
  let m := o.u8 18
  let one := decide (o.handle = 1)
  firstRes [need (indexHandleOk o.handle) 12, need (within 0 1 (o.u8 17) && (!one || o.u8 17 = 1)) 17, need (m = 32 || m = 64) 18,
    need (within 16 64 (o.u8 19) && o.u8 19 % 8 = 0) 19, need (within 32 256 (o.u16 20) && o.u16 20 % m = 0 && (!one || o.u16 20 = 256)) 20,
    need (within 16 32768 (o.u16 22)) 22]

/-- INDEX_CREATE (R212, R213). -/
def execIndexCreate (op : Nat) (s : State) : Result :=
  s.runSub op 0x19 0x20 fun o =>
    match firstRes [pf0Only o, createFields o] with
    | some r => s.finish op r
    | none =>
      let b := s.readMem (o.u64 24) ((o.u16 22 + 256) * o.u16 20 * 4)
      if !((wflds b 0 (b.length / 4)).all F32.finite) then s.finish op (Res.field 24)
      else if (s.map.cur.index o.handle).isSome then s.finish op (Res.bound 0x20)
      else s.editAll o b

/-- INDEX_DROP (R213). -/
def execIndexDrop (op : Nat) (s : State) : Result :=
  s.runSub op 0x19 0x21 fun o =>
    match firstRes [pf0Only o, need (s.map.cur.index o.handle).isSome 12] with
    | some r => s.finish op r
    | none => s.editAll o []

/-- TILE_AFFINITY (R316). -/
def execTileAffinity (op : Nat) (s : State) : Result :=
  s.runSub op 0x19 0x30 fun o =>
    match firstRes [pf0Only o, need (!within 64 254 (o.u8 17)) 17, if bits (o.u8 18) 7 1 = 0 then none else some (Res.bad 2 18),
        need (rectOk o.rect) 20] with
    | some r => s.finish op r
    | none => s.editAll o []

/-- The epoch an EPOCH_WAIT waits for (R27). -/
def Op.waitTarget (o : Op) : Nat := if o.u64 16 = 0 then o.epochAtFetch + 1 else o.u64 16

/-- EPOCH_WAIT (R27). -/
def execEpochWait (op : Nat) (s : State) : Result :=
  s.runOp op 0x1A fun o =>
    if o.waitTarget ≤ s.map.published then s.finish op (Res.ok 0 s.map.published) else s.await op

end Sys2Proof.Machine
end

