-- ==== Sys2Proof/Machine/Mesh.lean ====
section
/-! DEFINITION. The die: the stops of the spine and the units at them (R42, R43), the mesh of routers with its packets, routes, virtual channels
and arbiters (R47 to R51, R53), the classes of the device's own work (R52), the longest pieces (R54, R55), and the SRAM of a part (R39, R44). -/

namespace Sys2Proof.Machine

/-! ## Stops and routers (R42, R43, R47) -/

/-- The stops of the spine: clusters 0 to 12, then the die-level stops in the order of R42. -/
inductive Stop where
  | cluster (i : Nat)
  | host | net | fzl | basin0 | basin1 | lakeA | lakeB
  deriving DecidableEq, Repr

/-- The number of a stop, which is its router's. Clusters stand at both ends of the longest route, as R51 has it; which stop stands at which router is not
given otherwise (DESIGN CHOICE, log entry 175). -/
def Stop.num : Stop → Nat
  | .cluster i => if i < 12 then i else 19
  | .host => 12
  | .net => 13
  | .fzl => 14
  | .basin0 => 15
  | .basin1 => 16
  | .lakeA => 17
  | .lakeB => 18

/-- Whether a stop is a cluster's. -/
def clusterStop (n : Nat) : Bool := decide (n < 12) || n = 19

/-- The die-level units (R42). -/
inductive DieUnit where
  | hostUnit | sweep | ringPond
  | netUnit | timeUnit | ingest | triggers
  | fabricPort (p : Nat) | inletPond
  | basin0 | projection
  | basin1 | placement | tablePond
  | lakeChannel (c : Nat) | securityCore | securePond
  | management | springBridge
  deriving DecidableEq, Repr

/-- The stop a unit attaches to (R42). -/
def DieUnit.stop : DieUnit → Stop
  | .hostUnit => .host
  | .sweep => .host
  | .ringPond => .host
  | .netUnit => .net
  | .timeUnit => .net
  | .ingest => .net
  | .triggers => .net
  | .fabricPort _ => .fzl
  | .inletPond => .fzl
  | .basin0 => .basin0
  | .projection => .basin0
  | .basin1 => .basin1
  | .placement => .basin1
  | .tablePond => .basin1
  | .lakeChannel c => if c < 4 then .lakeA else .lakeB
  | .securityCore => .lakeA
  | .securePond => .lakeA
  | .management => .lakeB
  | .springBridge => .lakeB

/-- The die-level ponds in MB (R42). -/
def DieUnit.pondMb : DieUnit → Nat
  | .ringPond => 4
  | .inletPond => 4
  | .tablePond => 2
  | .securePond => 2
  | _ => 0

/-- Whether a part has a unit in service (R3, R42, R43). The stop of an absent one stays a router. -/
def Part.hasUnit (p : Part) (u : DieUnit) : Bool :=
  match u with
  | .netUnit => p != .hv8306
  | .triggers => p != .hv8306
  | .projection => p != .hv8306
  | .basin0 => p != .hv8306
  | .basin1 => p = .hv8312
  | .fabricPort i => decide (i < match p with | .hv8312 => 6 | .hv8309 => 4 | .hv8306 => 2)
  | .lakeChannel c => decide (c < 8)
  | _ => true

/-- Columns of the mesh; it has 4 rows (R47). Router n is at row n / 5, column n % 5. -/
def meshCols : Nat := 5

/-- The row and column of a router (R47). -/
def routerAt (r : Nat) : Nat × Nat := (r / meshCols, r % meshCols)

/-- The outputs of a router: 0 its stop, 1 left and 2 right along the row, 3 up and 4 down the column. -/
def routeOut (r dst : Nat) : Nat :=
  if dst % meshCols < r % meshCols then 1
  else if r % meshCols < dst % meshCols then 2
  else if dst / meshCols < r / meshCols then 3
  else if r / meshCols < dst / meshCols then 4
  else 0

/-- The router that an output leads to. -/
def routerNext (r out : Nat) : Nat :=
  if out = 1 then r - 1 else if out = 2 then r + 1 else if out = 3 then r - meshCols else if out = 4 then r + meshCols else r

/-- The input by which a packet that left through an output comes in: 0 is the stop's own. -/
def inputOf (out : Nat) : Nat := if out = 1 then 2 else if out = 2 then 1 else if out = 3 then 4 else if out = 4 then 3 else 0

/-- The routers that a packet passes, first along the row, then along the column, with no choice (R49). -/
def meshRoute (r dst : Nat) : Nat → List Nat
  | 0 => [r]
  | n + 1 => if routeOut r dst = 0 then [r] else r :: meshRoute (routerNext r (routeOut r dst)) dst n

/-- The routers from one stop to another (R49). -/
def meshPath (src dst : Nat) : List Nat := meshRoute src dst 8

/-- Hops inside a cluster's crossbar, at most (R39, R51). -/
def crossbarHops : Nat := 3

/-- Hops of a route: a mesh hop for each router left, one ejection hop, and the crossbars of the clusters at its ends (R51). -/
def routeHops (src dst : Nat) : Nat :=
  (if clusterStop src then crossbarHops else 0) + ((meshPath src dst).length - 1) + 1 + (if clusterStop dst then crossbarHops else 0)

/-! ## Packets (R48) -/

/-- The form of a spine packet: a class of R52, two stops, and at most 8 payload flits. -/
def MeshPkt.ok (p : MeshPkt) : Bool := decide (p.cls ≤ 4) && decide (p.src < 20) && decide (p.dst < 20) && decide (p.payload ≤ 8)

/-- Flits of a packet: the header and its payload. -/
def MeshPkt.flits (p : MeshPkt) : Nat := 1 + p.payload

/-- Bytes of a packet. -/
def MeshPkt.bytes (p : MeshPkt) : Nat := 32 * p.flits

/-! ## Arbiters (R53) -/

/-- An arbiter's grant among its requests, each an input and a class: the lowest class number wins, and within it the first input at or after the
pointer, going round n inputs. -/
def arbGrant (n : Nat) (turn : Nat → Nat) (reqs : List (Nat × Nat)) : Option (Nat × Nat) :=
  match (List.range 5).find? fun c => reqs.any fun q => q.2 = c with
  | none => none
  | some c =>
    let ins := (reqs.filter fun q => q.2 = c).map (·.1)
    ((List.range n).map fun k => (turn c + k) % n).find? (fun i => ins.contains i) |>.map fun i => (i, c)

/-- The pointer after a grant: the input after the last winner. -/
def turnAfter (n winner : Nat) : Nat := (winner + 1) % n

/-! ## The spine moves (R49, R50, R53) -/

/-- Packets of one virtual channel that a router holds for credit: the depth is not given, so it is the device's. -/
def vcDepth : Nat := 1 + Config.channelDepth

/-- The key of a round-robin pointer. -/
def turnKey (router out cls : Nat) : Nat := (router * 8 + out) * 8 + cls

/-- Whether a packet that waits is the first of its virtual channel at its router's input (R50). -/
def Mesh.first (m : Mesh) (w : OnMesh) : Bool :=
  match m.waiting.find? fun x => x.router = w.router && x.input = w.input && x.pkt.cls = w.pkt.cls with
  | some x => x = w
  | none => false

/-- Whether the next router has a place, a credit, for one more packet of a class on an input (R50); a stop always takes its packets. -/
def Mesh.credit (m : Mesh) (router out cls : Nat) : Bool :=
  out = 0 || decide ((m.waiting.filter fun x => x.router = routerNext router out && x.input = inputOf out && x.pkt.cls = cls).length < vcDepth)

/-- The packets that ask for an output of a router: first of their channel, with a credit for their class. A class without one holds back no
other (R50). -/
def Mesh.asking (m : Mesh) (router out : Nat) : List OnMesh :=
  m.waiting.filter fun w => w.router = router && routeOut router w.pkt.dst = out && m.first w && m.credit router out w.pkt.cls

/-- The first element that meets p is taken out. -/
def dropFirst {α : Type} (p : α → Bool) : List α → List α
  | [] => []
  | x :: t => if p x then t else x :: dropFirst p t

/-- One output of a router grants (R53): the winner goes to the next router, or leaves at its stop; the pointer moves past it. -/
def Mesh.output (m : Mesh) (router out : Nat) : Mesh :=
  let asks := m.asking router out
  match arbGrant 5 (fun c => Store.get (fun _ => 0) (turnKey router out c) m.turn) (asks.map fun w => (w.input, w.pkt.cls)) with
  | none => m
  | some g =>
    match asks.find? fun w => w.input = g.1 && w.pkt.cls = g.2 with
    | none => m
    | some w =>
      let rest := dropFirst (fun x => x = w) m.waiting
      let turn := Store.set (fun _ => 0) (turnKey router out g.2) (turnAfter 5 g.1) m.turn
      if out = 0 then { waiting := rest, turn := turn, arrived := (w.pkt, w.hops + 1) :: m.arrived }
      else { m with waiting := rest ++ [{ pkt := w.pkt, router := routerNext router out, input := inputOf out, hops := w.hops + 1 }], turn := turn }

/-- One round of grants: every output of every router, once. -/
def Mesh.round (m : Mesh) : Mesh :=
  if m.waiting.isEmpty then m
  else (List.range 20).foldl (fun (m : Mesh) r => (List.range 5).foldl (fun (m : Mesh) o => m.output r o) m) m

/-- A unit sends a packet: it waits at the router of its stop. -/
def State.sendPkt (s : State) (p : MeshPkt) : State :=
  if p.ok then { s with mesh := { s.mesh with waiting := s.mesh.waiting ++ [{ pkt := p, router := p.src }] } } else s

/-- The spine's round of grants while its domain is on (R430). -/
def State.meshRound (s : State) : State := { s with mesh := s.mesh.round }

/-! ## Classes of work (R52, R54, R55) -/

/-- The device's own work (R52). -/
inductive Work where
  | poseReply | timedLaunch | faultHandling
  | sessionTracking | fusion
  | loopClosure | search | solve | inference
  | mapMaintenance | settling | migration | tileHandover
  | pondTest | scrub | reservoirPreparation
  deriving DecidableEq, Repr

/-- The class of the device's own work (R52). -/
def Work.cls : Work → Nat
  | .poseReply => 0
  | .timedLaunch => 0
  | .faultHandling => 0
  | .sessionTracking => 1
  | .fusion => 1
  | .loopClosure => 2
  | .search => 2
  | .solve => 2
  | .inference => 2
  | .mapMaintenance => 3
  | .settling => 3
  | .migration => 3
  | .tileHandover => 3
  | .pondTest => 4
  | .scrub => 4
  | .reservoirPreparation => 4

/-- The blocking sources (R54). -/
inductive Blocking where
  | spineHop | pondBank | basinAccess | lakeAccess | matrixEngine | abacusCore | soundingCore | tidyCore | springCopy
  deriving DecidableEq, Repr

/-- The longest piece at a resource in ps (R54): what class 0 waits for lower-class work at most, at one use. -/
def Blocking.piece : Blocking → Nat
  | .spineHop => 3750
  | .pondBank => 80000
  | .basinAccess => 400000
  | .lakeAccess => 1100000
  | .matrixEngine => 12000000
  | .abacusCore => 6000000
  | .soundingCore => 4000000
  | .tidyCore => 2000000
  | .springCopy => 61000000

/-- The wake of one cluster from RETENTION, in ps: the further term of class 0 core work where no cluster in service is ON (R55). -/
def wakeTerm : Nat := 28000000

/-- The worst-case blocking of a class 0 operation in ps: the sum over the resources that it uses, and the wake where none is ON (R55). -/
def worstBlocking (uses : List Blocking) (onCore someOn : Bool) : Nat :=
  (uses.map Blocking.piece).sum + (if onCore && !someOn then wakeTerm else 0)

/-- The worst-case blocking over a route in ps: one packet of 9 flits at each hop (R54). -/
def routeBlocking (src dst : Nat) : Nat := routeHops src dst * Blocking.spineHop.piece

/-- An operation's work is placed on a cluster: what it waited there is counted (R56), and its descriptor goes over the spine from the host unit at the
class of the descriptor (R48, R81). -/
def State.dispatch (s : State) (o : Op) (c : Nat) : State :=
  ((s.waited c o.cls (s.clock.now - o.readyAt)).placed c).sendPkt { cls := o.cls, src := Stop.host.num, dst := (Stop.cluster c).num, tag := o.id % 8192, payload := 2 }

/-! ## SRAM (R39, R42, R44) -/

/-- KB of memory of the units of a cluster: pond banks, a pond bank, a matrix core's operand buffer, a tidy core's instruction cache and data
scratch (R39). -/
def pondBanks : Nat := 28
def pondBankKb : Nat := 256
def operandKb : Nat := 512
def tidyCacheKb : Nat := 64
def tidyScratchKb : Nat := 64

/-- Query contexts of a sounding core (R39, R61). -/
def queryContexts : Nat := 256

/-- Spare rows and columns of a pond bank (R39, R407). -/
def bankRows : Nat := 8
def bankColumns : Nat := 4

/-- Pond banks of a die-level stop's ponds, and of a cluster (R39, R42): cluster 15 stands for the die-level ponds. -/
def banksOf (c : Nat) : Nat := if c ≤ 12 then pondBanks else 48

/-- Masters of a cluster pond (R344): matrix cores 0 to 4, tidy cores 0 to 9, the vision, abacus and sounding cores and the spine port. -/
def pondMasters : List Nat := List.range 5 ++ (List.range 10).map (· + 8) ++ [0x14, 0x15, 0x16, 0x17]

/-- Whether a master uses port A of a twin bank; the others use port B (R342). -/
def onPortA (m : Nat) : Bool := decide (m < 5) || m = 0x14

/-- A cycle at a word of a twin bank: what the word holds after it, and whether port B's master receives WRITE_LOST. -/
structure TwinCycle where
  word : List Byte
  lost : Bool
  deriving DecidableEq, Repr

/-- Two writes to one word of a twin bank in the same cycle, a from port A and b from port B (R343): port A's is performed and port B's dropped; the
master repeats it in the next cycle, in which the word is closed to port A. -/
def twinWrite (a b : List Byte) : List TwinCycle := [{ word := a, lost := true }, { word := b, lost := false }]

/-- Work of some masters on the pond of a cluster (R343, R344): the cycles that each waited for a bank held by another, and in a twin pond the collisions
that port B's masters lost, are timing and so free numbers; each lost write is repeated, and the word ends with port B's value. -/
def State.pondWork (s : State) (c : Nat) (masters : List Nat) : State :=
  let twin := s.place.clusters.any fun k => k.idx = c && k.pondTwin
  let add (n m : Nat) (l : Store Nat) (k : Nat) : Store Nat := let key := c * 32 + m; Store.set (fun _ => 0) key ((Store.get (fun _ => 0) key l + n) % 2 ^ k) l
  let one (t : Tiers) (m : Nat × Nat) : Tiers :=
    { t with waitCycles := add (Config.freeNat (s.free + 2 * m.2)) m.1 t.waitCycles 64
             writeLost := if twin && !onPortA m.1 then
                 add ((twinWrite [] []).countP (fun w => w.lost) * Config.freeNat (s.free + 2 * m.2 + 1)) m.1 t.writeLost 32 else t.writeLost }
  { s with tiers := masters.zipIdx.foldl one s.tiers, free := s.free + 2 * masters.length }

/-- Whether a unit reaches the secure pond: the security core does, and the host unit for PF0's SESSION_KEY and SECURITY registers (R347). -/
def DieUnit.reachesSecure (u : DieUnit) (pf0 : Bool) : Bool := u = .securityCore || (u = .hostUnit && pf0)

/-- A spine access to the secure pond: what it completes with, and the state after it. From any other source it completes with zeros and is counted
(R347). -/
def State.secureAccess (s : State) (u : DieUnit) (pf0 : Bool) (data : List Byte) : State × List Byte :=
  if u.reachesSecure pf0 then (s, data) else (s.bump Ctr.guardedAccess, zeros data.length)

/-- Usable SRAM of a part in MB: the cluster ponds in service and the die-level ponds (R44). -/
def Part.sramMb (p : Part) : Nat :=
  p.clusters * (pondBanks * pondBankKb / 1024) + ([DieUnit.ringPond, .inletPond, .tablePond, .securePond].map DieUnit.pondMb).sum

end Sys2Proof.Machine
end

