-- ==== Sys2Proof/Machine/SoundOps.lean ====
section
/-! DEFINITION. The sounding operations and events: SEARCH (R228 to R234), VEC_INSERT and VEC_DELETE (R235 to R239), SETTLE,
RECALL_PROBE (R240, R241), settling passes (R224) and the queries of other members (R231, R232). -/

namespace Sys2Proof.Machine

/-! ## Index access -/

/-- The index an operation names, in a view: it must exist and the function be in its mask (R211, R213). -/
def useIndex (o : Op) (v : MapView) : Except Res Index :=
  match v.index o.handle with
  | none => .error (Res.field 12)
  | some x => if bit x.mask o.fn then .ok x else .error (Res.denied 3)

/-- A register value taken at fetch (R242, R270). -/
def Op.snapF (o : Op) (i hi lo : Nat) : Nat := bits ((o.snap[i]?).getD 0) hi lo

/-- The parameters of a search, 0 taking the registers' values at fetch (R221, R228, R242). -/
def Op.searchPar (o : Op) (maxVisits : Nat) : SearchPar :=
  let k := o.u16 32
  { k := k, beam := if o.u16 34 = 0 then max k (clampN 16 1024 (o.snapF 0 10 0)) else o.u16 34,
    entry := if o.u8 36 = 0 then clampN 1 16 (o.snapF 0 20 16) else o.u8 36,
    probes := if o.u8 37 = 0 then clampN 1 64 (o.snapF 0 30 24) else o.u8 37,
    maxVisits := if maxVisits = 0 then clampN 64 1048575 (o.snapF 1 19 0) else maxVisits }

/-! ## Filters -/

/-- The filter block's time window and rectangles (R228). -/
structure FilterBlock where
  from_ : Nat := 0
  to_ : Nat := 0
  rects : List (Int × Int × Int × Int) := []
  deriving DecidableEq, Repr

/-- The filter block as host memory holds it (R228). -/
def readBlock (s : State) (p : Nat) : FilterBlock :=
  let n := fld (s.readMem (p + 16) 4) 0 4
  let b := s.readMem p (24 + 8 * n)
  { from_ := fld b 0 8, to_ := fld b 8 8,
    rects := (List.range n).map fun i => (sfld b (24 + 8 * i) 2, sfld b (26 + 8 * i) 2, sfld b (28 + 8 * i) 2, sfld b (30 + 8 * i) 2) }

/-- The filter block in a QUERY, big-endian (R382, R387). -/
def FilterBlock.bytesBe (f : FilterBlock) : List Byte :=
  beBytes f.from_ 8 ++ beBytes f.to_ 8 ++ beBytes f.rects.length 4 ++ zeros 4 ++
    f.rects.flatMap fun r => tileBe r.1 r.2.1 ++ tileBe r.2.2.1 r.2.2.2

/-- The filter block of a QUERY. -/
def blockOfBe (b : List Byte) : FilterBlock :=
  let g (off : Nat) : Int := sext 16 (bfld b off 2)
  { from_ := bfld b 0 8, to_ := bfld b 8 8,
    rects := (List.range (bfld b 16 4)).map fun i => (g (24 + 8 * i), g (26 + 8 * i), g (28 + 8 * i), g (30 + 8 * i)) }

/-- The filters of a query from its FILTERS byte, KIND_MASK and filter block (R228). -/
def filtersOf (flags kinds : Nat) (b : FilterBlock) : Filters :=
  { tiles := if bit flags 0 then some b.rects else none, time := if bit flags 1 then some (b.from_, b.to_) else none,
    kinds := if bit flags 2 then some kinds else none, noQuar := bit flags 3 }

/-- The fields that SEARCH and RECALL_PROBE share, out of range (R228, R241). -/
def searchFields (o : Op) : Option Res :=
  firstRes [need (within 1 1024 (o.u16 32)) 32, need (o.u16 34 = 0 || within (o.u16 32) 1024 (o.u16 34)) 34, need (o.u8 36 ≤ 16) 36,
    need (o.u8 37 ≤ 64) 37, if bits (o.u8 38) 7 5 = 0 then none else some (Res.bad 2 38), need (bits (o.u8 38) 1 0 ≠ 0 || o.u64 40 = 0) 40]

/-- The filter block is in range (R228). TIME_FROM and TO are tested where TIME is set. -/
def blockCheck (s : State) (o : Op) : Option Res :=
  if bits (o.u8 38) 1 0 = 0 then none
  else if 16 < fld (s.readMem (o.u64 40 + 16) 4) 0 4 then some (Res.field 40)
  else need (!bit (o.u8 38) 1 || decide ((readBlock s (o.u64 40)).from_ ≤ (readBlock s (o.u64 40)).to_)) 40

/-- The filter block of an operation; empty where it names none. -/
def Op.block (o : Op) (s : State) : FilterBlock := if bits (o.u8 38) 1 0 = 0 then {} else readBlock s (o.u64 40)

/-! ## SEARCH -/

/-- The 32 bytes of a result record (R229). -/
def searchRecBytes (r : SearchRec) : List Byte :=
  leBytes r.key 8 ++ leBytes r.dist 4 ++ leBytes r.session 4 ++ leBytes r.time 8 ++ leBytes (tc 16 r.ix) 2 ++ leBytes (tc 16 r.iy) 2 ++
    leBytes r.kind 1 ++ leBytes (b2n r.inlet) 1 ++ zeros 2

/-- The record in an ANSWER, big-endian (R382, R387). -/
def searchRecBytesBe (r : SearchRec) : List Byte :=
  beBytes r.key 8 ++ beBytes r.dist 4 ++ beBytes r.session 4 ++ beBytes r.time 8 ++ tileBe r.ix r.iy ++ beBytes r.kind 1 ++ beBytes (b2n r.inlet) 1 ++
    zeros 2

/-- The order of R219 over shards: DIST, KEY, array ID. -/
def recBefore (a b : Nat × SearchRec) : Bool :=
  decide (a.2.dist < b.2.dist) || (decide (a.2.dist = b.2.dist) && (decide (a.2.key < b.2.key) || (decide (a.2.key = b.2.key) && decide (a.1 ≤ b.1))))

/-- Search the device's own shard, with the counters a search moves (R221, R222). -/
def State.searchOwn (s : State) (v : MapView) (x : Index) (q : List Word) (par : SearchPar) (f : Filters) (table : List (List Nat)) : State × Walk :=
  let w := x.searchShard v.gens (fun e => s.ownsIn v e.ix e.iy) q par f table
  let s := s.bumpBy Ctr.staleEdge 0 w.stale
  let s := if par.maxVisits ≤ w.visits then s.bump Ctr.visitLimit else s
  (s, w)

/-- Accesses of a device to the tiles of the shard that a search admits (R308). -/
def State.countSearch (s : State) (f : Filters) (dev : Nat) : State :=
  (s.map.cur.tiles.filter fun t => t.owner = s.self && (f.tiles.all fun rs => inRects rs t.ix t.iy)).foldl (fun s t => s.access t.ix t.iy dev) s

/-- A bitmap of array IDs. -/
def bitmap (l : List Nat) : Nat := l.eraseDups.foldl (fun v i => setBit v i true) 0

/-- The merge of the answers, the result buffer and the outcome (R229, R230, R232). -/
def State.mergeSearch (s : State) (st : SearchSt) : State :=
  match s.findOp st.op with
  | none => s
  | some o =>
    let all := st.answers.flatMap fun a => a.recs.map fun r => (a.src, r)
    let best := (all.mergeSort recBefore).take st.k
    let answered := (st.answers.map (·.src)).eraseDups
    let missing := decide (answered.length < st.queried.length)
    let short := decide (best.length < st.k)
    let visits := (st.answers.map (·.visits)).sum
    let head := leBytes st.epoch 8 ++ leBytes best.length 4 ++ leBytes visits 4 ++ leBytes st.scale.toNat 4 ++
      leBytes (b2n missing + 2 * b2n st.visitLimit + 4 * b2n short) 1 ++ zeros 3 ++ leBytes (bitmap st.queried) 8
    let s := { s with sound := { s.sound with searches := s.sound.searches.filter fun t => t.op ≠ st.op } }
    (s.writeMem (o.u64 24) (head ++ best.flatMap fun r => searchRecBytes r.2)).complete st.op
      { status := if missing || short then St.okPartial else St.ok, count := best.length, detail := bitmap answered }

/-- The search with an operation's ID. -/
def State.searchOf (s : State) (op : Nat) : Option SearchSt := s.sound.searches.find? fun t => t.op = op

/-- Merge when every shard queried has answered or is known not to answer (R232). -/
def State.searchCheck (s : State) (op : Nat) : State :=
  match s.searchOf op with
  | none => s
  | some st =>
    let done := st.queried.all fun i => (st.answers.any fun a => a.src = i) || st.gone.contains i
    if done then s.mergeSearch st else s

/-- A peer that has left or stopped counts as not answering at once (R232). -/
def State.peerGone (s : State) (id : Nat) : State :=
  let s := { s with sound := { s.sound with searches := s.sound.searches.map fun (t : SearchSt) => { t with gone := t.gone ++ [id] } } }
  (s.sound.searches.map (·.op)).foldl State.searchCheck s

/-- The shards a SEARCH queries (R231). -/
def State.shardsOf (s : State) (o : Op) (v : MapView) (b : FilterBlock) : List Nat :=
  if bit (o.u8 38) 4 then [s.self]
  else if bit (o.u8 38) 0 then
    (b.rects.flatMap fun r => v.ownersOf r).eraseDups
  else (s.self :: s.others)

/-- Whether a search may take a query context: one is free, and none of a lower class number waits (R39, R53, R226). -/
def State.contextFree (s : State) (o : Op) : Bool :=
  decide (s.sound.searches.length < queryContexts * s.serving.length) && s.classFirst o fun p => p.opcode = 0x20 || p.opcode = 0x24

/-- SEARCH (R226, R228 to R233): once a query context is free the device's own shard is searched, the other shards are asked, and the best K are
merged. -/
def execSearch (op : Nat) (s : State) : Result :=
  s.runOp op 0x20 fun o =>
    if !s.contextFree o then s
    else match useIndex o s.map.latest, firstRes [searchFields o, need (o.u32 56 = 0 || within 64 1048575 (o.u32 56)) 56] with
    | .error r, _ => s.finish op r
    | .ok _, some r => s.finish op r
    | .ok x0, none =>
      let q := wflds (s.readMem (o.u64 16) (4 * x0.dim)) 0 x0.dim
      match firstRes [need (q.all F32.finite) 16, blockCheck s o] with
      | some r => s.finish op r
      | none =>
        match s.viewFor o 48 with
        | .error r => s.finish op r
        | .ok v =>
          match useIndex o v with
          | .error r => s.finish op r
          | .ok x =>
            let b := o.block s
            let f := filtersOf (o.u8 38) (o.u8 39) b
            let par := o.searchPar (o.u32 56)
            let tb := x.table q
            let queried := s.shardsOf o v b
            let margin := clampN 50 65535 (o.snapF 2 15 0) * 1000
            let xid := s.sound.nextXid
            let st : SearchSt := { op := op, xid := xid, epoch := o.epoch 48, k := par.k, peerDeadline := max o.fetchedAt (o.deadlineAt - margin),
                                   queried := queried, scale := tb.2, gone := queried.filter fun i => i ≠ s.self && !s.others.contains i }
            let r := if queried.contains s.self then s.searchOwn v x q par f tb.1 else (s, {})
            let s := r.1.countSearch f s.self
            let mine : AnswerMsg := { xid := xid, src := s.self, visits := r.2.visits, recs := r.2.result.map Scored.rec_ }
            let st := if queried.contains s.self then { st with answers := [mine], visitLimit := decide (par.maxVisits ≤ r.2.visits) } else st
            let s := { s with sound := { s.sound with nextXid := xid + 1, searches := s.sound.searches ++ [st] } }
            let body := beBytes (o.epoch 48) 8 ++ beBytes (packTime (s.devNs + (st.peerDeadline - s.clock.now))) 8 ++ beBytes par.k 2 ++ beBytes par.beam 2 ++
              beBytes par.entry 1 ++ beBytes par.probes 1 ++ beBytes (o.u8 38) 1 ++ beBytes (o.u8 39) 1 ++ beBytes par.maxVisits 4 ++ beBytes o.handle 1 ++
              zeros 3 ++ b.bytesBe ++ wBytesBe q
            let s := (queried.filter fun i => i ≠ s.self && s.others.contains i).foldl (fun s p => s.sendFz 0x01 2 p xid body) s
            (s.await op).searchCheck op

/-- PEER_DEADLINE (R232): the merge of what has answered by then. A coordinator that queried its own shard has its answer. -/
def execPeerDeadline (op : Nat) (s : State) : Result :=
  match s.searchOf op with
  | none => .next s
  | some st => .next ((s.toTime st.peerDeadline).mergeSearch st)

/-- A query of another member (R231, R232): the device searches its shard at the query's epoch and answers; a query that comes after the peer
deadline is dropped, and one at an epoch that the device has not published yet waits for it (R101). -/
def State.serveQuery (s : State) (m : QueryMsg) : State :=
  if !s.running || s.fabric.stopped || decide (unpackTime m.peerDeadline < s.devNs) then s
  else if s.map.published < m.epoch then { s with sound := { s.sound with laterQueries := s.sound.laterQueries ++ [m] } }
  else
    let reply (s : State) (visits code : Nat) (recs : List SearchRec) : State :=
      s.sendFz 0x02 2 m.src m.xid (beBytes recs.length 4 ++ beBytes visits 4 ++ beBytes code 1 ++ zeros 7 ++ recs.flatMap searchRecBytesBe)
    match s.map.at m.epoch with
    | none => reply s 0 1 []
    | some v =>
      match v.index m.index with
      | none => reply s 0 2 []
      | some x =>
        let q := (List.range x.dim).map fun i => BitVec.ofNat 32 (bfld m.vector (4 * i) 4)
        let f := filtersOf m.filters m.kindMask (blockOfBe m.filterBlock)
        let par : SearchPar := { k := m.k, beam := m.beam, entry := m.entry, probes := m.probes, maxVisits := m.maxVisits }
        let r := s.searchOwn v x q par f (x.table q).1
        reply (r.1.countSearch f m.src) r.2.visits 0 (r.2.result.map Scored.rec_)

/-- QUERY (R231, R232). -/
def execQuery (m : QueryMsg) (s : State) : Result :=
  .next ((s.taken (s.portOf m.src) 2 (32 + m.filterBlock.length + m.vector.length)).serveQuery m)

/-- ANSWER (R230, R232): it joins the merge; a shard with an error or without the epoch does not answer; a late one is
discarded and counted. VISIT_LIMIT is read from the visits, which reach MAX_VISITS where the peer's search stopped. -/
def execAnswer (m : AnswerMsg) (s : State) : Result :=
  let s := s.taken (s.portOf m.src) 2 (16 + 32 * m.recs.length)
  match s.sound.searches.find? fun t => t.xid = m.xid && t.queried.contains m.src && !(t.answers.any fun a => a.src = m.src) with
  | none => .next (s.bump Ctr.peerLate)
  | some st =>
    let lim := ((s.findOp st.op).map fun o => (o.searchPar (o.u32 56)).maxVisits).getD 0
    let upd (t : SearchSt) : SearchSt :=
      if m.result = 0 then { t with answers := t.answers ++ [m], visitLimit := t.visitLimit || decide (lim ≤ m.visits) }
      else { t with gone := t.gone ++ [m.src] }
    let s := { s with sound := { s.sound with searches := updFirst (fun t => t.xid = m.xid) upd s.sound.searches } }
    .next (s.searchCheck st.op)

/-! ## VEC_INSERT and VEC_DELETE -/

/-- Bytes of one record (R235, R236). -/
def vecSize (insert : Bool) (dim : Nat) : Nat := if insert then 24 + 4 * dim else 16

/-- The tile a record names (R235, R236). -/
def vecTile (insert : Bool) (r : List Byte) : Int × Int := if insert then (sfld r 16 2, sfld r 18 2) else (sfld r 8 2, sfld r 10 2)

/-- One record at the owner of its tile (R235 to R239): a key reserved in handle 1, then a value that is not finite, then the
shard's outcome. -/
def State.vecRecord (s : State) (insert : Bool) (h : Nat) (x : Index) (r : List Byte) : State × Nat :=
  let t := vecTile insert r
  if insert then
    let v := wflds r 24 x.dim
    if h = 1 ∧ fld r 0 8 / 2 ^ 32 ≠ 0 then (s, 6)
    else if !(v.all F32.finite) then (s, 3)
    else s.insertEntry h { code := x.encode v, key := fld r 0 8, time := fld r 8 8, session := 0, ix := t.1, iy := t.2, kind := 3 }
  else s.deleteEntry h (fld r 0 8) t.1 t.2

/-- The records whose tiles the device owns, in order; 5 stands for a record of another owner (R235, R238). -/
def State.vecApply (s : State) (insert : Bool) (h : Nat) (x : Index) (recs : List (List Byte)) (dev : Nat) : State × List Nat :=
  recs.foldl (fun (a : State × List Nat) r =>
    let t := vecTile insert r
    if a.1.ownsIn a.1.map.cur t.1 t.2 then
      let b := (a.1.access t.1 t.2 dev).vecRecord insert h x r
      (b.1, a.2 ++ [b.2])
    else (a.1, a.2 ++ [5])) (s, [])

/-- The outcome of a VEC operation (R237). -/
def vecRes (codes : List Nat) : Res :=
  let n (c : Nat) : Nat := (codes.filter fun d => d = c).length
  { status := if codes.all fun c => c = 0 then St.ok else St.okPartial, count := n 0,
    detail := n 1 % 65536 + n 2 % 65536 * 2 ^ 16 + (n 3 + n 6) % 65536 * 2 ^ 32 + (n 4 + n 5) % 65536 * 2 ^ 48 }

/-- The outcome of each record once the owners' answers, or the deadline, are in: a device's own codes stand in the OUTCOME
buffer; a record of an owner that answered takes its code; one whose owner is no member takes 0x04 (R237). -/
def State.vecDone (s : State) (o : Op) : State :=
  let insert := decide (o.opcode = 0x21)
  let n := o.u32 24
  let dim := ((s.map.latest.index o.handle).map (·.dim)).getD 0
  let recs := cut (vecSize insert dim) n (s.readMem (o.u64 16) (n * vecSize insert dim))
  let own := (s.readMem (o.u64 32) n).map (·.toNat)
  let answers := (s.requestsOf o.id).filter fun r => r.answered
  let code (i : Nat) (r : List Byte) : Nat :=
    let t := vecTile insert r
    let w := s.map.cur.ownerOf t.1 t.2
    match answers.find? fun a => a.peer = w with
    | some a => fld a.data i 1
    | none => if w ≠ s.self ∧ ¬ s.others.contains w then 4 else (own[i]?).getD 5
  let codes := recs.zipIdx.map fun r => code r.2 r.1
  ((s.dropRequests o.id).writeMem (o.u64 32) (codes.map (BitVec.ofNat 8))).complete o.id (vecRes codes)

/-- VEC_INSERT and VEC_DELETE at the device that fetched them (R235 to R238): its own records are handled now, the first being
the commit point; the records of other owners are sent to them. -/
def State.vecOp (s : State) (o : Op) (insert : Bool) : State :=
  match useIndex o s.map.latest with
  | .error r => s.finish o.id r
  | .ok x =>
    if !within 1 4096 (o.u32 24) then s.finish o.id (Res.field 24)
    else if !s.canCommit then s.await o.id
    else
      let n := o.u32 24
      let data := s.readMem (o.u64 16) (n * vecSize insert x.dim)
      let recs := cut (vecSize insert x.dim) n data
      let owners := (recs.map fun r => let t := vecTile insert r; s.map.cur.ownerOf t.1 t.2).eraseDups
      let r := s.vecApply insert o.handle x recs s.self
      let s := r.1.writeMem (o.u64 32) (r.2.map (BitVec.ofNat 8))
      let s := if owners.contains s.self then s.commit o.id else s
      let peers := owners.filter fun w => s.others.contains w
      if peers.isEmpty then s.vecDone o
      else (peers.foldl (fun s p => s.sendRequest o.id p o.cls o.desc data) s).await o.id

/-- VEC_INSERT (R235, R237 to R239). -/
def execVecInsert (op : Nat) (s : State) : Result := s.runOp op 0x21 fun o => s.vecOp o true

/-- VEC_DELETE (R236 to R238). -/
def execVecDelete (op : Nat) (s : State) : Result := s.runOp op 0x22 fun o => s.vecOp o false

/-! ## Settling -/

/-- SETTLE (R240): a pass is asked for; with nothing to settle it completes at once. -/
def execSettle (op : Nat) (s : State) : Result :=
  s.runOp op 0x23 fun o =>
    match useIndex o s.map.latest with
    | .error r => s.finish op r
    | .ok _ =>
      match s.map.cur.index o.handle with
      | none => s.finish op (Res.ok 0 s.map.published)
      | some x =>
        if !x.settling.running && !((s.shard x).any fun e => e.inlet || e.tomb) then s.finish op (Res.ok 0 s.map.published)
        else
          (s.setCur (s.map.cur.updIndex o.handle fun x => { x with settling := { x.settling with nextOps := x.settling.nextOps ++ [op] } })).await op

/-- SETTLING_PASS (R224, R240): a pass starts on the device's shard and takes the inlet entries and tombstones present. -/
def execSettlingPass (index : Nat) (s : State) : Result :=
  match s.map.cur.index index with
  | none => .next s
  | some x =>
    if s.running ∧ s.settleDue x ∧ ¬ x.settling.running then
      let es := s.shard x
      let st : Settling := { x.settling with
        asked := false, running := true, ops := x.settling.nextOps, nextOps := [],
        takenInlet := (es.filter fun e => e.inlet).map (·.slot), takenTomb := (es.filter fun e => e.tomb).map (·.slot) }
      let s := s.setCur (s.map.cur.updIndex index fun x => { x with settling := st })
      .next (st.ops.foldl State.commit s)
    else .next s

/-- SETTLING_PASS_DONE (R224): the merge is recorded, to be published at the first epoch boundary after it, and its tiles go out
on the mirror stream. -/
def execSettlingPassDone (index : Nat) (s : State) : Result :=
  match s.map.cur.index index with
  | none => .next s
  | some x =>
    if x.settling.running then
      let st := x.settling
      let own (e : Entry) : Bool := s.ownsIn s.map.cur e.ix e.iy
      let r := x.settle own s.map.cur.gens
      let fin := (st.ops, st.takenInlet.length, st.takenTomb.length, s.nextEpoch)
      let y := { r.1 with settling := { st with running := false, ops := [], takenInlet := [], takenTomb := [], finished := st.finished ++ [fin] } }
      let s := s.setCur { s.map.cur.updIndex index (fun _ => y) with gens := r.2 }
      let touched := ((x.entries.filter own).map fun e => (e.ix, e.iy)).eraseDups
      .next (touched.foldl (fun s t => s.stream t.1 t.2) s)
    else .next s

/-- The passes published by an epoch complete the SETTLE operations that waited for them (R240). -/
def State.settlePublished (s : State) (epoch : Nat) : State :=
  let due := s.map.cur.indexes.flatMap fun x => x.settling.finished.filter fun f => f.2.2.2 ≤ epoch
  let keep (x : Index) : Index := { x with settling := { x.settling with finished := x.settling.finished.filter fun f => ¬ f.2.2.2 ≤ epoch } }
  let s := s.setCur { s.map.cur with indexes := s.map.cur.indexes.map keep }
  due.foldl (fun s f => f.1.foldl (fun s op => s.complete op (Res.ok (f.2.1 % 2 ^ 32 + f.2.2.1 * 2 ^ 32) epoch)) s) s

/-! ## RECALL_PROBE -/

/-- Hits and exact entries of one probe query on the device's shards (R241). -/
def State.probe (s : State) (v : MapView) (x : Index) (par : SearchPar) (f : Filters) (q : List Word) : State × Nat × Nat :=
  let tb := (x.table q).1
  let r := s.searchOwn v x q par f tb
  let mine := x.entries.filter fun e => s.ownsIn v e.ix e.iy && f.admits e
  let exact := (mine.foldl (fun l e => rank (distOf tb e.code, e) l) []).take par.k
  let bound := ((exact.getLast?).map (·.1)).getD 0
  (r.1, (r.2.result.filter fun (y : Scored) => decide (y.1 ≤ bound)).length, exact.length)

/-- The probes of a list of queries in order. -/
def State.probes (v : MapView) (x : Index) (par : SearchPar) (f : Filters) : List (List Word) → State → State × List (Nat × Nat)
  | [], s => (s, [])
  | q :: r, s =>
    let a := s.probe v x par f q
    let b := State.probes v x par f r a.1
    (b.1, a.2 :: b.2)

/-- RECALL_PROBE (R241) on the device's own shards at the latest epoch at fetch. -/
def execRecallProbe (op : Nat) (s : State) : Result :=
  s.runOp op 0x24 fun o =>
    if !s.contextFree o then s
    else match useIndex o s.map.latest, firstRes [need (within 1 4096 (o.u32 24)) 24, searchFields o] with
    | .error r, _ => s.finish op r
    | .ok _, some r => s.finish op r
    | .ok _, none =>
      match blockCheck s o, s.map.at o.epochAtFetch with
      | some r, _ => s.finish op r
      | none, none => s.finish op { status := St.epochGone, detail := s.map.oldest }
      | none, some v =>
        match useIndex o v with
        | .error r => s.finish op r
        | .ok x =>
          let n := o.u32 24
          let live := x.entries.filter fun e => s.ownsIn v e.ix e.iy && !e.tomb
          let sample (i : Nat) : List Word := ((live[Config.sampleSlot (o.u32 28) i % max 1 live.length]?).map fun e => x.decode e.code).getD []
          let qs := if o.u64 16 = 0 then (if live.isEmpty then [] else (List.range n).map sample)
            else (cut (4 * x.dim) n (s.readMem (o.u64 16) (4 * x.dim * n))).map fun b => wflds b 0 x.dim
          if !(qs.all fun q => q.all F32.finite) then s.finish op (Res.field 16)
          else
            let r := State.probes v x (o.searchPar 0) (filtersOf (o.u8 38) (o.u8 39) (o.block s)) qs s
            let hits : Nat := (r.2.map (·.1)).sum
            let found : Nat := (r.2.map (·.2)).sum
            let ratio := if found = 0 then BitVec.ofNat 32 (Config.given 241 [(n : Int)]) else F32.div (F32.ofInt hits) (F32.ofInt found)
            let words := r.2 ++ List.replicate (n - r.2.length) (0, 0)
            let out := leBytes hits 4 ++ leBytes found 4 ++ leBytes ratio.toNat 4 ++ leBytes n 4 ++
              words.flatMap fun p => leBytes (p.1 % 65536 + p.2 % 65536 * 65536) 4
            (r.1.writeMem (o.u64 48) out).finish op (Res.ok n 0)

end Sys2Proof.Machine
end

