-- ==== Sys2Proof/Machine/Vision.lean ====
section
/-! DEFINITION. The vision core in integer arithmetic: warp, pyramid, corners and descriptors, stereo, tracking and the refining
pass (R150 to R169, R180). -/

namespace Sys2Proof.Machine

/-! ## Images -/

/-- An image of 8-bit pixels, row by row. -/
structure Img where
  w : Nat := 0
  h : Nat := 0
  px : Array Nat := #[]

/-- The pixel at a position; edges are replicated (R156). -/
def Img.at (m : Img) (x y : Int) : Nat :=
  let cx := (clampI 0 ((m.w : Int) - 1) x).toNat
  let cy := (clampI 0 ((m.h : Int) - 1) y).toNat
  (m.px[cy * m.w + cx]?).getD 0

/-- An image from a function of position. -/
def Img.make (w h : Nat) (f : Nat → Nat → Nat) : Img := { w := w, h := h, px := ((List.range (w * h)).map fun i => f (i % w) (i / w)).toArray }

/-- The source position of a pixel, in 1/256 pixel: bilinear between the points of the 16 × 16 grid (R155). How a position between two steps of
1/256 pixel is rounded is free. -/
def warpSource (calib : List Byte) (right : Bool) (x y : Nat) : Int × Int :=
  let g (i j : Nat) : Int × Int := Config.gridSource calib right (x / 16 + i) (y / 16 + j)
  let fx : Int := (x % 16 : Nat)
  let fy : Int := (y % 16 : Nat)
  let mix (a b c d : Int) : Int :=
    let v := (a * (16 - fx) + b * fx) * (16 - fy) + (c * (16 - fx) + d * fx) * fy
    v / 256 + (if v % 256 = 0 then 0 else if Config.up 155 [v] then 1 else 0)
  (mix (g 0 0).1 (g 1 0).1 (g 0 1).1 (g 1 1).1, mix (g 0 0).2 (g 1 0).2 (g 0 1).2 (g 1 1).2)

/-- Whether a position, in units of 1/n pixel, lies outside an image. -/
def outsideImage (n : Nat) (w h : Nat) (x y : Int) : Bool :=
  decide (x < 0 ∨ ((w : Int) - 1) * n < x ∨ y < 0 ∨ ((h : Int) - 1) * n < y)

/-- Pixels of a rectified image that are mapped from outside the source image (R150). -/
def warpOutside (calib : List Byte) (right : Bool) (w h : Nat) : Nat :=
  ((List.range (w * h)).filter fun i => outsideImage 256 w h (warpSource calib right (i % w) (i / w)).1 (warpSource calib right (i % w) (i / w)).2).length

/-- The rectification warp: source positions in 1/256 pixel, bilinear with ties rounded up; a source outside the image reads 0
(R155). -/
def warp (calib : List Byte) (right : Bool) (w h : Nat) (raw : List Byte) : Img :=
  let src : Img := { w := w, h := h, px := (raw.map fun b => b.toNat).toArray }
  Img.make w h fun x y =>
    let p := warpSource calib right x y
    if outsideImage 256 w h p.1 p.2 then 0
    else
      let fx := (p.1 % 256).toNat
      let fy := (p.2 % 256).toNat
      let x0 := p.1 / 256
      let y0 := p.2 / 256
      ((src.at x0 y0 * (256 - fx) + src.at (x0 + 1) y0 * fx) * (256 - fy) +
        (src.at x0 (y0 + 1) * (256 - fx) + src.at (x0 + 1) (y0 + 1) * fx) * fy + 32768) / 65536

/-- One pyramid step: the kernel [1 4 6 4 1]/16 in both directions, sampled at even rows and columns, ties rounded up (R156). -/
def Img.down (m : Img) : Img :=
  let k : Int → Nat := fun i => if i = 0 then 6 else if i = 1 ∨ i = -1 then 4 else 1
  Img.make (m.w / 2) (m.h / 2) fun x y =>
    let s := [(-2 : Int), -1, 0, 1, 2].foldl (fun a j => [(-2 : Int), -1, 0, 1, 2].foldl (fun a i =>
      a + k i * k j * m.at (2 * x + i) (2 * y + j)) a) 0
    (s + 128) / 256

/-- Levels 0 to 3 (R156). -/
def Img.levels (m : Img) : List Img := [m, m.down, m.down.down, m.down.down.down]

/-- The 3 × 3 box filter, rounded down (R158). -/
def Img.box (m : Img) : Img :=
  Img.make m.w m.h fun x y =>
    [(-1 : Int), 0, 1].foldl (fun a j => [(-1 : Int), 0, 1].foldl (fun a i => a + m.at (x + i) (y + j)) a) 0 / 9

/-! ## Corners (R157) -/

/-- The radius-3 Bresenham circle, in order around it. -/
def circle3 : List (Int × Int) :=
  [(0, -3), (1, -3), (2, -2), (3, -1), (3, 0), (3, 1), (2, 2), (1, 3), (0, 3), (-1, 3), (-2, 2), (-3, 1), (-3, 0), (-3, -1), (-2, -2), (-1, -3)]

/-- The longest run of true in a list. -/
def longestRun : Nat → Nat → List Bool → Nat
  | best, _, [] => best
  | best, cur, b :: t => if b then longestRun (max best (cur + 1)) (cur + 1) t else longestRun best 0 t

/-- The score of a pixel: 0 where it is no candidate (R157 steps 1 and 2). -/
def cornerScore (m : Img) (t : Nat) (x y : Int) : Nat :=
  if x < 3 ∨ y < 3 ∨ (m.w : Int) - 4 < x ∨ (m.h : Int) - 4 < y then 0
  else
    let v := m.at x y
    let c := circle3.map fun o => m.at (x + o.1) (y + o.2)
    let up := c.map fun p => decide (v + t < p)
    let dn := c.map fun p => decide (p + t < v)
    if 9 ≤ longestRun 0 0 (up ++ up) ∨ 9 ≤ longestRun 0 0 (dn ++ dn) then
      c.foldl (fun a p => a + ((if p < v then v - p else p - v) - t)) 0
    else 0

/-- A corner before it is described: level, position on the level, score. -/
structure Corner where
  level : Nat
  x : Nat
  y : Nat
  score : Nat

/-- The survivors of one level in raster order (R157 steps 3 and 4). -/
def levelCorners (m : Img) (t level : Nat) : List Corner :=
  (List.range (m.w * m.h)).filterMap fun i =>
    let x := i % m.w
    let y := i / m.w
    if x < 16 ∨ y < 16 ∨ m.w ≤ x + 16 ∨ m.h ≤ y + 16 then none
    else
      let s := cornerScore m t x y
      let beaten := [(-1, -1), (0, -1), (1, -1), (-1, 0), (1, 0), (-1, 1), (0, 1), (1, 1)].any fun (o : Int × Int) =>
        let n := cornerScore m t (x + o.1) (y + o.2)
        let earlier := decide (o.2 < 0 ∨ o.2 = 0 ∧ o.1 < 0)
        decide (s < n) || (decide (s = n) && earlier)
      if s = 0 ∨ beaten then none else some { level := level, x := x, y := y, score := s }

/-- Insert into a list sorted by a relation, after its equals. -/
def insertBy {α : Type} (before : α → α → Bool) (a : α) : List α → List α
  | [] => [a]
  | b :: t => if before a b then a :: b :: t else b :: insertBy before a t

/-- Sort by a relation, keeping the order of equals. -/
def sortBy {α : Type} (before : α → α → Bool) (l : List α) : List α := l.foldl (fun acc a => insertBy before a acc) []

/-- The raster index of a corner's 32 × 32 cell on level 0. -/
def Corner.cell (c : Corner) (w : Nat) : Nat := c.y * 2 ^ c.level / 32 * ((w + 31) / 32) + c.x * 2 ^ c.level / 32

/-- The corners of an image: the cell limit, then the frame limit, in descending score (R157 steps 5 to 7). -/
def corners (cfg : TrackCfg) (levels : List Img) (w : Nat) : List Corner :=
  let all := (levels.zipIdx.map fun p => levelCorners p.1 cfg.segThreshold p.2).flatten
  let byCell := sortBy (fun a b => decide (a.cell w < b.cell w ∨ a.cell w = b.cell w ∧ b.score < a.score)) all
  let kept := (byCell.foldl (fun (acc : List Corner × Nat × Nat) c =>
    if acc.2.1 = c.cell w + 1 then (if acc.2.2 < cfg.cellLimit then (c :: acc.1, acc.2.1, acc.2.2 + 1) else acc)
    else (c :: acc.1, c.cell w + 1, 1)) ([], 0, 0)).1.reverse
  (sortBy (fun a b => decide (b.score < a.score)) kept).take cfg.maxCorners

/-! ## Descriptors (R158, R180) -/

/-- cos(k × 11.25°) × 2⁹⁶, rounded. -/
def cosTable : List Int :=
  [79228162514264337593543950336, 77705815587385459894767493986, 73197277745406789746128126514, 65875809569178416455535880375,
   56022770974786139918731938227, 44016808709764752108002004973, 30319305170937817432302117203, 15456647737653972240398692356, 0]

/-- cos of step k of 32. -/
def cos32 (k : Nat) : Int :=
  let j := k % 32
  let q := if 16 < j then 32 - j else j
  if q ≤ 8 then (cosTable[q]?).getD 0 else -((cosTable[16 - q]?).getD 0)

/-- sin of step k of 32. -/
def sin32 (k : Nat) : Int := cos32 (k + 24)

/-- The orientation step: nearest to the direction of the intensity centroid over a disc of radius 15, ties to the lower k
(R158 step 1). -/
def orientation (m : Img) (x y : Int) : Nat :=
  let span := (List.range 31).map fun (i : Nat) => (i : Int) - 15
  let mom := span.foldl (fun (a : Int × Int) dy => span.foldl (fun a dx =>
    if dx * dx + dy * dy ≤ 225 then
      let v : Int := (m.at (x + dx) (y + dy) : Nat)
      (a.1 + dx * v, a.2 + dy * v) else a) a) (0, 0)
  ((List.range 32).foldl (fun (best : Nat × Int) k =>
    let d := mom.1 * cos32 k + mom.2 * sin32 k
    if best.2 < d then (k, d) else best) (0, mom.1 * cos32 0)).1

/-- Nearest integer of v / 2⁹⁶. -/
def nearest96 (v : Int) : Int := (v + 2 ^ 95) / 2 ^ 96

/-- One step of the pattern generator's shift register (R180). -/
def lfsr (s : Nat) : Nat := if s % 2 = 1 then s / 2 ^^^ 0xB400 else s / 2

/-- The next coordinate: shift until the low five bits are at most 26. -/
def patCoord : Nat → Nat → Nat × Int
  | 0, s => (s, 0)
  | n + 1, s =>
    let s := lfsr s
    if s % 32 ≤ 26 then (s, (s % 32 : Nat) - 13) else patCoord n s

/-- The next point pair: repeat until both points lie in the disc and differ (R180). -/
def patPair : Nat → Nat → Nat × (Int × Int × Int × Int)
  | 0, s => (s, (0, 0, 0, 0))
  | n + 1, s =>
    let a := patCoord 64 s
    let b := patCoord 64 a.1
    let c := patCoord 64 b.1
    let d := patCoord 64 c.1
    if a.2 * a.2 + b.2 * b.2 ≤ 169 ∧ c.2 * c.2 + d.2 * d.2 ≤ 169 ∧ (a.2, b.2) ≠ (c.2, d.2) then (d.1, (a.2, b.2, c.2, d.2))
    else patPair n d.1

/-- n pairs of the base pattern from a register value. -/
def patFrom : Nat → Nat → List (Int × Int × Int × Int)
  | 0, _ => []
  | n + 1, s => let p := patPair 1000 s; p.2 :: patFrom n p.1

/-- The base pattern: 256 point pairs (R180). -/
def basePattern : List (Int × Int × Int × Int) := patFrom 256 0xACE1

/-- A register of the PATTERN table (R180). -/
def patternWord (i : Nat) : Nat :=
  match basePattern[i]? with
  | some p => tc 8 p.1 + tc 8 p.2.1 * 2 ^ 8 + tc 8 p.2.2.1 * 2 ^ 16 + tc 8 p.2.2.2 * 2 ^ 24
  | none => 0

/-- The 256-bit descriptor at a position with an orientation step (R158). -/
def descriptor (m : Img) (x y : Int) (k : Nat) : Nat :=
  let at_ (px py : Int) : Nat := m.at (x + nearest96 (px * cos32 k - py * sin32 k)) (y + nearest96 (px * sin32 k + py * cos32 k))
  ofBits (basePattern.map fun p => decide (at_ p.1 p.2.1 < at_ p.2.2.1 p.2.2.2))

/-- Hamming distance of 256-bit descriptors. -/
def hamming (a b : Nat) : Nat := popCount (a ^^^ b) 256

/-- The features of one image in list order (R157 to R159). -/
def features (cfg : TrackCfg) (m : Img) (right : Bool) : List Feature :=
  let lv := m.levels
  let boxes := lv.map Img.box
  (corners cfg lv m.w).map fun c =>
    let b := (boxes[c.level]?).getD {}
    let k := orientation b c.x c.y
    { x := c.x * 2 ^ c.level * 16, y := c.y * 2 ^ c.level * 16, score := min 65535 c.score, level := c.level, right := right, angle := k,
      desc := descriptor b c.x c.y k }

/-! ## Stereo (R160, R161, R168) -/

/-- The census bits of a square of odd side: darker than the centre. -/
def census (m : Img) (r : Nat) (x y : Nat) : Nat :=
  let side := 2 * r + 1
  let v := m.at x y
  ofBits ((List.range (side * side)).map fun i => decide (m.at ((x : Int) + (i % side : Nat) - r) ((y : Int) + (i / side : Nat) - r) < v))

/-- The census images of a pair. -/
def censusAll (m : Img) (r : Nat) : Array Nat := ((List.range (m.w * m.h)).map fun i => census m r (i % m.w) (i / m.w)).toArray

/-- Disparities searched at a pixel of the left or the right image (R160 step 3). -/
def dispRange (left : Bool) (dmax w x : Nat) : Nat := if left then min (dmax - 1) x + 1 else min (dmax - 1) (w - 1 - x) + 1

/-- The matching cost of a pixel and disparity. -/
def matchCost (cl cr : Array Nat) (left : Bool) (w x y d : Nat) : Nat :=
  let o := if left then x - d else x + d
  let a := (cl[y * w + x]?).getD 0
  let b := (cr[y * w + o]?).getD 0
  popCount (if left then a ^^^ b else (cr[y * w + x]?).getD 0 ^^^ (cl[y * w + o]?).getD 0) 49

/-- Least of a list of costs. -/
def least (l : List Nat) : Nat := l.foldl min (2 ^ 32)

/-- One step of a path: the cost plus the least of the previous costs with penalties 8 and 64 (R160 step 2). -/
def pathStep (prev cost : List Nat) : List Nat :=
  if prev.isEmpty then cost
  else
    let m := least prev
    cost.zipIdx.map fun c =>
      let p (i : Int) : Nat := if i < 0 then 2 ^ 32 else (prev[i.toNat]?).getD (2 ^ 32)
      let d : Int := (c.2 : Nat)
      c.1 + (min (min (p d) (min (p (d - 1) + 8) (p (d + 1) + 8))) (m + 64) - m)

/-- Path costs along one line of pixels. -/
def pathLine (costs : List (List Nat)) : List (List Nat) :=
  (costs.foldl (fun (acc : List (List Nat) × List Nat) c => let l := pathStep acc.2 c; (l :: acc.1, l)) ([], [])).1.reverse

/-- Sum of two cost curves. -/
def addCurve (a b : List Nat) : List Nat := List.zipWith (· + ·) a b

/-- The aggregated cost curves of an image, row by row (R160 steps 1 to 3). -/
def aggregate (cl cr : Array Nat) (left : Bool) (dmax w h : Nat) : List (List (List Nat)) :=
  let cost (x y : Nat) := (List.range (dispRange left dmax w x)).map fun d => matchCost cl cr left w x y d
  let rows := (List.range h).map fun y => (List.range w).map fun x => cost x y
  let lr := rows.map pathLine
  let rl := rows.map fun r => (pathLine r.reverse).reverse
  let cols := (List.range w).map fun x => rows.map fun r => (r[x]?).getD []
  let td := cols.map pathLine
  let bu := cols.map fun c => (pathLine c.reverse).reverse
  (List.range h).map fun y => (List.range w).map fun x =>
    let g (l : List (List (List Nat))) (i j : Nat) := (((l[i]?).getD [])[j]?).getD []
    addCurve (addCurve (g lr y x) (g rl y x)) (addCurve (g td x y) (g bu x y))

/-- The disparity of least summed cost, ties to the smaller (R160 step 4). -/
def winner (curve : List Nat) : Nat := (curve.zipIdx.foldl (fun (b : Nat × Nat) c => if c.1 < b.2 then (c.2, c.1) else b) (0, 2 ^ 32)).1

/-- Confidence of a pixel from its winning cost and the least cost more than 1 away; with none there it is a free value
(R161). -/
def stereoConf (curve : List Nat) (win : Nat) : Nat :=
  let far := (curve.zipIdx.filter fun c => decide (win + 1 < c.2 ∨ c.2 + 1 < win)).map fun c => c.1
  if far.isEmpty then 2 + Config.given 161 (curve.map fun (c : Nat) => (c : Int)) % 254 else min 255 (2 + 4 * (least far - (curve[win]?).getD 0))

/-- The coarse disparity and confidence of each left pixel (R160, R161). -/
def stereoCoarse (cfg : TrackCfg) (l r : Img) : List (Nat × Nat) :=
  let dmax := if cfg.disp64 then 64 else 128
  let cl := censusAll l 3
  let cr := censusAll r 3
  let left := aggregate cl cr true dmax l.w l.h
  let right := (aggregate cl cr false dmax l.w l.h).map fun row => row.map winner
  ((left.zip right).map fun (p : List (List Nat) × List Nat) => p.1.zipIdx.map fun c =>
    let d := winner c.1
    let top := c.1.foldl max 0
    let dr := (p.2[c.2 - d]?).getD 0
    if top - least c.1 < cfg.flatLimit then (0xFFFF, 0)
    else if d + 1 < dr ∨ dr + 1 < d then (0xFFFE, 1)
    else (d * 16, stereoConf c.1 d)).flatten

/-- A refined pixel: the 9 × 9 census cost over d − 2 to d + 2, the sub-pixel offset and the confidence; an offset the formula
does not give is a free value (R168). -/
def refinePixel (cl cr : Array Nat) (w x y d : Nat) : Nat × Nat :=
  let c (e : Int) : Option Int := if e < 0 ∨ (x : Int) < e then none else
    some (popCount ((cl[y * w + x]?).getD 0 ^^^ (cr[y * w + (x - e.toNat)]?).getD 0) 81 : Nat)
  let di : Int := (d : Nat)
  let inputs := di :: [di - 2, di - 1, di, di + 1, di + 2].filterMap c
  let off : Int := match c (di - 1), c di, c (di + 1) with
    | some a, some b, some e =>
      let den := a - 2 * b + e
      if den = 0 then ((Config.given 168 inputs % 17 : Nat) : Int) - 8 else clampI (-8) 8 (Int.tdiv ((a - e) * 8) den)
    | _, _, _ => ((Config.given 168 inputs % 17 : Nat) : Int) - 8
  let far := ([di - 2, di + 2].filterMap c).map Int.toNat
  let conf := if far.isEmpty then 2 + Config.given 161 inputs % 254 else min 255 (2 + 4 * (least far - ((c di).getD 0).toNat))
  ((di * 16 + off).toNat, conf)

/-- The refining pass of the stereo map: its pixels, how many were refined, and whether the limit left some out (R168). -/
def stereoRefine (cfg : TrackCfg) (l r : Img) (map : List (Nat × Nat)) : List (Nat × Nat) × Nat × Bool :=
  let sel := sortBy (fun (a b : Nat × Nat) => decide (a.1 < b.1))
    ((map.zipIdx.filter fun p => decide (2 ≤ p.1.2 ∧ p.1.2 < cfg.confThreshold ∧ p.1.1 < 0xFFFE)).map fun p => (p.1.2, p.2))
  let lim := l.w * l.h * cfg.refineLimit / 100
  let chosen := ((sel.take lim).map fun p => p.2).toArray
  let mark := chosen.foldl (fun (a : Array Bool) i => a.set! i true) (Array.replicate (l.w * l.h) false)
  let cl := censusAll l 4
  let cr := censusAll r 4
  (map.zipIdx.map fun p => if (mark[p.2]?).getD false then refinePixel cl cr l.w (p.2 % l.w) (p.2 / l.w) (p.1.1 / 16) else p.1,
    chosen.size, decide (lim < sel.length))

/-! ## Tracking (R162 to R166, R168) -/

/-- A track's match before it is settled: the track, the feature's index, H₁, H₂ and the confidence. -/
structure Match where
  track : Track
  feat : Nat
  h1 : Nat
  h2 : Nat
  conf : Nat

/-- The confidence of a match from its two distances (R163). -/
def trackConf (h1 h2 : Nat) : Nat := min 255 (2 + 8 * (h2 - h1))

/-- Match one track near a predicted position in 1/16 pixel (R163). -/
def matchTrack (window : Nat) (fs : List Feature) (t : Track) (px py : Int) : Option Match :=
  let near := fs.zipIdx.filter fun f =>
    decide (-(16 * window : Int) ≤ (f.1.x : Int) - px ∧ (f.1.x : Int) - px ≤ 16 * window ∧
      -(16 * window : Int) ≤ (f.1.y : Int) - py ∧ (f.1.y : Int) - py ≤ 16 * window)
  let ds := near.map fun f => (hamming f.1.desc t.desc, f.2)
  match ds.foldl (fun (b : Option (Nat × Nat)) d => match b with
    | none => some d
    | some q => if d.1 < q.1 then some d else some q) none with
  | none => none
  | some b =>
    if 64 < b.1 then none
    else
      let rest := (ds.filter fun d => decide (d.2 ≠ b.2)).map fun d => d.1
      let h2 := if rest.isEmpty then 256 else least rest
      some { track := t, feat := b.2, h1 := b.1, h2 := h2, conf := trackConf b.1 h2 }

/-- Each feature joins at most one track: the least distance wins, then the lower TRACK_ID (R166). -/
def settleMatches (ms : List Match) : List Match :=
  ms.filter fun m => ms.all fun n =>
    n.feat ≠ m.feat || decide (m.h1 < n.h1 ∨ m.h1 = n.h1 ∧ m.track.id ≤ n.track.id)

/-- The sum of absolute differences of a shift, over the region 8 pixels inside the border (R164). -/
def sad (a b : Img) (dx dy : Int) : Nat :=
  (List.range ((a.w - 16) * (a.h - 16))).foldl (fun s i =>
    let x : Int := ((i % (a.w - 16) + 8 : Nat) : Int)
    let y : Int := ((i / (a.w - 16) + 8 : Nat) : Int)
    let p := a.at x y
    let q := b.at (x + dx) (y + dy)
    s + (if p < q then q - p else p - q)) 0

/-- Shifts within ±r of a centre, in the order that settles ties: smaller |dx|, smaller |dy|, negative first (R164). -/
def shifts (r : Nat) : List (Int × Int) :=
  let one : List Int := 0 :: ((List.range r).map fun (i : Nat) => [-((i : Int) + 1), (i : Int) + 1]).flatten
  (List.range (r + 1)).flatMap fun ax => (List.range (r + 1)).flatMap fun ay =>
    (one.filter fun d => d.natAbs = ax).flatMap fun dx => (one.filter fun d => d.natAbs = ay).map fun dy => (dx, dy)

/-- The shift of least difference near a centre. -/
def bestShift (a b : Img) (c : Int × Int) (r : Nat) : Int × Int :=
  ((shifts r).foldl (fun (best : (Int × Int) × Nat) d =>
    let s := sad a b (c.1 + d.1) (c.2 + d.2)
    if s < best.2 then ((c.1 + d.1, c.2 + d.2), s) else best) (c, 2 ^ 40)).1

/-- The global shift in level-0 pixels (R164). -/
def globalShift (prev new : Img) : Int × Int :=
  let l1 := prev.down
  let n1 := new.down
  let l2 := l1.down
  let n2 := n1.down
  let s3 := bestShift l2.down n2.down (0, 0) 48
  let s2 := bestShift l2 n2 (2 * s3.1, 2 * s3.2) 2
  let s1 := bestShift l1 n1 (2 * s2.1, 2 * s2.2) 2
  (2 * s1.1, 2 * s1.2)

/-- The tracks matched at their predicted positions, and how many of those positions lie outside the image: these are not searched (R163). -/
def matchAt (cfg : TrackCfg) (w h : Nat) (fs : List Feature) (pr : List (Track × Int × Int)) : List Match × Nat :=
  let out (p : Track × Int × Int) : Bool := outsideImage 16 w h p.2.1 p.2.2
  (settleMatches ((pr.filter fun p => !out p).filterMap fun p => matchTrack cfg.window fs p.1 p.2.1 p.2.2), (pr.filter out).length)

/-- The coarse matches of a frame: mode, fallback, matches, and the tracks that left the image (R162 to R165); predict gives a track's position from
ego-motion. -/
def trackFrame (cfg : TrackCfg) (predict : Track → Int × Int) (pyramid : Bool) (prev new : Img) (live : List Track) (fs : List Feature) :
    Nat × Bool × List Match × Nat :=
  let pyr : Unit → List Match × Nat := fun _ =>
    if live.isEmpty then ([], 0)
    else
      let g := globalShift prev new
      matchAt cfg new.w new.h fs (live.map fun t => (t, (t.x : Int) + 16 * g.1, (t.y : Int) + 16 * g.2))
  if pyramid then (1, false, pyr ())
  else
    let r := matchAt cfg new.w new.h fs (live.map fun t => (t, predict t))
    let good := (r.1.filter fun m => decide (cfg.confThreshold ≤ m.conf)).length
    if good < cfg.minMatches ∧ cfg.minMatches ≤ live.length then (1, true, pyr ()) else (0, false, r)

/-- A matched track with its refinement: every accepted match below CONF_THRESHOLD is refined; the aligned position and the aligned patch's distance
are free, and the confidence follows from that distance (R163, R167, R168). -/
def matchedTrack (cfg : TrackCfg) (fs : List Feature) (prev new : Img) (fallback : Bool) (m : Match) : Track :=
  let f := (fs[m.feat]?).getD {}
  let refined := decide (m.conf < cfg.confThreshold)
  let p := Config.alignPatch prev.px.toList new.px.toList new.w m.track (f.x, f.y)
  { id := m.track.id, age := min 65535 (m.track.age + 1), cost := m.h1, prevX := m.track.x, prevY := m.track.y,
    x := if refined then p.1 % 65536 else f.x, y := if refined then p.2.1 % 65536 else f.y,
    conf := if refined then trackConf p.2.2 m.h2 else m.conf, flags := b2n refined + 2 * b2n fallback, desc := f.desc }

/-- The right feature that makes a left feature STEREO (R159): within 1 pixel of where the disparity places it, its descriptor within 64. -/
def stereoMate (d : Nat) (rf : List Feature) (f : Feature) : Option Feature :=
  let px : Int := (f.x : Int) - d
  if d < 0xFFFE then
    rf.find? fun g =>
      decide (-16 ≤ (g.x : Int) - px ∧ (g.x : Int) - px ≤ 16 ∧ -16 ≤ (g.y : Int) - f.y ∧ (g.y : Int) - f.y ≤ 16) && decide (hamming g.desc f.desc ≤ 64)
  else none

/-- A left feature with its disparity, STEREO test, match and track ID (R159). -/
def finishFeature (stereo : Bool) (w : Nat) (dmap : Array (Nat × Nat)) (rf : List Feature) (f : Feature) (tr : Option Track) (id : Nat) : Feature :=
  let d := if stereo then ((dmap[f.y / 16 * w + f.x / 16]?).getD (0xFFFF, 0)).1 else 0xFFFF
  let st := (stereoMate d rf f).isSome
  match tr with
  | some t => { f with disp := d, conf := t.conf, flags := t.flags % 2 + 2 * b2n st + 4, trackId := t.id, x := t.x, y := t.y }
  | none => { f with disp := d, conf := 255, flags := 2 * b2n st, trackId := id }

/-- Number new tracks from a counter that skips 0 when it wraps (R166). -/
def nextId (i : Nat) : Nat := if i + 1 = 2 ^ 32 then 1 else i + 1

/-- Left features finished in list order, new tracks numbered as they come (R159, R166). -/
def finishFeatures (stereo : Bool) (w : Nat) (dmap : Array (Nat × Nat)) (rf : List Feature) (ms : List (Nat × Track)) :
    Nat → Nat → List Feature → List Feature × Nat
  | _, id, [] => ([], id)
  | i, id, f :: t =>
    match ms.find? fun m => m.1 = i with
    | some m =>
      let r := finishFeatures stereo w dmap rf ms (i + 1) id t
      (finishFeature stereo w dmap rf f (some m.2) 0 :: r.1, r.2)
    | none =>
      let r := finishFeatures stereo w dmap rf ms (i + 1) (nextId id) t
      (finishFeature stereo w dmap rf f none id :: r.1, r.2)

/-! ## Projection (R171) -/

/-- One PROJECT record and whether it is flagged (R171, R176), for an image of a width and height; the FP32 values of the projection are free. The
device's own projections pass here too. -/
def projectPoint (calib : List Byte) (w h : Nat) (right body : Bool) (p : List Byte) : List Byte × Bool :=
  let r := Config.project calib right body (wflds p 0 3)
  let depth := r.2.2
  let behind := !F32.finite depth || F32.lt depth 0x3C23D70A
  let outside := outsideImage 16 w h r.1 r.2.1
  let uv (v : Int) : Nat := if behind || outside then 0xFFFF else v.toNat
  (leBytes (uv r.1) 2 ++ leBytes (uv r.2.1) 2 ++ leBytes depth.toNat 4 ++ leBytes (b2n behind + 2 * b2n outside) 1 ++ zeros 3, behind || outside)

/-- The STEREO left features of a frame projected into the right camera, each with the right feature it matched (R172 step 2). -/
def bootPoints (calib : List Byte) (w h : Nat) (lf rf : List Feature) : List (List Byte × Feature) :=
  (lf.filter fun f => bit f.flags 1).filterMap fun f =>
    (stereoMate f.disp rf f).map fun g => ((projectPoint calib w h true false (wBytes (Config.stereoPoint calib f.x f.y f.disp))).1, g)

/-- What the vision core makes of a frame: the results, the live tracks, the next track number, the rectified left image, the
tracks that left the image, whether the frame fell back, and the frame's bootstrap points. -/
structure VisionOut where
  result : VisionResult
  live : List Track
  next : Nat
  left : Img
  exits : Nat
  fallback : Bool
  boots : List (List Byte × Feature)

/-- Whether a frame is processed with no vision result: no calibration, or one of another geometry (R154). -/
def calibMissing (f : Frame) : Bool :=
  let c := f.cfg.track.calib
  c.isEmpty || fld c 0 2 ≠ f.width || fld c 2 2 ≠ f.height

/-- The mode conditions of R162 that ask for PYRAMID. -/
def pyramidMode (x : Session) (f : Frame) : Bool :=
  !x.fusion.hasPose || x.fusion.step = 3 || x.fusion.unlockCause ≠ 0 || f.cfg.track.forcePyramid ||
    f.prevCapture.any fun p => pastPeriods f.rate 4 1 (f.capture - p)

/-- The vision core on a frame with at least its left image and a calibration of its geometry (R150, R151, R169). -/
def visionRun (x : Session) (f : Frame) (left : List Byte) (pyramid boot : Bool) : VisionOut :=
  let cfg := f.cfg.track
  let li := warp cfg.calib false f.width f.height left
  let lf := features cfg li false
  let ri := f.right.map fun r => warp cfg.calib true f.width f.height r
  let rf := match ri with
    | some r => features cfg r true
    | none => []
  let st := match ri with
    | some r => stereoRefine cfg li r (stereoCoarse cfg li r)
    | none => ([], 0, false)
  let prev : Img := { w := x.prevWidth, h := x.prevHeight, px := x.prevLeft.toArray }
  let live := if x.prevLeft.isEmpty then [] else x.tracks
  let tf := trackFrame cfg (Config.predictTrack x.fusion x.filter.outs cfg.calib f.capture) pyramid prev li live lf
  let ms := tf.2.2.1.map fun m => (m.feat, matchedTrack cfg lf prev li tf.2.1 m)
  let dmap := st.1.toArray
  let ff := finishFeatures ri.isSome f.width dmap rf ms 0 x.nextTrack lf
  let refined := st.2.1 + (ms.filter fun m => bit m.2.flags 0).length
  let r : VisionResult := { frameNo := f.frameNo, capture := f.capture, mode := tf.1,
                            flags := frameFlags tf.2.1 ri.isNone false st.2.2 boot, windowUsed := cfg.window, refined := refined,
                            calibVersion := cfg.calibVersion, features := ff.1 ++ rf, tracks := ms.map Prod.snd, disparity := st.1.map Prod.fst,
                            confidence := st.1.map Prod.snd, width := f.width, height := f.height,
                            outside := warpOutside cfg.calib false f.width f.height + (if ri.isSome then warpOutside cfg.calib true f.width f.height else 0) }
  let live' := ff.1.map fun g => match ms.find? fun m => m.2.id = g.trackId with
    | some m => m.2
    | none => { id := g.trackId, x := g.x, y := g.y, desc := g.desc }
  { result := r, live := live', next := ff.2, left := li, exits := tf.2.2.2, fallback := tf.2.1,
    boots := bootPoints cfg.calib f.width f.height ff.1 rf }

end Sys2Proof.Machine
end

