-- ==== Sys2Proof/Machine/FusionOps.lean ====
section
/-! DEFINITION. Frames in the vision core and in fusion (R150 to R204), replies (R200), calibration solves (R207), session moves
(R306), keyframe contributions (R203, R300) and TRACK_QUERY (R175 to R178). -/

namespace Sys2Proof.Machine

/-! ## Contributions -/

/-- The left-image features of a result, as U, V and descriptor (R20, R203). -/
def leftFeatures (r : VisionResult) : List (Nat × Nat × List Byte) :=
  (r.features.filter fun f => !f.right).map fun f => (f.x, f.y, leBytes f.desc 32)

/-- A frame contributes its keyframe: it enters its home tile at the owner, its mask program starts, and its place embedding is
inserted into handle 1 (R203, R239, R300). -/
def State.contribute (s : State) (x : Session) (capture frameNo : Nat) (pose : Pose) (r : VisionResult) : State :=
  let t := s.tileAt pose
  let k : Keyframe := { key := x.id * 2 ^ 32 + frameNo, capture := packTime capture, pose := pose, ix := t.1, iy := t.2, kind := x.kind.code,
                        maskPending := true }
  let s := { s with sess := { s.sess with masks := s.sess.masks ++ [(k.key, leftFeatures r)] } }
  let w := s.map.cur.ownerOf t.1 t.2
  if w = s.self then (s.addKeyframe k s.self).insertPlace k
  else s.sendFz 0x03 2 w 0 (beBytes 0 4 ++ beBytes 64 4 ++ ownDesc 0 t.1 t.2 k.key ++ k.bytes)

/-- Features as bytes of an own request: U, V and descriptor. -/
def featureBytes (l : List (Nat × Nat × List Byte)) : List Byte := l.flatMap fun f => leBytes f.1 2 ++ leBytes f.2.1 2 ++ f.2.2

/-- Features from those bytes. -/
def featuresOf (b : List Byte) : List (Nat × Nat × List Byte) :=
  (cut 36 (b.length / 36) b).map fun r => (fld r 0 2, fld r 2 2, slice r 4 32)

/-- KEYFRAME_MASK_COMPLETE (R300): the observations of the pixels the mask leaves are written; masked lists the features whose
pixels it marks. -/
def execKeyframeMaskComplete (key : Nat) (masked : List Nat) (s : State) : Result :=
  match s.sess.masks.find? fun m => m.1 = key with
  | none => .next s
  | some m =>
    let fs := (m.2.zipIdx.filter fun f => !masked.contains f.2).map (·.1)
    let s := { s with sess := { s.sess with masks := s.sess.masks.filter fun m => m.1 ≠ key } }
    match s.map.cur.homeOf key with
    | some t =>
      if t.owner = s.self then .next (s.addObservations t.ix t.iy key fs s.self)
      else .next (s.sendFz 0x03 2 t.owner 0 (beBytes 0 4 ++ beBytes (36 * fs.length) 4 ++ ownDesc 0x7F t.ix t.iy key ++ featureBytes fs))
    | none =>
      .next (s.others.foldl (fun s p =>
        s.sendFz 0x03 2 p 0 (beBytes 0 4 ++ beBytes (36 * fs.length) 4 ++ ownDesc 0x7F 0 0 key ++ featureBytes fs)) s)

/-! ## TRACK_QUERY -/

/-- The 48 bytes of a feature record (R159). -/
def Feature.bytes (f : Feature) : List Byte :=
  leBytes f.x 2 ++ leBytes f.y 2 ++ leBytes f.disp 2 ++ leBytes (min 65535 f.score) 2 ++ leBytes (f.level % 4 + 4 * b2n f.right) 1 ++ leBytes f.angle 1 ++
    leBytes f.conf 1 ++ leBytes f.flags 1 ++ leBytes f.trackId 4 ++ leBytes f.desc 32

/-- The 24 bytes of a track record (R167). -/
def Track.bytes (t : Track) : List Byte :=
  leBytes t.id 4 ++ leBytes t.age 2 ++ leBytes t.cost 2 ++ leBytes t.prevX 2 ++ leBytes t.prevY 2 ++ leBytes t.x 2 ++ leBytes t.y 2 ++ leBytes t.conf 1 ++
    leBytes t.flags 1 ++ zeros 6

/-- The 32-byte frame header (R176). -/
def VisionResult.header (r : VisionResult) (items : Nat) : List Byte :=
  leBytes r.frameNo 4 ++ leBytes (packTime r.capture) 8 ++ leBytes r.mode 1 ++ leBytes r.flags 1 ++ leBytes r.windowUsed 2 ++ leBytes items 4 ++
    leBytes r.refined 4 ++ leBytes r.calibVersion 4 ++ zeros 4

/-- The items of a query: how many there are, and the bytes of the first n of them (R176). -/
def queryItems (o : Op) (r : VisionResult) : Nat × (Nat → List Byte) :=
  let q := o.u8 16
  if bit r.flags 2 then (0, fun _ => [])
  else if q = 1 then
    let fs := r.features.filter fun f => o.u8 17 = 2 || (f.right = decide (o.u8 17 = 1))
    (fs.length, fun n => (fs.take n).flatMap Feature.bytes)
  else if q = 2 then (r.tracks.length, fun n => (r.tracks.take n).flatMap Track.bytes)
  else if bit r.flags 1 then (0, fun _ => [])
  else (r.height, fun n => ((r.disparity.take (n * r.width)).flatMap fun d => leBytes d 2) ++ (r.confidence.take (n * r.width)).map (BitVec.ofNat 8))

/-- The size of one item of a query (R176): a DISPARITY row takes 2 and 1 bytes per pixel. -/
def itemSize (o : Op) (r : VisionResult) : Nat := if o.u8 16 = 1 then 48 else if o.u8 16 = 2 then 24 else max 1 (3 * r.width)

/-- The result of a query on a completed frame's results (R178). -/
def State.answerQuery (s : State) (o : Op) (r : VisionResult) : State :=
  if !bit r.retain (o.u8 16 - 1) then s.finish o.id (Res.bound 0x11)
  else
    let it := queryItems o r
    let n := min it.1 ((o.u32 32 - 32) / itemSize o r)
    (s.writeMem (o.u64 24) (r.header it.1 ++ it.2 n)).finish o.id
      { status := if n < it.1 then St.okPartial else St.ok, count := n, detail := it.1 + r.mode * 2 ^ 32 + r.flags * 2 ^ 40 }

/-- A query has the results it names: it copies them. While another frame is being processed, which may need the buffer, the copy takes until the same
command comes again (R177; DESIGN CHOICE, log entry 145: with no such frame nothing can end a copy, and it is made at once). -/
def State.copyResult (s : State) (o : Op) (x : Session) (r : VisionResult) : State :=
  if x.frames.isEmpty || x.copies.any fun c => c.1 = o.id then
    (s.updSession x.id fun x => { x with copies := x.copies.filter fun c => c.1 ≠ o.id }).answerQuery o r
  else (s.updSession x.id fun x => { x with copies := x.copies ++ [(o.id, r.frameNo)] }).begin o.id

/-- FEATURES, TRACKS and DISPARITY (R175 to R178): a frame still being processed is waited for; the command is issued again. -/
def State.trackQuery (s : State) (o : Op) : State :=
  match s.useSession o.fn o.handle with
  | .error r => s.finish o.id r
  | .ok x =>
    match firstRes [need (if o.u8 16 = 1 then o.u8 17 ≤ 2 else o.u8 17 = 0) 17, need (o.u8 18 = 0) 18, need (o.u8 19 = 0) 19, need (32 ≤ o.u32 32) 32,
        need (o.u32 36 = 0) 36, need (o.u64 40 = 0) 40] with
    | some r => s.finish o.id r
    | none =>
      let n := ((x.copies.find? fun c => c.1 = o.id).map (·.2)).getD (o.u32 20)
      if n = 0 ∧ o.u32 20 = 0 then
        match x.results.head? with
        | some r => s.copyResult o x r
        | none => if x.frames.isEmpty then s.finish o.id (Res.bound 0x12) else s.begin o.id
      else match x.results.find? fun r => r.frameNo = n with
        | some r => s.copyResult o x r
        | none =>
          if x.frames.any fun f => f.frameNo = n then s.begin o.id
          else if x.acceptedNos.contains n then s.finish o.id (Res.bound 0x10)
          else s.finish o.id (Res.bound 0x12)

/-- TRACK_QUERY FEATURES (R175 to R178). -/
def execTrackQueryFeatures (op : Nat) (s : State) : Result := s.runSub op 0x11 0x01 fun o => s.trackQuery o

/-- TRACK_QUERY TRACKS (R175 to R178). -/
def execTrackQueryTracks (op : Nat) (s : State) : Result := s.runSub op 0x11 0x02 fun o => s.trackQuery o

/-- TRACK_QUERY DISPARITY (R175 to R178). -/
def execTrackQueryDisparity (op : Nat) (s : State) : Result := s.runSub op 0x11 0x03 fun o => s.trackQuery o

/-- TRACK_QUERY PROJECT (R171, R175, R176, R178), with the session's current calibration and its declared image size. -/
def execTrackQueryProject (op : Nat) (s : State) : Result :=
  s.runSub op 0x11 0x04 fun o =>
    if !s.hasNet then s.finish op (Res.absent 0x41)
    else match s.useSession o.fn o.handle with
      | .error r => s.finish op r
      | .ok x =>
        let n := o.u32 36
        let pts := cut 16 n (s.readMem (o.u64 40) (16 * n))
        match firstRes [need (o.u8 17 = 0) 17, need (o.u8 18 ≤ 1) 18, need (o.u8 19 ≤ 1) 19, need (o.u32 20 = 0) 20, need (within 1 1048576 n) 36,
            need (pts.all fun p => fld p 12 4 = 0) 40] with
        | some r => s.finish op r
        | none =>
          let out := pts.map (projectPoint x.cfg.track.calib x.decl.width x.decl.height (o.u8 18 = 1) (o.u8 19 = 0))
          let fit := min n (o.u32 32 / 12)
          (s.writeMem (o.u64 24) ((out.take fit).flatMap (·.1))).finish op
            { status := if fit < n then St.okPartial else St.ok, count := fit, detail := (out.filter (·.2)).length }

/-! ## The vision core -/

/-- Write a calibration block and raise its version, for the next accepted frame (R155, R172, R207). -/
def Session.recalibrate (x : Session) (f : List Byte → List Byte) : Session :=
  let g (t : TrackCfg) : TrackCfg := { t with calib := f t.calib, calibVersion := (t.calibVersion + 1) % 2 ^ 32 }
  { x with cfg := { x.cfg with track := g x.cfg.track }, nextCfg := { x.nextCfg with track := g x.nextCfg.track } }

/-- A block with FP32 words at an offset. -/
def wordsAt (off : Nat) (ws : List Word) (b : List Byte) : List Byte := b.take off ++ wBytes ws ++ b.drop (off + 4 * ws.length)

/-- A quaternion of four words, normalised; words that have no direction stand for no rotation (R11, R182). -/
def unitOf (q : List Word) : List Word :=
  let n := F32.normalise ((List.range 4).map fun i => (q[i]?).getD 0)
  if F32.unitQuat n then n else [0x3F800000, 0, 0, 0]

/-- 10⁴⁰ × cos²(0.5°), rounded down (R172, R207). -/
def cosSqHalfDegree : Int := 9999238475781956195785057794069574258463

/-- Whether the rotation between two quaternions is at most 1° (R172, R207): the square of their inner product against cos²(0.5°). -/
def withinDegree (p q : List Word) : Bool :=
  let dot := (List.zipWith (fun a b => F32.units a * F32.units b) p q).foldl (· + ·) 0
  p.all F32.finite && q.all F32.finite && decide (cosSqHalfDegree * (F32.sumSq p * F32.sumSq q) ≤ 10000000000000000000000000000000000000000 * (dot * dot))

/-- BOOTSTRAP_FRAMES of a VISION_RELOC value (R179). -/
def bootFrames (v : Nat) : Nat := if bits v 4 0 = 0 then 0 else clampN 4 31 (bits v 4 0)

/-- The end of bootstrap: the correction that fits the projected points to the right features is free; one of at most 1° replaces RL_Q, a larger one is
counted (R172, R207). -/
def State.endBootstrap (s : State) (sid : Nat) : State :=
  match s.session sid with
  | none => s
  | some x =>
    let s := s.updSession sid fun x => { x with bootstrap := none, bootstrapDone := true, bootObs := [] }
    let c := unitOf (Config.bootstrapFit x.cfg.track.calib x.bootObs)
    if withinDegree c [0x3F800000, 0, 0, 0] then
      let q := unitOf (Config.rotate (wflds x.cfg.track.calib 88 4) c)
      (s.updSession sid fun x => x.recalibrate (wordsAt 88 q)).event sid 0x24 (1 + 256 * ((x.cfg.track.calibVersion + 1) % 65536))
    else (s.bump Ctr.calibBootstrapReject).event sid 0x25 1

/-- The result of a frame with no vision (R154, R169). -/
def noVision (f : Frame) (boot : Bool) : VisionResult :=
  { frameNo := f.frameNo, capture := f.capture, mode := 0, flags := frameFlags false false true false boot, windowUsed := f.cfg.track.window,
    calibVersion := f.cfg.track.calibVersion, width := f.width, height := f.height, retain := f.cfg.track.retain }

/-- A frame's vision result is ready: the frame waits for fusion, and the session's tracks and bootstrap move on. -/
def Session.seen (x : Session) (seq : Nat) (r : VisionResult) (tracks : List Track) (next : Nat) (left : List Nat) : Session :=
  { x with frames := updFirst (fun f => f.seq = seq) (fun f => { f with vision := some r, left := none, right := none }) x.frames,
           tracks := tracks, nextTrack := next, prevLeft := left, prevWidth := r.width, prevHeight := r.height }

/-- Two latest completed frames, newest first (R177). -/
def Session.keepResult (x : Session) (r : VisionResult) : Session := { x with results := (r :: x.results).take 2 }

/-- The pose record of a STATION frame: its fixed pose. -/
def State.stationRecord (s : State) (x : Session) (noVis : Bool) : PoseRec :=
  let t := s.tileAt x.stationPose
  { pose := x.stationPose, step := 0, flags := poseFlags false false false false false noVis, epoch := 0, ix := t.1, iy := t.2 }

/-- The pose record of a host-path frame is written and its operation completes, unless its outcome is final already, as a storage fault makes it
(R100, R140, R141). -/
def State.completeFrame (s : State) (f : Frame) (r : PoseRec) : State :=
  match f.op.bind s.findOp with
  | none => s
  | some o =>
    if o.phase = .final then s
    else (s.writeMem (o.u64 40) r.bytes).complete o.id { status := frameStatus r.step r.flags, count := 148, detail := r.step + r.flags * 256 }

/-- A frame leaves the session's queue with its results kept; a copy whose buffer it takes is abandoned (R177). -/
def State.frameDone (s : State) (sid : Nat) (f : Frame) (r : VisionResult) : State :=
  match s.session sid with
  | none => s
  | some x =>
    let held (c : Nat × Nat) : Bool := ((r :: x.results).take 2).any fun v => v.frameNo = c.2
    let s := s.updSession sid fun x => { (x.keepResult r) with frames := x.frames.filter (fun g => g.seq ≠ f.seq), copies := x.copies.filter held }
    (x.copies.filter fun c => !held c).foldl (fun (s : State) c => s.complete c.1 (Res.bound 0x10)) s

/-- The end of a STATION frame, which has no fusion: it contributes with the fixed pose unless NO_VISION (R182, R203). -/
def State.stationFrame (s : State) (x : Session) (f : Frame) (r : VisionResult) : State :=
  let s := if bit r.flags 2 then s else s.contribute x f.capture f.frameNo x.stationPose r
  (s.frameDone x.id f r).completeFrame f (s.stationRecord x (bit r.flags 2))

/-- A session's oldest frame without a vision result. -/
def Session.unseen (x : Session) : Option Frame := x.frames.find? fun f => f.vision.isNone

/-- A frame passes the vision core (R150 to R172). -/
def State.seeFrame (s : State) (x : Session) (f : Frame) : State :=
  let bn := if x.bootstrapDone then 0 else match x.bootstrap with
    | some n => n
    | none => if f.cfg.track.calib.isEmpty then 0 else bootFrames f.reloc
  let boot := decide (0 < bn)
  let s := s.updSession x.id fun x => { x with bootstrap := if boot then some bn else x.bootstrap }
  let out : State × VisionResult × List (List Byte × Feature) := match calibMissing f, f.left with
    | false, some left =>
      let v := visionRun x f left (pyramidMode x f) boot
      let s := s.updSession x.id fun x => x.seen f.seq { v.result with retain := f.cfg.track.retain } v.live v.next v.left.px.toList
      let s := if 0 < v.exits then s.bumpBy Ctr.trackExit 0 v.exits else s
      (if v.fallback then s.bump Ctr.searchFallback else s, { v.result with retain := f.cfg.track.retain }, v.boots)
    | miss, _ =>
      let s := s.updSession x.id fun x => x.seen f.seq (noVision f boot) [] x.nextTrack []
      (if miss then s.bump Ctr.calibMissing else s, noVision f boot, [])
  let s := out.1
  let r := out.2.1
  let stereo := (r.features.filter fun g => bit g.flags 1).length
  let s := if boot ∧ 200 ≤ stereo then
      let s := s.updSession x.id fun x => { x with bootstrap := some (bn - 1), bootObs := x.bootObs ++ out.2.2 }
      if bn = 1 then s.endBootstrap x.id else s
    else s
  if x.kind = .station then s.stationFrame x f r else s

/-- Whether a frame is next at its vision core: every session's frames are class 1 work, and the core takes them in the order they were accepted
(R52, R152). -/
def State.nextSeen (s : State) (x : Session) (f : Frame) : Bool :=
  !(s.sess.list.any fun y => y.cluster = x.cluster && y.frames.any fun g => g.vision.isNone && decide (g.seq < f.seq))

/-- VISION_FRAME (R150 to R172): the oldest accepted frame without a vision result passes the vision core of its session's cluster. -/
def execVisionFrame (sid frameNo : Nat) (s : State) : Result :=
  match s.session sid with
  | none => .next s
  | some x =>
    match x.unseen with
    | none => .next s
    | some f =>
      if !s.running || !s.domOn (15 + x.cluster) || f.frameNo ≠ frameNo || !s.nextSeen x f then .next s
      else .next (s.seeFrame x f)

/-! ## Sources and the gate (R186 to R189) -/

/-- Whether settled outputs of the filter cover [a, b] (R186); a frame fused without the output at its end needs only the first. -/
def Filter.covers (f : Filter) (a b : Int) (short : Bool) : Bool :=
  (f.outs.any fun o => !o.unsettled && decide (o.stamp ≤ a)) && (short || f.outs.any fun o => !o.unsettled && decide (b ≤ o.stamp))

/-- Whether a motion channel was settling at any time in [a, b] (R185). -/
def Filter.settling (f : Filter) (a b : Int) : Bool :=
  (f.spans.any fun p => decide (p.1 ≤ b ∧ a ≤ p.2)) || (!f.settled && decide (f.spanFrom ≤ b))

/-- The sources present in an interval: vision, inertial, wheel (R186). -/
structure Present where
  vision : Bool := false
  inertial : Bool := false
  wheel : Bool := false
  deriving DecidableEq, Repr

/-- The sources present in [a, b] on the motion timeline for a frame's result, if any (R186). -/
def Session.present (x : Session) (a b : Int) (r : Option VisionResult) (short : Bool) : Present :=
  let cover := x.filter.covers a b short
  { vision := r.any fun v => !bit v.flags 2 && decide (12 ≤ v.tracks.length), inertial := bits x.decl.channelMask 5 0 = 63 && cover,
    wheel := x.kind = .vehicle && bits x.decl.channelMask 7 6 = 3 && cover }

/-- The sources present, as numbers: vision 0, inertial 1, wheel 2. -/
def Present.list (p : Present) : List Nat := (if p.vision then [0] else []) ++ (if p.inertial then [1] else []) ++ (if p.wheel then [2] else [])

/-- What the estimators work on (R183), for [a, b] on the motion timeline. -/
def Session.fuseIn (x : Session) (a b : Int) (r : Option VisionResult) : FuseIn :=
  { fusion := x.fusion, cfg := x.cfg, decl := x.decl, outs := x.filter.outs.filter (fun o => !o.unsettled), vision := r, start := a, stop := b }

/-- A relative-motion estimate: six components, in the order x, y, z, roll, pitch, yaw, and the rows of its covariance. -/
structure Motion where
  delta : List Rat := []
  cov : List (List Rat) := []

/-- The estimate of a source (R186): none where a word of it is not finite. A component that the wheels do not observe has variance 10⁴ and no
covariance with another (DEDUCED); on a MONO frame the scale of translation, along the translation, has that variance added. -/
def motionOf (src : Nat) (q : FuseIn) : Option Motion :=
  let w := Config.sourceEstimate src q
  let at_ (i : Nat) : Word := (w[i]?).getD 0
  let d := (List.range 6).map fun i => ratOf (at_ i)
  let len := (d.take 3).foldl (fun t v => t + v * v) 0
  let mono := src = 0 && (q.vision.any fun v => bit v.flags 1) && len ≠ 0
  let hidden (i : Nat) : Bool := src = 2 && (i = 2 || i = 3 || i = 4)
  let c (i j : Nat) : Rat :=
    let base := if hidden i || hidden j then (if i = j then 10000 else 0) else ratOf (at_ (6 + 6 * min i j + max i j))
    if mono && i < 3 && j < 3 then base + 10000 * ((d[i]?).getD 0 * (d[j]?).getD 0) / len else base
  if (List.range 42).all fun i => F32.finite (at_ i) then some { delta := d, cov := (List.range 6).map fun i => (List.range 6).map fun j => c i j } else none

/-- d² of two estimates (R187), exact. -/
def gateDistance (a b : Motion) : Option Rat :=
  let d := List.zipWith (· - ·) a.delta b.delta
  let rows := List.zipWith (fun r v => r ++ [v]) (List.zipWith (List.zipWith (· + ·)) a.cov b.cov) d
  (solveRows 6 rows).map fun ys => (List.zipWith (· * ·) d ys).foldl (· + ·) 0

/-- Whether a pair of sources disagrees: d² exceeds GATE (R187). d² is taken exactly (DEDUCED, log entry 146: the order of its FP32 operations is not
given); where it has no value the outcome is free. -/
def gateFails (gate : Word) (q : FuseIn) (a b : Nat) : Bool :=
  match motionOf a q, motionOf b q with
  | some u, some v =>
    match gateDistance u v with
    | some d => decide (ratOf gate < d)
    | none => Config.up 187 [(a : Int), b, q.start, q.stop]
  | _, _ => Config.up 187 [(a : Int), b, q.start, q.stop]

/-- What the gate leaves of an interval (R188): whether it is contradicting, the counters moved, and the sources of rotation and of translation. -/
structure Gated where
  contra : Bool := false
  counts : List Nat := []
  rot : List Nat := []
  trans : List Nat := []
  deriving DecidableEq, Repr

/-- The order of PRECEDENCE: vision 0, inertial 1, wheel 2 (R189). -/
def precedence (code : Nat) : List Nat :=
  match code with
  | 1 => [0, 2, 1]
  | 2 => [0, 1, 2]
  | 3 => [2, 0, 1]
  | 4 => [2, 1, 0]
  | 5 => [1, 0, 2]
  | _ => [1, 2, 0]

/-- The counter of a source that loses (R188). -/
def rejectCtr (src : Nat) : Nat := if src = 0 then Ctr.visionReject else if src = 1 then Ctr.inertialReject else Ctr.wheelSlip

/-- All sources present give both components. -/
def Gated.all (p : Present) (contra : Bool) : Gated := { contra := contra, rot := p.list, trans := p.list }

/-- A source is excluded. -/
def Gated.without (p : Present) (src : Nat) : Gated :=
  { contra := true, counts := [rejectCtr src], rot := p.list.filter (· ≠ src), trans := p.list.filter (· ≠ src) }

/-- The resolution of R188 from the sources present and the pairs that disagree. -/
def resolve (code : Nat) (p : Present) (vi vw iw : Bool) : Gated :=
  if p.vision && p.inertial && p.wheel then
    if vi && vw && iw then { contra := true, counts := [Ctr.contradictAll], rot := [1], trans := [1] }
    else if vi && vw then Gated.without p 0
    else if vi && iw then Gated.without p 1
    else if vw && iw then Gated.without p 2
    else Gated.all p (vi || vw || iw)
  else
    let pair : Option (Nat × Nat) :=
      if p.vision && p.inertial && vi then some (0, 1) else if p.vision && p.wheel && vw then some (0, 2)
      else if p.inertial && p.wheel && iw then some (1, 2) else none
    match pair with
    | none => Gated.all p false
    | some (a, b) =>
      let trans := ((precedence code).find? fun k => k = a || k = b).getD a
      let rot := if p.inertial then 1 else trans
      { contra := true, counts := ([a, b].filter fun k => k ≠ trans || k ≠ rot).map rejectCtr, rot := [rot], trans := [trans] }

/-! ## Steps (R190 to R193) -/

/-- The source step of R191; vision without inertial stands in no row, so that step is free. -/
def sourceStep (x : Session) (p : Present) (r : Option VisionResult) (hold : Bool) : Nat :=
  let stereo := r.any fun v => !bit v.flags 1
  let needWheel := x.kind = .vehicle && decide (bits x.decl.channelMask 7 6 = 3)
  if hold || (!p.vision && !p.inertial && !p.wheel) then 3
  else if p.vision && p.inertial then (if stereo && (!needWheel || p.wheel) then 0 else 1)
  else if p.vision then 1 + Config.given 191 [(b2n stereo : Int), (b2n p.wheel : Int)] % 3
  else 2

/-- The sources that a step fuses (R191). -/
def stepSources (step : Nat) : List Nat := if step = 0 then [0, 1, 2] else if step = 1 then [0, 1] else if step = 2 then [1, 2] else []

/-- An entry of a context's covariance. -/
def covAt (cov : List Word) (i j : Nat) : Word := (cov[15 * i + j]?).getD 0

/-- Whether the position covariance exceeds the hold limit (R192). -/
def holdExceeded (cov : List Word) (limit : Word) : Bool :=
  let d := [covAt cov 0 0, covAt cov 1 1, covAt cov 2 2]
  !(d.all F32.finite) || decide (F32.units limit * F32.units limit < (d.foldl (fun (t : Int) w => t + F32.units w) 0) * F32.one)

/-- The trust step, run and clean count after an interval (R190). A trust step above 3 has no effect of its own. -/
def Fusion.trust (f : Fusion) (cfg : FusionCfg) (contra : Bool) : Fusion :=
  if contra then
    if cfg.contraLimit ≤ f.run + 1 then { f with run := 0, clean := 0, trustStep := f.trustStep + 1 } else { f with run := f.run + 1, clean := 0 }
  else if cfg.recover ≤ f.clean + 1 then { f with run := 0, clean := 0, trustStep := f.trustStep - 1 }
  else { f with run := 0, clean := f.clean + 1 }

/-- The parameters of the device's own searches: the registers' values, K the candidates asked for (R173, R242). -/
def State.placePar (s : State) (k : Nat) : SearchPar :=
  let a := s.reg 0xC000 0
  { k := k, beam := max k (clampN 16 1024 (bits a 10 0)), entry := clampN 1 16 (bits a 20 16), probes := clampN 1 64 (bits a 30 24),
    maxVisits := clampN 64 1048575 (s.regF 0xC004 0 19 0) }

/-- The candidates of the place search, in rank order: the keyframes of handle 1's entries nearest the frame's embedding, with their tiles (R173,
R212, R239). The device searches the shard it owns. -/
def State.placeCandidates (s : State) (r : VisionResult) (k : Nat) : List (Keyframe × Tile) :=
  match s.map.latest.index 1 with
  | none => []
  | some x =>
    let q := Config.frameEmbedding r
    let w := x.searchShard s.map.latest.gens (fun e => s.ownsIn s.map.latest e.ix e.iy) q (s.placePar k) {} (x.table q).1
    w.result.filterMap fun e => (s.map.latest.homeOf e.2.key).bind fun t => (t.keyframe e.2.key).map fun kf => (kf, t)

/-- The inliers of a candidate: left features within 2 pixels of a projected map point of its tile whose descriptor lies within 64 (R173). -/
def placeInliers (calib : List Byte) (w h : Nat) (r : VisionResult) (c : Keyframe × Tile) : Nat :=
  let pts := (c.2.points.map fun m => ((projectPoint calib w h false true (wBytes (Config.fromPose c.1.pose (m.x, m.y, m.z)))).1, leNat m.desc)).filter
    fun p => fld p.1 8 1 = 0
  ((r.features.filter fun f => !f.right).filter fun f => pts.any fun p =>
    let du : Int := (f.x : Int) - fld p.1 0 2
    let dv : Int := (f.y : Int) - fld p.1 2 2
    decide (du * du + dv * dv ≤ 1024) && decide (hamming f.desc p.2 ≤ 64)).length

/-- Relocalisation of a frame at S3 (R173, R193): the first candidate with RELOC_MIN_INLIERS inliers gives the context a pose. A correction that the
searched map already holds is not applied to it. -/
def State.relocalise (s : State) (sid : Nat) (f : Frame) (r : VisionResult) : State :=
  let least := clampN 8 255 (bits f.reloc 15 8)
  let cands := if bit r.flags 2 then [] else s.placeCandidates r (clampN 1 16 (bits f.reloc 20 16))
  let counts := cands.map (placeInliers f.cfg.track.calib f.width f.height r)
  match (cands.zip counts).zipIdx.find? fun c => decide (least ≤ c.1.2) with
  | none => s
  | some c =>
    let published := s.map.published
    let pose : Pose := { c.1.1.1.pose with q := unitOf c.1.1.1.pose.q }
    let restart (u : Fusion) : Fusion := { u.from pose with pendingCorrection := u.pendingCorrection.filter fun k => decide (published < k.1) }
    (s.updSession sid fun x => { x with fusion := restart x.fusion }).event sid 0x23 (c.2 + 256 * min 65535 c.1.2)

/-- The cause of a step change (R209). -/
def stepCause (old new : Fusion) (fixed hold : Bool) : Nat :=
  if fixed || (old.step = 3 && decide (new.step < 3)) then 6
  else if old.step < new.step then
    (if old.trustStep < new.trustStep ∧ new.step ≤ new.trustStep then 2
     else if old.timeStep < new.timeStep ∧ new.step ≤ new.timeStep then 4
     else if hold then 5 else 1)
  else if new.timeStep < old.timeStep ∧ old.step ≤ old.timeStep then 7
  else if new.trustStep < old.trustStep ∧ old.step ≤ old.trustStep then 3
  else 1

/-- Queue STEP_CHANGED when an interval changed the step (R209); fixed where the interval took a new pose. -/
def State.stepEvent (s : State) (sid : Nat) (old new : Fusion) (fixed hold : Bool) : State :=
  if old.step = new.step then s else s.event sid 0x20 (new.step + 256 * stepCause old new fixed hold)

/-! ## The update (R182, R183, R191, R192, R202) -/

/-- A variance that grows with an interval (R191, R192): the estimator's, where it is larger, else the next FP32 value. -/
def grown (old new : Word) : Word := if F32.finite new && F32.lt old new then new else if F32.finite (old + 1) then old + 1 else old

/-- The covariance of an interval: the estimator's, symmetric; at S2 and S3 every variance grows. -/
def nextCov (step : Nat) (old : List Word) (w : List Word) : List Word :=
  (List.range 225).map fun i =>
    let a := i / 15
    let b := i % 15
    let new := (w[19 + 15 * min a b + max a b]?).getD 0
    if a = b ∧ 2 ≤ step then grown (covAt old a a) new else new

/-- A delta in metres as units of 2⁻²⁰ m, to nearest; a tie and a value that is not finite are free (R182). -/
def anchorStep (w : Word) : Int :=
  let d : Int := 2 ^ 129
  let n := F32.units w
  let q := (2 * n + d) / (2 * d)
  if !F32.finite w then sext 48 (Config.given 182 [(w.toNat : Int)] % 2 ^ 48)
  else if (2 * n + d) % (2 * d) = 0 ∧ Config.up 182 [n] = false then q - 1
  else q

/-- A map correction is applied whole, with its epoch (R202). -/
def Fusion.corrected (f : Fusion) : Fusion :=
  match f.pendingCorrection with
  | none => f
  | some (e, moves) =>
    let c := Config.corrected f.pose moves
    { f with epoch := e, pendingCorrection := none, pose := { x := sext 48 (tc 48 c.1.1), y := sext 48 (tc 48 c.1.2.1), z := sext 48 (tc 48 c.1.2.2), q := unitOf c.2 } }

/-- The context after an interval: the estimator's words are free functions of the inputs; the delta joins the anchor at an accepted frame. At S3 the
pose holds, the velocity reads 0 and the covariance grows (R182, R183, R192). -/
def Fusion.update (f : Fusion) (q : FuseIn) (rot trans : List Nat) (frame : Bool) : Fusion :=
  let f := if frame && f.step != 3 then f.corrected else f
  let w := Config.estimate { q with fusion := f } rot trans
  let ws (i n : Nat) : List Word := (List.range n).map fun k => (w[i + k]?).getD 0
  if f.step = 3 then { f with vel := [0, 0, 0], cov := nextCov 3 f.cov w }
  else
    let d := ws 0 3
    let move (v : Int) (i : Nat) : Int := sext 48 (tc 48 (v + anchorStep ((d[i]?).getD 0)))
    { f with
      pose := if frame then { x := move f.pose.x 0, y := move f.pose.y 1, z := move f.pose.z 2, q := unitOf (ws 3 4) } else { f.pose with q := unitOf (ws 3 4) },
      delta := if frame then [0, 0, 0] else d, hasPose := true, vel := ws 7 3, gyroBias := ws 10 3, accBias := ws 13 3, wheelScale := ws 16 2,
      steerOffset := (w[18]?).getD 0, cov := nextCov f.step f.cov w }

/-- What one interval gives: the context after it, the sources present and fused, the counters, and whether the hold limit forced S3. -/
structure Interval where
  fusion : Fusion
  present : Present
  fused : List Nat
  counts : List Nat
  hold : Bool

/-- An interval of capture times [a, b] is gated, resolved, stepped and fused (R186 to R194); θ places it on the motion timeline. -/
def Session.interval (x : Session) (a b : Int) (r : Option VisionResult) (short : Bool) : Interval :=
  let p := x.present (a + x.fusion.theta) (b + x.fusion.theta) r short
  let q := x.fuseIn (a + x.fusion.theta) (b + x.fusion.theta) r
  let g := x.cfg.fusion.gate
  let res := resolve x.cfg.fusion.precedence p (p.vision && p.inertial && gateFails g q 0 1) (p.vision && p.wheel && gateFails g q 0 2)
    (p.inertial && p.wheel && gateFails g q 1 2)
  let f := x.fusion.trust x.cfg.fusion res.contra
  let hold := holdExceeded f.cov x.cfg.fusion.holdLimit && f.hasPose
  let src := sourceStep x p r (hold || f.held)
  let time := if f.unlockCause = 0 then 0 else 2
  let step := min 3 (max src (max f.trustStep time))
  let use := stepSources step
  let rot := res.rot.filter use.contains
  let trans := res.trans.filter use.contains
  let f := { f with sourceStep := src, timeStep := time, step := step, held := decide (step = 3), intervalEnd := b.toNat, fixed := false }
  { fusion := f.update q rot trans r.isSome, present := p, fused := (rot ++ trans).eraseDups, counts := res.counts, hold := hold }

/-! ## Frames in fusion -/

/-- Whether a frame carries UNRELIABLE: an output over a limit within one declared frame period of its capture time (R148). -/
def Session.unreliable (x : Session) (capture rate : Nat) : Bool :=
  x.filter.overs.any fun t => !pastPeriods rate 1 1 (t - ((capture : Int) + x.fusion.theta)).natAbs

/-- The pose record of a frame (R138, R199, R201). -/
def State.poseRecord (s : State) (x : Session) (f : Frame) (iv : Interval) (a : Int) : PoseRec :=
  let u := iv.fusion
  let t := s.tileAt u.pose
  { pose := u.pose, vel := u.vel, cov := (List.range 6).flatMap fun i => (List.range (6 - i)).map fun j => covAt u.cov i (i + j), step := u.step,
    flags := poseFlags (u.step = 3) (x.unreliable f.capture f.rate) false (u.unlockCause ≠ 0)
      (x.decl.channelMask ≠ 0 && x.filter.settling (a + x.fusion.theta) (f.capture + x.fusion.theta)) (!iv.fused.contains 0),
    epoch := u.epoch, ix := t.1, iy := t.2 }

/-- A frame's launch time (R200). -/
def Frame.launch (f : Frame) : Nat := f.capture + f.cfg.base.replyOffset * 1000

/-- Outputs before the last settled one at or before a time, and the settling spans that end before it, leave the filter's store. -/
def Filter.trim (f : Filter) (a : Int) : Filter :=
  match ((f.outs.filter fun o => !o.unsettled && decide (o.stamp ≤ a)).map FilterOut.stamp).max? with
  | none => f
  | some c => { f with outs := f.outs.filter (fun o => decide (c ≤ o.stamp)), spans := f.spans.filter fun p => decide (c ≤ p.2) }

/-- Outputs that later intervals and searches for a residual no longer need leave the store: those of more than the widest search before b. -/
def Session.trimFilter (x : Session) (b : Int) : Session :=
  { x with filter := x.filter.trim (b + x.fusion.theta - ((max 2 x.cfg.fusion.unlockSearch + 1) * (x.decl.period + 1) : Nat)) }

/-- The frame whose fusion is next: the oldest, with its vision result. -/
def Session.fusable (x : Session) (frameNo : Nat) : Option (Frame × VisionResult) :=
  match x.frames.head? with
  | none => none
  | some f => if f.frameNo = frameNo ∧ x.kind ≠ .station then f.vision.map fun r => (f, r) else none

/-- Whether a frame's fusion may start (R184, R194). A session that declares no motion channel has no output to wait for (DEDUCED). -/
def Session.motionReady (x : Session) (f : Frame) : Bool :=
  f.motionShort || x.decl.channelMask = 0 || x.filter.outs.any fun o => !o.unsettled && decide ((f.capture : Int) + x.fusion.theta ≤ o.stamp)

/-- Time at S0 that a calibration solve's period counts (R207). -/
def Session.countS0 (x : Session) (a b : Nat) : Session := if x.fusion.step = 0 then { x with calibDue := x.calibDue + (b - a) } else x

/-- A frame waits for its residual (R194): one with vision, of a session with gyro channels, after an earlier accepted frame. -/
def Session.awaitResidual (x : Session) (last : Nat) (f : Frame) (r : VisionResult) (vision : Bool) : Session :=
  if vision ∧ bits x.decl.channelMask 2 0 ≠ 0 ∧ last ≠ 0 then
    let q : Resid := { start := (last : Int), capture := f.capture, rate := f.rate, result := r }
    { x with residuals := x.residuals ++ [q] }
  else x

/-- A frame is fused: its pose is eligible for its reply, and it contributes to the map (R182 to R203). -/
def State.fuseFrame (s : State) (x0 : Session) (f : Frame) (r : VisionResult) : State :=
  let sid := x0.id
  let s := if x0.fusion.held then s.relocalise sid f r else s
  let x := (s.session sid).getD x0
  let x := { x with cfg := f.cfg }
  let a : Int := if x.fusion.intervalEnd = 0 then f.capture else x.fusion.intervalEnd
  let iv : Interval := x.interval a f.capture (some r) f.motionShort
  let s := iv.counts.foldl (fun s c => s.bump c) s
  let rec0 : PoseRec := s.poseRecord x f iv a
  let s := s.updSession sid fun y =>
    ((({ y with fusion := { iv.fusion with lastAcceptedCapture := f.capture } } : Session).trimFilter f.capture).countS0 a.toNat f.capture).awaitResidual
      x.fusion.lastAcceptedCapture f r iv.present.vision
  let s := s.stepEvent sid x0.fusion iv.fusion x.fusion.fixed iv.hold
  let s := if iv.fusion.step ≤ 1 ∧ ¬ bit rec0.flags 1 ∧ iv.fusion.unlockCause = 0 ∧ ¬ bit r.flags 2 then
      s.contribute x f.capture f.frameNo iv.fusion.pose r else s
  let s := (s.settleResiduals sid).frameDone sid f r
  if f.op.isSome then s.completeFrame f rec0
  else s.updSession sid fun y =>
    let p : Reply := { frameNo := f.frameNo, capture := f.capture, launch := f.launch, eligible := s.devNs, rate := f.rate, record := rec0 }
    { y with replies := y.replies ++ [p] }

/-- FUSION_FRAME (R182 to R203): the oldest frame of a session is fused once it may be. -/
def execFusionFrame (sid frameNo : Nat) (s : State) : Result :=
  match s.session sid with
  | none => .next s
  | some x0 =>
    match x0.fusable frameNo with
    | none => .next s
    | some (f, r) => if !s.running || !x0.motionReady f then .next s else .next (s.fuseFrame x0 f r)

/-- MOTION_SHORT (R184): at the launch time minus 1 ms fusion stops waiting for the covering output. -/
def execMotionShort (sid frameNo : Nat) (s : State) : Result :=
  match s.session sid with
  | none => .next s
  | some x =>
    match x.fusable frameNo with
    | none => .next s
    | some (f, _) =>
      if x.motionReady f then .next s
      else
        let s := (s.toDev (f.launch - 1000000)).bump Ctr.motionShort
        .next (s.updSession sid fun x => { x with frames := updFirst (fun g => g.seq = f.seq) (fun g => { g with motionShort := true }) x.frames })

/-- FUSION_INTERVAL_CLOSE (R186 to R192): with no frame accepted for two declared frame periods, an interval of one period, in whole ns,
with no vision closes, by device time. -/
def execFusionIntervalClose (sid : Nat) (s : State) : Result :=
  match s.session sid with
  | none => .next s
  | some x =>
    let p := x.decl.period
    if x.kind = .station ∨ ¬ s.running ∨ ¬ x.frames.isEmpty ∨ p = 0 ∨ ¬ (x.state = .opened ∨ x.state = .silent) then .next s
    else
      let a := max x.fusion.intervalEnd x.openedAt
      let s := s.toDev (max (a + p) (max x.openedAt (x.lastAccepted.getD 0) + 2 * p))
      let iv : Interval := x.interval a (a + p) none false
      let s := iv.counts.foldl (fun s c => s.bump c) s
      let s := s.updSession sid fun y => ({ y with fusion := iv.fusion } : Session).trimFilter (a : Int)
      .next (s.stepEvent sid x.fusion iv.fusion x.fusion.fixed iv.hold)

/-! ## The end of a session by SESSION_CLOSE -/

/-- A frame that a started FRAME_SUBMIT handed over runs to its end as its session is closed (R87, R141): with what the filter has given by then. -/
def State.endFrame (s : State) (sid frameNo : Nat) : State :=
  let s := match s.session sid with
    | none => s
    | some x =>
      match x.unseen with
      | none => s
      | some f => if f.frameNo = frameNo then s.seeFrame x f else s
  match s.session sid with
  | none => s
  | some x =>
    match x.fusable frameNo with
    | none => s
    | some (f, r) => s.fuseFrame x { f with motionShort := true } r

/-- SESSION_CLOSE (R87, R115, R116). Frames of started FRAME_SUBMITs are processed to their end before the session is gone (DESIGN CHOICE, log entry
147: the spec says that they run to completion, not when). -/
def execSessionClose (op : Nat) (s : State) : Result :=
  s.runOp op 0x09 fun o =>
    if 1 < o.u8 16 then s.finish op (Res.field 16)
    else match s.session o.handle with
      | none => s.finish op (match s.keySlot o.handle with
        | some k => if k.fn = o.fn then Res.lost else Res.denied 3
        | none => Res.lost)
      | some x =>
        if x.fn ≠ o.fn then s.finish op (Res.denied 3)
        else
          let s := if o.u8 16 = 1 ∧ (x.state = .opened ∨ x.state = .silent) then s.sendUsp x.id 0x8 (leBytes 0x02 1 ++ zeros 3) else s
          let s := if x.state = .closed then s else (s.quiesce x.id).event x.id 0x03 0x02
          let s := (x.frames.filter fun f => f.op.isSome).foldl (fun (s : State) f => s.endFrame x.id f.frameNo) s
          let s := (s.endUnstarted x.id (Res.cancelled 1)).freeSession x.id
          s.finish op (Res.ok 0 (b2n (decide (x.state = .closed)) + x.replies.length % 256 * 256 + x.reasm.length % 65536 * 65536))

/-! ## Replies -/

/-- The body of a REPLY (R138): every field is big-endian. -/
def Reply.body (r : Reply) (late : Bool) : List Byte :=
  beBytes r.frameNo 4 ++ wireTime r.capture ++ zeros 2 ++ { r.record with flags := setBit r.record.flags 2 late }.bytesBe

/-- A held reply as it stands when it leaves: UNRELIABLE also for an output over a limit that has been computed since (R148). -/
def Session.leaving (x : Session) (r : Reply) : Reply :=
  if x.unreliable r.capture r.rate then { r with record := { r.record with flags := setBit r.record.flags 1 true } } else r

/-- REPLY_LAUNCH (R35, R102, R197, R200): the session's oldest reply leaves at its launch time; a late one follows LATE_REPLY; one more than
a frame period late is stale; one whose port is busy then is late too (R369); an unlocked session's leaves at once. -/
def execReplyLaunch (sid : Nat) (s : State) : Result :=
  match s.session sid with
  | none => .next s
  | some x =>
    match x.replies with
    | [] => .next s
    | r0 :: rest =>
      let r := x.leaving r0
      let s' := s.updSession sid fun x => { x with replies := rest }
      let busy (t : State) : Bool :=
        ((t.keySlot sid).bind fun k => t.exitPort k.net.src).any fun p => decide (r.launch * 100 + 800 < t.devAt (t.portFree p))
      if bit r.record.flags 3 then .next (s'.sendUsp sid 0x7 (r.body false))
      else if decide (r.eligible ≤ r.launch) && !busy (s'.toDev r.launch) then .next ((s'.toDev r.launch).sendUsp sid 0x7 (r.body false))
      else if r.launch < r.eligible ∧ pastPeriods r.rate 1 1 (r.eligible - r.launch) then .next (s'.bump Ctr.replyStale)
      else if x.cfg.fusion.lateDrop then .next (s'.bump Ctr.replyDroppedLate)
      else .next ((s'.bump Ctr.replyLate).sendUsp sid 0x7 (r.body true))

/-! ## Session moves -/

/-- The cluster with an index. -/
def State.cluster (s : State) (i : Nat) : Option Cluster := s.place.clusters.find? fun c => c.idx = i

/-- Whether a move has a reason now, and whether its count is limited (R307): drain, balance or pack. -/
def State.moveReason (s : State) (from_ to_ : Cluster) : Option Bool :=
  let live := s.place.clusters.filter fun c => c.role = .inService
  let pol := s.reg 0xF000 0
  let room := decide (s.place.movesThisEpoch < bits pol 31 24)
  if from_.role = .draining then some false
  else if bit pol 0 then
    let ceiling := clampN 30 95 (bits pol 22 16)
    if room && (live.all fun c => decide (from_.load ≤ c.load)) && decide (from_.load + to_.load ≤ ceiling) then some true else none
  else if room && decide (4 ≤ s.place.imbalanceRun) && (live.all fun c => decide (c.load ≤ from_.load) && decide (to_.load ≤ c.load)) then some true
  else none

/-- SESSION_MOVE (R28, R306, R307): with no frame in progress the copy to another cluster starts; the same command again ends it.
A frame accepted between the two abandons it (acceptFrame). -/
def execSessionMove (sid cluster : Nat) (s : State) : Result :=
  match s.session sid, s.cluster cluster with
  | some x, some to_ =>
    match s.cluster x.cluster with
    | none => .next s
    | some from_ =>
      if !x.frames.isEmpty || to_.role != .inService || cluster = x.cluster || !s.running then .next s
      else if x.moving = some cluster then
        let limited := (s.moveReason from_ to_).getD false
        let s := s.updSession sid fun x => { x with moving := none, cluster := cluster, moves := min 65535 (x.moves + 1) }
        let s := (s.bump Ctr.sessionMoves).placed cluster
        .next { s with place := { s.place with movesDone := s.place.movesDone + 1, movesThisEpoch := if limited then s.place.movesThisEpoch + 1 else s.place.movesThisEpoch } }
      else if x.moving.isNone && (s.moveReason from_ to_).isSome then .next (s.updSession sid fun x => { x with moving := some cluster })
      else .next s
  | _, _ => .next s

end Sys2Proof.Machine
end

