-- ==== Sys2Proof/Machine/AbacusOps.lean ====
section
/-! DEFINITION. The abacus: schedule images (R244 to R249), SOLVE (R250 to R267) and the device's own loop closure (R268). -/

namespace Sys2Proof.Machine

/-! ## Schedule images -/

/-- A 32-bit field of record i of a section of n-byte records. -/
def secF (img : List Byte) (base n i off len : Nat) : Nat := fld img (base + n * i + off) len

/-- MAGIC, VERSION, reserved bytes, IMAGE_BYTES and CRC of an image (R248). -/
def schedHead (img : List Byte) (bytes : Nat) : Bool :=
  fld img 0 4 = 0x43534241 && fld img 4 2 = 1 && fld img 6 2 = 0 && allZero (slice img 72 52) && fld img 60 4 = bytes && decide (128 ≤ bytes) &&
    fld img 124 4 = crc32 (img.take 124 ++ img.drop 128)

/-- The counts and sizes of an image lie in their ranges (R244). -/
def schedCounts (img : List Byte) : Bool :=
  within 1 262144 (fld img 16 4) && within 1 4194304 (fld img 20 4) && within 1 (fld img 16 4) (fld img 24 4) && within 1 4194304 (fld img 28 4) &&
    within 128 268435456 (fld img 60 4)

/-- The five sections: offset and length (R244, R245). -/
def schedSections (img : List Byte) : List (Nat × Nat) :=
  [(fld img 40 4, 8 * fld img 16 4), (fld img 44 4, 8 * fld img 20 4), (fld img 48 4, 32 * fld img 24 4), (fld img 52 4, 4 * fld img 32 4),
   (fld img 56 4, 16 * fld img 36 4)]

/-- Whether two sections do not overlap. -/
def apart (a b : Nat × Nat) : Bool := a.2 = 0 || b.2 = 0 || decide (a.1 + a.2 ≤ b.1) || decide (b.1 + b.2 ≤ a.1)

/-- Sections lie after the header, within the image, on multiples of 16, and apart. -/
def sectionsOk (secs : List (Nat × Nat)) (bytes : Nat) : Bool :=
  (secs.all fun a => a.1 % 16 = 0 && decide (128 ≤ a.1) && decide (a.1 + a.2 ≤ bytes)) &&
    (secs.zipIdx.all fun a => secs.zipIdx.all fun b => a.2 = b.2 || apart a.1 b.1)

/-- Supernode s of an image: FIRST_VAR, COLS, PARENT, ROW_FIRST, ROWS, STEP_FIRST, STEP_COUNT (R245). -/
structure Snode where
  first : Nat
  cols : Nat
  parent : Nat
  rowFirst : Nat
  rows : Nat
  stepFirst : Nat
  stepCount : Nat

/-- The supernodes of an image (R245). -/
def snodes (img : List Byte) : List Snode :=
  let b := fld img 48 4
  (List.range (fld img 24 4)).map fun s =>
    { first := secF img b 32 s 0 4, cols := secF img b 32 s 4 4, parent := secF img b 32 s 8 4, rowFirst := secF img b 32 s 12 4,
      rows := secF img b 32 s 16 4, stepFirst := secF img b 32 s 20 4, stepCount := secF img b 32 s 24 4 }

/-- Indices, L_BLOCKS and the order of the steps are consistent (R245, R248): each variable lies in the run of its supernode, and each step in its
supernode's. -/
def schedStructure (img : List Byte) : Bool :=
  let nv := fld img 16 4
  let nsn := fld img 24 4
  let sn := snodes img
  let vb := fld img 40 4
  let sb := fld img 44 4
  let rb := fld img 52 4
  let tb := fld img 56 4
  let varsOk := (List.range nv).all fun i =>
    match sn[secF img vb 8 i 0 4]? with
    | some n => decide (n.first ≤ i ∧ i < n.first + n.cols)
    | none => false
  let slotsOk := (List.range (fld img 20 4)).all fun j =>
    decide (secF img sb 8 j 0 4 < nv) && (secF img sb 8 j 4 4 = 0xFFFFFFFF || decide (secF img sb 8 j 4 4 < nv))
  let rowsOk (n : Snode) : Bool := (List.range n.rows).all fun k =>
    decide (secF img rb 4 (n.rowFirst + k) 0 4 < nv) && (k = 0 || decide (secF img rb 4 (n.rowFirst + k - 1) 0 4 < secF img rb 4 (n.rowFirst + k) 0 4))
  let stepOk (s : Nat) (n : Snode) (k : Nat) : Bool :=
    let f (off len : Nat) : Nat := secF img tb 16 (n.stepFirst + k) off len
    f 4 4 = s && within 1 4 (f 0 1) && decide (1 ≤ f 2 2) &&
      (if f 0 1 = 1 then decide (f 8 4 ≤ f 12 4 ∧ f 12 4 < n.cols) else if f 0 1 = 4 then f 8 4 = 0 && f 12 4 = 0 else decide (f 8 4 ≤ f 12 4 ∧ f 12 4 < n.rows))
  let snOk := sn.zipIdx.all fun p =>
    let n := p.1
    decide (1 ≤ n.cols ∧ n.first + n.cols ≤ nv ∧ n.rowFirst + n.rows ≤ fld img 32 4 ∧ n.stepFirst + n.stepCount ≤ fld img 36 4) && rowsOk n &&
      ((List.range n.cols).all fun k => secF img vb 8 (n.first + k) 0 4 = p.2) &&
      (n.parent = 0xFFFFFFFF || (decide (n.parent < nsn) && (sn[n.parent]?).any fun q => decide (n.stepFirst + n.stepCount ≤ q.stepFirst))) &&
      ((List.range n.stepCount).all fun k => stepOk p.2 n k)
  let stepsOk := (List.range (fld img 36 4)).all fun k =>
    match sn[secF img tb 16 k 4 4]? with
    | some n => decide (n.stepFirst ≤ k ∧ k < n.stepFirst + n.stepCount)
    | none => false
  varsOk && slotsOk && snOk && stepsOk && (sn.map fun n => n.cols * (n.cols + 1) / 2 + n.cols * n.rows).sum = fld img 28 4

/-- Whether no step has CYCLES above 7,200 (R248). -/
def schedCycles (img : List Byte) : Bool := (List.range (fld img 36 4)).all fun k => decide (secF img (fld img 56 4) 16 k 2 2 ≤ 7200)

/-- The fingerprint of an image (R246). -/
def fingerprint (img : List Byte) : Nat :=
  ((schedSections img).take 4).foldl (fun c a => crc64 c (slice img a.1 a.2)) 0

/-- The image checks of R248 in order: the row that fails and its outcome. -/
def schedCheck (img : List Byte) (bytes : Nat) : Option (Nat × Res) :=
  if !schedHead img bytes then some (3, Res.field 16)
  else if !schedCounts img then some (4, Res.bound 0x32)
  else if !(sectionsOk (schedSections img) bytes && schedStructure img) then some (5, Res.field 16)
  else if !schedCycles img then some (6, Res.bound 0x33)
  else if fingerprint img ≠ fld img 8 8 then some (7, Res.field 16)
  else none

/-- The schedule with a handle. -/
def State.sched (s : State) (h : Nat) : Option Sched := s.abacus.scheds.find? fun x => x.handle = h

/-- SCHEDULE_LOAD (R247, R248). -/
def execScheduleLoad (op : Nat) (s : State) : Result :=
  s.runOp op 0x29 fun o =>
    let img := s.readMem (o.u64 16) (o.u32 24)
    if !within 1 4095 o.handle then s.finish op (Res.field 12)
    else if (s.sched o.handle).any fun x => x.fn ≠ o.fn then s.finish op (Res.denied 3)
    else if (s.sched o.handle).isSome then s.finish op (Res.bound 0x30)
    else if 1024 ≤ s.abacus.scheds.length then s.finish op (Res.bound 0x34)
    else match schedCheck img (o.u32 24) with
      | some (row, r) => (s.log (dieUnit 0) 0x0020 4 o.fn o.handle row).finish op r
      | none =>
        if !s.poolFits o.cls (parcelsFor (o.u32 24)) then (s.spend 1).finish op s.poolShort
        else
        let x : Sched := { handle := o.handle, fn := o.fn, image := img, fingerprint := fld img 8 8, vars := fld img 16 4, slots := fld img 20 4,
                           supernodes := fld img 24 4, workBytes := fld img 64 8 }
        let s := s.syncPool
        { s with abacus := { s.abacus with scheds := s.abacus.scheds ++ [x] } }.finish op (Res.ok (o.u32 24) x.fingerprint)

/-- SCHEDULE_DROP (R249): SOLVE operations on the handle that have not started are cancelled; running ones keep their image. -/
def execScheduleDrop (op : Nat) (s : State) : Result :=
  s.runOp op 0x2A fun o =>
    match s.sched o.handle with
    | none => s.finish op (Res.field 12)
    | some x =>
      if x.fn ≠ o.fn then s.finish op (Res.denied 3)
      else
        let gone := s.ops.list.filter fun p => p.opcode = 0x28 && p.fn = o.fn && p.handle = o.handle && !p.began && p.phase != .final
        let s := { s with abacus := { s.abacus with scheds := s.abacus.scheds.filter fun y => y.handle ≠ o.handle } }
        (gone.foldl (fun s p => s.finish p.id (Res.cancelled 2)) s).finish op (Res.ok 0 gone.length)

/-! ## The problem -/

/-- A variable of a solve: its pose, FIXED, its keyframe and the version read, and whether its key was missing. -/
structure SolveVar where
  pose : Pose := {}
  fixed : Bool := false
  key : Nat := 0
  version : Nat := 0
  missing : Bool := false
  deriving DecidableEq, Repr

/-- The problem of a solve: variables, factor records per slot (KIND 0 for UNUSED), the slots whose factor runs from VAR_B to VAR_A, candidate slots,
missing keys. -/
structure Problem where
  vars : List SolveVar := []
  slots : List (List Byte) := []
  swapped : List Nat := []
  cands : List Nat := []
  missing : Nat := 0
  deriving DecidableEq, Repr

/-- Whether slot j of a schedule has one variable. -/
def Sched.single (x : Sched) (j : Nat) : Bool := secF x.image (fld x.image 44 4) 8 j 4 4 = 0xFFFFFFFF

/-- The variables of slot j. -/
def Sched.slotVars (x : Sched) (j : Nat) : Nat × Nat := (secF x.image (fld x.image 44 4) 8 j 0 4, secF x.image (fld x.image 44 4) 8 j 4 4)

/-- Where the diagonal of the information matrix stands among its 21 values. -/
def diagIdx : List Nat := [0, 6, 11, 15, 18, 20]

/-- Whether a factor record is good for its slot (R252). An UNUSED record is not looked at further (DEDUCED). -/
def factorOk (single : Bool) (b : List Byte) : Bool :=
  let k := fld b 0 1
  let info := wflds b 40 21
  if k = 0 then true
  else
    k = (if single then 2 else 1) && (single || (wflds b 4 3).all F32.finite) && F32.unitQuat (wflds b 24 4) && info.all F32.finite &&
      diagIdx.all fun i => decide (0 ≤ F32.units ((info[i]?).getD 0))

/-- A variable record (R251), its quaternion normalised as it is read (R252). -/
def varOf (b : List Byte) : SolveVar :=
  let p := poseOfBytes b
  { pose := { p with q := F32.normalise p.q }, fixed := bit (fld b 36 1) 0 }

/-- The HOST problem (R251, R252): none where a record is bad. The quaternion of a variable record is tested as a factor's (DEDUCED: every record is
checked). -/
def hostProblem (x : Sched) (b : List Byte) : Option Problem :=
  let slots := cut 128 x.slots (b.drop (40 * x.vars))
  if (slots.zipIdx.all fun p => factorOk (x.single p.2) p.1) && (cut 40 x.vars b).all fun r => F32.unitQuat (wflds r 20 4) then
    some { vars := (cut 40 x.vars b).map varOf, slots := slots,
           cands := (slots.zipIdx.filter fun p => fld p.1 0 1 ≠ 0 && bit (fld p.1 1 1) 0).map (·.2) }
  else none

/-- Bytes as numbers, for a free value that depends on them. -/
def asInts (b : List Byte) : List Int := b.map fun v => (v.toNat : Int)

/-- A PRIOR at the pose of a keyframe, as a factor record; its information is the device's own: a free function of the keyframe and the pose (R253). -/
def priorAt (key : Nat) (p : Pose) : List Byte :=
  let info (i : Nat) : Word := BitVec.ofNat 32 (Config.given 253 ((i : Int) :: (key : Int) :: asInts p.bytes))
  leBytes 2 1 ++ zeros 3 ++ p.bytes.take 18 ++ zeros 2 ++ wBytes p.q ++ wBytes ((List.range 21).map info) ++ zeros 4

/-- What a device knows of a keyframe for a solve: its record and its links (R253), quarantined ones left out. -/
structure Gathered where
  kfs : List Keyframe := []
  links : List Link := []
  deriving DecidableEq, Repr

/-- The keyframes of a list of keys that the device's own tiles hold in a view, and the links between them that no quarantine leaves out (R253, R206). -/
def State.gather (s : State) (v : MapView) (keys : List Nat) : Gathered :=
  let own := v.tiles.filter fun t => t.owner = s.self
  { kfs := own.flatMap fun t => t.keyframes.filter fun k => keys.contains k.key
    links := own.flatMap fun t => t.links.filter fun l => keys.contains l.keyA && keys.contains l.keyB && !t.quarantined l.keyA && !v.quar.contains l.keyB }

/-- What was gathered, on the fabric: counts, keyframe records, link records. -/
def Gathered.bytes (g : Gathered) : List Byte :=
  beBytes g.kfs.length 4 ++ beBytes g.links.length 4 ++ g.kfs.flatMap Keyframe.bytes ++ g.links.flatMap Link.bytes

/-- What was gathered, from bytes. -/
def gatheredOf (b : List Byte) : Gathered :=
  let n := bfld b 0 4
  { kfs := (cut 64 n (b.drop 8)).map keyframeOf, links := (cut 144 (bfld b 4 4) (b.drop (8 + 64 * n))).map linkOf }

/-- The keys of a binding table (R253). -/
def tableKeys (x : Sched) (b : List Byte) : List Nat := (cut 16 x.vars (b.drop 16)).map fun r => fld r 0 8

/-- The MAP problem of a binding table (R253): none where the table is malformed. -/
def mapProblem (x : Sched) (b : List Byte) (g : Gathered) : Option Problem :=
  let recs := cut 16 x.vars (b.drop 16)
  let nc := fld b 4 4
  let cands := cut 136 nc (b.drop (16 + 16 * x.vars))
  let quar (key : Nat) : Bool := g.kfs.any fun k => k.key = key && k.quarantined
  let vars := recs.map fun r =>
    match g.kfs.find? fun k => k.key = fld r 0 8 with
    | some k => ({ pose := k.pose, fixed := bit (fld r 8 1) 0, key := k.key, version := k.version } : SolveVar)
    | none => { fixed := true, key := fld r 0 8, missing := true }
  let var (i : Nat) : SolveVar := (vars[i]?).getD {}
  let linkFor (j : Nat) : Option Link :=
    let a := (var (x.slotVars j).1).key
    let c := (var (x.slotVars j).2).key
    g.links.find? fun l => (l.keyA = a && l.keyB = c) || (l.keyA = c && l.keyB = a)
  let back (j : Nat) : Bool :=
    !x.single j && !(cands.any fun c => fld c 0 4 = j) && (linkFor j).any fun l => l.keyA ≠ (var (x.slotVars j).1).key
  let fill (j : Nat) : List Byte :=
    let ab := x.slotVars j
    let a := var ab.1
    match cands.find? fun c => fld c 0 4 = j with
    | some c => if a.missing || (!x.single j && (var ab.2).missing) then zeros 128 else setCand (c.drop 8)
    | none =>
      if x.single j then (if a.fixed && !a.missing then priorAt a.key a.pose else zeros 128)
      else match linkFor j with
        | some l => if quar l.keyA || quar l.keyB then zeros 128 else l.factor
        | none => zeros 128
  let slots := (List.range x.slots).map fill
  let good := fld b 0 4 = x.vars && allZero (slice b 8 8) && (recs.all fun r => bits (fld r 8 1) 7 1 = 0 && allZero (slice r 9 7)) &&
    (cands.all fun c => decide (fld c 0 4 < x.slots) && allZero (slice c 4 4) && factorOk (x.single (fld c 0 4)) (c.drop 8))
  if good then
    some { vars := vars, slots := slots, swapped := (List.range x.slots).filter back, cands := ((cands.map fun c => fld c 0 4).filter fun j => fld ((slots[j]?).getD []) 0 1 ≠ 0).mergeSort,
           missing := (vars.filter (·.missing)).length }
  else none
where
  /-- A candidate record in its slot carries CANDIDATE (R252, R253). -/
  setCand (r : List Byte) : List Byte := r.take 1 ++ leBytes (setBit (fld r 1 1) 0 true) 1 ++ r.drop 2

/-! ## The iteration -/

/-- |w|. -/
def absW (w : Word) : Word := w &&& 0x7FFFFFFF

/-- The nearest integer to n / d with ties away from zero (R257). -/
def roundAway (n : Int) (d : Nat) : Int :=
  let m : Int := ((2 * n.natAbs + d) / (2 * d) : Nat)
  if n < 0 then -m else m

/-- A position moved by a step in metres (R257). -/
def movePos (x : Int) (w : Word) : Int := roundAway (x * 2 ^ 129 + F32.units w) (2 ^ 129)

/-- Whether a coordinate lies in the range of R11. -/
def inRange48 (x : Int) : Bool := decide (-(2 ^ 47 : Int) ≤ x ∧ x < 2 ^ 47)

/-- What the iteration carries: values, frozen supernodes, counts and marks. -/
structure Iter where
  poses : List Pose := []
  frozen : List Nat := []
  pivots : Nat := 0
  clamped : Bool := false
  converged : Bool := false
  maxPos : Word := 0
  maxRot : Word := 0
  deriving DecidableEq, Repr

/-- Bytes that what the solver reports of a solve depends on: values, slots, ε and λ (R255, R266). -/
def solveInput (pb : Problem) (poses : List Pose) (eps lam : Nat) : List Byte :=
  poses.flatMap Pose.bytes ++ pb.slots.flatten ++ pb.swapped.map (fun j => BitVec.ofNat 8 j) ++ leBytes eps 1 ++ leBytes lam 1

/-- The supernode of variable i. -/
def Sched.snodeOf (x : Sched) (i : Nat) : Nat := secF x.image (fld x.image 40 4) 8 i 0 4

/-- Whether a component of a variable is pinned: FIXED, frozen, or cleared in ACTIVE (R254). ACTIVE bit 0 is x (DEDUCED). -/
def pinnedAt (x : Sched) (pb : Problem) (frozen : List Nat) (i c : Nat) : Bool :=
  ((pb.vars[i]?).map (·.fixed)).getD true || frozen.contains (x.snodeOf i) || !bit (secF x.image (fld x.image 40 4) 8 i 4 1) c

/-- The linearised contributions of the slots in use, in slot order: the slot's variables, as the factor orders them, and its words (R254, R255). -/
def contributions (x : Sched) (pb : Problem) (poses : List Pose) : List (Nat × Option Nat × List Word) :=
  (pb.slots.zipIdx.filter fun b => fld b.1 0 1 ≠ 0).map fun b =>
    let ab := x.slotVars b.2
    let a := if pb.swapped.contains b.2 then ab.2 else ab.1
    let c := if pb.swapped.contains b.2 then ab.1 else ab.2
    let p := (poses[a]?).getD {}
    let rec_ := b.1.take 24 ++ wBytes (F32.normalise (wflds b.1 24 4)) ++ b.1.drop 40
    if x.single b.2 then
      let prior := poseOfBytes (slice b.1 4 18 ++ zeros 22)
      (a, none, Config.linearise rec_ (p.x - prior.x, p.y - prior.y, p.z - prior.z) p.q [])
    else
      let q := (poses[c]?).getD {}
      (a, some c, Config.linearise rec_ (q.x - p.x, q.y - p.y, q.z - p.z) p.q q.q)

/-- An entry of H or b from the words that its slots contribute, in slot order: nothing is added to a sole one. -/
def sumWords : List Word → Word
  | [] => 0
  | [w] => w
  | l => Config.compSum l

/-- A sum over the contributions to an entry, in slot order: the entry stands at offset i of the words where the variable is A, at j where it is B. -/
def assembled (l : List (Nat × Option Nat × List Word)) (v i j : Nat) : Word :=
  sumWords (l.flatMap fun t =>
    (if t.1 = v then [(t.2.2[i]?).getD 0] else []) ++ (if t.2.1 = some v then [(t.2.2[j]?).getD 0] else []))

/-- The assembled blocks that the factorisation starts from, by variable: 36 words of the diagonal block and 6 of b; then the AB blocks by slot
(R254). -/
def systemOf (n : Nat) (l : List (Nat × Option Nat × List Word)) : List Word :=
  ((List.range n).flatMap fun v =>
    ((List.range 36).map fun e => assembled l v e (72 + e)) ++
      (List.range 6).map fun e => sumWords (l.flatMap fun t =>
        (if t.1 = v then [(t.2.2[if t.2.1.isSome then 108 + e else 36 + e]?).getD 0] else []) ++ (if t.2.1 = some v then [(t.2.2[114 + e]?).getD 0] else []))) ++
    l.flatMap fun t => if t.2.1.isSome then (t.2.2.drop 36).take 36 else []

/-- The absolute diagonal entries of variable v's diagonal block. -/
def diagOf (h : List Word) (v : Nat) : List Word := (List.range 6).map fun c => absW ((h[42 * v + 7 * c]?).getD 0)

/-- M, the largest absolute diagonal entry of the assembled H (R259). -/
def largestDiag (h : List Word) (n : Nat) : Word := maxWord ((List.range n).flatMap (diagOf h))

/-- The block scale of variable v's diagonal block (R259). -/
def blockScale (h : List Word) (n v : Nat) : Word :=
  let m := maxWord (diagOf h v)
  if F32.isZero m then largestDiag h n else m

/-- A pivot as R259 handles it, and whether it was regularised: ε is 2^−eps, λ is 2^−lam × the block scale. -/
def regularise (eps lam : Nat) (m scale d : Word) : Word × Bool :=
  let lambda := F32.mul (BitVec.ofNat 32 ((127 - lam) * 2 ^ 23)) scale
  if (F32.units d).natAbs * 2 ^ eps ≤ (F32.units m).natAbs then (F32.add d lambda, true)
  else if F32.units d < 0 then (lambda, true)
  else (d, false)

/-- The pivots in elimination order, the supernode of each one regularised, and the supernodes whose pivot is not finite (R254, R259, R260). A pinned
component keeps the block scale and is not counted. -/
def pivotRun (x : Sched) (h : List Word) (n eps lam : Nat) (pin : List Bool) :
    List Nat → List Word × List Nat × List Nat → List Word × List Nat × List Nat
  | [], a => a
  | i :: t, a =>
    let scale := blockScale h n (i / 6)
    if (pin[i]?).getD true then pivotRun x h n eps lam pin t (a.1 ++ [scale], a.2.1, a.2.2)
    else
      let d := Config.rawPivot x.image h pin a.1
      let r := regularise eps lam (largestDiag h n) scale d
      if !F32.finite d || !F32.finite r.1 then pivotRun x h n eps lam pin t (a.1 ++ [scale], a.2.1, a.2.2 ++ [x.snodeOf (i / 6)])
      else pivotRun x h n eps lam pin t (a.1 ++ [r.1], if r.2 then a.2.1 ++ [x.snodeOf (i / 6)] else a.2.1, a.2.2)

/-- The largest of the magnitudes of the position components of the steps (R256). -/
def largestPos (steps : List (List Word)) : Word := maxWord (steps.flatMap fun w => (w.take 3).map absW)

/-- The largest rotation step: the length of the small rotation, in rad (R256; DEDUCED that it is the length). -/
def largestRot (steps : List (List Word)) : Word := maxWord (steps.map fun w => F32.sqrtOfSq (F32.sumSq ((w.drop 3).take 3)).toNat)

/-- The factor of R256, none where no step passes its limit: 4 m and 0.5 rad. -/
def clampFactor (p r : Word) : Option Word :=
  let a := if F32.lt 0x40800000 p then some (F32.div 0x40800000 p) else none
  let b := if F32.lt 0x3F000000 r then some (F32.div 0x3F000000 r) else none
  match a, b with
  | some u, some v => some (if F32.lt u v then u else v)
  | some u, none => some u
  | none, v => v

/-- The entry of H at row 6 × u + e and column 6 × v + c: of u's diagonal block, or of the blocks that slots give the two variables (R254). -/
def entryOfH (h : List Word) (l : List (Nat × Option Nat × List Word)) (u e v c : Nat) : Word :=
  if u = v then (h[42 * u + 6 * e + c]?).getD 0
  else sumWords (l.flatMap fun t =>
    if t.1 = u ∧ t.2.1 = some v then [(t.2.2[36 + 6 * e + c]?).getD 0] else if t.1 = v ∧ t.2.1 = some u then [(t.2.2[36 + 6 * c + e]?).getD 0] else [])

/-- The exact solution of the assembled system for the components that are not pinned (R258). -/
def exactStep (h : List Word) (l : List (Nat × Option Nat × List Word)) (act : List Nat) : Option (List Rat) :=
  solveRows act.length (act.map fun i =>
    (act.map fun j => ratOf (entryOfH h l (i / 6) (i % 6) (j / 6) (j % 6))) ++ [ratOf ((h[42 * (i / 6) + 36 + i % 6]?).getD 0)])

/-- How far component c of a step may stand from the exact one, where p and r are the largest exact position and rotation components: what the clamp and
the re-anchoring add keeps the sum within R258 (DEDUCED, log entry 102). -/
def stepTolerance (p r : Rat) (c : Nat) : Rat :=
  if c < 3 then mkRat 1 (2 ^ 20) * (if 4 < p then p / 4 else 1) else mkRat 1 (2 ^ 24) * (if 1 < 2 * r then 2 * r else 1)

/-- The steps, each free within its tolerance of the exact one where R258 bounds it: a component that is not pinned, of a supernode that regularised no
pivot, of a system that has one solution. -/
def boundedSteps (x : Sched) (h : List Word) (l : List (Nat × Option Nat × List Word)) (pin : List Bool) (regular : List Nat) (steps : List (List Word)) :
    List (List Word) :=
  let act := (List.range pin.length).filter fun i => !(pin[i]?).getD true
  match exactStep h l act with
  | none => steps
  | some sol =>
    let exact := act.zip sol
    let largest (rot : Bool) : Rat := (exact.filter fun e => decide (3 ≤ e.1 % 6) = rot).foldl (fun m e => if m < ratAbs e.2 then ratAbs e.2 else m) 0
    let tol := stepTolerance (largest false) (largest true)
    let bounded (v c : Nat) (w : Word) : Word :=
      match exact.lookup (6 * v + c) with
      | none => w
      | some d => if regular.contains (x.snodeOf v) then w else heldWithin (tol c) d w
    steps.zipIdx.map fun s => s.1.zipIdx.map fun w => bounded s.2 w.2 w.1

/-- An orientation after a rotation step, which R258 bounds: a free quaternion within 0.25 µrad of the exact product, else the exact one rounded
(R257). -/
def rotated (q w : List Word) : List Word :=
  let exact := quatMul (q.map ratOf) (rotationQuat (w.map ratOf))
  let free := (Config.rotate q w ++ [0, 0, 0, 0]).take 4
  if F32.unitQuat free && quatNear (free.map ratOf) exact then free else F32.normalise (exact.map F32.ofRat)

/-- A pose after a step (R257). -/
def Pose.step (p : Pose) (w : List Word) : Pose :=
  let g (i : Nat) : Word := (w[i]?).getD 0
  { x := movePos p.x (g 0), y := movePos p.y (g 1), z := movePos p.z (g 2),
    q := if (w.drop 3).all F32.isZero then p.q else rotated p.q (w.drop 3) }

/-- What one run of an iteration gives: values, largest steps, whether it clamped, pivots regularised, and the supernodes that fail. -/
structure RunRes where
  poses : List Pose := []
  maxPos : Word := 0
  maxRot : Word := 0
  clamped : Bool := false
  pivots : Nat := 0
  failed : List Nat := []
  deriving DecidableEq, Repr

/-- One run of an iteration (R254 to R260): linearise, assemble, factor with small pivots regularised, solve and refine within R258, clamp, re-anchor. A supernode
fails by an element of its own, by the contribution of a slot whose VAR_A it holds, or by leaving the range of R11. With M = 0 no variable moves. -/
def runOnce (x : Sched) (pb : Problem) (eps lam : Nat) (it : Iter) : RunRes :=
  let n := pb.vars.length
  let l := contributions x pb it.poses
  let h := systemOf n l
  let pin := (List.range (6 * n)).map fun i => pinnedAt x pb it.frozen (i / 6) (i % 6)
  if F32.isZero (largestDiag h n) ∧ h.all F32.finite then { poses := it.poses }
  else
    let pv := pivotRun x h n eps lam pin (List.range (6 * n)) ([], [], [])
    let raw := Config.solveStep x.image h pin pv.1
    let steps := boundedSteps x h l pin pv.2.1
      ((List.range n).map fun v => (List.range 6).map fun c => if (pin[6 * v + c]?).getD true then 0 else (((raw[v]?).getD [])[c]?).getD 0)
    let f := clampFactor (largestPos steps) (largestRot steps)
    let steps' := match f with
      | some f => steps.map fun s => s.map fun c => F32.mul c f
      | none => steps
    let poses := List.zipWith Pose.step it.poses steps'
    let out := (poses.zipIdx.filter fun q => !(inRange48 q.1.x && inRange48 q.1.y && inRange48 q.1.z)).map fun q => x.snodeOf q.2
    let bad := ((steps'.zipIdx.filter fun q => !(q.1.all F32.finite)).map fun q => x.snodeOf q.2)
    let lin := (l.filter fun t => !(t.2.2.all F32.finite)).map fun t => x.snodeOf t.1
    let els := (List.range x.supernodes).filter fun k => !((Config.solveElements x.image h pin pv.1 k).all F32.finite)
    { poses := poses, maxPos := largestPos steps', maxRot := largestRot steps', clamped := f.isSome, pivots := pv.2.1.length,
      failed := (pv.2.2 ++ out ++ bad ++ lin ++ els).eraseDups.filter fun k => !it.frozen.contains k }

/-- The runs of one iteration: failed supernodes are frozen and the iteration runs again, at most five times; then all are frozen, and no variable
moves (R254, R260). -/
def runs (x : Sched) (pb : Problem) (eps lam : Nat) : Nat → Iter → Iter
  | 0, it => { it with frozen := List.range x.supernodes, converged := true, maxPos := 0, maxRot := 0 }
  | n + 1, it =>
    let r := runOnce x pb eps lam it
    if r.failed.isEmpty then
      let small := F32.lt r.maxPos 0x35800000 && F32.lt r.maxRot 0x35800000 && !r.clamped
      { it with poses := r.poses, maxPos := r.maxPos, maxRot := r.maxRot, clamped := it.clamped || r.clamped, converged := small, pivots := it.pivots + r.pivots }
    else runs x pb eps lam n { it with frozen := it.frozen ++ r.failed, pivots := it.pivots + r.pivots }

/-- The iterations, ending early on convergence (R254): how many ran, and what they leave. -/
def iterate (x : Sched) (pb : Problem) (eps lam : Nat) : Nat → Nat × Iter → Nat × Iter
  | 0, r => r
  | n + 1, r =>
    let it := runs x pb eps lam 5 { r.2 with converged := false }
    if it.converged then (r.1 + 1, it) else iterate x pb eps lam n (r.1 + 1, it)

/-! ## SOLVE -/

/-- The fields of SOLVE out of range (R250). -/
def solveFields (o : Op) : Option Res :=
  let fl := o.u8 18
  firstRes [need (o.u8 16 ≤ 1) 16, need (o.u8 17 ≤ 8) 17, if bits fl 7 4 = 0 then none else some (Res.bad 2 18), need (o.u8 16 = 1 || !bit fl 3) 18,
    need (zeroOr 8 40 (o.u8 20)) 20, need (zeroOr 4 30 (o.u8 21)) 21, need (bits fl 1 0 ≠ 0 || o.u64 40 = 0) 40, need (isDev (o.u64 48)) 48,
    need (o.u8 16 = 1 || o.u64 56 = 0) 56]

/-- ε and λ shifts of a solve, 0 taking the register's value at fetch (R250, R270). -/
def Op.shifts (o : Op) : Nat × Nat :=
  (if o.u8 20 = 0 then clampN 8 40 (o.snapF 3 5 0) else o.u8 20, if o.u8 21 = 0 then clampN 4 30 (o.snapF 3 13 8) else o.u8 21)

/-- ACCEPT_GATE taken at fetch (R262, R270). -/
def Op.acceptGate (o : Op) : Word := clampF 0x3F800000 0x447A0000 0x4149999A (BitVec.ofNat 32 (o.snapF 4 31 0))

/-- The solve of an operation. -/
def State.solveOf (s : State) (op : Nat) : Option SolveSt := s.abacus.running.find? fun r => r.op = op

/-- Whether an earlier SOLVE in flight has a workspace that overlaps (R265). -/
def State.workspaceBusy (s : State) (o : Op) : Bool :=
  let len (p : Op) : Nat := ((s.sched p.handle).map (·.workBytes)).getD 0
  s.ops.list.any fun p => p.opcode = 0x28 && decide (p.id < o.id) && p.phase != .final &&
    decide (p.u64 48 < o.u64 48 + len o ∧ o.u64 48 < p.u64 48 + len p)

/-- Whether a SOLVE takes the grant of the abacus cores' dispatcher (R53, R81, R268): no SOLVE of a lower class number could start, and no calibration
solve of the device, which is class 2, waits before a lower class. -/
def State.solveFirst (s : State) (o : Op) : Bool :=
  (s.classFirst o fun p => p.opcode = 0x28 && !(s.solveOf p.id).isSome && !s.workspaceBusy p) &&
    (decide (o.cls ≤ 2) || !(s.sess.list.any fun x => x.calibQueued))

/-- An in-service cluster, awake, whose abacus core runs no solve. -/
def State.freeAbacus (s : State) : Option Nat :=
  ((s.place.clusters.filter fun c => c.role = .inService && s.domOn (15 + c.idx)).map (·.idx)).find? fun i => !(s.abacus.running.any fun r => r.cluster = i)

/-- The warm block read before anything else: whether it matches, whether it is invalid, and its records (R261). -/
def readWarm (s : State) (o : Op) (x : Sched) : Bool × Bool × List (List Byte) :=
  if !bit (o.u8 18) 0 then (false, false, [])
  else
    let h := s.readMem (o.u64 40) 64
    let recs := cut 40 x.vars (s.readMem (o.u64 40 + 64) (40 * x.vars))
    let valid := recs.all fun r => F32.unitQuat (wflds r 20 4)
    let matches_ := fld h 0 8 = x.fingerprint && fld h 8 4 = x.vars
    (matches_ && valid, matches_ && !valid, recs)

/-- A solve starts: on a free abacus core, with its warm block read and, for MAP over several members, its owners asked. -/
def State.startSolve (s : State) (o : Op) (x : Sched) (c : Nat) : State :=
  let w := readWarm s o x
  let far := o.u8 16 = 1 && !s.others.isEmpty
  let st : SolveSt := { op := o.id, sched := x, cluster := c, stage := if far then .gather else .run, warm := w.1, warmBad := bit (o.u8 18) 0 && !w.1, warmVals := w.2.2 }
  let s := if w.2.1 then s.bump Ctr.warmInvalid else s
  let s := { s with abacus := { s.abacus with running := s.abacus.running ++ [st] } }.dispatch o c
  if far then
    let table := s.readMem (o.u64 24) (16 + 16 * x.vars)
    (s.others.foldl (fun s p => s.sendRequest o.id p o.cls o.desc ([0] ++ leBytes (o.epoch 56) 8 ++ leBytes x.vars 4 ++ table)) s).await o.id
  else s.begin o.id

/-- Write the state of a solve. -/
def State.putSolve (s : State) (st : SolveSt) : State :=
  let upd (y : SolveSt) : SolveSt := if y.op = st.op then st else y
  { s with abacus := { s.abacus with running := s.abacus.running.map upd } }

/-- A solve ends. -/
def State.endSolve (s : State) (op : Nat) : State :=
  { s with abacus := { s.abacus with running := s.abacus.running.filter fun r => r.op ≠ op } }

/-- The result buffer of a solve up to its supernode indices (R266). The costs and the refinement ratio, whose FP32 order is not given, are free
functions of the problem and the values. -/
def solveHead (o : Op) (x : Sched) (pb : Problem) (n : Nat) (it : Iter) (flags epoch commit : Nat) : List Byte :=
  let cost (i : Nat) : Nat := Config.given 266 ((i : Int) :: asInts (x.image ++ solveInput pb (if i = 0 then pb.vars.map (·.pose) else it.poses) (o.shifts).1 (o.shifts).2)) % 2 ^ 32
  leBytes epoch 8 ++ leBytes n 4 ++ leBytes x.vars 4 ++ leBytes it.pivots 4 ++ leBytes it.frozen.length 4 ++ leBytes (cost 0) 4 ++ leBytes (cost 1) 4 ++
    leBytes (cost 2) 4 ++ leBytes it.maxPos.toNat 4 ++ leBytes it.maxRot.toNat 4 ++ leBytes (if bit (o.u8 18) 2 then pb.cands.length else 0) 4 ++ leBytes flags 1 ++ zeros 3 ++
    leBytes pb.missing 4 ++ leBytes commit 8

/-- The variable records a solve writes (R251, R266). -/
def solveVars (x : Sched) (pb : Problem) (it : Iter) : List Byte :=
  (List.zip pb.vars it.poses).zipIdx.flatMap fun v =>
    v.1.2.bytes ++ leBytes (b2n v.1.1.fixed + 2 * b2n (it.frozen.contains (x.snodeOf v.2))) 1 ++ zeros 3

/-- The detail word of a SOLVE that runs to the end (R267). -/
def solveDetail (it : Iter) (cold rejected committed : Bool) : Nat :=
  min it.pivots (2 ^ 24 - 1) + it.frozen.length % 2 ^ 24 * 2 ^ 24 + b2n cold * 2 ^ 48 + b2n it.clamped * 2 ^ 49 + b2n it.converged * 2 ^ 50 +
    b2n rejected * 2 ^ 51 + b2n committed * 2 ^ 52

/-- The write of a solve's result, its warm block and its outcome (R261, R266, R267). -/
def State.solveDone (s : State) (o : Op) (st : SolveSt) (refused : Bool) (epoch : Nat) : State :=
  let x := st.sched
  let committed := decide (epoch ≠ 0) && !refused
  let flags := setBit (fld st.res 48 1) 4 committed
  let head := st.res.take 48 ++ leBytes flags 1 ++ slice st.res 49 7 ++ leBytes (if committed then epoch else 0) 8 ++ slice st.res 64 (40 * x.vars)
  let cand := st.res.drop (64 + 40 * x.vars)
  let s := s.writeMem (o.u64 32) (head ++ st.frozen.flatMap fun n => leBytes n 4)
  let s := s.writeMem (o.u64 32 + 64 + 40 * x.vars + 4 * x.supernodes) cand
  let warm := leBytes x.fingerprint 8 ++ leBytes x.vars 4 ++ zeros 4 ++ leBytes (fld st.res 0 8) 8 ++ zeros 40 ++ slice st.res 64 (40 * x.vars)
  let s := if bit (o.u8 18) 1 then s.writeMem (o.u64 40) warm else s
  let count := 64 + 40 * x.vars + 4 * x.supernodes + cand.length
  let s := s.endSolve o.id
  if refused then (s.bump Ctr.solveConflict).complete o.id { status := St.boundReached, count := count, detail := 0x31 }
  else s.complete o.id { status := st.status, count := count, detail := st.detail + (if committed then 2 ^ 52 else 0) }

/-- The solve runs to its end on its inputs (R254 to R262), and commits or goes to its owners (R263, R264). -/
def State.runSolve (s : State) (o : Op) (st : SolveSt) (pb : Problem) (epoch : Nat) : State :=
  let x := st.sched
  let es := o.shifts
  let vars := if st.warm then List.zipWith (fun (v : SolveVar) (r : List Byte) => if v.fixed then v else { v with pose := (varOf r).pose }) pb.vars st.warmVals else pb.vars
  let start := pb.vars
  let pb := { pb with vars := vars }
  let r := iterate x pb es.1 es.2 (if o.u8 17 = 0 then 1 else o.u8 17) (0, { poses := vars.map (·.pose) })
  let it := { r.2 with frozen := r.2.frozen.mergeSort }
  let chi := pb.cands.map fun j => (j, Config.chiSquare x.image (solveInput pb it.poses es.1 es.2) j)
  let rejected := bit (o.u8 18) 2 && chi.any fun c => !F32.le c.2 o.acceptGate || !F32.finite c.2
  let flags := b2n st.warmBad + 2 * b2n it.clamped + 4 * b2n it.converged + 8 * b2n rejected + 32 * b2n (decide (0 < pb.missing))
  let candBytes := pb.cands.flatMap fun j => leBytes j 4 ++ leBytes (((chi.find? fun c => c.1 = j).map fun c => c.2.toNat).getD 0) 4
  let res := solveHead o x pb r.1 it flags (if o.u8 16 = 1 then epoch else 0) 0 ++ solveVars x pb it ++ candBytes
  let status := if !it.frozen.isEmpty then St.unsolvedPartial else if 0 < it.pivots then St.okRegularised else if st.warmBad then St.okColdStart else St.ok
  let moved := (List.zip pb.vars it.poses).zipIdx.filter fun v => !v.1.1.fixed && !it.frozen.contains (x.snodeOf v.2)
  let link (j : Nat) : Link :=
    let ab := x.slotVars j
    let f := (pb.slots[j]?).getD []
    { keyA := ((pb.vars[ab.1]?).map (·.key)).getD 0, keyB := ((pb.vars[ab.2]?).map (·.key)).getD 0, factor := f.take 1 ++ zeros 1 ++ f.drop 2 }
  let st := { st with
    res := res, frozen := it.frozen, status := status, detail := solveDetail it st.warmBad rejected false,
    moves := moved.map fun v => { key := v.1.1.key, version := v.1.1.version, old := ((start[v.2]?).map (·.pose)).getD {}, new := v.1.2 }, links := (pb.cands.filter fun j => !x.single j && bit (o.u8 18) 2).map link, epoch := epoch }
  let s := s.bumpBy Ctr.pivotRegularised 0 it.pivots
  let s := s.bumpBy Ctr.supernodeFrozen 0 it.frozen.length
  if o.u8 16 = 0 ∨ bit (o.u8 18) 3 ∨ rejected then s.solveDone o st false 0
  else if !s.canCommit then s
  else if s.others.isEmpty then
    if s.commitFits st.moves then
      let e := s.nextEpoch
      let r := ((s.commit o.id).recordMoves s.map.base st.moves st.links).correct st.moves e
      let needs := r.ackNeeds s
      if needs.isEmpty then r.solveDone o st false e
      else ((r.putSolve { st with stage := .record, epoch := e }).awaitAcks { op := some o.id, needs := needs }).await o.id
    else s.solveDone o st true 0
  else
    let data := commitBytes st.moves st.links
    if s.commitFits st.moves then ((s.putSolve { st with stage := .check }).proposeChange o.id o.cls o.desc data).await o.id
    else s.solveDone o st true 0

/-- A started solve runs: its problem is read, from the map with what the other owners gave (R251 to R253). -/
def State.stepSolve (s : State) (o : Op) (st : SolveSt) : State :=
  let x := st.sched
  if o.u8 16 = 0 then
    match hostProblem x (s.readMem (o.u64 24) (40 * x.vars + 128 * x.slots)) with
    | none => (s.endSolve o.id).complete o.id (Res.field 24)
    | some pb => s.runSolve o st pb 0
  else
    match s.viewFor o 56 with
    | .error r => (s.endSolve o.id).complete o.id r
    | .ok v =>
      let h := s.readMem (o.u64 24) 16
      let b := s.readMem (o.u64 24) (16 + 16 * x.vars + 136 * fld h 4 4)
      let mine := s.gather v (tableKeys x b)
      let all := st.got.foldl (fun (g : Gathered) d => let e := gatheredOf d; { kfs := g.kfs ++ e.kfs, links := g.links ++ e.links }) mine
      match mapProblem x b all with
      | none => (s.endSolve o.id).complete o.id (Res.field 24)
      | some pb => s.runSolve o st pb (o.epoch 56)

/-- SOLVE (R243, R250 to R267): the first command starts it on a free abacus core, once no earlier solve in flight overlaps its
workspace; the same command again runs it to its end. -/
def execSolve (op : Nat) (s : State) : Result :=
  s.runOp op 0x28 fun o =>
    match s.solveOf op with
    | some st => if st.stage = .run then s.stepSolve o st else s
    | none =>
      match s.sched o.handle with
      | none => s.finish op (Res.field 12)
      | some x =>
        if x.fn ≠ o.fn then s.finish op (Res.denied 3)
        else match solveFields o with
          | some r => s.finish op r
          | none =>
            if !s.reach o.fn (o.u64 48) 1 then s.finish op (Res.denied 4)
            else if !s.reach o.fn (o.u64 48) x.workBytes then s.finish op (Res.bound 0x35)
            else if s.workspaceBusy o || !s.solveFirst o then s
            else match s.freeAbacus with
              | none => s
              | some c => s.startSolve o x c

/-- What another member gives for a MAP solve: its keyframes and links at the epoch of the solve, which it waits for (R253, R101). -/
def State.serveGather (s : State) (peer xid : Nat) (o : Op) (data : List Byte) : State :=
  let e := fld data 1 8
  if s.map.published < e then
    { s with sound := { s.sound with later := s.sound.later ++ [{ xid := xid, peer := peer, desc := o.desc, segs := [(0, data)] }] } }
  else match s.map.at e with
    | none => s.sendResponse peer o.cls xid { status := St.epochGone, detail := s.map.oldest } []
    | some v =>
      s.sendResponse peer o.cls xid (Res.ok 0 0) (s.gather v ((cut 16 (fld data 9 4) (data.drop 29)).map fun r => fld r 0 8)).bytes

/-- Reads of other members that waited for an epoch which is now published (R101). -/
def State.serveLater (s : State) : State :=
  let l := s.sound.later
  let q := s.sound.laterQueries
  let s := q.foldl State.serveQuery { s with sound := { s.sound with laterQueries := [] } }
  l.foldl (fun (s : State) (r : RemoteSt) =>
    let o : Op := { desc := r.desc }
    if o.opcode = 0x28 then s.serveGather r.peer r.xid o r.data else s.serveRead r.peer r.xid o r.data) { s with sound := { s.sound with later := [] } }

/-- The owners of a MAP solve have all answered (R253, R263, R264). -/
def State.solveAnswered (s : State) (o : Op) : State :=
  match s.solveOf o.id with
  | none => s
  | some st =>
    if st.stage = .record ∧ (s.fabric.ackWaits.any fun w => w.op = some o.id) then s
    else
    let answers := s.requestsOf o.id
    let s := s.dropRequests o.id
    match st.stage with
    | .gather =>
      match answers.find? fun r => r.status ≠ St.ok with
      | some r => (s.endSolve o.id).complete o.id { status := r.status, detail := r.detail }
      | none =>
        (s.putSolve { st with stage := .run, got := answers.map RemoteSt.data }).updOp o.id fun p => { p with phase := .started }
    | .check =>
      if answers.any fun r => r.status ≠ St.ok then (s.withdrawChange o.id).solveDone o st true 0
      else
        let r := (s.commit o.id).decideChange o.id o.cls o.desc (commitBytes st.moves st.links) answers
        let needs := r.1.ackNeeds s
        let t := r.1.putSolve { st with stage := .record, epoch := r.2 }
        if needs.isEmpty then t else t.awaitAcks { op := some o.id, needs := needs }
    | .record => s.solveDone o st false st.epoch
    | .run => s

/-! ## Calibration solves -/

/-- CALIB_SOLVE_QUEUE (R207): the period has been counted, and a class 2 calibration solve is queued. A STATION counts the time it was OPEN. -/
def execCalibSolveQueue (sid : Nat) (s : State) : Result :=
  match s.session sid with
  | none => .next s
  | some x =>
    let per := x.cfg.fusion.calibPeriod * 1000000000
    if !s.running || !x.cfg.fusion.calibEnable || x.calibQueued || x.state != .opened || x.cfg.track.calib.isEmpty then .next s
    else if x.kind = .station then
      .next ((s.toDev (x.openedAt + x.silentSpent + x.calibDue + per)).updSession sid fun x => { x with calibQueued := true, calibDue := x.calibDue + per })
    else if per ≤ x.calibDue then .next (s.updSession sid fun x => { x with calibQueued := true, calibDue := x.calibDue - per })
    else .next s

/-- The last 64 keyframes of a session in the map at the latest published epoch, the latest capture last (R207). -/
def State.calibFrames (s : State) (sid : Nat) : List Keyframe :=
  let all := (s.map.latest.tiles.flatMap fun t => t.keyframes.filter fun k => k.key / 2 ^ 32 = sid && !k.quarantined).mergeSort fun a b => decide (a.capture ≤ b.capture)
  all.drop (all.length - 64)

/-- Whether two translations in FP32 metres differ by at most 0.02 m (R207). -/
def withinTwoCm (p q : List Word) : Bool :=
  let d := (List.zipWith (fun a b => F32.units a - F32.units b) p q).foldl (fun t v => t + v * v) 0
  p.all F32.finite && q.all F32.finite && decide (2500 * d ≤ (F32.units 0x3F800000) * (F32.units 0x3F800000))

/-- Whether two positions differ by at most 0.02 m (R207). -/
def nearPos (p : Pose) (q : Int × Int × Int) : Bool :=
  let d := (p.x - q.1) * (p.x - q.1) + (p.y - q.2.1) * (p.y - q.2.1) + (p.z - q.2.2) * (p.z - q.2.2)
  decide (2500 * d ≤ 2 ^ 40)

/-- What a calibration solve estimates, from its words: transforms at byte 76 of the block, then wheel scales, steering offset or the fixed pose's
quaternion (R155, R207). -/
structure CalibResult where
  calib : List Word
  scales : List Word
  steer : Word
  quat : List Word
  pos : Int × Int × Int

/-- The result of a calibration solve for a session (R207). -/
def calibResult (x : Session) (w : List Word) (pos : Int × Int × Int) : CalibResult :=
  let at_ (i n : Nat) : List Word := (List.range n).map fun k => (w[i + k]?).getD 0
  let right := at_ 0 3 ++ unitOf (at_ 3 4)
  { calib := if x.kind = .station then right else right ++ at_ 7 3 ++ unitOf (at_ 10 4), scales := at_ 14 2, steer := (w[16]?).getD 0, quat := unitOf (at_ 7 4),
    pos := pos48 pos }

/-- Whether a calibration solve's result is accepted (R207): its status, no rotation of more than 1°, no translation of more than 0.02 m. -/
def calibAccepted (x : Session) (status : Nat) (r : CalibResult) : Bool :=
  let old := wflds x.cfg.track.calib 76 14
  let part (l : List Word) (i n : Nat) : List Word := (l.drop i).take n
  let same (i : Nat) : Bool := withinTwoCm (part old i 3) (part r.calib i 3) && withinDegree (part old (i + 3) 4) (part r.calib (i + 3) 4)
  (status = St.ok || status = St.okRegularised) && same 0 &&
    (if x.kind = .station then withinDegree x.stationPose.q r.quat && nearPos x.stationPose r.pos else same 7)

/-- A session with the accepted result of a calibration solve (R155, R207). -/
def Session.recalibrated (x : Session) (r : CalibResult) : Session :=
  let x := x.recalibrate (wordsAt 76 r.calib)
  if x.kind = .station then { x with pendingPose := some { x := r.pos.1, y := r.pos.2.1, z := r.pos.2.2, q := r.quat } }
  else if x.kind = .vehicle then { x with fusion := { x.fusion with wheelScale := r.scales, steerOffset := r.steer } }
  else x

/-- Whether a solve of the device's own, which is class 2, may start (R268): an abacus core is free, and no SOLVE of class 0 or 1 waits for one. -/
def State.ownSolveMay (s : State) : Bool :=
  s.freeAbacus.isSome &&
    !(s.ops.list.any fun p => p.opcode = 0x28 && p.phase = .started && !p.began && decide (p.cls < 2) && !s.workspaceBusy p)

/-- CALIB_SOLVE_RESULT (R207, R268): a queued calibration solve, class 2, has a free abacus core and runs over the session's last 64 keyframes. -/
def execCalibSolveResult (sid : Nat) (s : State) : Result :=
  match s.session sid with
  | none => .next s
  | some x =>
    if !s.running || !x.calibQueued || !s.ownSolveMay then .next s
    else
      let w := Config.calibSolve x (s.calibFrames sid)
      let r := calibResult x w.2.1 w.2.2
      let s := s.updSession sid fun x => { x with calibQueued := false }
      if calibAccepted x w.1 r then
        .next ((s.updSession sid fun x => x.recalibrated r).event sid 0x24 (2 + 256 * ((x.cfg.track.calibVersion + 1) % 65536)))
      else .next ((s.bump Ctr.calibSolveReject).event sid 0x25 2)

/-! ## Loop closure -/

/-- The descriptor of a change that the device makes by itself, class 2 (R268). DESIGN CHOICE, log entry 151. -/
def ownSolve : List Byte := [0x28] ++ zeros 1 ++ leBytes 2 1 ++ zeros 61

/-- Numbers of the changes of the device's own: apart from those of operations. -/
def State.ownChange (s : State) : Nat := 2 ^ 62 + s.sound.nextXid

/-- Every member asked has answered a change of the device's own (R263, R264, R268). -/
def State.ownAnswered (s : State) (id : Nat) : State :=
  match s.heldOf s.self id with
  | none => s.dropRequests id
  | some h =>
    let answers := s.requestsOf id
    let t := s.dropRequests id
    if h.epoch.isSome then t
    else if answers.any fun r => r.status ≠ St.ok then (t.withdrawChange id).bump Ctr.solveConflict
    else (t.decideChange id 2 h.desc h.data answers).1

/-- The factor record of a loop closure's link: a BETWEEN factor whose values are free functions of the two keyframes (R252, R268). -/
def closureFactor (ka kb : Keyframe) : List Byte :=
  let w (i : Nat) : Word := BitVec.ofNat 32 (Config.given 268 ((i : Int) :: asInts (ka.bytes ++ kb.bytes)))
  leBytes 1 1 ++ zeros 3 ++ wBytes ((List.range 3).map w) ++ zeros 8 ++ wBytes (unitOf ((List.range 4).map fun i => w (3 + i))) ++
    wBytes ((List.range 21).map fun i => w (7 + i)) ++ zeros 4

/-- LOOP_CLOSURE (R206, R268): the candidate, two keyframes that are not quarantined, runs as an acceptance-test solve once an abacus core is free; it commits when its χ², a free
function of the two, is within ACCEPT_GATE, and is counted otherwise. The window of the map that moves is the later keyframe (DESIGN CHOICE, log entry
152). -/
def execLoopClosure (sid keyA keyB : Nat) (s : State) : Result :=
  let v := s.map.latest
  let find (k : Nat) : Option Keyframe := (v.keyframe k).filter fun x => !x.quarantined && !v.quar.contains k
  match s.session sid, find keyA, find keyB with
  | some _, some ka, some kb =>
    if !s.running || !s.canCommit || (v.index 1).isNone || !s.ownSolveMay then .next s
    else
      let chi := Config.chiSquare [] (ka.bytes ++ kb.bytes) 0
      let gate := clampF 0x3F800000 0x447A0000 0x4149999A (BitVec.ofNat 32 (s.reg 0xD004 0))
      let c := Config.corrected kb.pose [(ka.pose, kb.pose)]
      let p := pos48 c.1
      let moves : List PoseMove := [{ key := keyB, version := kb.version, old := kb.pose, new := { x := p.1, y := p.2.1, z := p.2.2, q := unitOf c.2 } }]
      let links : List Link := [{ keyA := keyA, keyB := keyB, factor := closureFactor ka kb }]
      if !F32.finite chi || !F32.le chi gate then .next (s.bump Ctr.loopReject)
      else if !s.commitFits moves then .next (s.bump Ctr.solveConflict)
      else if s.others.isEmpty then .next ((s.recordMoves s.map.base moves links).correct moves s.nextEpoch)
      else .next (s.proposeChange s.ownChange 2 ownSolve (commitBytes moves links))
  | _, _, _ => .next s

end Sys2Proof.Machine
end

