-- ==== Sys2Proof/Machine/MatrixBase.lean ====
section
/-! DEFINITION. The arithmetic of the matrix engines (R271 to R281): element formats, exact block sums, the fixed trees of
pairs, and the narrowing of outputs (R273, R284). -/

namespace Sys2Proof.Machine

/-- A decoded element: a finite value in units of 2⁻¹⁶, an infinity, or NaN (R271). -/
inductive El where
  | fin (v : Int)
  | inf (neg : Bool)
  | nan
  deriving DecidableEq, Repr

/-- The element width of a format in bits (R271, R273); 0 for an unknown code. -/
def fmtBits (f : Nat) : Nat :=
  if [1, 2, 3, 4, 8, 9].contains f then 8 else if f = 5 ∨ f = 6 then 6 else if f = 7 ∨ f = 0xA then 4
  else if f = 0x10 ∨ f = 0x11 then 16 else if f = 0x12 ∨ f = 0x20 then 32 else if f = 0x21 then 64 else 0

/-- Whether a format is MX (R271). -/
def fmtMx (f : Nat) : Bool := decide (3 ≤ f ∧ f ≤ 8)

/-- Whether a format is an operand format (R271). -/
def fmtOperand (f : Nat) : Bool := decide (1 ≤ f ∧ f ≤ 0xA) || decide (0x10 ≤ f ∧ f ≤ 0x12)

/-- Whether a format is an output format (R273). -/
def fmtOutput (f : Nat) : Bool := [0x20, 0x21, 0x10, 0x11, 1, 2, 9].contains f

/-- Whether the two operands of a tile are a pair of R272. -/
def pairOk (a b : Nat) : Bool :=
  (a ≤ 2 && b ≤ 2 && 1 ≤ a && 1 ≤ b) || (fmtMx a && fmtMx b) || (a = 9 && (b = 9 || b = 0xA)) || (a = 0xA && (b = 0xA || b = 9)) ||
    ((a = 0x10 || a = 0x11) && (b = 0x10 || b = 0x11)) || (a = 0x12 && b = 0x12)

/-- A sign and magnitude code with an m-bit fraction and a bias, every exponent finite, in units of 2⁻¹⁶. -/
def miniFloat (ebits m bias code : Nat) : Int :=
  let e := code / 2 ^ m % 2 ^ ebits
  let f := code % 2 ^ m
  let mag : Nat := (if e = 0 then f else (2 ^ m + f) * 2 ^ (e - 1)) * 2 ^ (17 - bias - m)
  if bit code (ebits + m) then -(mag : Int) else mag

/-- An element of a format that the block accumulator sums (R271). -/
def decodeEl (f code : Nat) : El :=
  if f = 1 ∨ f = 3 then (if code % 128 = 127 then .nan else .fin (miniFloat 4 3 7 code))
  else if f = 2 ∨ f = 4 then
    (if code % 128 / 4 = 31 then (if code % 4 = 0 then .inf (bit code 7) else .nan) else .fin (miniFloat 5 2 15 code))
  else if f = 5 then .fin (miniFloat 3 2 3 code)
  else if f = 6 then .fin (miniFloat 2 3 1 code)
  else if f = 7 then .fin (miniFloat 2 1 1 code)
  else if f = 8 then .fin (sext 8 code * 1024)
  else if f = 9 then .fin (sext 8 code * 65536)
  else .fin (sext 4 code * 65536)

/-- The FP32 word of a BF16, FP16 or FP32 code (R271); every one is exact. -/
def decodeWord (f code : Nat) : Word :=
  if f = 0x10 then BitVec.ofNat 32 (code * 65536)
  else if f = 0x11 then
    let e := code / 1024 % 32
    let m := code % 1024
    let s := bit code 15
    if e = 31 then (if m = 0 then F32.inf s else F32.nan)
    else
      let mag : Nat := (if e = 0 then m else (1024 + m) * 2 ^ (e - 1)) * 2 ^ 125
      F32.round s (if s then -(mag : Int) else mag) 1
  else BitVec.ofNat 32 code

/-- What a product is before the block is summed. -/
inductive Prod where
  | fin (v : Int)
  | pair (p : F32.Pair)
  | inf (neg : Bool)
  | nan
  deriving DecidableEq, Repr

/-- The product of two elements (R274, R279). -/
def mulEl : El → El → Prod
  | .nan, _ => .nan
  | _, .nan => .nan
  | .inf a, .inf b => .inf (a != b)
  | .inf a, .fin v => if v = 0 then .nan else .inf (a != decide (v < 0))
  | .fin v, .inf b => if v = 0 then .nan else .inf (b != decide (v < 0))
  | .fin a, .fin b => .fin (a * b)

/-- The product of two words as a pair (R276, R279). -/
def mulWord (f : Nat) (a b : Word) : Prod :=
  if F32.isNaN a || F32.isNaN b then .nan
  else if !F32.finite a || !F32.finite b then (if F32.isZero a || F32.isZero b then .nan else .inf (F32.neg a != F32.neg b))
  else if f = 0x12 then .pair (F32.pairOf (F32.units a * F32.units b) (2 ^ 149))
  else .pair (F32.mul a b, 0)

/-- The pair (NaN, NaN). -/
def nanPair : F32.Pair := (F32.nan, F32.nan)

/-- The sum of a block with non-finite products, none where all are finite (R279). -/
def blockSpecial (l : List Prod) : Option F32.Pair :=
  if l.contains .nan then some nanPair
  else match l.contains (.inf false), l.contains (.inf true) with
    | true, true => some nanPair
    | true, false => some (F32.inf false, 0)
    | false, true => some (F32.inf true, 0)
    | false, false => none

/-- One level of a pairwise tree (R276, R278). -/
def treeLevel : List F32.Pair → List F32.Pair
  | a :: b :: t => F32.addPair a b :: treeLevel t
  | l => l

/-- n levels of a pairwise tree, the first element left. -/
def tree : Nat → List F32.Pair → F32.Pair
  | 0, l => l.headD (0, 0)
  | n + 1, l => tree n (treeLevel l)

/-- The exact sum S of a block in units of 2⁻³² (R274). -/
def blockExact (l : List Prod) : Int := l.foldl (fun t p => match p with | .fin v => t + v | _ => t) 0

/-- The FP32 pair of S × 2^(eA + eB − 254) (R275). -/
def blockPair (S : Int) (eA eB : Nat) : F32.Pair :=
  if 137 ≤ eA + eB then F32.pairOf (S * 2 ^ (eA + eB - 137)) 1 else F32.pairOf S (2 ^ (137 - (eA + eB)))

/-- The sum of one block of 32 products (R274 to R276, R279). -/
def blockSum (acc : Bool) (eA eB : Nat) (l : List Prod) : F32.Pair :=
  match blockSpecial l with
  | some p => p
  | none =>
    if acc then blockPair (blockExact l) eA eB
    else
      let p := tree 5 (l.map fun x => match x with | .pair q => q | _ => (0, 0))
      if F32.isZero p.1 then (0, 0) else p

/-- The block sums of one segment added in the tree of 4 levels (R278). -/
def segmentSum (l : List F32.Pair) : F32.Pair := tree 4 (l ++ List.replicate (16 - l.length) (0, 0))

/-- The operands of one output element: codes along K of both operands, scales per block, and which of the blocks of 16 along K
are masked. -/
structure Line where
  aFmt : Nat := 1
  bFmt : Nat := 1
  a : List Nat := []
  b : List Nat := []
  aScale : List Nat := []
  bScale : List Nat := []
  masked : List Bool := []
  deriving DecidableEq, Repr

/-- The products of block i of a line; a masked one is an exact zero (R281). -/
def Line.products (x : Line) (i : Nat) : List Prod :=
  (List.range 32).map fun j =>
    let k := 32 * i + j
    let a := (x.a[k]?).getD 0
    let b := (x.b[k]?).getD 0
    if (x.masked[k / 16]?).getD false then .fin 0
    else if x.aFmt < 0x10 then mulEl (decodeEl x.aFmt a) (decodeEl x.bFmt b)
    else mulWord x.aFmt (decodeWord x.aFmt a) (decodeWord x.bFmt b)

/-- Block sum i of a line; a scale of 0xFF is NaN (R271, R279). -/
def Line.block (x : Line) (i : Nat) : F32.Pair :=
  let eA := if fmtMx x.aFmt then (x.aScale[i]?).getD 127 else 127
  let eB := if fmtMx x.bFmt then (x.bScale[i]?).getD 127 else 127
  if (x.masked[2 * i]?).getD false && (x.masked[2 * i + 1]?).getD false then (0, 0)
  else if eA = 255 ∨ eB = 255 then nanPair
  else blockSum (decide (x.aFmt < 0x10)) eA eB (x.products i)

/-- The segment sums of a line in ascending order (R278). -/
def Line.segments (x : Line) : List F32.Pair :=
  let n := x.a.length / 32
  (List.range ((n + 15) / 16)).map fun g => segmentSum ((List.range (min 16 (n - 16 * g))).map fun j => x.block (16 * g + j))

/-- The chain of a line, from the pair that came with CHAIN_IN or from the first segment (R278, R280, R282). -/
def Line.chain (x : Line) (from_ : Option F32.Pair) : F32.Pair :=
  match from_, x.segments with
  | some p, l => l.foldl F32.addPair p
  | none, [] => (0, 0)
  | none, p :: l => l.foldl F32.addPair p

/-- The epilogue on an FP32 output (R284): scale, bias, then ReLU or clamp. -/
def epilogue (kind : Nat) (scale bias lo hi x : Word) : Word :=
  if kind = 0 then x
  else
    let y := F32.add (F32.mul x scale) bias
    if F32.isNaN y then F32.nan
    else if kind = 2 then (if F32.neg y then 0 else y)
    else if kind = 3 then (if F32.lt y lo then lo else if F32.lt hi y then hi else y)
    else y

/-- |x| rounded to nearest, ties to even, into a format with m fraction bits and a bias: the bits below the sign. -/
def narrowMag (m bias : Nat) (w : Word) : Nat :=
  let n := (F32.units w).natAbs
  let u := 2 ^ (150 - bias - m)
  let e := (n / u).log2
  if e ≤ m then F32.rne n u else F32.rne n (u * 2 ^ (e - m)) + (e - m) * 2 ^ m

/-- Narrow an FP32 word to a floating format of w bits whose largest finite code is top (R273, R284). -/
def narrowFloat (w m bias top infCode nanCode : Nat) (sat : Bool) (x : Word) : Nat :=
  let sign := if F32.neg x then 2 ^ (w - 1) else 0
  if F32.isNaN x then nanCode
  else if !F32.finite x then (if infCode = nanCode then nanCode else sign + infCode)
  else
    let c := narrowMag m bias x
    if c ≤ top then sign + c else if sat then sign + top else if infCode = nanCode then nanCode else sign + infCode

/-- The nearest integer to an FP32 word, ties to even, saturated to INT8, NaN to 0 (R284). -/
def narrowInt8 (x : Word) : Nat :=
  if F32.isNaN x then 0
  else if !F32.finite x then (if F32.neg x then 0x80 else 0x7F)
  else
    let n := F32.rne (F32.units x).natAbs (2 ^ 149)
    if F32.neg x then tc 8 (-(min n 128 : Nat)) else min n 127

/-- The code of an output element (R273, R278, R284). A PAIR without an epilogue is (hi, lo), hi in the low word. -/
def outCode (f epi : Nat) (sat : Bool) (scale bias lo hi : Word) (p : F32.Pair) : Nat :=
  let x := F32.add p.1 p.2
  let y := epilogue epi scale bias lo hi (if F32.isNaN x then F32.nan else x)
  if f = 0x21 then (if epi = 0 then p.1.toNat + p.2.toNat * 2 ^ 32 else y.toNat)
  else if f = 0x20 then y.toNat
  else if f = 0x10 then narrowFloat 16 7 127 0x7F7F 0x7F80 0x7FC0 sat y
  else if f = 0x11 then narrowFloat 16 10 15 0x7BFF 0x7C00 0x7E00 sat y
  else if f = 1 then narrowFloat 8 3 7 0x7E 0x7F 0x7F sat y
  else if f = 2 then narrowFloat 8 2 15 0x7B 0x7C 0x7E sat y
  else narrowInt8 y

/-- Whether a code of a format is Inf or NaN (R271). -/
def codeNonFinite (f code : Nat) : Bool :=
  if f = 1 then decide (code % 128 = 127)
  else if f = 2 then decide (code / 4 % 32 = 31)
  else if f = 0x10 then decide (code / 128 % 256 = 255)
  else if f = 0x11 then decide (code / 1024 % 32 = 31)
  else if f = 0x12 ∨ f = 0x20 then decide (code / 2 ^ 23 % 256 = 255)
  else if f = 0x21 then decide (code / 2 ^ 23 % 256 = 255) || decide (code / 2 ^ 55 % 256 = 255)
  else false

end Sys2Proof.Machine
end

