-- ==== Sys2Proof/Machine/Fp.lean ====
section
/-! DEFINITION. The floating point of a tidy core (R299): IEEE 754 binary32 and binary16 with subnormals, the five rounding modes
and the five flags of the published RISC-V specifications, and the canonical NaN. -/

namespace Sys2Proof.Machine

/-- A binary format: exponent bits and fraction bits. -/
structure FpFmt where
  e : Nat
  m : Nat
  deriving DecidableEq, Repr

/-- binary32. -/
def fp32 : FpFmt := { e := 8, m := 23 }

/-- binary16. -/
def fp16 : FpFmt := { e := 5, m := 10 }

/-- A value: NaN (quiet or signalling), an infinity, or a finite value of a sign, n × 2^x. -/
inductive Fv where
  | nan (signalling : Bool)
  | inf (neg : Bool)
  | fin (neg : Bool) (n : Nat) (x : Int)
  deriving DecidableEq, Repr

/-- A result with the flags it raises: NV 16, DZ 8, OF 4, UF 2, NX 1. -/
abbrev FpRes := Nat × Nat

namespace Fp

/-- Bits of a format. -/
def width (f : FpFmt) : Nat := 1 + f.e + f.m

/-- The exponent of the least bit of a subnormal. -/
def least (f : FpFmt) : Int := 2 - 2 ^ (f.e - 1) - (f.m : Int)

/-- The sign bit of a code. -/
def neg (f : FpFmt) (v : Nat) : Bool := bit v (f.e + f.m)

/-- The exponent field. -/
def expo (f : FpFmt) (v : Nat) : Nat := v / 2 ^ f.m % 2 ^ f.e

/-- The fraction field. -/
def frac (f : FpFmt) (v : Nat) : Nat := v % 2 ^ f.m

/-- The value of a code. -/
def value (f : FpFmt) (v : Nat) : Fv :=
  if expo f v = 2 ^ f.e - 1 then (if frac f v = 0 then .inf (neg f v) else .nan (!bit v (f.m - 1)))
  else if expo f v = 0 then .fin (neg f v) (frac f v) (least f)
  else .fin (neg f v) (frac f v + 2 ^ f.m) (least f + (expo f v - 1 : Nat))

/-- The canonical NaN: quiet, positive, no other fraction bit (R299). -/
def nan (f : FpFmt) : Nat := (2 ^ (f.e + 1) - 1) * 2 ^ (f.m - 1)

/-- Infinity of a sign. -/
def inf (f : FpFmt) (s : Bool) : Nat := b2n s * 2 ^ (f.e + f.m) + (2 ^ f.e - 1) * 2 ^ f.m

/-- Zero of a sign. -/
def zero (f : FpFmt) (s : Bool) : Nat := b2n s * 2 ^ (f.e + f.m)

/-- An invalid operation: the canonical NaN and NV. -/
def invalid (f : FpFmt) : FpRes := (nan f, 16)

/-- Whether a magnitude rounds up, by rounding mode (RNE 0, RTZ 1, RDN 2, RUP 3, RMM 4), sign, whether the kept part is odd, and how the rest
stands to one half (0 nothing, 1 less, 2 a tie, 3 more). -/
def roundsUp (rm : Nat) (s odd : Bool) (rest : Nat) : Bool :=
  match rm with
  | 0 => decide (rest = 3) || (decide (rest = 2) && odd)
  | 1 => false
  | 2 => s && decide (rest ≠ 0)
  | 3 => !s && decide (rest ≠ 0)
  | _ => decide (2 ≤ rest)

/-- How r stands to half of d. -/
def restOf (r d : Nat) : Nat := if r = 0 then 0 else if 2 * r < d then 1 else if 2 * r = d then 2 else 3

/-- n × 2^x rounded to a multiple of 2^q: the multiple, and whether it is inexact. -/
def toQuantum (rm : Nat) (s : Bool) (n : Nat) (x q : Int) : Nat × Bool :=
  if q ≤ x then (n * 2 ^ (x - q).toNat, false)
  else
    let d := 2 ^ (q - x).toNat
    let rest := restOf (n % d) d
    (n / d + b2n (roundsUp rm s (decide (n / d % 2 = 1)) rest), decide (rest ≠ 0))

/-- Round (−1)^s × n × 2^x to a format, with its flags; tininess is found after rounding. -/
def round (f : FpFmt) (rm : Nat) (s : Bool) (n : Nat) (x : Int) : FpRes :=
  if n = 0 then (zero f s, 0)
  else
    let top : Int := n.log2 + x
    let q := max (top - f.m) (least f)
    let k := toQuantum rm s n x q
    let code := (q - least f).toNat * 2 ^ f.m + k.1
    let minTop := least f + f.m
    let tiny := decide (top < minTop - 1) || (decide (top = minTop - 1) && decide ((toQuantum rm s n x (top - f.m)).1 < 2 ^ (f.m + 1)))
    if (2 ^ f.e - 1) * 2 ^ f.m ≤ code then
      (if roundsUp rm s true 3 then inf f s else inf f s - 1, 5)
    else (zero f s + code, b2n k.2 + (if k.2 && tiny then 2 else 0))

/-- The sign of an exact zero sum of values that are not both zeros of one sign. -/
def zeroSign (rm : Nat) (a b : Bool) : Bool := if a = b then a else decide (rm = 2)

/-- An exact sum of two finite values, rounded. -/
def sumFin (f : FpFmt) (rm : Nat) (s1 : Bool) (n1 : Nat) (x1 : Int) (s2 : Bool) (n2 : Nat) (x2 : Int) : FpRes :=
  let x := min x1 x2
  let a : Int := (n1 * 2 ^ (x1 - x).toNat : Nat)
  let b : Int := (n2 * 2 ^ (x2 - x).toNat : Nat)
  let t := (if s1 then -a else a) + (if s2 then -b else b)
  if t = 0 then (zero f (zeroSign rm s1 s2), 0) else round f rm (decide (t < 0)) t.natAbs x

/-- NV where an operand is a signalling NaN. -/
def nanFlag (l : List Fv) : Nat := if l.contains (.nan true) then 16 else 0

/-- Whether a value is a NaN. -/
def isNan : Fv → Bool
  | .nan _ => true
  | _ => false

/-- The sign of a value that is not a NaN. -/
def signOf : Fv → Bool
  | .nan _ => false
  | .inf s => s
  | .fin s _ _ => s

/-- The negation of a value. -/
def flip : Fv → Fv
  | .nan q => .nan q
  | .inf s => .inf (!s)
  | .fin s n x => .fin (!s) n x

/-- a + b. -/
def addV (f : FpFmt) (rm : Nat) (a b : Fv) : FpRes :=
  match a, b with
  | .nan _, _ => (nan f, nanFlag [a, b])
  | _, .nan _ => (nan f, nanFlag [a, b])
  | .inf s, .inf t => if s = t then (inf f s, 0) else invalid f
  | .inf s, _ => (inf f s, 0)
  | _, .inf t => (inf f t, 0)
  | .fin s1 n1 x1, .fin s2 n2 x2 => sumFin f rm s1 n1 x1 s2 n2 x2

/-- a × b. -/
def mulV (f : FpFmt) (rm : Nat) (a b : Fv) : FpRes :=
  match a, b with
  | .nan _, _ => (nan f, nanFlag [a, b])
  | _, .nan _ => (nan f, nanFlag [a, b])
  | .inf s, .inf t => (inf f (s != t), 0)
  | .inf s, .fin t n _ => if n = 0 then invalid f else (inf f (s != t), 0)
  | .fin t n _, .inf s => if n = 0 then invalid f else (inf f (s != t), 0)
  | .fin s1 n1 x1, .fin s2 n2 x2 => round f rm (s1 != s2) (n1 * n2) (x1 + x2)

/-- a × b + c with one rounding. -/
def fmaV (f : FpFmt) (rm : Nat) (a b c : Fv) : FpRes :=
  let inv := match a, b with
    | .inf _, .fin _ n _ => decide (n = 0)
    | .fin _ n _, .inf _ => decide (n = 0)
    | _, _ => false
  if inv then invalid f
  else if isNan a || isNan b || isNan c then (nan f, nanFlag [a, b, c])
  else
    let s := signOf a != signOf b
    match a, b, c with
    | .fin _ n1 x1, .fin _ n2 x2, .fin s3 n3 x3 => sumFin f rm s (n1 * n2) (x1 + x2) s3 n3 x3
    | .fin _ _ _, .fin _ _ _, _ => (inf f (signOf c), 0)
    | _, _, .inf t => if s = t then (inf f s, 0) else invalid f
    | _, _, _ => (inf f s, 0)

/-- a / b. The quotient is taken to enough bits with a last bit that says whether a rest is left. -/
def divV (f : FpFmt) (rm : Nat) (a b : Fv) : FpRes :=
  match a, b with
  | .nan _, _ => (nan f, nanFlag [a, b])
  | _, .nan _ => (nan f, nanFlag [a, b])
  | .inf _, .inf _ => invalid f
  | .inf s, _ => (inf f (s != signOf b), 0)
  | .fin s _ _, .inf t => (zero f (s != t), 0)
  | .fin s n1 x1, .fin t n2 x2 =>
    if n2 = 0 then (if n1 = 0 then invalid f else (inf f (s != t), 8))
    else
      let up := 2 * f.m + 4
      let n := n1 * 2 ^ up
      round f rm (s != t) (2 * (n / n2) + b2n (decide (n % n2 ≠ 0))) (x1 - x2 - up - 1)

/-- The square root. -/
def sqrtV (f : FpFmt) (rm : Nat) (a : Fv) : FpRes :=
  match a with
  | .nan _ => (nan f, nanFlag [a])
  | .inf s => if s then invalid f else (inf f false, 0)
  | .fin s n x =>
    if n = 0 then (zero f s, 0)
    else if s then invalid f
    else
      let odd := (x % 2).toNat
      let w := n * 2 ^ (odd + 2 * (f.m + 3))
      let r := F32.isqrt w
      round f rm false (2 * r + b2n (decide (r * r ≠ w))) ((x - odd) / 2 - (f.m + 3) - 1)

/-- a < b of values that are not NaN. -/
def ltV : Fv → Fv → Bool
  | .inf s, .inf t => s && !t
  | .inf s, _ => s
  | _, .inf t => !t
  | .fin s1 n1 x1, .fin s2 n2 x2 =>
    let x := min x1 x2
    let a : Int := (n1 * 2 ^ (x1 - x).toNat : Nat)
    let b : Int := (n2 * 2 ^ (x2 - x).toNat : Nat)
    decide ((if s1 then -a else a) < (if s2 then -b else b))
  | _, _ => false

/-- Compare: 0 equal (quiet), 1 less (signalling), 2 less or equal (signalling). -/
def cmp (f : FpFmt) (kind a b : Nat) : FpRes :=
  let x := value f a
  let y := value f b
  if isNan x || isNan y then (0, if kind = 0 then nanFlag [x, y] else 16)
  else (b2n (match kind with
    | 0 => !ltV x y && !ltV y x
    | 1 => ltV x y
    | _ => !ltV y x), 0)

/-- The lesser (or greater) of two codes: a NaN gives way to a number, and −0 is less than +0. -/
def minMax (f : FpFmt) (greater : Bool) (a b : Nat) : FpRes :=
  let x := value f a
  let y := value f b
  let fl := nanFlag [x, y]
  if isNan x && isNan y then (nan f, fl)
  else if isNan x then (b, fl)
  else if isNan y then (a, fl)
  else
    let less := ltV x y || (!ltV y x && signOf x && !signOf y)
    (if less != greater then a else b, fl)

/-- Sign injection: 0 the sign of b, 1 its inverse, 2 the exclusive or of both. -/
def sgnj (f : FpFmt) (kind a b : Nat) : Nat :=
  let s := match kind with
    | 0 => neg f b
    | 1 => !neg f b
    | _ => neg f a != neg f b
  a % 2 ^ (f.e + f.m) + b2n s * 2 ^ (f.e + f.m)

/-- The class bit of a code. -/
def classify (f : FpFmt) (v : Nat) : Nat :=
  match value f v with
  | .nan sg => if sg then 2 ^ 8 else 2 ^ 9
  | .inf s => if s then 1 else 2 ^ 7
  | .fin s n _ =>
    let k := if n = 0 then 3 else if expo f v = 0 then 2 else 1
    2 ^ (if s then k else 7 - k)

/-- A code to an integer of w bits, signed or not: the low w bits, and the flags. -/
def toInt (f : FpFmt) (rm w : Nat) (signed : Bool) (v : Nat) : FpRes :=
  let hi : Int := if signed then 2 ^ (w - 1) - 1 else 2 ^ w - 1
  let lo : Int := if signed then -(2 ^ (w - 1) : Int) else 0
  match value f v with
  | .nan _ => (tc w hi, 16)
  | .inf s => (tc w (if s then lo else hi), 16)
  | .fin s n x =>
    let k := toQuantum rm s n x 0
    let t : Int := if s then -(k.1 : Int) else k.1
    if t < lo then (tc w lo, 16) else if hi < t then (tc w hi, 16) else (tc w t, b2n k.2)

/-- An integer to a code. -/
def ofInt (f : FpFmt) (rm : Nat) (t : Int) : FpRes := round f rm (decide (t < 0)) t.natAbs 0

/-- A code of one format to another. -/
def convert (src dst : FpFmt) (rm v : Nat) : FpRes :=
  match value src v with
  | .nan sg => (nan dst, if sg then 16 else 0)
  | .inf s => (inf dst s, 0)
  | .fin s n x => round dst rm s n x

end Fp

end Sys2Proof.Machine
end

