-- ==== Sys2Proof/Machine/Tidy.lean ====
section
/-! DEFINITION. A tidy core (R297 to R299): the registers, privilege modes, PMP, traps and scalar instructions (RV64I, M, A, C, F, Zfh, Zicsr,
Zifencei) of the published RISC-V specifications, with the reach of program code. PRESUMED where those specifications, and not the rules, say
what an instruction does. -/

namespace Sys2Proof.Machine

/-- What program code runs on: the code section, the buffer records of the plan and the buffers (R284, R286, R298); and the spans that the
instruction has stored to. -/
structure TidyMem where
  code : List Byte := []
  plan : List (List Byte) := []
  bufs : List (List Byte) := []
  wrote : List (Nat × Nat) := []

/-- A trap: its cause and value. -/
abbrev Trap := Nat × Nat

/-- What an instruction does: a trap, or the next state of the hart and its memory. -/
abbrev TidyRes := Except Trap (Hart × TidyMem)

/-- An illegal instruction (R297). -/
def illegal (w : Nat) : Except Trap α := .error (2, w)

/-- Where firmware places the code (0), the program part of the data scratch (1) and buffer i of the plan (2 + i): free (R298). -/
def tidyBase (i : Nat) : Nat := Config.given 297 [(i : Int)] % 2 ^ 48

/-- Bytes of the data scratch that program code may reach (R298). -/
def scratchBytes : Nat := 49152

/-- A byte of the program part of the scratch that the program has not written: free (R298). -/
def scratchDefault (a : Nat) : Byte := BitVec.ofNat 8 (Config.given 298 [(a : Int)])

/-- What stands at an address. -/
inductive TidyPlace where
  | code (off : Nat)
  | scratch (off : Nat)
  | buf (i off : Nat)
  deriving DecidableEq, Repr

/-- The offset of a span in a window. -/
def inWindow (base len a n : Nat) : Option Nat := if base ≤ a ∧ a + n ≤ base + len then some (a - base) else none

/-- The place of n bytes at an address, where one holds them all. -/
def TidyMem.place (m : TidyMem) (a n : Nat) : Option TidyPlace :=
  match inWindow (tidyBase 0) m.code.length a n with
  | some o => some (.code o)
  | none =>
    match inWindow (tidyBase 1) scratchBytes a n with
    | some o => some (.scratch o)
    | none =>
      (List.range m.plan.length).findSome? fun i =>
        (inWindow (tidyBase (2 + i)) (fld ((m.plan[i]?).getD []) 8 4) a n).map fun o => .buf i o

/-! ## Registers -/

/-- Integer register i; x0 reads 0. -/
def Hart.gx (h : Hart) (i : Nat) : Nat := if i = 0 then 0 else ((h.x[i]?).getD 0).toNat

/-- Integer register i written; x0 discards the write. -/
def Hart.sx (h : Hart) (i v : Nat) : Hart := if i = 0 then h else { h with x := updAt i (fun _ => BitVec.ofNat 64 v) h.x }

/-- Floating-point register i. -/
def Hart.gf (h : Hart) (i : Nat) : Nat := ((h.f[i]?).getD 0).toNat

/-- Floating-point register i written. -/
def Hart.sf (h : Hart) (i v : Nat) : Hart := { h with f := updAt i (fun _ => BitVec.ofNat 32 v) h.f }

/-- A binary16 operand: a value that is not NaN-boxed reads as the canonical NaN. -/
def Hart.gh (h : Hart) (i : Nat) : Nat := if h.gf i / 65536 = 0xFFFF then h.gf i % 65536 else Fp.nan fp16

/-- An operand of a format. -/
def Hart.gfp (h : Hart) (f : FpFmt) (i : Nat) : Nat := if f = fp16 then h.gh i else h.gf i

/-- A result of a format, NaN-boxed where it is narrower. -/
def Hart.sfp (h : Hart) (f : FpFmt) (i v : Nat) : Hart := if f = fp16 then h.sf i (0xFFFF0000 + v % 65536) else h.sf i v

/-- Flags raised. -/
def Hart.raise (h : Hart) (fl : Nat) : Hart := { h with fflags := h.fflags ||| fl }

/-- Whether floating point is on (mstatus.FS). -/
def Hart.fpOn (h : Hart) : Bool := bits h.mstatus 14 13 ≠ 0

/-- Whether the vector unit is on (mstatus.VS). -/
def Hart.vecOn (h : Hart) : Bool := bits h.mstatus 10 9 ≠ 0

/-! ## PMP -/

/-- The span of PMP entry i: its first address and the one after its last. -/
def Hart.pmpSpan (h : Hart) (i : Nat) : Option (Nat × Nat) :=
  let a := (h.pmpaddr[i]?).getD 0
  match bits (((h.pmpcfg[i]?).getD 0).toNat) 4 3 with
  | 0 => none
  | 1 => some ((if i = 0 then 0 else (h.pmpaddr[i - 1]?).getD 0) * 4, a * 4)
  | 2 => some (a * 4, a * 4 + 4)
  | _ =>
    let k := ((List.range 54).find? fun j => !bit a j).getD 54
    let size := 2 ^ (k + 1)
    some (a / size * size * 4, (a / size * size + size) * 4)

/-- Whether an access passes the PMP: the lowest entry that matches any byte of it decides; bit 0 read, 1 write, 2 execute. -/
def Hart.pmpAllows (h : Hart) (p : Priv) (a n acc : Nat) : Bool :=
  let hit := (List.range 16).findSome? fun i =>
    match h.pmpSpan i with
    | none => none
    | some (lo, hi) => if a < hi ∧ lo < a + n then some (i, decide (lo ≤ a ∧ a + n ≤ hi)) else none
  match hit with
  | none => decide (p = .machine)
  | some (i, whole) =>
    let c := ((h.pmpcfg[i]?).getD 0).toNat
    whole && (bit c acc || (decide (p = .machine) && !bit c 7))

/-- The mode of data accesses (mstatus.MPRV). -/
def Hart.dataMode (h : Hart) : Priv :=
  if h.mode = .machine ∧ bit h.mstatus 17 ∧ bits h.mstatus 12 11 = 0 then .user else h.mode

/-! ## Memory -/

/-- Whether misaligned loads and stores are done rather than trapped: free. -/
def misalignedDone : Bool := Config.up 297 []

/-- Bytes read at a place. -/
def readPlace (h : Hart) (m : TidyMem) (n : Nat) : TidyPlace → List Byte
  | .code o => slice m.code o n
  | .scratch o => (List.range n).map fun j => Store.get scratchDefault (o + j) h.scratch
  | .buf i o => slice ((m.bufs[i]?).getD []) o n

/-- Bytes written over a list at an offset. -/
def overlay (l : List Byte) (o : Nat) (b : List Byte) : List Byte := l.take o ++ b ++ l.drop (o + b.length)

/-- Bytes written at address a, which stands at a place. -/
def writePlace (h : Hart) (m : TidyMem) (a : Nat) (b : List Byte) (p : TidyPlace) : Hart × TidyMem :=
  let m := { m with wrote := (a, b.length) :: m.wrote }
  match p with
  | .code _ => (h, m)
  | .scratch o => ({ h with scratch := (b.zip (List.range b.length)).foldl (fun s p => Store.set scratchDefault (o + p.2) p.1 s) h.scratch }, m)
  | .buf i o => (h, { m with bufs := updAt i (fun l => overlay l o b) m.bufs })

/-- Whether a place takes loads and stores of program code: its scratch and its buffers, and no code (R298). -/
def TidyPlace.data : TidyPlace → Bool
  | .code _ => false
  | _ => true

/-- Whether atomics reach a place: the cluster pond and the data scratch (R297). -/
def TidyPlace.atomic (m : TidyMem) : TidyPlace → Bool
  | .code _ => false
  | .scratch _ => true
  | .buf i _ => decide (fld ((m.plan[i]?).getD []) 2 1 = 1)

/-- The place of a data access, or its trap: causes are load's (4, 5), or store's (6, 7) two higher. -/
def dataPlace (h : Hart) (m : TidyMem) (a n : Nat) (store atomic : Bool) : Except Trap TidyPlace :=
  let k := if store then 2 else 0
  if a % n ≠ 0 ∧ (atomic ∨ ¬ misalignedDone) then .error (4 + k, a)
  else if !h.pmpAllows h.dataMode a n (b2n store) then .error (5 + k, a)
  else match m.place a n with
    | none => .error (5 + k, a)
    | some p => if p.data && (!atomic || p.atomic m) then .ok p else .error (5 + k, a)

/-- Load n bytes as a number. -/
def loadN (h : Hart) (m : TidyMem) (a n : Nat) : Except Trap Nat :=
  match dataPlace h m a n false false with
  | .error t => .error t
  | .ok p => .ok (leNat (readPlace h m n p))

/-- Store the low n bytes of a number. -/
def storeN (h : Hart) (m : TidyMem) (a n v : Nat) : TidyRes :=
  match dataPlace h m a n true false with
  | .error t => .error t
  | .ok p => .ok (writePlace h m a (leBytes v n) p)

/-- Two bytes of code at the program counter, or an instruction access fault: only the code section is executable (R298). -/
def fetch2 (h : Hart) (m : TidyMem) (a : Nat) : Except Trap Nat :=
  if !h.pmpAllows h.mode a 2 2 then .error (1, a)
  else match m.place a 2 with
    | some (.code o) => .ok (leNat (slice m.code o 2))
    | _ => .error (1, a)

/-! ## Integer operations -/

/-- A signed value of w bits as a 64-bit register holds it. -/
def sx64 (w v : Nat) : Nat := tc 64 (sext w v)

/-- The signed value of a register. -/
def s64 (v : Nat) : Int := sext 64 v

/-- OP and OP-IMM of w bits (64, or 32 with its result extended); alt selects SUB and SRA. -/
def aluOp (w f3 : Nat) (alt : Bool) (a b : Nat) : Nat :=
  let a := a % 2 ^ w
  let b := b % 2 ^ w
  let sh := b % w
  let r := match f3 with
    | 0 => tc w (if alt then (a : Int) - b else (a : Int) + b)
    | 1 => a * 2 ^ sh % 2 ^ w
    | 2 => b2n (decide (sext w a < sext w b))
    | 3 => b2n (decide (a < b))
    | 4 => a ^^^ b
    | 5 => if alt then tc w (sext w a / 2 ^ sh) else a / 2 ^ sh
    | 6 => a ||| b
    | _ => a &&& b
  sx64 w r

/-- Quotient and remainder toward zero, with the results of the M extension for a divisor of 0; the most negative number over −1 wraps. -/
def divOp (w : Nat) (signed rem : Bool) (a b : Nat) : Nat :=
  let a := a % 2 ^ w
  let b := b % 2 ^ w
  let r : Nat :=
    if b = 0 then (if rem then a else 2 ^ w - 1)
    else if signed then tc w (if rem then Int.tmod (sext w a) (sext w b) else Int.tdiv (sext w a) (sext w b))
    else if rem then a % b else a / b
  sx64 w r

/-- M: f3 0 to 7. -/
def mulOp (w f3 a b : Nat) : Nat :=
  match f3 with
  | 0 => sx64 w (a * b % 2 ^ w)
  | 1 => tc 64 (s64 a * s64 b / 2 ^ 64)
  | 2 => tc 64 (s64 a * b / 2 ^ 64)
  | 3 => a * b / 2 ^ 64
  | 4 => divOp w true false a b
  | 5 => divOp w false false a b
  | 6 => divOp w true true a b
  | _ => divOp w false true a b

/-- Branch conditions; codes 2 and 3 are none. -/
def branchTaken (f3 a b : Nat) : Option Bool :=
  match f3 with
  | 0 => some (decide (a = b))
  | 1 => some (decide (a ≠ b))
  | 4 => some (decide (s64 a < s64 b))
  | 5 => some (decide (s64 b ≤ s64 a))
  | 6 => some (decide (a < b))
  | 7 => some (decide (b ≤ a))
  | _ => none

/-- AMO operations of w bits. -/
def amoOp (w f5 old b : Nat) : Option Nat :=
  let pick (c : Bool) := if c then old else b
  match f5 with
  | 0x00 => some ((old + b) % 2 ^ w)
  | 0x01 => some b
  | 0x04 => some (old ^^^ b)
  | 0x08 => some (old ||| b)
  | 0x0C => some (old &&& b)
  | 0x10 => some (pick (decide (sext w old < sext w b)))
  | 0x14 => some (pick (decide (sext w b < sext w old)))
  | 0x18 => some (pick (decide (old < b)))
  | 0x1C => some (pick (decide (b < old)))
  | _ => none

/-! ## Control and status registers -/

/-- The lowest privilege of a CSR number allows this mode. -/
def csrMode (h : Hart) (n : Nat) : Bool := decide (h.mode = .machine) || decide (bits n 9 8 = 0)

/-- The value of a CSR; none where there is no such CSR, or this mode may not read it. The counters trap in user mode (R298). -/
def Hart.csr (h : Hart) (n : Nat) : Option Nat :=
  if !csrMode h n then none
  else if n = 1 then (if h.fpOn then some h.fflags else none)
  else if n = 2 then (if h.fpOn then some h.frm else none)
  else if n = 3 then (if h.fpOn then some (h.fflags + 32 * h.frm) else none)
  else if n = 8 then (if h.vecOn then some h.vstart else none)
  else if n = 9 then (if h.vecOn then some (b2n h.vxsat) else none)
  else if n = 0xA then (if h.vecOn then some h.vxrm else none)
  else if n = 0xF then (if h.vecOn then some (b2n h.vxsat + 2 * h.vxrm) else none)
  else if n = 0xC20 then (if h.vecOn then some h.vl else none)
  else if n = 0xC21 then (if h.vecOn then some (if h.vill then 2 ^ 63 else h.vtype) else none)
  else if n = 0xC22 then (if h.vecOn then some 32 else none)
  else if 0xC00 ≤ n ∧ n ≤ 0xC1F then
    (if h.mode = .user then none
     else some (if n = 0xC00 then h.mcycle else if n = 0xC02 then h.minstret else if n = 0xC01 then Config.given 299 [0, h.mcycle] % 2 ^ 64 else 0))
  else if n = 0x300 then some (h.mstatus + 2 ^ 33 + (if bits h.mstatus 14 13 = 3 ∨ bits h.mstatus 10 9 = 3 then 2 ^ 63 else 0))
  else if n = 0x301 then some (2 ^ 63 + 0x101125)
  else if n = 0x304 then some h.mie
  else if n = 0x305 then some h.mtvec
  else if n = 0x306 then some h.mcounteren
  else if n = 0x340 then some h.mscratch
  else if n = 0x341 then some h.mepc
  else if n = 0x342 then some h.mcause
  else if n = 0x343 then some h.mtval
  else if n = 0x344 then some h.mip
  else if n = 0x3A0 then some (leNat (h.pmpcfg.take 8))
  else if n = 0x3A2 then some (leNat (slice h.pmpcfg 8 8))
  else if 0x3B0 ≤ n ∧ n ≤ 0x3BF then some ((h.pmpaddr[n - 0x3B0]?).getD 0)
  else if n = 0xB00 then some h.mcycle
  else if n = 0xB02 then some h.minstret
  else if 0xB03 ≤ n ∧ n ≤ 0xB1F ∨ n = 0x320 ∨ 0x323 ≤ n ∧ n ≤ 0x33F then some 0
  else if 0xF11 ≤ n ∧ n ≤ 0xF15 then some (Config.given 299 [(n : Int)] % 2 ^ 64)
  else none

/-- Whether PMP entry i is locked, or bounds a locked TOR entry. -/
def Hart.pmpLocked (h : Hart) (i : Nat) (addr : Bool) : Bool :=
  bit (((h.pmpcfg[i]?).getD 0).toNat) 7 || (addr && (bit (((h.pmpcfg[i + 1]?).getD 0).toNat) 7 && decide (bits (((h.pmpcfg[i + 1]?).getD 0).toNat) 4 3 = 1)))

/-- Eight bytes of PMP configuration from entry i; a locked entry keeps its own. -/
def Hart.setPmpcfg (h : Hart) (i v : Nat) : Hart :=
  { h with pmpcfg := (List.range 16).map fun j =>
      let old := (h.pmpcfg[j]?).getD 0
      if i ≤ j ∧ j < i + 8 ∧ ¬ h.pmpLocked j false then BitVec.ofNat 8 (v / 256 ^ (j - i)) &&& 0x9F else old }

/-- A CSR written; one that has no effect on a write stays as it is. -/
def Hart.setCsr (h : Hart) (n v : Nat) : Hart :=
  if n = 1 then { h with fflags := v % 32 }
  else if n = 2 then { h with frm := v % 8 }
  else if n = 3 then { h with fflags := v % 32, frm := v / 32 % 8 }
  else if n = 8 then { h with vstart := v % 256 }
  else if n = 9 then { h with vxsat := bit v 0 }
  else if n = 0xA then { h with vxrm := v % 4 }
  else if n = 0xF then { h with vxsat := bit v 0, vxrm := v / 2 % 4 }
  else if n = 0x300 then
    let mpp := bits v 12 11
    { h with mstatus := (v &&& 0x226688) + (if mpp = 3 ∨ (mpp ≠ 0 ∧ bits h.mstatus 12 11 = 3) then 0x1800 else 0) }
  else if n = 0x304 then { h with mie := v &&& 0x888 }
  else if n = 0x305 then { h with mtvec := v - bits v 1 1 * 2 }
  else if n = 0x306 then { h with mcounteren := 0 }
  else if n = 0x340 then { h with mscratch := v }
  else if n = 0x341 then { h with mepc := v - v % 2 }
  else if n = 0x342 then { h with mcause := v }
  else if n = 0x343 then { h with mtval := v }
  else if n = 0x3A0 then h.setPmpcfg 0 v
  else if n = 0x3A2 then h.setPmpcfg 8 v
  else if 0x3B0 ≤ n ∧ n ≤ 0x3BF then
    (if h.pmpLocked (n - 0x3B0) true then h else { h with pmpaddr := updAt (n - 0x3B0) (fun _ => v % 2 ^ 54) h.pmpaddr })
  else if n = 0xB00 then { h with mcycle := v }
  else if n = 0xB02 then { h with minstret := v }
  else h

/-- Zicsr: f3 1 to 3 with a register, 5 to 7 with a 5-bit number. -/
def csrOp (h : Hart) (m : TidyMem) (w : Nat) : TidyRes :=
  let f3 := bits w 14 12
  let rs1 := bits w 19 15
  let n := bits w 31 20
  let src := if 4 ≤ f3 then rs1 else h.gx rs1
  let writes := f3 % 4 = 1 || rs1 ≠ 0
  match h.csr n with
  | none => illegal w
  | some old =>
    if writes && bits n 11 10 = 3 then illegal w
    else
      let v := match f3 % 4 with
        | 1 => src
        | 2 => old ||| src
        | _ => old - (old &&& src)
      .ok ((if writes then h.setCsr n v else h).sx (bits w 11 7) old, m)

/-! ## Traps -/

/-- A trap is taken (R298): into machine mode, the program counter and the cause saved, and on at the trap vector. -/
def Hart.trap (h : Hart) (t : Trap) : Hart :=
  let mie := bits h.mstatus 3 3
  let mpp := if h.mode = .machine then 3 else 0
  { h with mode := .machine, mepc := h.pc, mcause := t.1, mtval := t.2,
           mstatus := setBits (setBits (setBits h.mstatus 12 11 mpp) 7 7 mie) 3 3 0, pc := h.mtvec / 4 * 4 }

/-- MRET: back to the mode and place of the trap. -/
def Hart.mret (h : Hart) : Hart :=
  let user := bits h.mstatus 12 11 = 0
  let s := setBits (setBits (setBits h.mstatus 3 3 (bits h.mstatus 7 7)) 7 7 1) 12 11 0
  { h with mode := if user then .user else .machine, pc := h.mepc, mstatus := if user then setBits s 17 17 0 else s }

/-! ## Floating-point instructions -/

/-- The format of a code of bits 26:25. -/
def fpFmtOf (c : Nat) : Option FpFmt := match c with
  | 0 => some fp32
  | 2 => some fp16
  | _ => none

/-- The rounding mode of an instruction; none where it is reserved. -/
def Hart.rm (h : Hart) (c : Nat) : Option Nat :=
  let r := if c = 7 then h.frm else c
  if r ≤ 4 then some r else none

/-- A floating-point result of a format in rd. -/
def Hart.fpDone (h : Hart) (f : FpFmt) (rd : Nat) (r : FpRes) : Hart := (h.sfp f rd r.1).raise r.2

/-- MADD, MSUB, NMSUB, NMADD (kind 0 to 3). -/
def fmaOp (h : Hart) (m : TidyMem) (kind w : Nat) : TidyRes :=
  match fpFmtOf (bits w 26 25), h.rm (bits w 14 12) with
  | some f, some rm =>
    if !h.fpOn then illegal w
    else
      let a := Fp.value f (h.gfp f (bits w 19 15))
      let b := Fp.value f (h.gfp f (bits w 24 20))
      let c := Fp.value f (h.gfp f (bits w 31 27))
      .ok (h.fpDone f (bits w 11 7) (Fp.fmaV f rm (if 2 ≤ kind then Fp.flip a else a) b (if kind = 1 ∨ kind = 3 then Fp.flip c else c)), m)
  | _, _ => illegal w

/-- OP-FP. -/
def fpOp (h : Hart) (m : TidyMem) (w : Nat) : TidyRes :=
  let rd := bits w 11 7
  let f3 := bits w 14 12
  let i1 := bits w 19 15
  let i2 := bits w 24 20
  match fpFmtOf (bits w 26 25) with
  | none => illegal w
  | some f =>
    let a := h.gfp f i1
    let b := h.gfp f i2
    let x := Fp.value f a
    let y := Fp.value f b
    let rounded (g : Nat → FpRes) : TidyRes := match h.rm f3 with
      | none => illegal w
      | some rm => .ok (h.fpDone f rd (g rm), m)
    let toX (r : FpRes) : TidyRes := .ok ((h.sx rd r.1).raise r.2, m)
    if !h.fpOn then illegal w
    else match bits w 31 27 with
      | 0x00 => rounded fun rm => Fp.addV f rm x y
      | 0x01 => rounded fun rm => Fp.addV f rm x (Fp.flip y)
      | 0x02 => rounded fun rm => Fp.mulV f rm x y
      | 0x03 => rounded fun rm => Fp.divV f rm x y
      | 0x0B => if i2 = 0 then rounded fun rm => Fp.sqrtV f rm x else illegal w
      | 0x04 => if f3 ≤ 2 then .ok (h.fpDone f rd (Fp.sgnj f f3 a b, 0), m) else illegal w
      | 0x05 => if f3 ≤ 1 then .ok (h.fpDone f rd (Fp.minMax f (f3 = 1) a b), m) else illegal w
      | 0x08 =>
        if f = fp32 ∧ i2 = 2 then rounded fun rm => Fp.convert fp16 fp32 rm (h.gh i1)
        else if f = fp16 ∧ i2 = 0 then rounded fun rm => Fp.convert fp32 fp16 rm (h.gf i1)
        else illegal w
      | 0x14 => if f3 ≤ 2 then toX (Fp.cmp f (2 - f3) a b) else illegal w
      | 0x18 =>
        if i2 ≤ 3 then (match h.rm f3 with
          | none => illegal w
          | some rm => let wd := if i2 ≤ 1 then 32 else 64
            let r := Fp.toInt f rm wd (i2 % 2 = 0) a
            toX (sx64 wd r.1, r.2))
        else illegal w
      | 0x1A =>
        if i2 ≤ 3 then
          let wd := if i2 ≤ 1 then 32 else 64
          let t : Int := if i2 % 2 = 0 then sext wd (h.gx i1) else (h.gx i1 % 2 ^ wd : Nat)
          rounded fun rm => Fp.ofInt f rm t
        else illegal w
      | 0x1C =>
        if i2 ≠ 0 then illegal w
        else if f3 = 0 then toX (sx64 (Fp.width f) (h.gf i1), 0)
        else if f3 = 1 then toX (Fp.classify f a, 0)
        else illegal w
      | 0x1E => if i2 = 0 ∧ f3 = 0 then .ok (h.sfp f rd (h.gx i1 % 2 ^ Fp.width f), m) else illegal w
      | _ => illegal w

/-- FLH and FLW. -/
def fpLoad (h : Hart) (m : TidyMem) (w : Nat) : TidyRes :=
  let f := if bits w 14 12 = 1 then fp16 else fp32
  if !h.fpOn then illegal w
  else match loadN h m (tc 64 ((h.gx (bits w 19 15) : Int) + sext 12 (bits w 31 20))) (Fp.width f / 8) with
    | .error t => .error t
    | .ok v => .ok (h.sfp f (bits w 11 7) v, m)

/-- FSH and FSW. -/
def fpStore (h : Hart) (m : TidyMem) (w : Nat) : TidyRes :=
  let imm := bits w 31 25 * 32 + bits w 11 7
  if !h.fpOn then illegal w
  else storeN h m (tc 64 ((h.gx (bits w 19 15) : Int) + sext 12 imm)) (if bits w 14 12 = 1 then 2 else 4) (h.gf (bits w 24 20))

/-! ## Atomics -/

/-- LR, SC and the AMOs on words and double words. -/
def atomicOp (h : Hart) (m : TidyMem) (w : Nat) : TidyRes :=
  let n := if bits w 14 12 = 2 then 4 else 8
  let rd := bits w 11 7
  let a := h.gx (bits w 19 15)
  let b := h.gx (bits w 24 20)
  let f5 := bits w 31 27
  if bits w 14 12 ≠ 2 ∧ bits w 14 12 ≠ 3 then illegal w
  else if f5 = 2 then
    (if bits w 24 20 ≠ 0 then illegal w
     else match dataPlace h m a n false true with
      | .error t => .error t
      | .ok p => .ok ({ h.sx rd (sx64 (8 * n) (leNat (readPlace h m n p))) with reservation := some (a, n) }, m))
  else if f5 ≠ 3 ∧ (amoOp (8 * n) f5 0 0).isNone then illegal w
  else match dataPlace h m a n true true with
    | .error t => .error t
    | .ok p =>
      if f5 = 3 then
        if h.reservation = some (a, n) then
          let r := writePlace { h with reservation := none } m a (leBytes b n) p
          .ok (r.1.sx rd 0, r.2)
        else .ok ({ h.sx rd 1 with reservation := none }, m)
      else
        let old := leNat (readPlace h m n p)
        let r := writePlace h m a (leBytes ((amoOp (8 * n) f5 old (b % 2 ^ (8 * n))).getD 0) n) p
        .ok (r.1.sx rd (sx64 (8 * n) old), r.2)

/-! ## Compressed instructions -/

/-- I-type word. -/
def encI (op f3 rd rs1 imm : Nat) : Nat := op + rd * 2 ^ 7 + f3 * 2 ^ 12 + rs1 * 2 ^ 15 + imm % 4096 * 2 ^ 20

/-- R-type word. -/
def encR (op f3 f7 rd rs1 rs2 : Nat) : Nat := op + rd * 2 ^ 7 + f3 * 2 ^ 12 + rs1 * 2 ^ 15 + rs2 * 2 ^ 20 + f7 * 2 ^ 25

/-- S-type word. -/
def encS (op f3 rs1 rs2 imm : Nat) : Nat := op + imm % 32 * 2 ^ 7 + f3 * 2 ^ 12 + rs1 * 2 ^ 15 + rs2 * 2 ^ 20 + imm / 32 % 128 * 2 ^ 25

/-- B-type word of a byte offset. -/
def encB (f3 rs1 rs2 imm : Nat) : Nat :=
  0x63 + bits imm 11 11 * 2 ^ 7 + bits imm 4 1 * 2 ^ 8 + f3 * 2 ^ 12 + rs1 * 2 ^ 15 + rs2 * 2 ^ 20 + bits imm 10 5 * 2 ^ 25 + bits imm 12 12 * 2 ^ 31

/-- J-type word of a byte offset. -/
def encJ (rd imm : Nat) : Nat := 0x6F + rd * 2 ^ 7 + bits imm 19 12 * 2 ^ 12 + bits imm 11 11 * 2 ^ 20 + bits imm 10 1 * 2 ^ 21 + bits imm 20 20 * 2 ^ 31

/-- The word that a 16-bit instruction stands for (RV64C without D); none where it is reserved. -/
def expandC (c : Nat) : Option Nat :=
  let f3 := bits c 15 13
  let r := bits c 11 7
  let r2 := bits c 6 2
  let p1 := 8 + bits c 9 7
  let p2 := 8 + bits c 4 2
  let imm6 := bits c 12 12 * 32 + r2
  let simm := tc 12 (sext 6 imm6)
  match c % 4, f3 with
  | 0, 0 =>
    let n := bits c 10 7 * 64 + bits c 12 11 * 16 + bits c 5 5 * 8 + bits c 6 6 * 4
    if n = 0 then none else some (encI 0x13 0 p2 2 n)
  | 0, 2 => some (encI 0x03 2 p2 p1 (bits c 5 5 * 64 + bits c 12 10 * 8 + bits c 6 6 * 4))
  | 0, 3 => some (encI 0x03 3 p2 p1 (bits c 6 5 * 64 + bits c 12 10 * 8))
  | 0, 6 => some (encS 0x23 2 p1 p2 (bits c 5 5 * 64 + bits c 12 10 * 8 + bits c 6 6 * 4))
  | 0, 7 => some (encS 0x23 3 p1 p2 (bits c 6 5 * 64 + bits c 12 10 * 8))
  | 1, 0 => some (encI 0x13 0 r r simm)
  | 1, 1 => if r = 0 then none else some (encI 0x1B 0 r r simm)
  | 1, 2 => some (encI 0x13 0 r 0 simm)
  | 1, 3 =>
    if r = 2 then
      let n := bits c 12 12 * 512 + bits c 4 3 * 128 + bits c 5 5 * 64 + bits c 2 2 * 32 + bits c 6 6 * 16
      if n = 0 then none else some (encI 0x13 0 2 2 (tc 12 (sext 10 n)))
    else if imm6 = 0 then none
    else some (0x37 + r * 2 ^ 7 + tc 20 (sext 6 imm6) * 2 ^ 12)
  | 1, 4 =>
    match bits c 11 10 with
    | 0 => some (encI 0x13 5 p1 p1 imm6)
    | 1 => some (encI 0x13 5 p1 p1 (imm6 + 0x400))
    | 2 => some (encI 0x13 7 p1 p1 simm)
    | _ =>
      match bits c 12 12, bits c 6 5 with
      | 0, 0 => some (encR 0x33 0 0x20 p1 p1 p2)
      | 0, 1 => some (encR 0x33 4 0 p1 p1 p2)
      | 0, 2 => some (encR 0x33 6 0 p1 p1 p2)
      | 0, _ => some (encR 0x33 7 0 p1 p1 p2)
      | _, 0 => some (encR 0x3B 0 0x20 p1 p1 p2)
      | _, 1 => some (encR 0x3B 0 0 p1 p1 p2)
      | _, _ => none
  | 1, 5 =>
    let n := bits c 12 12 * 2048 + bits c 8 8 * 1024 + bits c 10 9 * 256 + bits c 6 6 * 128 + bits c 7 7 * 64 + bits c 2 2 * 32 + bits c 11 11 * 16 + bits c 5 3 * 2
    some (encJ 0 (tc 21 (sext 12 n)))
  | 1, _ =>
    let n := bits c 12 12 * 256 + bits c 6 5 * 64 + bits c 2 2 * 32 + bits c 11 10 * 8 + bits c 4 3 * 2
    some (encB (if f3 = 6 then 0 else 1) p1 0 (tc 13 (sext 9 n)))
  | 2, 0 => some (encI 0x13 1 r r imm6)
  | 2, 2 => if r = 0 then none else some (encI 0x03 2 r 2 (bits c 3 2 * 64 + bits c 12 12 * 32 + bits c 6 4 * 4))
  | 2, 3 => if r = 0 then none else some (encI 0x03 3 r 2 (bits c 4 2 * 64 + bits c 12 12 * 32 + bits c 6 5 * 8))
  | 2, 4 =>
    if bits c 12 12 = 0 then
      (if r2 = 0 then (if r = 0 then none else some (encI 0x67 0 0 r 0)) else some (encR 0x33 0 0 r 0 r2))
    else if r2 = 0 then (if r = 0 then some 0x00100073 else some (encI 0x67 0 1 r 0))
    else some (encR 0x33 0 0 r r r2)
  | 2, 6 => some (encS 0x23 2 2 r2 (bits c 8 7 * 64 + bits c 12 9 * 4))
  | 2, 7 => some (encS 0x23 3 2 r2 (bits c 9 7 * 64 + bits c 12 10 * 8))
  | _, _ => none

/-! ## The base instructions -/

/-- LOAD. -/
def intLoad (h : Hart) (m : TidyMem) (w : Nat) : TidyRes :=
  let f3 := bits w 14 12
  let n := 2 ^ (f3 % 4)
  if f3 = 7 then illegal w
  else match loadN h m (tc 64 ((h.gx (bits w 19 15) : Int) + sext 12 (bits w 31 20))) n with
    | .error t => .error t
    | .ok v => .ok (h.sx (bits w 11 7) (if f3 < 4 then sx64 (8 * n) v else v), m)

/-- STORE. -/
def intStore (h : Hart) (m : TidyMem) (w : Nat) : TidyRes :=
  let f3 := bits w 14 12
  let imm := bits w 31 25 * 32 + bits w 11 7
  if 4 ≤ f3 then illegal w
  else storeN h m (tc 64 ((h.gx (bits w 19 15) : Int) + sext 12 imm)) (2 ^ f3) (h.gx (bits w 24 20))

/-- OP and OP-32 of a width. -/
def regOp (h : Hart) (wd w : Nat) : Option Nat :=
  let f3 := bits w 14 12
  let f7 := bits w 31 25
  let a := h.gx (bits w 19 15)
  let b := h.gx (bits w 24 20)
  let shape := wd = 64 || f3 = 0 || f3 = 1 || f3 = 5
  if f7 = 0 ∧ shape then some (aluOp wd f3 false a b)
  else if f7 = 0x20 ∧ (f3 = 0 ∨ f3 = 5) then some (aluOp wd f3 true a b)
  else if f7 = 1 ∧ (wd = 64 ∨ f3 = 0 ∨ 4 ≤ f3) then some (mulOp wd f3 a b)
  else none

/-- OP-IMM and OP-IMM-32 of a width. -/
def immOp (h : Hart) (wd w : Nat) : Option Nat :=
  let f3 := bits w 14 12
  let a := h.gx (bits w 19 15)
  let sh := bits w 31 20 % wd
  let top := bits w 31 20 / wd
  if f3 = 1 then (if top = 0 then some (aluOp wd 1 false a sh) else none)
  else if f3 = 5 then
    (if top = 0 then some (aluOp wd 5 false a sh) else if top * wd = 0x400 then some (aluOp wd 5 true a sh) else none)
  else if wd = 64 ∨ f3 = 0 then some (aluOp wd f3 false a (tc 64 (sext 12 (bits w 31 20)))) else none

/-- SYSTEM, with the program counter already past the instruction; the trap of ECALL is by mode. -/
def systemOp (h : Hart) (m : TidyMem) (w : Nat) : TidyRes :=
  if bits w 14 12 = 4 then illegal w
  else if bits w 14 12 ≠ 0 then csrOp h m w
  else if w = 0x00000073 then .error (if h.mode = .machine then 11 else 8, 0)
  else if w = 0x00100073 then .error (3, 0)
  else if w = 0x30200073 then (if h.mode = .machine then .ok (h.mret, m) else illegal w)
  else if w = 0x10500073 then (if h.mode = .user ∧ bit h.mstatus 21 then illegal w else .ok (h, m))
  else illegal w

/-- A register result, or an illegal instruction. -/
def regDone (h : Hart) (m : TidyMem) (w : Nat) : Option Nat → TidyRes
  | some v => .ok (h.sx (bits w 11 7) v, m)
  | none => illegal w

/-- A scalar instruction word at pc, with the program counter already at next; v runs the vector instructions. -/
def exec32 (v : Hart → TidyMem → Nat → TidyRes) (h : Hart) (m : TidyMem) (pc w : Nat) : TidyRes :=
  let rd := bits w 11 7
  let f3 := bits w 14 12
  match w % 128 with
  | 0x37 => .ok (h.sx rd (sx64 32 (bits w 31 12 * 4096)), m)
  | 0x17 => .ok (h.sx rd (tc 64 ((pc : Int) + sext 32 (bits w 31 12 * 4096))), m)
  | 0x6F =>
    let imm := bits w 31 31 * 2 ^ 20 + bits w 19 12 * 2 ^ 12 + bits w 20 20 * 2 ^ 11 + bits w 30 21 * 2
    .ok ({ h.sx rd h.pc with pc := tc 64 ((pc : Int) + sext 21 imm) }, m)
  | 0x67 =>
    let t := tc 64 ((h.gx (bits w 19 15) : Int) + sext 12 (bits w 31 20))
    if f3 = 0 then .ok ({ h.sx rd h.pc with pc := t - t % 2 }, m) else illegal w
  | 0x63 =>
    let imm := bits w 31 31 * 2 ^ 12 + bits w 7 7 * 2 ^ 11 + bits w 30 25 * 32 + bits w 11 8 * 2
    match branchTaken f3 (h.gx (bits w 19 15)) (h.gx (bits w 24 20)) with
    | none => illegal w
    | some t => .ok (if t then { h with pc := tc 64 ((pc : Int) + sext 13 imm) } else h, m)
  | 0x03 => intLoad h m w
  | 0x23 => intStore h m w
  | 0x13 => regDone h m w (immOp h 64 w)
  | 0x1B => regDone h m w (immOp h 32 w)
  | 0x33 => regDone h m w (regOp h 64 w)
  | 0x3B => regDone h m w (regOp h 32 w)
  | 0x0F => if f3 ≤ 1 then .ok (h, m) else illegal w
  | 0x73 => systemOp h m w
  | 0x2F => atomicOp h m w
  | 0x07 => if f3 = 1 ∨ f3 = 2 then fpLoad h m w else v h m w
  | 0x27 => if f3 = 1 ∨ f3 = 2 then fpStore h m w else v h m w
  | 0x43 => fmaOp h m 0 w
  | 0x47 => fmaOp h m 1 w
  | 0x4B => fmaOp h m 2 w
  | 0x4F => fmaOp h m 3 w
  | 0x53 => fpOp h m w
  | 0x57 => v h m w
  | _ => illegal w

/-- The word at the program counter and its length. -/
def fetchWord (h : Hart) (m : TidyMem) : Except Trap (Nat × Nat) :=
  match fetch2 h m h.pc with
  | .error t => .error t
  | .ok lo =>
    if lo % 4 ≠ 3 then
      match expandC lo with
      | some w => .ok (w, 2)
      | none => illegal lo
    else
      match fetch2 h m (h.pc + 2) with
      | .error t => .error t
      | .ok hi => .ok (lo + 65536 * hi, 4)

/-- One instruction of a hart: its effect, or a trap taken (R297, R298). -/
def Hart.step (v : Hart → TidyMem → Nat → TidyRes) (h : Hart) (m : TidyMem) : Hart × TidyMem :=
  let r : TidyRes := match fetchWord h m with
    | .error t => .error t
    | .ok (w, n) => exec32 v { h with pc := (h.pc + n) % 2 ^ 64 } m h.pc w
  match r with
  | .error t => ({ h.trap t with mcycle := (h.mcycle + 1) % 2 ^ 64 }, m)
  | .ok (h, m) => ({ h with mcycle := (h.mcycle + 1) % 2 ^ 64, minstret := (h.minstret + 1) % 2 ^ 64 }, m)

end Sys2Proof.Machine
end

