-- ==== Sys2Proof/Machine/TidyVec.lean ====
section
/-! DEFINITION. The vector instructions of a tidy core (R297, R299): Zve32f of the published RISC-V specifications with VLEN 256 and ELEN 32.
A reserved encoding is an illegal instruction. -/

namespace Sys2Proof.Machine

/-! ## vtype and vl -/

/-- The logarithm of LMUL that a code of vlmul gives. -/
def lmulLog (c : Nat) : Int := if c < 4 then (c : Int) else (c : Int) - 8

/-- Whether a vtype is supported: an element of 8, 16 or 32 bits that LMUL × ELEN holds. -/
def vtypeOk (t : Nat) : Bool :=
  let l := lmulLog (t % 8)
  decide (t < 256) && decide (t % 8 ≠ 4) && decide (bits t 5 3 ≤ 2) && decide ((bits t 5 3 : Int) ≤ l + 2)

/-- Bits of an element (SEW). -/
def Hart.sew (h : Hart) : Nat := 8 * 2 ^ bits h.vtype 5 3

/-- The logarithm of LMUL. -/
def Hart.lmul (h : Hart) : Int := lmulLog (h.vtype % 8)

/-- Registers that a group of 2^l registers takes. -/
def groupRegs (l : Int) : Nat := if l ≤ 0 then 1 else 2 ^ l.toNat

/-- Elements of w bits in a group of 2^l registers. -/
def groupElts (l : Int) (w : Nat) : Nat := if 0 ≤ l then 2 ^ l.toNat * 256 / w else 256 / 2 ^ (-l).toNat / w

/-- VLMAX of a vtype. -/
def vlmaxOf (t : Nat) : Nat := groupElts (lmulLog (t % 8)) (8 * 2 ^ bits t 5 3)

/-- vl for an application length: the choice between VLMAX and twice it is free within its bounds. -/
def vlFor (avl vlmax : Nat) : Nat :=
  if avl ≤ vlmax then avl
  else if 2 * vlmax ≤ avl then vlmax
  else
    let lo := (avl + 1) / 2
    lo + Config.given 300 [avl, vlmax] % (vlmax - lo + 1)

/-- VSETVLI, VSETIVLI and VSETVL. -/
def vsetOp (h : Hart) (m : TidyMem) (w : Nat) : TidyRes :=
  let rd := bits w 11 7
  let rs1 := bits w 19 15
  let go (t avl : Nat) : TidyRes :=
    let h := { h with vstart := 0 }
    if !vtypeOk t then .ok ({ h.sx rd 0 with vill := true, vtype := 0, vl := 0 }, m)
    else
      let n := vlFor avl (vlmaxOf t)
      .ok ({ h.sx rd n with vill := false, vtype := t, vl := n }, m)
  let avl := if rs1 ≠ 0 then h.gx rs1 else if rd ≠ 0 then 2 ^ 64 - 1 else h.vl
  if bits w 31 31 = 0 then go (bits w 30 20) avl
  else if bits w 31 30 = 3 then go (bits w 29 20) rs1
  else if bits w 31 25 = 0x40 then go (h.gx (bits w 24 20)) avl
  else illegal w

/-! ## Elements -/

/-- Element i of b bytes in the group at register r. -/
def Hart.ve (h : Hart) (r b i : Nat) : Nat := leNat (slice h.v (32 * r + b * i) b)

/-- The same, signed. -/
def Hart.vs (h : Hart) (r b i : Nat) : Int := sext (8 * b) (h.ve r b i)

/-- Element i of b bytes written. -/
def Hart.setVe (h : Hart) (r b i v : Nat) : Hart := { h with v := overlay h.v (32 * r + b * i) (leBytes v b) }

/-- Bit i of a mask register. -/
def Hart.mbit (h : Hart) (r i : Nat) : Bool := bit (h.ve r 1 (i / 8)) (i % 8)

/-- Bit i of a mask register written. -/
def Hart.setMbit (h : Hart) (r i : Nat) (b : Bool) : Hart := h.setVe r 1 (i / 8) (setBit (h.ve r 1 (i / 8)) (i % 8) b)

/-- Whether element i is active: the instruction is unmasked, or v0 sets its bit. -/
def Hart.active (h : Hart) (vm : Bool) (i : Nat) : Bool := vm || h.mbit 0 i

/-- Whether agnostic elements are overwritten with ones: free. -/
def agnosticOnes : Bool := Config.up 298 []

/-- Elements of b bytes from n to the end of a group, as the tail policy leaves them. -/
def Hart.vtail (h : Hart) (r b n max : Nat) : Hart :=
  if bit h.vtype 6 ∧ agnosticOnes then (List.range max).foldl (fun h i => if n ≤ i then h.setVe r b i (2 ^ (8 * b) - 1) else h) h else h

/-- The body of a vector instruction: active elements from vstart to vl get f, inactive ones follow the mask policy, then the tail. -/
def Hart.vbody (h : Hart) (rd b : Nat) (vm : Bool) (max : Nat) (f : Nat → Nat) : Hart :=
  let h1 := (List.range h.vl).foldl (fun h1 i =>
    if i < h.vstart then h1
    else if h.active vm i then h1.setVe rd b i (f i)
    else if bit h.vtype 7 ∧ agnosticOnes then h1.setVe rd b i (2 ^ (8 * b) - 1) else h1) h
  if h.vl ≤ h.vstart then { h with vstart := 0 } else { h1.vtail rd b h.vl max with vstart := 0 }

/-- The same for a mask result; the tail of a mask is agnostic. -/
def Hart.vmask (h : Hart) (rd : Nat) (vm : Bool) (f : Nat → Bool) : Hart :=
  let h1 := (List.range h.vl).foldl (fun h1 i =>
    if i < h.vstart then h1
    else if h.active vm i then h1.setMbit rd i (f i)
    else if bit h.vtype 7 ∧ agnosticOnes then h1.setMbit rd i true else h1) h
  let h2 := if agnosticOnes then (List.range 256).foldl (fun h2 i => if h.vl ≤ i then h2.setMbit rd i true else h2) h1 else h1
  if h.vl ≤ h.vstart then { h with vstart := 0 } else { h2 with vstart := 0 }

/-- A group of 2^l registers at r is aligned and within the file. -/
def groupOk (r : Nat) (l : Int) : Bool := decide (-3 ≤ l ∧ l ≤ 3) && decide (r % groupRegs l = 0)

/-- Whether a destination group may overlap a source group of another element width (b and c bytes, 2^l and 2^k registers). -/
def overlapOk (rd : Nat) (b : Nat) (l : Int) (rs : Nat) (c : Nat) (k : Int) : Bool :=
  let n := groupRegs l
  let p := groupRegs k
  let apart := decide (rd + n ≤ rs ∨ rs + p ≤ rd)
  apart || (if b = c then true else if c < b then decide (0 ≤ k) && decide (rs + p = rd + n) else decide (rs = rd))

/-- A vector instruction whose form is allowed runs; a masked one may not write v0 unless its result is a mask or a scalar. -/
def vrun (h : Hart) (m : TidyMem) (w : Nat) (ok : Bool) (r : Hart) : TidyRes :=
  if h.vecOn && !h.vill && ok then .ok (r, m) else illegal w

/-- Whether a masked instruction keeps off v0. -/
def offV0 (vm : Bool) (rd : Nat) : Bool := vm || decide (rd ≠ 0)

/-! ## Fixed point -/

/-- v / 2^d rounded by vxrm: nearest up, nearest even, down, to odd. -/
def roundShift (rm : Nat) (v : Int) (d : Nat) : Int :=
  let q := v / 2 ^ d
  let rest := v % 2 ^ d
  let half : Int := 2 ^ d / 2
  if d = 0 then v
  else match rm with
    | 0 => if half ≤ rest then q + 1 else q
    | 1 => if half < rest ∨ (rest = half ∧ q % 2 = 1) then q + 1 else q
    | 2 => q
    | _ => if rest ≠ 0 ∧ q % 2 = 0 then q + 1 else q

/-- An integer held to w bits, and whether it was held. -/
def satTo (signed : Bool) (w : Nat) (v : Int) : Nat × Bool :=
  let hi : Int := if signed then 2 ^ (w - 1) - 1 else 2 ^ w - 1
  let lo : Int := if signed then -(2 ^ (w - 1) : Int) else 0
  (tc w (clampI lo hi v), decide (v < lo ∨ hi < v))

/-- An element-wise result that may saturate. -/
def Hart.vsat (h : Hart) (rd b : Nat) (vm : Bool) (max : Nat) (f : Nat → Nat × Bool) : Hart :=
  let hit := (List.range h.vl).any fun i => decide (h.vstart ≤ i) && h.active vm i && (f i).2
  let r := h.vbody rd b vm max fun i => (f i).1
  if hit then { r with vxsat := true } else r

/-! ## Integer instructions -/

/-- OPIVV, OPIVX and OPIVI by funct6: a is element i of vs2 and b the other operand. -/
def viOp (h : Hart) (m : TidyMem) (w : Nat) : TidyRes :=
  let f3 := bits w 14 12
  let f6 := bits w 31 26
  let vm := bit w 25
  let rd := bits w 11 7
  let r1 := bits w 19 15
  let r2 := bits w 24 20
  let sw := h.sew
  let b := sw / 8
  let l := h.lmul
  let cap := groupElts l sw
  let isV := decide (f3 = 0)
  let isX := decide (f3 = 4)
  let isI := decide (f3 = 3)
  let imm := tc 64 (sext 5 r1)
  let scalar := if isI then imm else h.gx r1
  let a (i : Nat) : Nat := h.ve r2 b i
  let sa (i : Nat) : Int := h.vs r2 b i
  let c (i : Nat) : Nat := if isV then h.ve r1 b i else scalar % 2 ^ sw
  let sc (i : Nat) : Int := sext sw (c i)
  let sh (i : Nat) : Nat := (if isV then h.ve r1 b i else if isI then r1 else scalar) % sw
  let shn (i : Nat) : Nat := (if isV then h.ve r1 b i else if isI then r1 else scalar) % (2 * sw)
  let wa (i : Nat) : Nat := h.ve r2 (2 * b) i
  let swa (i : Nat) : Int := h.vs r2 (2 * b) i
  let groups := groupOk rd l && groupOk r2 l && (!isV || groupOk r1 l)
  let plain (forms : Bool) (f : Nat → Nat) : TidyRes := vrun h m w (forms && groups && offV0 vm rd) (h.vbody rd b vm cap f)
  let sat (forms : Bool) (f : Nat → Nat × Bool) : TidyRes := vrun h m w (forms && groups && offV0 vm rd) (h.vsat rd b vm cap f)
  let maskOver := overlapOk rd 1 0 r2 (2 * b) l && (!isV || overlapOk rd 1 0 r1 (2 * b) l)
  let cmp (forms : Bool) (f : Nat → Bool) : TidyRes :=
    vrun h m w (forms && groupOk r2 l && (!isV || groupOk r1 l) && maskOver) (h.vmask rd vm f)
  let narrow (f : Hart) : TidyRes :=
    vrun h m w (decide (sw ≤ 16) && groupOk r2 (l + 1) && groupOk rd l && (!isV || groupOk r1 l) && overlapOk rd b l r2 (2 * b) (l + 1) && offV0 vm rd) f
  let carry (i : Nat) : Nat := if vm then 0 else b2n (h.mbit 0 i)
  let pickAt (j : Nat) : Nat := if j < cap then h.ve r2 b j else 0
  match f6 with
  | 0x00 => plain true fun i => (a i + c i) % 2 ^ sw
  | 0x02 => plain (isV || isX) fun i => tc sw ((a i : Int) - c i)
  | 0x03 => plain (isX || isI) fun i => tc sw ((c i : Int) - a i)
  | 0x04 => plain (isV || isX) fun i => min (a i) (c i)
  | 0x05 => plain (isV || isX) fun i => tc sw (min (sa i) (sc i))
  | 0x06 => plain (isV || isX) fun i => max (a i) (c i)
  | 0x07 => plain (isV || isX) fun i => tc sw (max (sa i) (sc i))
  | 0x09 => plain true fun i => a i &&& c i
  | 0x0A => plain true fun i => a i ||| c i
  | 0x0B => plain true fun i => a i ^^^ c i
  | 0x0C => vrun h m w (groups && offV0 vm rd && decide (rd ≠ r2) && (!isV || decide (rd ≠ r1)))
      (h.vbody rd b vm cap fun i => pickAt (if isV then h.ve r1 b i else if isI then r1 else scalar))
  | 0x0E =>
    if isV then
      let k : Int := l + 1 - (bits h.vtype 5 3 : Nat)
      vrun h m w (groupOk rd l && groupOk r2 l && groupOk r1 k && offV0 vm rd && decide (rd ≠ r2) && decide (rd + groupRegs l ≤ r1 ∨ r1 + groupRegs k ≤ rd))
        (h.vbody rd b vm cap fun i => pickAt (h.ve r1 2 i))
    else
      let n := if isI then r1 else scalar
      vrun h m w (groups && offV0 vm rd && decide (rd ≠ r2)) (h.vbody rd b vm cap fun i => if i < n then h.ve rd b i else h.ve r2 b (i - n))
  | 0x0F =>
    let n := if isI then r1 else scalar
    plain (isX || isI) fun i => pickAt (i + n)
  | 0x10 => vrun h m w (!vm && groups && decide (rd ≠ 0)) (h.vbody rd b true cap fun i => (a i + c i + carry i) % 2 ^ sw)
  | 0x11 => vrun h m w (groupOk r2 l && (!isV || groupOk r1 l) && maskOver) (h.vmask rd true fun i => decide (2 ^ sw ≤ a i + c i + carry i))
  | 0x12 => vrun h m w ((isV || isX) && !vm && groups && decide (rd ≠ 0)) (h.vbody rd b true cap fun i => tc sw ((a i : Int) - c i - carry i))
  | 0x13 => vrun h m w ((isV || isX) && groupOk r2 l && (!isV || groupOk r1 l) && maskOver) (h.vmask rd true fun i => decide (a i < c i + carry i))
  | 0x17 =>
    if vm then vrun h m w (groupOk rd l && (!isV || groupOk r1 l) && decide (r2 = 0)) (h.vbody rd b true cap c)
    else vrun h m w (groups && decide (rd ≠ 0)) (h.vbody rd b true cap fun i => if h.mbit 0 i then c i else a i)
  | 0x18 => cmp true fun i => decide (a i = c i)
  | 0x19 => cmp true fun i => decide (a i ≠ c i)
  | 0x1A => cmp (isV || isX) fun i => decide (a i < c i)
  | 0x1B => cmp (isV || isX) fun i => decide (sa i < sc i)
  | 0x1C => cmp true fun i => decide (a i ≤ c i)
  | 0x1D => cmp true fun i => decide (sa i ≤ sc i)
  | 0x1E => cmp (isX || isI) fun i => decide (c i < a i)
  | 0x1F => cmp (isX || isI) fun i => decide (sc i < sa i)
  | 0x20 => sat true fun i => satTo false sw ((a i : Int) + c i)
  | 0x21 => sat true fun i => satTo true sw (sa i + sc i)
  | 0x22 => sat (isV || isX) fun i => satTo false sw ((a i : Int) - c i)
  | 0x23 => sat (isV || isX) fun i => satTo true sw (sa i - sc i)
  | 0x25 => plain true fun i => a i * 2 ^ sh i % 2 ^ sw
  | 0x27 =>
    if isI then
      let n := r1 + 1
      vrun h m w (vm && [1, 2, 4, 8].contains n && decide (rd % n = 0) && decide (r2 % n = 0))
        { (List.range (32 * n / b)).foldl (fun h1 i => if h.vstart ≤ i then h1.setVe rd b i (h.ve r2 b i) else h1) h with vstart := 0 }
    else sat true fun i => satTo true sw (roundShift h.vxrm (sa i * sc i) (sw - 1))
  | 0x28 => plain true fun i => a i / 2 ^ sh i
  | 0x29 => plain true fun i => tc sw (sa i / 2 ^ sh i)
  | 0x2A => plain true fun i => tc sw (roundShift h.vxrm (a i) (sh i))
  | 0x2B => plain true fun i => tc sw (roundShift h.vxrm (sa i) (sh i))
  | 0x2C => narrow (h.vbody rd b vm cap fun i => wa i / 2 ^ shn i % 2 ^ sw)
  | 0x2D => narrow (h.vbody rd b vm cap fun i => tc sw (swa i / 2 ^ shn i))
  | 0x2E => narrow (h.vsat rd b vm cap fun i => satTo false sw (roundShift h.vxrm (wa i) (shn i)))
  | 0x2F => narrow (h.vsat rd b vm cap fun i => satTo true sw (roundShift h.vxrm (swa i) (shn i)))
  | 0x30 => vrun h m w (isV && decide (sw ≤ 16) && groupOk r2 l && decide (h.vstart = 0))
      (if h.vl = 0 then h else (h.setVe rd (2 * b) 0 ((List.range h.vl).foldl (fun t i => if h.active vm i then (t + a i) % 2 ^ (2 * sw) else t) (h.ve r1 (2 * b) 0))).vtail rd (2 * b) 1 (256 / (2 * sw)))
  | 0x31 => vrun h m w (isV && decide (sw ≤ 16) && groupOk r2 l && decide (h.vstart = 0))
      (if h.vl = 0 then h else (h.setVe rd (2 * b) 0 ((List.range h.vl).foldl (fun t i => if h.active vm i then tc (2 * sw) ((t : Int) + sa i) else t) (h.ve r1 (2 * b) 0))).vtail rd (2 * b) 1 (256 / (2 * sw)))
  | _ => illegal w

/-- OPMVV and OPMVX by funct6. -/
def vmOp (h : Hart) (m : TidyMem) (w : Nat) : TidyRes :=
  let f6 := bits w 31 26
  let vm := bit w 25
  let rd := bits w 11 7
  let r1 := bits w 19 15
  let r2 := bits w 24 20
  let sw := h.sew
  let b := sw / 8
  let l := h.lmul
  let cap := groupElts l sw
  let isV := decide (bits w 14 12 = 2)
  let a (i : Nat) : Nat := h.ve r2 b i
  let sa (i : Nat) : Int := h.vs r2 b i
  let c (i : Nat) : Nat := if isV then h.ve r1 b i else h.gx r1 % 2 ^ sw
  let sc (i : Nat) : Int := sext sw (c i)
  let d (i : Nat) : Nat := h.ve rd b i
  let wd (i : Nat) : Nat := h.ve rd (2 * b) i
  let wa (i : Nat) : Nat := h.ve r2 (2 * b) i
  let groups := groupOk rd l && groupOk r2 l && (!isV || groupOk r1 l)
  let plain (forms : Bool) (f : Nat → Nat) : TidyRes := vrun h m w (forms && groups && offV0 vm rd) (h.vbody rd b vm cap f)
  let reduce (f : Nat → Nat → Nat) : TidyRes := vrun h m w (isV && groupOk r2 l && decide (h.vstart = 0))
    (if h.vl = 0 then h else (h.setVe rd b 0 ((List.range h.vl).foldl (fun t i => if h.active vm i then f t (a i) else t) (h.ve r1 b 0))).vtail rd b 1 (256 / sw))
  let wide (f : Nat → Int) : TidyRes :=
    vrun h m w (decide (sw ≤ 16) && groupOk rd (l + 1) && groupOk r2 l && (!isV || groupOk r1 l) && overlapOk rd (2 * b) (l + 1) r2 b l && (!isV || overlapOk rd (2 * b) (l + 1) r1 b l) && offV0 vm rd)
      (h.vbody rd (2 * b) vm cap fun i => tc (2 * sw) (f i))
  let wideW (f : Nat → Int) : TidyRes :=
    vrun h m w (decide (sw ≤ 16) && groupOk rd (l + 1) && groupOk r2 (l + 1) && (!isV || (groupOk r1 l && overlapOk rd (2 * b) (l + 1) r1 b l)) && offV0 vm rd)
      (h.vbody rd (2 * b) vm cap fun i => tc (2 * sw) (f i))
  let maskOp (f : Bool → Bool → Bool) : TidyRes :=
    vrun h m w (isV && vm) (h.vmask rd true fun i => f (h.mbit r2 i) (h.mbit r1 i))
  let extend (k : Nat) (signed : Bool) : TidyRes :=
    let kl : Int := l - (if k = 4 then 2 else 1)
    vrun h m w (isV && decide (8 * k ≤ sw) && groupOk rd l && groupOk r2 kl && overlapOk rd b l r2 (b / k) kl && offV0 vm rd)
      (h.vbody rd b vm cap fun i => if signed then tc sw (h.vs r2 (b / k) i) else h.ve r2 (b / k) i)
  let first := (List.range h.vl).find? fun i => h.active vm i && h.mbit r2 i
  let setFirst (before at_ : Bool) : TidyRes :=
    vrun h m w (decide (h.vstart = 0) && decide (rd ≠ r2) && offV0 vm rd) (h.vmask rd vm fun i => match first with
      | none => before
      | some k => if i < k then before else if i = k then at_ else false)
  match f6 with
  | 0x00 => reduce fun t x => (t + x) % 2 ^ sw
  | 0x01 => reduce fun t x => t &&& x
  | 0x02 => reduce fun t x => t ||| x
  | 0x03 => reduce fun t x => t ^^^ x
  | 0x04 => reduce fun t x => min t x
  | 0x05 => reduce fun t x => if sext sw x < sext sw t then x else t
  | 0x06 => reduce fun t x => max t x
  | 0x07 => reduce fun t x => if sext sw t < sext sw x then x else t
  | 0x08 => plain true fun i => tc sw (roundShift h.vxrm ((a i : Int) + c i) 1)
  | 0x09 => plain true fun i => tc sw (roundShift h.vxrm (sa i + sc i) 1)
  | 0x0A => plain true fun i => tc sw (roundShift h.vxrm ((a i : Int) - c i) 1)
  | 0x0B => plain true fun i => tc sw (roundShift h.vxrm (sa i - sc i) 1)
  | 0x0E => vrun h m w (!isV && groups && offV0 vm rd && decide (rd ≠ r2)) (h.vbody rd b vm cap fun i => if i = 0 then c 0 else a (i - 1))
  | 0x0F => plain (!isV) fun i => if i + 1 = h.vl then c 0 else a (i + 1)
  | 0x10 =>
    if !isV then vrun h m w (vm && decide (r2 = 0))
      (if h.vl ≤ h.vstart then { h with vstart := 0 } else { (h.setVe rd b 0 (h.gx r1 % 2 ^ sw)).vtail rd b 1 (256 / sw) with vstart := 0 })
    else if r1 = 0 then vrun h m w vm { h.sx rd (tc 64 (h.vs r2 b 0)) with vstart := 0 }
    else if r1 = 0x10 then vrun h m w (decide (h.vstart = 0)) (h.sx rd ((List.range h.vl).filter fun i => h.active vm i && h.mbit r2 i).length)
    else if r1 = 0x11 then vrun h m w (decide (h.vstart = 0)) (h.sx rd (first.getD (2 ^ 64 - 1)))
    else illegal w
  | 0x12 =>
    match r1 with
    | 4 => extend 4 false
    | 5 => extend 4 true
    | 6 => extend 2 false
    | 7 => extend 2 true
    | _ => illegal w
  | 0x14 =>
    if !isV then illegal w
    else match r1 with
      | 1 => setFirst true false
      | 2 => setFirst false true
      | 3 => setFirst true true
      | 0x10 => vrun h m w (decide (h.vstart = 0) && groupOk rd l && offV0 vm rd && decide (r2 < rd ∨ rd + groupRegs l ≤ r2))
          (h.vbody rd b vm cap fun i => ((List.range i).filter fun j => h.active vm j && h.mbit r2 j).length % 2 ^ sw)
      | 0x11 => vrun h m w (decide (r2 = 0) && groupOk rd l && offV0 vm rd) (h.vbody rd b vm cap fun i => i % 2 ^ sw)
      | _ => illegal w
  | 0x17 =>
    let picked := (List.range h.vl).filter fun i => h.mbit r1 i
    vrun h m w (isV && vm && decide (h.vstart = 0) && groupOk rd l && groupOk r2 l && decide (rd ≠ r2) && decide (r1 < rd ∨ rd + groupRegs l ≤ r1))
      (if h.vl = 0 then h
       else ((picked.zip (List.range picked.length)).foldl (fun h1 p => h1.setVe rd b p.2 (a p.1)) h).vtail rd b picked.length cap)
  | 0x18 => maskOp fun x y => x && !y
  | 0x19 => maskOp fun x y => x && y
  | 0x1A => maskOp fun x y => x || y
  | 0x1B => maskOp fun x y => x != y
  | 0x1C => maskOp fun x y => x || !y
  | 0x1D => maskOp fun x y => !(x && y)
  | 0x1E => maskOp fun x y => !(x || y)
  | 0x1F => maskOp fun x y => x == y
  | 0x20 => plain true fun i => divOp sw false false (a i) (c i) % 2 ^ sw
  | 0x21 => plain true fun i => divOp sw true false (a i) (c i) % 2 ^ sw
  | 0x22 => plain true fun i => divOp sw false true (a i) (c i) % 2 ^ sw
  | 0x23 => plain true fun i => divOp sw true true (a i) (c i) % 2 ^ sw
  | 0x24 => plain true fun i => a i * c i / 2 ^ sw
  | 0x25 => plain true fun i => a i * c i % 2 ^ sw
  | 0x26 => plain true fun i => tc sw (sa i * c i / 2 ^ sw)
  | 0x27 => plain true fun i => tc sw (sa i * sc i / 2 ^ sw)
  | 0x29 => plain true fun i => (c i * d i + a i) % 2 ^ sw
  | 0x2B => plain true fun i => tc sw ((a i : Int) - c i * d i)
  | 0x2D => plain true fun i => (c i * a i + d i) % 2 ^ sw
  | 0x2F => plain true fun i => tc sw ((d i : Int) - c i * a i)
  | 0x30 => wide fun i => (a i : Int) + c i
  | 0x31 => wide fun i => sa i + sc i
  | 0x32 => wide fun i => (a i : Int) - c i
  | 0x33 => wide fun i => sa i - sc i
  | 0x34 => wideW fun i => (wa i : Int) + c i
  | 0x35 => wideW fun i => (wa i : Int) + sc i
  | 0x36 => wideW fun i => (wa i : Int) - c i
  | 0x37 => wideW fun i => (wa i : Int) - sc i
  | 0x38 => wide fun i => (a i : Int) * c i
  | 0x3A => wide fun i => sa i * c i
  | 0x3B => wide fun i => sa i * sc i
  | 0x3C => wide fun i => (wd i : Int) + c i * a i
  | 0x3D => wide fun i => (wd i : Int) + sc i * sa i
  | 0x3E => if isV then illegal w else wide fun i => (wd i : Int) + c i * sa i
  | 0x3F => wide fun i => (wd i : Int) + sc i * a i
  | _ => illegal w

/-! ## Floating-point instructions -/

/-- The estimates of 1 / x and 1 / √x to 7 bits, by the top 7 bits of the operand. -/
def rec7Table : List Nat :=
  [127, 125, 123, 121, 119, 117, 116, 114, 112, 110, 109, 107, 105, 104, 102, 100, 99, 97, 96, 94, 93, 91, 90, 88, 87, 85, 84, 83, 81, 80, 79, 77] ++
  [76, 75, 74, 72, 71, 70, 69, 68, 66, 65, 64, 63, 62, 61, 60, 59, 58, 57, 56, 55, 54, 53, 52, 51, 50, 49, 48, 47, 46, 45, 44, 43] ++
  [42, 41, 40, 40, 39, 38, 37, 36, 35, 35, 34, 33, 32, 31, 31, 30, 29, 28, 28, 27, 26, 25, 25, 24, 23, 23, 22, 21, 21, 20, 19, 19] ++
  [18, 17, 17, 16, 15, 15, 14, 14, 13, 12, 12, 11, 11, 10, 9, 9, 8, 8, 7, 7, 6, 5, 5, 4, 4, 3, 3, 2, 2, 1, 1, 0]

/-- The estimates for square roots: an even exponent field first. -/
def rsqrt7Table : List Nat :=
  [52, 51, 50, 48, 47, 46, 44, 43, 42, 41, 40, 39, 38, 36, 35, 34, 33, 32, 31, 30, 30, 29, 28, 27, 26, 25, 24, 23, 23, 22, 21, 20] ++
  [19, 19, 18, 17, 16, 16, 15, 14, 14, 13, 12, 12, 11, 10, 10, 9, 9, 8, 7, 7, 6, 6, 5, 4, 4, 3, 3, 2, 2, 1, 1, 0] ++
  [127, 125, 123, 121, 119, 118, 116, 114, 113, 111, 109, 108, 106, 105, 103, 102, 100, 99, 97, 96, 95, 93, 92, 91, 90, 88, 87, 86, 85, 84, 83, 82] ++
  [80, 79, 78, 77, 76, 75, 74, 73, 72, 71, 70, 70, 69, 68, 67, 66, 65, 64, 63, 63, 62, 61, 60, 59, 59, 58, 57, 56, 56, 55, 54, 53]

/-- A finite nonzero FP32 code with its fraction brought to 1.f: exponent field (below 1 for a subnormal) and fraction. -/
def normalised (v : Nat) : Int × Nat :=
  if Fp.expo fp32 v ≠ 0 then (Fp.expo fp32 v, Fp.frac fp32 v)
  else
    let n := 23 - (Fp.frac fp32 v).log2
    (1 - n, Fp.frac fp32 v * 2 ^ n % 2 ^ 23)

/-- VFRSQRT7. -/
def rsqrt7 (v : Nat) : FpRes :=
  match Fp.value fp32 v with
  | .nan s => (Fp.nan fp32, if s then 16 else 0)
  | .inf s => if s then Fp.invalid fp32 else (0, 0)
  | .fin s n _ =>
    if n = 0 then (Fp.inf fp32 s, 8)
    else if s then Fp.invalid fp32
    else
      let p := normalised v
      let j := (p.1 % 2).toNat * 64 + p.2 / 2 ^ 17
      (((380 - p.1) / 2).toNat * 2 ^ 23 + (rsqrt7Table[j]?).getD 0 * 2 ^ 16, 0)

/-- VFREC7. -/
def rec7 (rm v : Nat) : FpRes :=
  match Fp.value fp32 v with
  | .nan s => (Fp.nan fp32, if s then 16 else 0)
  | .inf s => (Fp.zero fp32 s, 0)
  | .fin s n _ =>
    if n = 0 then (Fp.inf fp32 s, 8)
    else
      let p := normalised v
      if p.1 < -1 then
        (if rm = 1 ∨ (rm = 2 ∧ !s) ∨ (rm = 3 ∧ s) then Fp.inf fp32 s - 1 else Fp.inf fp32 s, 5)
      else
        let e := 253 - p.1
        let f := (rec7Table[p.2 / 2 ^ 16]?).getD 0 * 2 ^ 16
        let r := if e = 0 then (f + 2 ^ 23) / 2 else if e = -1 then (f + 2 ^ 23) / 4 else e.toNat * 2 ^ 23 + f
        (Fp.zero fp32 s + r, 0)

/-- An element-wise floating-point result with its flags. -/
def Hart.vfp (h : Hart) (rd b : Nat) (vm : Bool) (cap : Nat) (f : Nat → FpRes) : Hart :=
  let fl := (List.range h.vl).foldl (fun t i => if h.vstart ≤ i ∧ h.active vm i then t ||| (f i).2 else t) 0
  (h.vbody rd b vm cap fun i => (f i).1).raise fl

/-- OPFVV and OPFVF by funct6. Widening forms are illegal instructions (R299). -/
def vfOp (h : Hart) (m : TidyMem) (w : Nat) : TidyRes :=
  let f6 := bits w 31 26
  let vm := bit w 25
  let rd := bits w 11 7
  let r1 := bits w 19 15
  let r2 := bits w 24 20
  let l := h.lmul
  let cap := groupElts l 32
  let isV := decide (bits w 14 12 = 1)
  let on := h.fpOn && decide (h.sew = 32)
  let a (i : Nat) : Nat := h.ve r2 4 i
  let c (i : Nat) : Nat := if isV then h.ve r1 4 i else h.gf r1
  let d (i : Nat) : Nat := h.ve rd 4 i
  let x (i : Nat) : Fv := Fp.value fp32 (a i)
  let y (i : Nat) : Fv := Fp.value fp32 (c i)
  let z (i : Nat) : Fv := Fp.value fp32 (d i)
  let groups := groupOk rd l && groupOk r2 l && (!isV || groupOk r1 l)
  let rounded := decide (h.frm ≤ 4)
  let plain (forms : Bool) (f : Nat → FpRes) : TidyRes := vrun h m w (on && forms && groups && offV0 vm rd) (h.vfp rd 4 vm cap f)
  let one (forms : Bool) (f : Nat → FpRes) : TidyRes :=
    vrun h m w (on && forms && groupOk rd l && groupOk r2 l && offV0 vm rd) (h.vfp rd 4 vm cap f)
  let fma (p q r : Nat → Fv) : TidyRes := plain rounded fun i => Fp.fmaV fp32 h.frm (p i) (q i) (r i)
  let neg (f : Nat → Fv) (i : Nat) : Fv := Fp.flip (f i)
  let reduce (forms : Bool) (f : Nat → Nat → FpRes) : TidyRes :=
    let r := (List.range h.vl).foldl (fun (t : FpRes) i => if h.active vm i then let p := f t.1 (a i); (p.1, t.2 ||| p.2) else t) (h.ve r1 4 0, 0)
    vrun h m w (on && isV && forms && groupOk r2 l && decide (h.vstart = 0)) (if h.vl = 0 then h else ((h.setVe rd 4 0 r.1).vtail rd 4 1 8).raise r.2)
  let sum (t v : Nat) : FpRes := Fp.addV fp32 h.frm (Fp.value fp32 t) (Fp.value fp32 v)
  let cmp (forms : Bool) (f : Nat → FpRes) : TidyRes :=
    let fl := (List.range h.vl).foldl (fun t i => if h.vstart ≤ i ∧ h.active vm i then t ||| (f i).2 else t) 0
    vrun h m w (on && forms && groupOk r2 l && (!isV || groupOk r1 l) && overlapOk rd 1 0 r2 4 l && (!isV || overlapOk rd 1 0 r1 4 l))
      ((h.vmask rd vm fun i => decide ((f i).1 = 1)).raise fl)
  let narrow (forms : Bool) (f : Nat → FpRes) : TidyRes :=
    vrun h m w (h.fpOn && forms && decide (h.sew = 16) && groupOk r2 (l + 1) && groupOk rd l && overlapOk rd 2 l r2 4 (l + 1) && offV0 vm rd)
      (h.vfp rd 2 vm (groupElts l 16) f)
  match f6 with
  | 0x00 => plain rounded fun i => Fp.addV fp32 h.frm (x i) (y i)
  | 0x01 => reduce rounded sum
  | 0x02 => plain rounded fun i => Fp.addV fp32 h.frm (x i) (Fp.flip (y i))
  | 0x03 => reduce rounded sum
  | 0x04 => plain true fun i => Fp.minMax fp32 false (a i) (c i)
  | 0x05 => reduce true fun t v => Fp.minMax fp32 false t v
  | 0x06 => plain true fun i => Fp.minMax fp32 true (a i) (c i)
  | 0x07 => reduce true fun t v => Fp.minMax fp32 true t v
  | 0x08 => plain true fun i => (Fp.sgnj fp32 0 (a i) (c i), 0)
  | 0x09 => plain true fun i => (Fp.sgnj fp32 1 (a i) (c i), 0)
  | 0x0A => plain true fun i => (Fp.sgnj fp32 2 (a i) (c i), 0)
  | 0x0E => vrun h m w (on && !isV && groups && offV0 vm rd && decide (rd ≠ r2)) (h.vbody rd 4 vm cap fun i => if i = 0 then c 0 else a (i - 1))
  | 0x0F => plain (!isV) fun i => (if i + 1 = h.vl then c 0 else a (i + 1), 0)
  | 0x10 =>
    if isV then vrun h m w (on && vm && decide (r1 = 0)) { h.sf rd (h.ve r2 4 0) with vstart := 0 }
    else vrun h m w (on && vm && decide (r2 = 0))
      (if h.vl ≤ h.vstart then { h with vstart := 0 } else { (h.setVe rd 4 0 (h.gf r1)).vtail rd 4 1 8 with vstart := 0 })
  | 0x12 =>
    if !isV then illegal w
    else match r1 with
      | 0x00 => one rounded fun i => Fp.toInt fp32 h.frm 32 false (a i)
      | 0x01 => one rounded fun i => Fp.toInt fp32 h.frm 32 true (a i)
      | 0x02 => one rounded fun i => Fp.ofInt fp32 h.frm (a i : Nat)
      | 0x03 => one rounded fun i => Fp.ofInt fp32 h.frm (sext 32 (a i))
      | 0x06 => one true fun i => Fp.toInt fp32 1 32 false (a i)
      | 0x07 => one true fun i => Fp.toInt fp32 1 32 true (a i)
      | 0x10 => narrow rounded fun i => Fp.toInt fp32 h.frm 16 false (a i)
      | 0x11 => narrow rounded fun i => Fp.toInt fp32 h.frm 16 true (a i)
      | 0x16 => narrow true fun i => Fp.toInt fp32 1 16 false (a i)
      | 0x17 => narrow true fun i => Fp.toInt fp32 1 16 true (a i)
      | _ => illegal w
  | 0x13 =>
    if !isV then illegal w
    else match r1 with
      | 0x00 => one rounded fun i => Fp.sqrtV fp32 h.frm (x i)
      | 0x04 => one true fun i => rsqrt7 (a i)
      | 0x05 => one rounded fun i => rec7 h.frm (a i)
      | 0x10 => one true fun i => (Fp.classify fp32 (a i), 0)
      | _ => illegal w
  | 0x17 =>
    if vm then vrun h m w (on && !isV && groupOk rd l && decide (r2 = 0)) (h.vbody rd 4 true cap c)
    else vrun h m w (on && !isV && groups && decide (rd ≠ 0)) (h.vbody rd 4 true cap fun i => if h.mbit 0 i then c i else a i)
  | 0x18 => cmp true fun i => Fp.cmp fp32 0 (a i) (c i)
  | 0x19 => cmp true fun i => Fp.cmp fp32 2 (a i) (c i)
  | 0x1B => cmp true fun i => Fp.cmp fp32 1 (a i) (c i)
  | 0x1C => cmp true fun i => let r := Fp.cmp fp32 0 (a i) (c i); (1 - r.1, r.2)
  | 0x1D => cmp (!isV) fun i => Fp.cmp fp32 1 (c i) (a i)
  | 0x1F => cmp (!isV) fun i => Fp.cmp fp32 2 (c i) (a i)
  | 0x20 => plain rounded fun i => Fp.divV fp32 h.frm (x i) (y i)
  | 0x21 => plain (rounded && !isV) fun i => Fp.divV fp32 h.frm (y i) (x i)
  | 0x24 => plain rounded fun i => Fp.mulV fp32 h.frm (x i) (y i)
  | 0x27 => plain (rounded && !isV) fun i => Fp.addV fp32 h.frm (y i) (Fp.flip (x i))
  | 0x28 => fma y z x
  | 0x29 => fma (neg y) z (neg x)
  | 0x2A => fma y z (neg x)
  | 0x2B => fma (neg y) z x
  | 0x2C => fma y x z
  | 0x2D => fma (neg y) x (neg z)
  | 0x2E => fma y x (neg z)
  | 0x2F => fma (neg y) x z
  | _ => illegal w

/-! ## Loads and stores -/

/-- The element width in bytes that a width code gives; 64-bit elements are beyond ELEN. -/
def widthBytes (f3 : Nat) : Option Nat := match f3 with
  | 0 => some 1
  | 5 => some 2
  | 6 => some 4
  | _ => none

/-- One element moved between memory and a register group; ff stops the vector at a fault past element 0. -/
def moveElt (store : Bool) (b rd i a : Nat) (h : Hart) (m : TidyMem) : TidyRes :=
  if store then storeN h m a b (h.ve rd b i)
  else match loadN h m a b with
    | .error t => .error t
    | .ok v => .ok (h.setVe rd b i v, m)

/-- Segments from i on: n more, nf fields of each; a fault leaves vstart at its element, or ends the vector there (ff). -/
def moveSegs (store ff vm : Bool) (b rd step nf : Nat) (addr : Nat → Nat → Nat) : Nat → Nat → Hart → TidyMem → Except (Trap × Hart) (Hart × TidyMem)
  | 0, _, h, m => .ok (h, m)
  | n + 1, i, h, m =>
    let r : TidyRes :=
      if i < h.vstart || !h.active vm i then .ok (h, m)
      else (List.range nf).foldl (fun (r : TidyRes) k => match r with
        | .error t => .error t
        | .ok p => moveElt store b (rd + step * k) i (addr i k) p.1 p.2) (.ok (h, m))
    match r with
    | .error t => if ff ∧ i ≠ 0 then .ok ({ h with vl := i }, m) else .error (t, { h with vstart := i })
    | .ok p => moveSegs store ff vm b rd step nf addr n (i + 1) p.1 p.2

/-- Vector loads and stores: unit-stride, strided, indexed, segments, whole registers, masks and fault-only-first. -/
def vMem (h : Hart) (m : TidyMem) (w : Nat) : TidyRes :=
  let store := decide (w % 128 = 0x27)
  let nf := bits w 31 29 + 1
  let mop := bits w 27 26
  let vm := bit w 25
  let lum := bits w 24 20
  let base := h.gx (bits w 19 15)
  let rd := bits w 11 7
  let go (h0 : Hart) (vm ff : Bool) (b step nf n : Nat) (addr : Nat → Nat → Nat) : TidyRes :=
    match moveSegs store ff vm b rd step nf addr n 0 h0 m with
    | .error (t, _) => .error t
    | .ok p => .ok ({ p.1 with vl := if ff then p.1.vl else h.vl, vstart := 0 }, p.2)
  if !h.vecOn || bits w 28 28 ≠ 0 then illegal w
  else match widthBytes (bits w 14 12) with
    | none => illegal w
    | some e =>
      if mop = 0 ∧ lum = 8 then
        (if vm ∧ [1, 2, 4, 8].contains nf ∧ rd % nf = 0 ∧ (store → e = 1) then go h true false e nf 1 (32 * nf / e) fun i _ => (base + e * i) % 2 ^ 64
         else illegal w)
      else if h.vill then illegal w
      else if mop = 0 ∧ lum = 0xB then
        (if vm ∧ nf = 1 ∧ e = 1 then go h true false 1 1 1 ((h.vl + 7) / 8) fun i _ => (base + i) % 2 ^ 64 else illegal w)
      else
        let indexed := mop % 2 = 1
        let b := if indexed then h.sew / 8 else e
        let el := bits h.vtype 5 3
        let il : Int := h.lmul - el + (match e with | 1 => 0 | 2 => 1 | _ => 2)
        let l : Int := if indexed then h.lmul else il
        let step := groupRegs l
        let form := groupOk rd l && decide (nf * step ≤ 8) && decide (rd + nf * step ≤ 32) && (store || offV0 vm rd)
        let ff := decide (mop = 0 ∧ lum = 0x10)
        if !form then illegal w
        else if mop = 0 then
          (if lum = 0 ∨ (ff ∧ ¬ store) then go h vm ff b step nf h.vl fun i k => (base + b * (nf * i + k)) % 2 ^ 64 else illegal w)
        else if mop = 2 then
          go h vm false b step nf h.vl fun i k => tc 64 ((base : Int) + s64 (h.gx lum) * i + b * k)
        else if groupOk lum il && (store || decide (nf = 1) || decide (rd + nf * step ≤ lum ∨ lum + groupRegs il ≤ rd)) &&
            (store || overlapOk rd b l lum e il) then
          go h vm false b step nf h.vl fun i k => (base + h.ve lum e i + b * k) % 2 ^ 64 % 2 ^ 64
        else illegal w

/-- A vector instruction (R297). -/
def vExec (h : Hart) (m : TidyMem) (w : Nat) : TidyRes :=
  if w % 128 ≠ 0x57 then vMem h m w
  else match bits w 14 12 with
    | 7 => if h.vecOn then vsetOp h m w else illegal w
    | 1 => vfOp h m w
    | 5 => vfOp h m w
    | 2 => vmOp h m w
    | 6 => vmOp h m w
    | _ => viOp h m w

/-! ## Program code -/

/-- The value of a register of a logical core when program code first runs: free (R286). -/
def tidyStart (core r : Nat) : Nat := Config.given 301 [core, r]

/-- The address that a part of a layer returns to when it is done: free (R286). -/
def tidyExit : Nat := Config.given 302 [] % 2 ^ 48 * 2

/-- A logical core as firmware leaves it before its program's first part: user mode, floating point and vectors on, and the PMP open, where R298
itself bounds the code's reach. -/
def Hart.start (core : Nat) : Hart :=
  { x := (List.range 32).map fun r => BitVec.ofNat 64 (tidyStart core r), f := (List.range 32).map fun r => BitVec.ofNat 32 (tidyStart core (32 + r)),
    v := (List.range 1024).map fun r => BitVec.ofNat 8 (tidyStart core (64 + r)), mstatus := 0x2200, mtvec := Config.given 303 [] % 2 ^ 48 * 4,
    pmpcfg := 0x1F :: List.replicate 15 0, pmpaddr := (2 ^ 54 - 1) :: List.replicate 15 0 }

/-- A logical core at the entry of a part: at the code-section offset, with its return address in x1. -/
def Hart.enter (h : Hart) (off : Nat) : Hart := { (h.sx 1 tidyExit) with pc := (tidyBase 0 + off) % 2 ^ 64, mode := .user, reservation := none }

/-- Whether two spans meet. -/
def spansMeet (a n b k : Nat) : Bool := decide (a < b + k ∧ b < a + n)

/-- A hart without its reservation where another core has stored to it. -/
def Hart.dropReservation (h : Hart) (wrote : List (Nat × Nat)) : Hart :=
  match h.reservation with
  | none => h
  | some (a, n) => if wrote.any fun p => spansMeet a n p.1 p.2 then { h with reservation := none } else h

/-- The logical cores run until each is at the return address: which core takes each next instruction is free (R286, R299). A trap ends the
program with its cause; none answers where the code is still running after the instructions of an operation's time. -/
def tidyGo : Nat → Nat → List Hart → TidyMem → Except (Option Nat) (List Hart × TidyMem)
  | 0, _, hs, m => if hs.all fun h => h.pc == tidyExit then .ok (hs, m) else .error none
  | k + 1, n, hs, m =>
    let live := (List.range hs.length).filter fun i => ((hs[i]?).getD {}).pc ≠ tidyExit
    match live[Config.given 304 [n] % max 1 live.length]? with
    | none => .ok (hs, m)
    | some i =>
      let r := ((hs[i]?).getD {}).step vExec m
      if r.1.mode = .machine then .error (some r.1.mcause)
      else tidyGo k (n + 1) ((hs.zip (List.range hs.length)).map fun p => if p.2 = i then r.1 else p.1.dropReservation r.2.wrote) { r.2 with wrote := [] }

/-- Instructions that the logical cores may take for a part of a layer before the operation's time is over: free (R94). -/
def tidySteps : Nat := Config.given 305 []

/-- Code on the tidy cores from a code-section offset: the cores and buffers after it, the trap cause, or none where it has not ended
(R286, R296 to R299). -/
def tidyRun (code : List Byte) (plan : List (List Byte)) (entry : Nat) (hs : List Hart) (bufs : List (List Byte)) :
    Except (Option Nat) (List Hart × List (List Byte)) :=
  match tidyGo tidySteps 0 (hs.map fun h => h.enter entry) { code := code, plan := plan, bufs := bufs } with
  | .error c => .error c
  | .ok (hs, m) => .ok (hs, m.bufs)

end Sys2Proof.Machine
end

