-- ==== Sys2Proof/Machine/MatrixOps.lean ====
section
/-! DEFINITION. Program images, weight sets and INFER (R282 to R301). -/

namespace Sys2Proof.Machine

/-! ## Program images (R283 to R288) -/

/-- The counts and offsets of a program header (R283). -/
structure ProgHead where
  slots : Nat := 0
  inputs : Nat := 0
  outputs : Nat := 0
  depth : Nat := 0
  matrix : Nat := 0
  tidy : Nat := 0
  layers : Nat := 0
  code : Nat × Nat := (0, 0)
  tiles : Nat × Nat := (0, 0)
  prefetch : Nat × Nat := (0, 0)
  plan : Nat × Nat := (0, 0)
  slotOff : Nat := 0
  ioOff : Nat := 0
  pond : Nat := 0
  work : Nat := 0
  deriving DecidableEq, Repr

/-- The header of an image (R283). -/
def progHead (b : List Byte) : ProgHead :=
  { slots := fld b 20 2, inputs := fld b 22 1, outputs := fld b 23 1, depth := fld b 24 1, matrix := fld b 25 1, tidy := fld b 26 1,
    layers := fld b 28 4, code := (fld b 32 4, fld b 36 4), tiles := (fld b 40 4, fld b 44 4), prefetch := (fld b 48 4, fld b 52 4),
    plan := (fld b 56 4, fld b 60 4), slotOff := fld b 64 4, ioOff := fld b 68 4, pond := fld b 72 4, work := fld b 80 8 }

/-- The sections of an image: offset and length. -/
def ProgHead.sections (h : ProgHead) : List (Nat × Nat) :=
  [h.code, (h.tiles.1, 32 * h.tiles.2), (h.prefetch.1, 16 * h.prefetch.2), (h.plan.1, 16 * h.plan.2), (h.slotOff, 16 * h.slots),
    (h.ioOff, 16 * (h.inputs + h.outputs))]

/-- The records of n bytes of a section. -/
def sectionRecs (img : List Byte) (n off count : Nat) : List (List Byte) := cut n count (img.drop off)

/-- The tile records of an image. -/
def progTiles (img : List Byte) : List (List Byte) := sectionRecs img 32 (progHead img).tiles.1 (progHead img).tiles.2

/-- The prefetch records of an image. -/
def progPrefetch (img : List Byte) : List (List Byte) := sectionRecs img 16 (progHead img).prefetch.1 (progHead img).prefetch.2

/-- The buffer records of an image. -/
def progPlan (img : List Byte) : List (List Byte) := sectionRecs img 16 (progHead img).plan.1 (progHead img).plan.2

/-- The weight-slot records of an image. -/
def progSlots (img : List Byte) : List (List Byte) := sectionRecs img 16 (progHead img).slotOff (progHead img).slots

/-- The IO records of an image, inputs first. -/
def progIo (img : List Byte) : List (List Byte) := sectionRecs img 16 (progHead img).ioOff ((progHead img).inputs + (progHead img).outputs)

/-- MAGIC, VERSION, the reserved bytes, IMAGE_BYTES and CRC are right (R283, R288). -/
def progMagic (b : List Byte) (bytes : Nat) : Bool :=
  fld b 0 4 = 0x4752504D && fld b 4 2 = 1 && fld b 6 2 = 0 && fld b 27 1 = 0 && fld b 76 4 = 0 && allZero (slice b 88 36) &&
    decide (128 ≤ bytes ∧ bytes ≤ 268435456) && fld b 16 4 = bytes && fld b 124 4 = crc32 (slice b 0 124 ++ slice b 128 (bytes - 128)) &&
    (progTiles b).all (fun r => fld r 15 1 = 0) && (progPrefetch b).all (fun r => fld r 14 2 = 0) &&
    (progPlan b).all (fun r => fld r 12 4 = 0) && (progSlots b).all (fun r => fld r 6 2 = 0) && (progIo b).all (fun r => fld r 8 8 = 0)

/-- The end of the furthest buffer in the operand buffer of a logical core (R282, R288). -/
def operandEnd (b : List Byte) (core : Nat) : Nat :=
  (progPlan b).foldl (fun m r => if fld r 2 1 = 0 ∧ fld r 3 1 = core then max m (fld r 4 4 + fld r 8 4) else m) 0

/-- The counts of an image lie in their ranges (R283, R288). -/
def progCounts (b : List Byte) : Bool :=
  let h := progHead b
  decide (h.slots ≤ 4096) && within 1 16 h.inputs && within 1 16 h.outputs && within 1 4 h.depth && within 1 4 h.matrix && within 1 8 h.tidy &&
    within 1 65535 h.layers && decide (h.code.2 ≤ 1048576) && within 1 4096 h.plan.2 && decide (h.pond ≤ 6291456) &&
    (List.range 4).all (fun c => decide (operandEnd b c ≤ 524288)) && (progTiles b).all (fun r => within 32 65536 (fld r 8 4))

/-- Whether an ID names a buffer or, where weights are allowed, a weight slot (R284). -/
def idOk (b : List Byte) (weights : Bool) (id : Nat) : Bool :=
  if id < 0x8000 then (progPlan b).any fun r => fld r 0 2 = id else weights && decide (id - 0x8000 < (progHead b).slots)

/-- Tile b carries the chain of tile a on (R282): same layer, core and output block, the next range of K. -/
def chained (a b : List Byte) : Bool :=
  bit (fld a 1 1) 1 && bit (fld b 1 1) 0 && fld a 2 2 = fld b 2 2 && fld a 14 1 = fld b 14 1 && fld a 24 4 = fld b 24 4 &&
    fld b 28 4 = fld a 28 4 + fld a 8 4

/-- Whether tile i of an image is allowed (R272, R273, R282, R284, R288). -/
def tileOk (b : List Byte) (tiles : List (List Byte)) (i : Nat) (r : List Byte) : Bool :=
  let h := progHead b
  let flags := fld r 1 1
  let epi := fld r 7 1
  within 1 2 (fld r 0 1) && decide (flags < 16) && decide (fld r 2 2 < h.layers) && pairOk (fld r 4 1) (fld r 5 1) && fmtOutput (fld r 6 1) &&
    decide (epi ≤ 3) && fld r 8 4 % 32 = 0 && within 1 14400 (fld r 12 2) && decide (fld r 14 1 < h.matrix) && fld r 28 4 % 512 = 0 &&
    idOk b true (fld r 16 2) && idOk b true (fld r 18 2) && (bit flags 1 || idOk b false (fld r 20 2)) &&
    (epi = 0 || bit flags 1 || idOk b true (fld r 22 2)) &&
    (!bit flags 1 || (tiles.drop (i + 1)).any (chained r)) && (!bit flags 0 || (tiles.take i).any fun a => chained a r)

/-- The bytes a weight slot stores (R285). -/
def storedBytes (r : List Byte) : Nat :=
  let f := fld r 4 1
  let rows := fld r 8 4
  let cols := fld r 12 4
  (rows * cols * fmtBits f + 7) / 8 + (if fmtMx f then (rows + 31) / 32 * cols else 0) +
    (if bit (fld r 5 1) 0 then ((rows + 15) / 16 * ((cols + 15) / 16) + 63) / 64 * 8 else 0)

/-- The records of an image are allowed (R288, the fifth check). -/
def progRecords (b : List Byte) (bytes : Nat) : Bool :=
  let h := progHead b
  let tiles := progTiles b
  sectionsOk h.sections bytes && (tiles.zip (List.range tiles.length)).all (fun p => tileOk b tiles p.2 p.1) &&
    (progPrefetch b).all (fun r => decide (fld r 0 2 < h.layers) && decide (fld r 2 2 < h.slots) && idOk b false (fld r 12 2)) &&
    (progPlan b).all (fun r => decide (fld r 0 2 < 0x8000) && decide (fld r 2 1 ≤ 2) && (fld r 2 1 ≠ 0 || decide (fld r 3 1 < h.matrix))) &&
    (progSlots b).all (fun r => fmtOperand (fld r 4 1) && decide (fld r 5 1 < 2) && fld r 0 4 = storedBytes r) &&
    ((progIo b).zip (List.range (h.inputs + h.outputs))).all
      (fun p => fld p.1 0 1 = (if p.2 < h.inputs then 0 else 1) && (fmtOperand (fld p.1 1 1) || fmtOutput (fld p.1 1 1)) && idOk b false (fld p.1 2 2))

/-- The longest softmax or score row of a plan, in FP32 values (R288): free, as the records do not mark such rows, but no longer than a buffer (DEDUCED). -/
def longestRow (b : List Byte) : Nat := min (Config.softmaxRow b) ((progPlan b).foldl (fun m r => max m (fld r 8 4 / 4)) 0)

/-- The image checks of R288 in order: the row that fails and its outcome. -/
def progCheck (b : List Byte) (bytes : Nat) : Option (Nat × Res) :=
  if !progMagic b bytes then some (3, Res.field 16)
  else if !progCounts b then some (4, Res.bound 0x42)
  else if !progRecords b bytes then some (5, Res.field 16)
  else if 8192 < longestRow b then some (6, Res.bound 0x42)
  else none

/-- The program with a handle. -/
def State.prog (s : State) (h : Nat) : Option Prog := s.matrix.progs.find? fun p => p.handle = h

/-- Change the program with a handle. -/
def State.updProg (s : State) (h : Nat) (f : Prog → Prog) : State :=
  { s with matrix := { s.matrix with progs := updFirst (fun p => p.handle = h) f s.matrix.progs } }

/-- PROGRAM_LOAD (R287, R288). -/
def execProgramLoad (op : Nat) (s : State) : Result :=
  s.runOp op 0x31 fun o =>
    let bytes := o.u32 24
    if o.u64 16 = 0 ∧ bytes = 0 then s
    else if !within 1 4095 o.handle then s.finish op (Res.field 12)
    else if (s.prog o.handle).any fun p => p.fn ≠ o.fn then s.finish op (Res.denied 3)
    else if (s.prog o.handle).isSome then s.finish op (Res.bound 0x40)
    else if 512 ≤ s.matrix.progs.length then s.finish op (Res.bound 0x41)
    else
      let img := s.readMem (o.u64 16) bytes
      match progCheck img bytes with
      | some (row, r) => (s.log (dieUnit 0) 0x0020 4 o.fn o.handle row).finish op r
      | none =>
        if !s.poolFits o.cls (parcelsFor bytes) then (s.spend 1).finish op s.poolShort
        else
          let s := s.syncPool
          let p : Prog := { handle := o.handle, fn := o.fn, image := img }
          { s with matrix := { s.matrix with progs := s.matrix.progs ++ [p] } }.finish op (Res.ok bytes (fld img 8 8))

/-- The dropping form of PROGRAM_LOAD (R289). -/
def execProgramDrop (op : Nat) (s : State) : Result :=
  s.runOp op 0x31 fun o =>
    if o.u64 16 ≠ 0 ∨ o.u32 24 ≠ 0 then s
    else match s.prog o.handle with
      | none => s.finish op (Res.field 12)
      | some p =>
        if p.fn ≠ o.fn then s.finish op (Res.denied 3)
        else if s.ops.list.any fun q => q.opcode = 0x30 && q.handle = o.handle && q.fn = o.fn && q.phase != .final then s.finish op (Res.bound 0x45)
        else (State.syncPool { s with matrix := { s.matrix with progs := s.matrix.progs.filter fun p => p.handle ≠ o.handle } }).finish op (Res.ok 0 0)

/-! ## Weight sets (R290, R291) -/

/-- The current version of a program's weight set; version 0 has nothing bound. -/
def Prog.weights (p : Prog) (set : Nat) : WeightSet :=
  (p.sets.find? fun w => w.set = set).getD { set := set, slots := List.replicate (progHead p.image).slots none }

/-- Whether every slot of a set has been bound (R291). -/
def WeightSet.complete (w : WeightSet) : Bool := w.slots.all Option.isSome

/-- Parcels of a version (R290, R291). -/
def WeightSet.parcels (w : WeightSet) : Nat := (w.slots.map fun v => match v with | some b => parcelsFor b.2.length | none => 0).sum

/-- The STORED_BYTES of the slots of a range. -/
def Prog.sizes (p : Prog) (first count : Nat) : List Nat := (((progSlots p.image).drop first).take count).map fun r => fld r 0 4

/-- Bytes cut into pieces of the given lengths. -/
def cutBy : List Nat → List Byte → List (List Byte)
  | [], _ => []
  | n :: t, b => b.take n :: cutBy t (b.drop n)

/-- Replace slots from first on by new bytes bound by a version. -/
def bindSlots (version first : Nat) (new : List (List Byte)) (slots : List (Option (Nat × List Byte))) : List (Option (Nat × List Byte)) :=
  slots.take first ++ new.map (fun b => some (version, b)) ++ slots.drop (first + new.length)

/-- Put a version in the place of the program's set (R291). -/
def Prog.putSet (p : Prog) (w : WeightSet) : Prog := { p with sets := p.sets.filter (fun x => x.set ≠ w.set) ++ [w] }

/-- The checks that a bind and an unbind share: the handle and the set. -/
def State.useProg (s : State) (o : Op) : Except Res Prog :=
  match s.prog o.handle with
  | none => .error (Res.field 12)
  | some p => if p.fn ≠ o.fn then .error (Res.denied 3) else if 15 < o.u8 16 then .error (Res.field 16) else .ok p

/-- WEIGHTS_BIND (R290, R291): the switch to the new version is the commit point. -/
def execWeightsBind (op : Nat) (s : State) : Result :=
  s.runOp op 0x32 fun o =>
    if bit (o.u8 17) 0 then s
    else match s.useProg o with
      | .error r => s.finish op r
      | .ok p =>
        let first := o.u32 20
        let count := o.u32 24
        let sizes := p.sizes first count
        if count = 0 ∨ (progHead p.image).slots < first + count then s.finish op (Res.field 20)
        else if o.u64 40 ≠ sizes.sum then s.finish op (Res.field 40)
        else if !s.poolFits o.cls (sizes.map parcelsFor).sum then s.finish op (Res.bound 0x43)
        else
          let old := p.weights (o.u8 16)
          let new := cutBy sizes (s.readMem (o.u64 32) (o.u64 40))
          let w : WeightSet := { old with version := old.version + 1, slots := bindSlots (old.version + 1) first new old.slots }
          (((s.syncPool.updProg o.handle fun p => p.putSet w).syncPool).commit op).finish op (Res.ok w.parcels w.version)

/-- The UNBIND form of WEIGHTS_BIND (R290): the whole set is freed. -/
def execWeightsUnbind (op : Nat) (s : State) : Result :=
  s.runOp op 0x32 fun o =>
    if !bit (o.u8 17) 0 then s
    else match s.useProg o with
      | .error r => s.finish op r
      | .ok p =>
        let old := p.weights (o.u8 16)
        let w : WeightSet := { old with version := old.version + 1, slots := old.slots.map fun _ => none }
        (((s.updProg o.handle fun p => p.putSet w).syncPool).commit op).finish op (Res.ok 0 w.version)

/-! ## INFER (R292 to R296) -/

/-- The INFER that runs for an operation. -/
def State.inferOf (s : State) (op : Nat) : Option InferSt := s.matrix.infers.find? fun i => i.op = op

/-- Change the INFER of an operation. -/
def State.updInfer (s : State) (op : Nat) (f : InferSt → InferSt) : State :=
  { s with matrix := { s.matrix with infers := updFirst (fun i => i.op = op) f s.matrix.infers } }

/-- Forget the INFER of an operation. -/
def State.endInfer (s : State) (op : Nat) : State :=
  { s with matrix := { s.matrix with infers := s.matrix.infers.filter fun i => i.op ≠ op } }

/-- Whether a program finds the cores and the pond space it needs on a cluster, beside the other INFERs there (R282, R293). -/
def State.inferFits (s : State) (op cluster : Nat) (h : ProgHead) : Bool :=
  match s.cluster cluster with
  | none => false
  | some c =>
    let heads := (s.matrix.infers.filter fun i => i.cluster = cluster && i.op ≠ op).filterMap fun i => (s.prog i.handle).map fun p => progHead p.image
    c.role = .inService && s.domOn (15 + cluster) && s.domOn (28 + cluster) && decide ((heads.map (·.matrix)).sum + h.matrix ≤ popCount c.matrixIn 5) &&
      decide ((heads.map (·.tidy)).sum + h.tidy ≤ popCount c.tidyIn 10) && decide ((heads.map (·.pond)).sum + h.pond ≤ 6291456)

/-- The pointer of IO record i (R292). -/
def State.ioPointer (s : State) (o : Op) (i : Nat) : Nat := leNat (s.readMem (o.u64 24 + 8 * i) 8)

/-- Whether the function reaches every pointer of the IO table over its length (R324, R325). -/
def State.ioReach (s : State) (o : Op) (io : List (List Byte)) : Bool :=
  (io.zip (List.range io.length)).all fun p => ptrOk (s.ioPointer o p.2) && s.reach o.fn (s.ioPointer o p.2) (fld p.1 4 4)

/-- The place of a buffer in the plan. -/
def bufIndex (plan : List (List Byte)) (id : Nat) : Nat := (plan.findIdx? fun r => fld r 0 2 = id).getD plan.length

/-- bytes put at the start of a buffer, which keeps its length. -/
def putBuf (b new : List Byte) : List Byte := new.take b.length ++ b.drop new.length

/-- The logical tidy cores of a program before its first layer (R293, R297). -/
def startHarts (img : List Byte) : List Hart := (List.range (progHead img).tidy).map Hart.start

/-- The buffers of an INFER with its inputs read into them (R292); what else they hold is free, the same at each start (R104). -/
def State.inferBuffers (s : State) (o : Op) (img : List Byte) : List (List Byte) :=
  let plan := progPlan img
  let bufs := plan.map fun r => (List.range (fld r 8 4)).map fun i => BitVec.ofNat 8 (Config.given 284 [(fld r 0 2 : Int), i])
  let io := (progIo img).take (progHead img).inputs
  (io.zip (List.range io.length)).foldl
    (fun bufs p => updAt (bufIndex plan (fld p.1 2 2)) (fun b => putBuf b (s.readMem (s.ioPointer o p.2) (fld p.1 4 4))) bufs) bufs

/-- Whether an INFER takes the grant of the matrix cores' dispatcher (R53, R81, R293): none of a lower class number waits to start. -/
def State.inferFirst (s : State) (o : Op) : Bool := s.classFirst o fun p => p.opcode = 0x30 && (s.inferOf p.id).isNone

/-- INFER (R292, R293): the placement engine starts an operation on a cluster, or moves a running one at a layer boundary. -/
def execInfer (op cluster : Nat) (s : State) : Result :=
  s.runOp op 0x30 fun o =>
    match s.inferOf op with
    | some i =>
      match s.prog i.handle with
      | none => s
      | some p => if s.inferFits op cluster (progHead p.image) then (s.updInfer op fun i => { i with cluster := cluster }).placed cluster else s
    | none =>
      match s.useProg o with
      | .error r => s.finish op r
      | .ok p =>
        let h := progHead p.image
        let io := progIo p.image
        if h.work = 0 ∧ o.u64 32 ≠ 0 then s.finish op (Res.field 32)
        else if h.work ≠ 0 ∧ ¬ isDev (o.u64 32) then s.finish op (Res.bad 6 32)
        else if h.work ≠ 0 ∧ ¬ s.reach o.fn (o.u64 32) 1 then s.finish op (Res.denied 4)
        else if !s.reach o.fn (o.u64 24) (8 * io.length) || !s.ioReach o io then s.finish op (Res.denied 4)
        else if !(p.weights (o.u8 16)).complete then s.finish op (Res.bound 0x40)
        else if h.work ≠ 0 ∧ ¬ s.reach o.fn (o.u64 32) h.work then s.finish op (Res.bound 0x46)
        else if !s.inferFits op cluster h || !s.inferFirst o then s
        else
          let i : InferSt := { op := op, handle := o.handle, fn := o.fn, weights := p.weights (o.u8 16), cluster := cluster,
                               harts := startHarts p.image, bufs := s.inferBuffers o p.image }
          ({ s with matrix := { s.matrix with infers := s.matrix.infers ++ [i] } }.dispatch o cluster).begin op

/-- The bytes and the record of a source or destination ID (R284). -/
def sourceOf (img : List Byte) (w : WeightSet) (bufs : List (List Byte)) (id : Nat) : List Byte × List Byte :=
  if id < 0x8000 then
    let i := bufIndex (progPlan img) id
    ((bufs[i]?).getD [], ((progPlan img)[i]?).getD [])
  else ((((w.slots[id - 0x8000]?).getD none).map (·.2)).getD [], ((progSlots img)[id - 0x8000]?).getD [])

/-- The running pairs that tiles hand on: core, output block, the 1,024 pairs of the block (R282). -/
abbrev Chains := List (Nat × Nat × List F32.Pair)

/-- Run one tile on the buffers (R272 to R284). -/
def runTile (img : List Byte) (w : WeightSet) (acc : List (List Byte) × Chains) (r : List Byte) : List (List Byte) × Chains :=
  let bufs := acc.1
  let flags := fld r 1 1
  let K := fld r 8 4
  let A := sourceOf img w bufs (fld r 16 2)
  let B := sourceOf img w bufs (fld r 18 2)
  let O := sourceOf img w bufs (fld r 20 2)
  let E := sourceOf img w bufs (fld r 22 2)
  let a := Config.tileOperand A.1 A.2 r 0
  let b := Config.tileOperand B.1 B.2 r 1
  let aS := Config.tileOperand A.1 A.2 r 2
  let bS := Config.tileOperand B.1 B.2 r 3
  let mask := if bit flags 2 then Config.tileOperand B.1 B.2 r 4 else []
  let epi (sel col : Nat) : Word := BitVec.ofNat 32 (((Config.tileOperand E.1 E.2 r sel)[col]?).getD 0)
  let came := if bit flags 0 then (acc.2.find? fun c => c.1 = fld r 14 1 && c.2.1 = fld r 24 4).map (·.2.2) else none
  let line (row col : Nat) : Line :=
    { aFmt := fld r 4 1, bFmt := fld r 5 1, a := (a.drop (row * K)).take K, b := (b.drop (col * K)).take K,
      aScale := (aS.drop (row * (K / 32))).take (K / 32), bScale := (bS.drop (col * (K / 32))).take (K / 32),
      masked := ((mask.drop (col / 16 * (K / 16))).take (K / 16)).map fun m => bit flags 2 && m = 0 }
  let pairs := (List.range 1024).map fun i => (line (i / 32) (i % 32)).chain (came.bind fun l => l[i]?)
  let rest := acc.2.filter fun c => !(c.1 = fld r 14 1 && c.2.1 = fld r 24 4)
  if bit flags 1 then (bufs, (fld r 14 1, fld r 24 4, pairs) :: rest)
  else
    let c := Config.tileOperand O.1 O.2 r 5
    let cPair (i : Nat) : F32.Pair :=
      let v := c.getD i 0
      (BitVec.ofNat 32 v, BitVec.ofNat 32 (v / 2 ^ 32))
    let codes := (pairs.zip (List.range 1024)).map fun p =>
      let q := if fld r 0 1 = 2 then F32.addPair p.1 (cPair p.2) else p.1
      outCode (fld r 6 1) (fld r 7 1) (bit flags 3) (epi 6 (p.2 % 32)) (epi 7 (p.2 % 32)) (epi 8 0) (epi 9 0) q
    (updAt (bufIndex (progPlan img) (fld r 20 2)) (fun x => Config.tileStore x r codes) bufs, rest)

/-- Prefetched weights of a layer arrive in their buffers (R294). -/
def prefetched (img : List Byte) (w : WeightSet) (layer : Nat) (bufs : List (List Byte)) : List (List Byte) :=
  ((progPrefetch img).filter fun r => fld r 0 2 = layer).foldl
    (fun bufs r =>
      let src := (sourceOf img w bufs (0x8000 + fld r 2 2)).1
      updAt (bufIndex (progPlan img) (fld r 12 2)) (fun b => putBuf b (slice src (fld r 4 4) (fld r 8 4))) bufs) bufs

/-- What a layer leaves: the logical cores and the buffers, or a trap cause, or none where its code has not ended (R296). -/
abbrev LayerRes := Except (Option Nat) (List Hart × List (List Byte))

/-- Code on the tidy cores, where an entry names some (R286, R297, R298). -/
def runCode (img : List Byte) (entry : Nat) (hs : List Hart) (bufs : List (List Byte)) : LayerRes :=
  if entry = 0xFFFFFFFF then .ok (hs, bufs) else tidyRun (slice img (progHead img).code.1 (progHead img).code.2) (progPlan img) entry hs bufs

/-- One layer: PRE code, the tiles in tile-list order, POST code (R286). -/
def runLayer (img : List Byte) (w : WeightSet) (layer : Nat) (hs : List Hart) (bufs : List (List Byte)) : LayerRes :=
  let entry (o : Nat) : Nat := fld img ((progHead img).code.1 + 8 * layer + o) 4
  match runCode img (entry 0) hs (prefetched img w layer bufs) with
  | .error c => .error c
  | .ok (hs, b) =>
    let done := ((progTiles img).filter fun r => fld r 2 2 = layer).foldl (runTile img w) (b, [])
    runCode img (entry 4) hs done.1

/-- The workspace buffers as device memory holds them (R284). -/
def State.loadWork (s : State) (o : Op) (img : List Byte) (bufs : List (List Byte)) : List (List Byte) :=
  (bufs.zip (progPlan img)).map fun p => if fld p.2 2 1 = 2 then s.readMem (o.u64 32 + fld p.2 4 4) (fld p.2 8 4) else p.1

/-- The workspace buffers written to device memory. -/
def State.storeWork (s : State) (o : Op) (img : List Byte) (bufs : List (List Byte)) : State :=
  (bufs.zip (progPlan img)).foldl (fun s p => if fld p.2 2 1 = 2 then s.writeMem (o.u64 32 + fld p.2 4 4) p.1 else s) s

/-- Non-finite elements of an output (R296); in an MX format their number is a free function of the output. -/
def nonFinite (f : Nat) (b : List Byte) : Nat :=
  if fmtMx f then Config.given 296 ((f : Int) :: b.map fun v => (v.toNat : Int))
  else if fmtBits f < 8 then 0
  else ((cut (fmtBits f / 8) (b.length / (fmtBits f / 8)) b).filter fun e => codeNonFinite f (leNat e)).length

/-- An INFER has run to the end: outputs are written and it completes (R292, R296). -/
def State.inferDone (s : State) (o : Op) (img : List Byte) (i : InferSt) (bufs : List (List Byte)) : State :=
  let h := progHead img
  let io := progIo img
  let outs := ((io.zip (List.range io.length)).drop h.inputs).map fun p =>
    (s.ioPointer o p.2, fld p.1 1 1, ((bufs.getD (bufIndex (progPlan img) (fld p.1 2 2)) [])).take (fld p.1 4 4))
  let bad := (outs.map fun x => nonFinite x.2.1 x.2.2).sum
  let bytes := ((io.drop h.inputs).map fun r => fld r 4 4).sum
  let s := outs.foldl (fun (s : State) x => s.writeMem x.1 x.2.2) s
  let s := (s.endInfer o.id).syncPool.updProg i.handle fun p => { p with inferCount := (p.inferCount + 1) % 2 ^ 64 }
  s.finish o.id (Res.ok bytes (min (2 ^ 32 - 1) (i.stallNs / 1000) + min 65535 bad * 2 ^ 32))

/-- The matrix and tidy cores of a cluster in service, as masters of its pond (R344). -/
def State.masters (s : State) (c : Nat) : List Nat :=
  match s.cluster c with
  | none => []
  | some k => ((List.range 5).filter fun i => bit k.matrixIn i) ++ ((List.range 10).filter fun i => bit k.tidyIn i).map (· + 8)

/-- A layer of an INFER starts and runs (R286, R291, R294, R296). How long the matrix cores stalled before it is free. The
weight-set version is the one current when the first layer starts. Code that has not ended when the operation's time is over leaves the layer
unfinished: its deadline ends the operation (R94). -/
def execInferLayerStart (op layer : Nat) (s : State) : Result :=
  s.runOp op 0x30 fun o =>
    match s.inferOf op with
    | none => s
    | some i =>
      match s.prog i.handle with
      | none => s
      | some p =>
        if i.layer ≠ layer then s
        else
          let img := p.image
          let w := if layer = 0 ∧ ¬ o.replayed then p.weights (o.u8 16) else i.weights
          if !w.complete then (s.endInfer op).finish op (Res.bound 0x40)
          else
          let stall := if layer = 0 then 0 else Config.freeNat s.free
          let late (s : State) : State :=
            (((s.spend 1).bumpBy Ctr.weightLateTime i.handle stall).pondWork i.cluster (s.masters i.cluster)).updProg i.handle fun p =>
              { p with lateTime := (p.lateTime + stall) % 2 ^ 64 }
          match runLayer img w layer i.harts (s.loadWork o img i.bufs) with
          | .error none => s
          | .error (some cause) => ((late s).endInfer op).finish op (Res.bound (0x44 + cause % 256 * 256 + layer % 65536 * 65536))
          | .ok (harts, bufs) =>
            let s := (late s).storeWork o img bufs
            let i := { i with weights := w, layer := layer + 1, harts := harts, bufs := bufs, stallNs := i.stallNs + stall }
            if layer + 1 < (progHead img).layers then s.updInfer op fun _ => i else s.inferDone o img i bufs

end Sys2Proof.Machine
end

