-- ==== Sys2Proof/Machine/Payload.lean ====
section
/-! DEFINITION. What a descriptor carries, opcode by opcode (R77 to R83): the payload bytes in use, the flag bits allowed, the
pointers with the lengths that their fields give, the units and functions it needs; and the checks made when it is fetched (R80,
R326). -/

namespace Sys2Proof.Machine

/-- What the payload of an opcode and subcode may hold: whether bytes 12 to 15 must be 0, the byte ranges in use, and for
flag bytes the bits allowed. -/
structure Layout where
  noHandle : Bool := false
  used : List (Nat × Nat) := []
  flags : List (Nat × Nat) := []
  deriving DecidableEq, Repr

/-- SESSION_TUNE subops (R117, R174, R208). -/
def tuneLayout (sub : Nat) : Option Layout :=
  match sub with
  | 0x01 => some { used := [(16, 3)] }
  | 0x02 => some { used := [(16, 1), (20, 8)] }
  | 0x03 => some { used := [(16, 1), (20, 4), (26, 5)] }
  | 0x04 => some { used := [(16, 1), (24, 2)] }
  | 0x05 => some { used := [(16, 1), (20, 4)] }
  | 0x08 => some { used := [(16, 1), (20, 4)] }
  | 0x10 => some { used := [(16, 1), (24, 10)] }
  | 0x20 => some { used := [(16, 3), (20, 4)] }
  | 0x21 => some { used := [(16, 2)] }
  | 0x22 => some { used := [(16, 2), (20, 4)] }
  | 0x23 => some { used := [(16, 2)] }
  | 0x24 => some { used := [(16, 1), (24, 8)] }
  | 0x25 => some { used := [(16, 2), (20, 2)] }
  | 0x30 => some { used := [(16, 1), (24, 8)] }
  | 0x31 => some { used := [(16, 3)] }
  | 0x32 => some { used := [(16, 2), (20, 4)] }
  | 0x33 => some { used := [(16, 3), (20, 2)] }
  | 0x34 => some { used := [(16, 3)] }
  | 0x35 => some { used := [(16, 3)] }
  | _ => none

/-- MAP_EDIT codes (R24 to R26, R205, R213, R316). -/
def editLayout (sub : Nat) : Option Layout :=
  match sub with
  | 0x01 => some { noHandle := true, used := [(16, 2), (20, 20)], flags := [(17, 1)] }
  | 0x02 => some { noHandle := true, used := [(16, 1), (20, 20)] }
  | 0x03 => some { noHandle := true, used := [(16, 1), (20, 20)] }
  | 0x04 => some { noHandle := true, used := [(16, 1), (20, 20)] }
  | 0x05 => some { noHandle := true, used := [(16, 1), (20, 20)] }
  | 0x10 => some { used := [(16, 1), (20, 16)] }
  | 0x11 => some { used := [(16, 1), (20, 16)] }
  | 0x20 => some { used := [(16, 24)] }
  | 0x21 => some { used := [(16, 1)] }
  | 0x30 => some { noHandle := true, used := [(16, 3), (20, 8)], flags := [(18, 1)] }
  | _ => none

/-- The layout of an opcode and of the subcode in byte 16 (and, for WEIGHTS_BIND, byte 17); none for an unknown subcode. -/
def layoutOf (code sub byte17 : Nat) : Option Layout :=
  match code with
  | 0x00 => some {}
  | 0x01 => some {}
  | 0x08 => some { used := [(16, 15), (32, 13), (46, 10)] }
  | 0x09 => some { used := [(16, 1)] }
  | 0x0A => some { used := [(16, 34)] }
  | 0x0B => tuneLayout sub
  | 0x10 => some { used := [(16, 42), (60, 4)] }
  | 0x11 => if sub = 4 then some { used := [(16, 32)] } else if 1 ≤ sub ∧ sub ≤ 3 then some { used := [(16, 2), (20, 16)] } else none
  | 0x18 => if 1 ≤ sub ∧ sub ≤ 5 then some { noHandle := true, used := [(16, 2), (20, 28)], flags := [(17, 1)] } else none
  | 0x19 => editLayout sub
  | 0x1A => some { noHandle := true, used := [(16, 8)] }
  | 0x20 => some { used := [(16, 44)], flags := [(38, 31)] }
  | 0x21 => some { used := [(16, 12), (32, 8)] }
  | 0x22 => some { used := [(16, 12), (32, 8)] }
  | 0x23 => some {}
  | 0x24 => some { used := [(16, 40)], flags := [(38, 31)] }
  | 0x28 => some { used := [(16, 3), (20, 2), (24, 40)], flags := [(18, 15)] }
  | 0x29 => some { used := [(16, 12)] }
  | 0x2A => some {}
  | 0x30 => some { used := [(16, 1), (24, 16)] }
  | 0x31 => some { used := [(16, 12)] }
  | 0x32 => if bit byte17 0 then some { used := [(16, 2)], flags := [(17, 1)] } else some { used := [(16, 2), (20, 8), (32, 16)], flags := [(17, 1)] }
  | 0x38 => some { noHandle := true, used := [(16, 25)], flags := [(40, 1)] }
  | 0x39 => some { noHandle := decide (sub = 0), used := [(16, 4), (24, 16)], flags := [(18, 1)] }
  | 0x40 => some { noHandle := true, used := [(16, 24)], flags := [(27, 3)] }
  | 0x41 => some { noHandle := true, used := [(16, 13)], flags := [(28, 3)] }
  | 0x48 => some { noHandle := true, used := [(16, 5), (24, 12)], flags := [(20, 1)] }
  | 0x49 => if [0x10, 0x11, 0x12, 0x20].contains sub then some { used := [(16, 1), (24, 12)] } else none
  | 0x4A =>
    if sub = 1 then some { noHandle := true, used := [(16, 3), (20, 2)], flags := [(17, 1)] }
    else if sub = 2 ∨ sub = 3 then some { noHandle := true, used := [(16, 2)], flags := [(17, 1)] } else none
  | 0x4B =>
    if sub = 1 then some { noHandle := true, used := [(16, 1), (24, 12)] }
    else if sub = 2 ∨ sub = 3 then some { noHandle := true, used := [(16, 1), (40, 8)] } else none
  | _ => none

/-- Whether an opcode is in the table of R82. -/
def knownOpcode (c : Nat) : Bool :=
  [0x00, 0x01, 0x08, 0x09, 0x0A, 0x0B, 0x10, 0x11, 0x18, 0x19, 0x1A, 0x20, 0x21, 0x22, 0x23, 0x24, 0x28, 0x29, 0x2A, 0x30, 0x31, 0x32, 0x38, 0x39,
    0x40, 0x41, 0x48, 0x49, 0x4A, 0x4B].contains c

/-- Whether an opcode is PF0-only (R82). -/
def pf0Opcode (c : Nat) : Bool := [0x0A, 0x4A, 0x4B].contains c

/-- Whether an opcode's subcode is accepted from PF0 only (R24, R117, R213, R316, R318). -/
def pf0Sub (code sub : Nat) : Bool :=
  (code = 0x19 && [1, 2, 3, 4, 5, 0x20, 0x21, 0x30].contains sub) || (code = 0x0B && sub = 8) || (code = 0x49 && (sub = 0x11 || sub = 0x12))

/-- The payload bytes that are in use under a layout, 16 to 63. -/
def Layout.uses (l : Layout) (i : Nat) : Bool := l.used.any fun u => decide (u.1 ≤ i ∧ i < u.1 + u.2)

/-- The reserved bits of the payload that are set: offset and reason (R77, R80, R86). -/
def Layout.reserved (l : Layout) (o : Op) : List (Nat × Nat) :=
  ((List.range 48).filterMap fun i => if !l.uses (16 + i) && o.u8 (16 + i) ≠ 0 then some (16 + i, 2) else none) ++
    (l.flags.filterMap fun f => if o.u8 f.1 &&& (255 - f.2) ≠ 0 then some (f.1, 2) else none)

/-- Bytes 12 to 15 where they must be 0. -/
def Layout.handleFault (l : Layout) (o : Op) : List (Nat × Nat) := if l.noHandle && o.handle ≠ 0 then [(12, 5)] else []

/-- The vector length of the index an operation names (R213); 1 where there is none, which the command then reports. -/
def State.dimOf (s : State) (o : Op) : Nat := ((s.map.cur.index o.handle).map (·.dim)).getD 1

/-- The bytes of a filter block (R228). -/
def State.filterBytes (s : State) (p : Nat) : Nat := 24 + 8 * min 16 (fld (s.readMem (p + 16) 4) 0 4)

/-- The bytes of a motion block (R135, R140). -/
def State.motionBytes (s : State) (p : Nat) : Nat :=
  let h := s.readMem p 24
  24 + 4 * min 1024 (fld h 20 2) * popCount (fld h 14 2) 9

/-- The bytes of a SOLVE's problem and result (R251, R253, R266). -/
def State.solveBytes (s : State) (o : Op) : Nat × Nat :=
  match s.sched o.handle with
  | none => (1, 1)
  | some x =>
    let cands := if o.u8 16 = 1 then fld (s.readMem (o.u64 24 + 4) 4) 0 4
      else ((hostProblem x (s.readMem (o.u64 24) (40 * x.vars + 128 * x.slots))).map fun p => p.cands.length).getD 0
    (if o.u8 16 = 1 then 16 + 16 * x.vars + 136 * cands else 40 * x.vars + 128 * x.slots,
      64 + 40 * x.vars + 4 * x.supernodes + 8 * cands)

/-- A pointer that may be 0. -/
def optPtr (o : Op) (off len : Nat) : List (Nat × Nat) := if o.u64 off = 0 then [] else [(off, len)]

/-- The pointers of a descriptor: the offset of the field and the length over which it is used (R79, R325, R326). -/
def State.spans (s : State) (o : Op) : List (Nat × Nat) :=
  match o.opcode with
  | 0x08 => optPtr o 32 36
  | 0x0B =>
    if o.u8 16 = 0x10 then [(24, 16 * o.u16 32)] else if o.u8 16 = 0x24 then [(24, 36)] else if o.u8 16 = 0x30 then [(24, 136)] else []
  | 0x10 =>
    let px := ((s.session o.handle).map fun x => x.decl.width * x.decl.height).getD 1
    [(16, px)] ++ optPtr o 24 px ++ optPtr o 32 (s.motionBytes (o.u64 32)) ++ [(40, 148)]
  | 0x11 => if o.u8 16 = 4 then [(24, min (o.u32 32) (12 * o.u32 36)), (40, 16 * o.u32 36)] else [(24, o.u32 32)]
  | 0x18 => [(32, o.u32 28)]
  | 0x19 =>
    match o.u8 16 with
    | 0x01 => [(24, o.u64 32)]
    | 0x03 => [(32, 36)]
    | 0x04 => [(32, 144)]
    | 0x20 => [(24, 4 * (o.u16 22 * o.u16 20 + 256 * o.u16 20))]
    | _ => []
  | 0x20 => [(16, 4 * s.dimOf o), (24, 32 + 32 * o.u16 32)] ++ optPtr o 40 (s.filterBytes (o.u64 40))
  | 0x21 => [(16, o.u32 24 * (24 + 4 * s.dimOf o)), (32, o.u32 24)]
  | 0x22 => [(16, o.u32 24 * 16), (32, o.u32 24)]
  | 0x24 => optPtr o 16 (o.u32 24 * 4 * s.dimOf o) ++ optPtr o 40 (s.filterBytes (o.u64 40)) ++ [(48, 16 + 4 * o.u32 24)]
  | 0x28 =>
    let n := s.solveBytes o
    [(24, n.1), (32, n.2)] ++ optPtr o 40 (64 + 40 * ((s.sched o.handle).map (·.vars)).getD 0) ++ [(48, 1)]
  | 0x29 => [(16, o.u32 24)]
  | 0x30 => [(24, 8 * ((s.prog o.handle).map fun p => (progIo p.image).length).getD 1)] ++ optPtr o 32 1
  | 0x31 => optPtr o 16 (o.u32 24)
  | 0x32 => if bit (o.u8 17) 0 then [] else [(32, o.u64 40)]
  | 0x38 => if bit (o.u8 40) 0 then [(24, min (o.u64 32) (2 ^ 32))] else [(16, min (o.u64 32) (2 ^ 32)), (24, min (o.u64 32) (2 ^ 32))]
  | 0x39 => if o.u8 16 = 0 then [(24, o.u64 32)] else []
  | 0x40 => [(16, o.u16 24)]
  | 0x41 => [(16, o.u32 24)]
  | 0x48 => [(24, o.u32 32)]
  | 0x49 => [(24, o.u32 32)]
  | 0x4B => if o.u8 16 = 1 then [(24, o.u32 32)] else []
  | _ => []

/-- The device-range spans an operation holds while it is in flight (R325): those of its descriptor, its workspace, and the
pointers of an INFER's IO table. -/
def State.held (s : State) (o : Op) : List (Nat × Nat) :=
  let own := (s.spans o).map fun p => (o.u64 p.1, p.2)
  let more :=
    match o.opcode with
    | 0x28 => [(o.u64 48, ((s.sched o.handle).map (·.workBytes)).getD 0)]
    | 0x30 =>
      match s.prog o.handle with
      | none => []
      | some p =>
        (o.u64 32, (progHead p.image).work) :: ((progIo p.image).zip (List.range (progIo p.image).length)).map fun r => (s.ioPointer o r.2, fld r.1 4 4)
    | _ => []
  (own ++ more).filter fun p => isDev p.1

/-- Whether an operation in flight holds a parcel (R325). -/
def State.parcelHeld (s : State) (n : Nat) : Bool :=
  s.ops.list.any fun o => (s.held o).any fun p =>
    decide (p.2 ≠ 0 ∧ p.1 % 2 ^ 48 / 65536 ≤ n ∧ n ≤ (p.1 % 2 ^ 48 + p.2 - 1) / 65536)

/-- The least of violations by offset. -/
def leastFault (l : List (Nat × Nat)) : Option (Nat × Nat) :=
  l.foldl (fun m f => match m with | none => some f | some g => if f.1 < g.1 then some f else some g) none

/-- Reserved bits of the payload, as far as the subcode tells the layout (R77, R80). The check of SESSION_KEY's session ID comes before every other
check of its payload (R110), so a SESSION_KEY that fails it is not judged here. -/
def reservedCheck (o : Op) : Option Res :=
  if o.opcode = 0x0A ∧ (o.handle = 0 ∨ o.handle = 0xFFFFFFFF) then none
  else (layoutOf o.opcode (o.u8 16) (o.u8 17)).bind fun l => (leastFault (l.reserved o)).map fun f => Res.bad f.2 f.1

/-- The first check of R80: opcode, flags, class, and the reserved bits, in byte order. For LATE_POLICY other than 0 on an opcode without a launch
time (R78) the rules give no reason code and no offset: 0x04 and 1 (DESIGN CHOICE, log entry 139). -/
def formCheck (o : Op) : Option Res :=
  let fl := o.u8 1
  let late := bits fl 5 4
  let launch := decide (o.opcode = 0x40) && bit (o.u8 27) 0
  if !knownOpcode o.opcode then some (Res.bad 1 0)
  else if bits fl 7 6 ≠ 0 then some (Res.bad 2 1)
  else if bit fl 3 then some (Res.bad 3 1)
  else if late = 3 ∨ (late ≠ 0 ∧ ¬ launch) then some (Res.bad 4 1)
  else if bits (o.u8 2) 7 3 ≠ 0 then some (Res.bad 2 2)
  else if 4 < o.cls then some (Res.bad 4 2)
  else if o.u8 3 ≠ 0 then some (Res.bad 2 3)
  else reservedCheck o

/-- The second and third checks of R80: functions, class, absent units (R5, R6, R43, R113, R351). -/
def State.rightCheck (s : State) (o : Op) : Option Res :=
  if (pf0Opcode o.opcode || pf0Sub o.opcode (o.u8 16)) && o.fn ≠ 0 then some (Res.denied 1)
  else if o.cls < o.ringClass then some (Res.denied 2)
  else if !s.hasNet && (o.opcode = 0x40 || o.opcode = 0x41) then some (Res.absent 0x0020)
  else if !s.hasNet && o.opcode = 0x08 && o.u8 17 = 0 then some (Res.absent 0x0020)
  else if s.chip.part = .hv8306 && o.opcode = 0x11 && o.u8 16 = 4 then some (Res.absent 0x0041)
  else if !s.hasBasin && o.opcode = 0x39 && (o.u8 17 = 1 || o.u8 17 = 2) then some (Res.absent 0x0011)
  else none

/-- The payload checks made at fetch (R77, R79, R86, R326): FENCE's scope (R83), the first offending byte of the layout and of the pointers' forms,
then the function's reach. The pointer of SESSION_OPEN is judged among that opcode's ordered checks (R113). For
FENCE_SCOPE 0 on a FENCE the rules give no reason code and no offset: 0x05 and 1 (DESIGN CHOICE, log entry 140). -/
def State.payloadCheck (s : State) (o : Op) : Option Res :=
  if o.opcode = 1 ∧ o.scope = 0 then some (Res.field 1)
  else match layoutOf o.opcode (o.u8 16) (o.u8 17) with
  | none => some (Res.field 16)
  | some l =>
    let sp := if o.opcode = 0x08 then [] else s.spans o
    match leastFault (l.handleFault o ++ sp.filterMap fun p => if ptrOk (o.u64 p.1) then none else some (p.1, 6)) with
    | some f => some (Res.bad f.2 f.1)
    | none => if sp.all fun p => s.reach o.fn (o.u64 p.1) p.2 then none else some (Res.denied 4)

/-- All the checks of a fetched descriptor, stopping at the first failure (R80). -/
def State.descCheck (s : State) (o : Op) : Option Res :=
  match formCheck o with
  | some r => some r
  | none =>
    match s.rightCheck o with
    | some r => some r
    | none => s.payloadCheck o

end Sys2Proof.Machine
end

