-- ==== Sys2Proof/Machine/TierOps.lean ====
section
/-! DEFINITION. Extents, the freeing of parcels, promotion and demotion, the scrub, pond tests and lane repair, MOVE and
RESIDENCY_HINT (R321 to R355). -/

namespace Sys2Proof.Machine

/-! ## Extents (R324, R325, R354) -/

/-- The extent with a function and index. -/
def State.extent (s : State) (key : Nat) : Extent := Store.get (fun _ => {}) key s.tiers.extents

/-- Change an extent. -/
def State.setExtent (s : State) (key : Nat) (e : Extent) : State :=
  { s with tiers := { s.tiers with extents := Store.set (fun _ => {}) key e s.tiers.extents } }

/-- Whether an enabled extent of any function covers a parcel (R325, R328). -/
def State.parcelCovered (s : State) (n : Nat) : Bool :=
  s.tiers.extents.any fun e => bit e.2.size.toNat 31 && decide (e.2.base.toNat ≤ n ∧ n < e.2.base.toNat + bits e.2.size.toNat 23 0)

/-- Parcels that no enabled extent covers and no operation in flight references are freed, and their contents are lost (R325). -/
def State.freeParcels (s : State) : State :=
  let gone := s.tiers.parcels.filter fun q => q.owner = [] && !s.parcelCovered q.num && !s.parcelHeld q.num
  { s with
    tiers := { s.tiers with parcels := s.tiers.parcels.filter fun q => !(q.owner = [] && gone.any fun g => g.num = q.num) }
    mem := gone.foldl (fun (m : Memory) (q : Parcel) => m.clear (parcelPtr q.num) 65536) s.mem }

/-- The parcels of a range that are not allocated yet. -/
def State.newParcels (s : State) (first n : Nat) : List Nat :=
  (List.range n).filterMap fun i => if s.tiers.parcels.any fun q => q.owner = [] && q.num = first + i then none else some (first + i)

/-- Whether enabling an extent of n parcels from the parcel first is granted (R325). -/
def State.extentFits (s : State) (first n : Nat) : Bool :=
  let k := (s.newParcels first n).length
  if n = 0 then false
  else if first + n ≤ s.chip.part.basinParcels then decide (k ≤ s.basinFree)
  else if 0x100000 ≤ first ∧ first + n ≤ 0x500000 then s.poolFits 2 k
  else false

/-- A write to REACH_BASE (R354): locked while ENABLE is 1. -/
def State.writeReachBase (s : State) (fn key : Nat) (val : Word) : State :=
  let e := s.extent key
  if bit e.size.toNat 31 then s.lockViolation fn 0x3010 else s.setExtent key { e with base := val }

/-- A write to REACH_SIZE (R325, R354). The lock is judged by ENABLE before the write. -/
def State.writeReachSize (s : State) (fn key : Nat) (val : Word) : State :=
  let e := s.extent key
  let v := setBit val.toNat 24 false
  if bit e.size.toNat 31 then
    let s := if bits v 23 0 = bits e.size.toNat 23 0 then s else s.lockViolation fn 0x3014
    (s.setExtent key { e with size := BitVec.ofNat 32 (setBit e.size.toNat 31 (bit v 31)) }).freeParcels
  else if !bit v 31 then s.setExtent key { e with size := BitVec.ofNat 32 v }
  else if s.extentFits e.base.toNat (bits v 23 0) then
    let fresh := (s.newParcels e.base.toNat (bits v 23 0)).map fun n => ({ num := n } : Parcel)
    { s with tiers := { s.tiers with parcels := s.tiers.parcels ++ fresh } }.setExtent key { e with size := BitVec.ofNat 32 v, err := false }
  else s.setExtent key { e with size := BitVec.ofNat 32 (setBit v 31 false), err := true }

/-! ## Wishes and victims (R337, R338, R351, R352) -/

/-- The effective wish of a parcel: the strongest that any function holds (R352). -/
def Parcel.wish (q : Parcel) : Option Wish :=
  if q.wishes.any fun w => w.2 = .holdBasin then some .holdBasin
  else if q.wishes.any fun w => w.2 = .preferBasin then some .preferBasin
  else if q.wishes.any fun w => w.2 = .cold then some .cold
  else none

/-- The group of a parcel in the victim order, none where it is held (R337). -/
def Parcel.group (q : Parcel) : Option Nat :=
  match q.wish with
  | some .cold => some 0
  | none => some 1
  | some .preferBasin => some 2
  | some .holdBasin => none

/-- Whether running work on a cluster holds a parcel in its pond (R337): weights of an INFER there, or a span of an operation. -/
def State.pondHeld (s : State) (c : Nat) (q : Parcel) : Bool :=
  if q.owner = [] then s.parcelHeld q.num else s.matrix.infers.any fun i => i.cluster = c && q.owner.take 3 = [1, i.handle, i.weights.set]

/-- Whether a parcel may stand in the victim order of a tier (R337). -/
def State.candidate (s : State) (tier : UpperTier) (q : Parcel) : Bool :=
  (q.upper = some tier || q.newUpper = some tier) && (q.state = .up || q.state = .promoting) && q.group.isSome &&
    match tier with
    | .basin => true
    | .pond c => !s.pondHeld c q

/-- Whether a parcel comes before another in the victim order (R337). -/
def Parcel.beforeVictim (a b : Parcel) : Bool :=
  let ka := (a.group.getD 3, a.lastAccess, a.num)
  let kb := (b.group.getD 3, b.lastAccess, b.num)
  decide (ka.1 < kb.1 ∨ (ka.1 = kb.1 ∧ (ka.2.1 < kb.2.1 ∨ (ka.2.1 = kb.2.1 ∧ ka.2.2 ≤ kb.2.2))))

/-- The victim order of a tier (R337). -/
def State.victims (s : State) (tier : UpperTier) : List Parcel := (s.tiers.parcels.filter fun q => s.candidate tier q).mergeSort Parcel.beforeVictim

/-- Change a parcel. -/
def State.updParcel (s : State) (n : Nat) (f : Parcel → Parcel) : State :=
  { s with tiers := { s.tiers with parcels := updFirst (fun q => q.num = n) f s.tiers.parcels } }

/-- The parcel with a number. -/
def State.parcel (s : State) (n : Nat) : Option Parcel := s.tiers.parcels.find? fun q => q.num = n

/-- A parcel that leaves its upper tier: a clean one at once, a dirty one by a write-back (R335). -/
def Parcel.leave (q : Parcel) : Parcel := if q.dirty then { q with state := .demoting } else { q with state := .home, upper := none }

/-- Walk a victim order: those in PROMOTING are deferred and counted, the first in UP is evicted (R337, R338). -/
def State.evict (s : State) : List Parcel → State
  | [] => s
  | q :: t =>
    if q.state = .promoting then ((s.updParcel q.num fun q => { q with deferred := true }).bump Ctr.evictDeferred).evict t
    else s.updParcel q.num Parcel.leave

/-- Free frames of a tier: of the basin, or of a cluster pond outside what running programs hold (R330, R336, R341). -/
def State.tierFree (s : State) (tier : UpperTier) : Nat :=
  match tier with
  | .basin => s.basinFree
  | .pond c =>
    let held := ((s.matrix.infers.filter fun i => i.cluster = c).filterMap fun i => (s.prog i.handle).map fun p => parcelsFor (progHead p.image).pond).sum
    112 - held - (s.tiers.parcels.filter fun q => q.upper = some (.pond c) || q.newUpper = some (.pond c)).length

/-- Whether a tier is there for a parcel: the basin for a lake-homed one, a pond with its power domain on (R335, R336, R346). -/
def State.tierFor (s : State) (q : Parcel) (tier : UpperTier) : Bool :=
  match tier with
  | .basin => s.hasBasin && !(q.owner = [] && s.inBasin q.num)
  | .pond c => (s.place.clusters.any fun k => k.idx = c) && ((s.power.domains[15 + c]?).any fun d => d.state = .on)

/-- Whether a parcel is in the state its effective wish asks for (R352, R353). -/
def State.wishMet (s : State) (q : Parcel) : Bool :=
  match q.wish with
  | none => true
  | some .cold => q.state = .home
  | some _ => (q.owner = [] && s.inBasin q.num) || (q.state = .up && q.upper = some .basin)

/-- Hints with WAIT whose parcels have all reached the wished state complete (R353). -/
def State.hintCheck (s : State) : State :=
  let met (ps : List Nat) : Bool := ps.all fun n => (s.parcel n).all fun q => s.wishMet q
  let done := s.tiers.hintOps.filter fun h => met h.2
  let s := done.foldl (fun (s : State) h => s.complete h.1 (Res.ok h.2.length h.2.length)) s
  { s with tiers := { s.tiers with hintOps := s.tiers.hintOps.filter fun h => !(done.any fun d => d.1 = h.1) } }

/-- The placement engine promotes a parcel (R335 to R338): into a free frame, or by evicting the first victim. A dirty victim's frame
is free only when its write-back ends, and the promotion is then asked for again. -/
def execParcelPromote (parcel : Nat) (tier : UpperTier) (s : State) : Result :=
  if !s.running then .next s
  else
    let s := s.syncPool
    match s.parcel parcel with
    | none => .next s
    | some q =>
      if !(q.state = .home || (q.state = .up && q.upper ≠ some tier)) || !s.tierFor q tier then .next s
      else
        let s := if s.tierFree tier = 0 then s.evict ((s.victims tier).filter fun v => v.num ≠ parcel) else s
        if s.tierFree tier = 0 then .next s
        else .next (s.updParcel parcel fun q => { q with state := .promoting, newUpper := some tier })

/-- The copy of a promotion ends (R335): the parcel is UP, the old upper frame of a move is freed, and a deferred eviction is evaluated
anew; only a parcel whose wish is then COLD is demoted, the clean one at once (R338). -/
def execPromotionCopyEnd (parcel : Nat) (s : State) : Result :=
  match s.parcel parcel with
  | none => .next s
  | some q =>
    if q.state ≠ .promoting then .next s
    else
      let up (q : Parcel) : Parcel := { q with state := .up, upper := q.newUpper, newUpper := none, deferred := false }
      .next (s.updParcel parcel fun q => if q.deferred && q.wish = some .cold then (up q).leave else up q).hintCheck

/-- The placement engine demotes a parcel that has fallen idle or whose wish is COLD (R335, R336, R352). One with a basin wish stays
in the basin. -/
def execParcelDemote (parcel : Nat) (s : State) : Result :=
  match s.parcel parcel with
  | none => .next s
  | some q =>
    let wished := q.wish = some .holdBasin || q.wish = some .preferBasin
    if !s.running || q.state ≠ .up || (wished && q.upper = some .basin) then .next s
    else .next (s.updParcel parcel Parcel.leave).hintCheck

/-- A demotion's write-back ends (R335). -/
def execDemotionWriteBackEnd (parcel : Nat) (s : State) : Result :=
  match s.parcel parcel with
  | none => .next s
  | some q =>
    if q.state ≠ .demoting then .next s
    else .next (s.updParcel parcel fun q => { q with state := .home, upper := none, dirty := false }).hintCheck

/-! ## Late tiers, scrub, ponds, lanes -/

/-- An access exceeds its limit (R339): counted once, in the cause that applies first. -/
def execTierAccessLate (tier : LateTier) (repair : Bool) (s : State) : Result :=
  if !s.running || (tier = .basin && !s.hasBasin) then .next s
  else if repair then (if tier = .basin && !s.tiers.repairing.isEmpty then .next (s.bump Ctr.laneRepairActive) else .next s)
  else .next (s.bump (if tier = .basin then Ctr.basinLate else Ctr.lakeLate))

/-- A frame is retired: counted, logged, never used again; its parcel moves to a free frame of the tier (R334). -/
def State.retireFrame (s : State) (lake : Bool) (frame : Nat) : State :=
  let t := s.tiers
  let t := if lake then { t with retiredLake := t.retiredLake ++ [frame] } else { t with retiredBasin := t.retiredBasin ++ [frame] }
  ({ s with tiers := t }.bump Ctr.frameRetired).log (dieUnit (if lake then 14 else 9)) 0x0034 0 255 0 (frame * 65536)

/-- The scrub reads one frame (R334). -/
def execScrubPass (lake : Bool) (frame : Nat) (corrected uncorrectable : Bool) (s : State) : Result :=
  let total := if lake then s.lakeFrames else s.chip.part.basinParcels
  let retired := if lake then s.tiers.retiredLake else s.tiers.retiredBasin
  let key := 2 * frame + b2n lake
  if !s.running || !bit (s.reg 0x3024 0) 8 || total ≤ frame || retired.contains frame then .next s
  else if uncorrectable then .next ((s.log (dieUnit (if lake then 14 else 9)) 0x0002 1 255 0 (frame * 65536)).retireFrame lake frame)
  else if !corrected then .next s
  else
    let n := Store.get (fun _ => 0) key s.tiers.scrubCounts + 1
    let s := s.eccCorrected (dieUnit (if lake then 14 else 9)) (frame * 65536)
    let s := { s with tiers := { s.tiers with scrubCounts := Store.set (fun _ => 0) key (if 4 ≤ n then 0 else n) s.tiers.scrubCounts } }
    .next (if 4 ≤ n then s.retireFrame lake frame else s)

/-- One region of one bank is tested (R345). Ponds 0 to 12 are the clusters', 13 to 15 the ring, inlet and table ponds. -/
def execPondTestStep (cluster bank : Nat) (fails : Bool) (s : State) : Result :=
  let there := (s.place.clusters.any fun c => c.idx = cluster) || decide (13 ≤ cluster ∧ cluster ≤ 15)
  if !s.running || !bit (s.reg 0x3020 0) 1 || !there || 28 ≤ bank || !fails then .next s
  else .next ({ s with tiers := { s.tiers with pondFails := s.tiers.pondFails ++ [(cluster, bank)] } }.bump Ctr.pondTestFail)

/-- Pseudo-channels of a part (R330). -/
def Part.pcs (p : Part) : Nat := p.basinGb

/-- Training and walk of a live lane repair (R340): BASIN_REPAIR marks the pseudo-channel. -/
def execLaneRepairWalk (pc lane : Nat) (s : State) : Result :=
  if !s.running || s.chip.part.pcs ≤ pc || s.tiers.spareUsed.contains pc || (s.tiers.repairing.any fun r => r.1 = pc) then .next s
  else .next { s with tiers := { s.tiers with repairing := s.tiers.repairing ++ [(pc, lane)] } }

/-- The switch of a live lane repair (R340): all reads use the spare lane and SPARE_USED is set. -/
def execLaneRepairSwitch (pc : Nat) (s : State) : Result :=
  if s.tiers.repairing.any fun r => r.1 = pc then
    let s := { s with tiers := { s.tiers with repairing := s.tiers.repairing.filter fun r => r.1 ≠ pc, spareUsed := s.tiers.spareUsed ++ [pc] } }
    .next ((s.useSpare 5).unitGone (dieUnit 9) 5 0xFFFF pc)
  else .next s

/-! ## The BAR2 window (R328, R329) -/

/-- The device-range address of a BAR2 offset (R328, R354). -/
def State.bar2Addr (s : State) (off : Nat) : Nat := min 0x3FFC0 (s.regF 0x3018 0 17 0) * 2 ^ 30 + off

/-- Whether every byte of a span lies in an allocated parcel of an enabled extent of some function (R328). -/
def State.bar2Reach (s : State) (a len : Nat) : Bool :=
  (List.range ((a + len - 1) / 65536 + 1 - a / 65536)).all fun i => s.parcelCovered (a / 65536 + i)

/-- An access of PF0 through BAR2 (R328): other addresses read 0, drop writes, and are counted. The value read is the last
register read's. -/
def execBar2Access (fn : Nat) (write : Bool) (off len : Nat) (data : List Byte) (s : State) : Result :=
  if fn ≠ 0 ∨ len = 0 ∨ 2 ^ 36 < off + len ∨ ¬ s.power.options.bar2En ∨ ¬ s.host.linkUp ∨ s.power.boot ≠ .running then .next s
  else
    let a := s.bar2Addr off
    if s.bar2Reach a len && !s.regs.faulted 0x3018 0 then
      if write then .next (s.writeMem (2 ^ 63 + a) (data.take len))
      else .next { s with regs := { s.regs with lastRead := BitVec.ofNat 64 (leNat (s.readMem (2 ^ 63 + a) len)) } }
    else
      let s := if write then s else { s with regs := { s.regs with lastRead := 0 } }
      .next (s.bump Ctr.bar2Unmapped)

/-! ## MOVE (R349, R350) -/

/-- The checks of MOVE: pointer forms, length, overlap (R349). -/
def moveCheck (o : Op) (fill : Bool) : Option Res :=
  let src := o.u64 16
  let dst := o.u64 24
  let n := o.u64 32
  if !fill && !isDev src && !isDev dst then some (Res.bad 6 16)
  else if n = 0 ∨ 2 ^ 32 < n then some (Res.field 32)
  else if !fill && decide (src < dst + n ∧ dst < src + n) then some (Res.field 24)
  else none

/-- One chunk of 4 KB of destination; the first is the commit point, the last completes the operation (R350). The count of an operation
still running is the bytes written. -/
def State.moveChunk (s : State) (o : Op) (data : List Byte) : State :=
  let done := o.count + data.length
  let s := ((s.writeMem (o.u64 24 + o.count) data).commit o.id).begin o.id
  if o.u64 32 ≤ done then s.finish o.id (Res.ok (o.u64 32) 0) else s.updOp o.id fun o => { o with count := done }

/-- MOVE copying (R349, R350): the operation's checks, then its next chunk. -/
def execMove (op : Nat) (s : State) : Result :=
  s.runOp op 0x38 fun o =>
    if bit (o.u8 40) 0 then s
    else match moveCheck o false with
      | some r => s.finish op r
      | none => s.moveChunk o (s.readMem (o.u64 16 + o.count) (min 4096 (o.u64 32 - o.count)))

/-- n bytes of a pattern of 8 from a position on. -/
def patternBytes (p pos n : Nat) : List Byte := (List.range n).map fun i => BitVec.ofNat 8 (p / 256 ^ ((pos + i) % 8))

/-- MOVE with FILL (R349, R350). -/
def execMoveFill (op : Nat) (s : State) : Result :=
  s.runOp op 0x38 fun o =>
    if !bit (o.u8 40) 0 then s
    else match moveCheck o true with
      | some r => s.finish op r
      | none => s.moveChunk o (patternBytes (o.u64 16) o.count (min 4096 (o.u64 32 - o.count)))

/-! ## RESIDENCY_HINT (R351 to R353) -/

/-- The wish a code names; none for NONE. -/
def wishOf (n : Nat) : Option Wish := if n = 1 then some .preferBasin else if n = 2 then some .holdBasin else if n = 3 then some .cold else none

/-- The parcels a hint covers: of a range, every version of a weight set, a schedule image, or the device's shards of an index (R351). -/
def State.hintParcels (s : State) (o : Op) : List Nat :=
  match o.u8 16 with
  | 0 =>
    let first := o.u64 24 % 2 ^ 48 / 65536
    (s.tiers.parcels.filter fun q => q.owner = [] && decide (first ≤ q.num ∧ q.num < first + o.u64 32 / 65536)).map (·.num)
  | 1 => (s.tiers.parcels.filter fun q => q.owner.take 3 = [1, o.handle, o.u8 19]).map (·.num)
  | k => (s.tiers.parcels.filter fun q => q.owner = [k, o.handle]).map (·.num)

/-- The fields and rights of a hint (R351). -/
def State.hintCheckFields (s : State) (o : Op) : Option Res :=
  let obj := o.u8 16
  let basin := o.u8 17 = 1 || o.u8 17 = 2
  if basin && !s.hasBasin then some (Res.absent 0x0011)
  else if 3 < obj then some (Res.field 16)
  else if 3 < o.u8 17 then some (Res.field 17)
  else if (if obj = 1 then 15 else 0) < o.u8 19 then some (Res.field 19)
  else if obj = 0 ∧ ¬ isDev (o.u64 24) then some (Res.bad 6 24)
  else if (if obj = 0 then o.u64 24 % 65536 else o.u64 24) ≠ 0 then some (Res.field 24)
  else if (if obj = 0 then o.u64 32 % 65536 else o.u64 32) ≠ 0 then some (Res.field 32)
  else match obj with
    | 1 => match s.prog o.handle with
      | none => some (Res.field 12)
      | some p => if p.fn = o.fn then none else some (Res.denied 3)
    | 2 => match s.sched o.handle with
      | none => some (Res.field 12)
      | some x => if x.fn = o.fn then none else some (Res.denied 3)
    | 3 => match s.map.cur.index o.handle with
      | none => some (Res.field 12)
      | some x => if bit x.mask o.fn then none else some (Res.denied 3)
    | _ => none

/-- A function's wish on a parcel replaced (R352). -/
def Parcel.setWish (fn : Nat) (w : Option Wish) (q : Parcel) : Parcel :=
  { q with wishes := (q.wishes.filter fun x => x.1 ≠ fn) ++ (w.map fun w => (fn, w)).toList }

/-- Parcels held by HOLD_BASIN (R353, HOLD_STATUS). -/
def Tiers.holding (t : Tiers) : Nat := (t.parcels.filter fun q => q.wish = some .holdBasin).length

/-- Whether the holds of a hint pass HOLD_MAX or the basin's free frames (R353). -/
def State.holdTooMany (s : State) (t : Tiers) : Bool :=
  let more := (t.parcels.filter fun q =>
    q.wish = some .holdBasin && !(q.owner = [] && s.inBasin q.num) && !q.inUpperBasin).length
  decide (s.tiers.holding < t.holding) && (decide (s.regF 0x3008 0 31 16 * 256 < t.holding) || decide (s.basinFree < more))

/-- RESIDENCY_HINT (R351 to R353): the recording of the wish is its commit point. -/
def execResidencyHint (op : Nat) (s : State) : Result :=
  s.runOp op 0x39 fun o =>
    match s.hintCheckFields o with
    | some r => s.finish op r
    | none =>
      let s := s.syncPool
      let ps := s.hintParcels o
      let w := wishOf (o.u8 17)
      let t := { s.tiers with parcels := s.tiers.parcels.map fun q => if ps.contains q.num then q.setWish o.fn w else q }
      if w = some .holdBasin ∧ s.holdTooMany t then s.finish op (Res.bound 0x50)
      else
        let hit (q : Parcel) : Bool := w = some .cold && q.state = .promoting && ps.contains q.num
        let late := (t.parcels.filter hit).length
        let t := { t with parcels := t.parcels.map fun q => if hit q then { q with deferred := true } else q }
        let s := ({ s with tiers := t }.bumpBy Ctr.evictDeferred 0 late).commit op
        let met := (ps.filter fun n => (s.parcel n).any fun q => s.wishMet q).length
        if bit (o.u8 18) 0 ∧ met < ps.length then
          { s with tiers := { s.tiers with hintOps := s.tiers.hintOps ++ [(op, ps)] } }.await op
        else s.finish op (Res.ok ps.length met)

end Sys2Proof.Machine
end

