-- ==== Sys2Proof/Machine/EpochBase.lean ====
section
/-! DEFINITION. Publication of an epoch (R18, R27, R36, R311 to R315, R393, R394): owner and mirror changes, the views held, what a
publication completes, the proposals it makes (R308, R317) and the records the leader sends. -/

namespace Sys2Proof.Machine

/-! ## Tiles at a publication -/

/-- A tile without contents; its name, parties and settings stay. -/
def Tile.emptied (t : Tile) : Tile := { t with keyframes := [], links := [], points := [], obs := [] }

/-- A view without a tile's contents and index entries. -/
def MapView.emptyTile (v : MapView) (ix iy : Int) : MapView :=
  let v := match v.tile ix iy with
    | some t => v.setTile t.emptied
    | none => v
  { v with indexes := v.indexes.map fun x => { x with entries := x.entries.filter fun e => !(e.ix = ix && e.iy = iy) } }

/-- The tile a publication record names, in a view. -/
def recTile (v : MapView) (r : PublishRec) : Tile := (v.tile r.ix r.iy).getD { ix := r.ix, iy := r.iy, owner := v.leader }

/-- The mirror of a record (R315, R387). -/
def recMirror (r : PublishRec) : Option Nat := if r.mirror = 255 then none else some r.mirror

/-- Whether a takeover by the device finds no complete copy: it was not the mirror, or was still syncing (R314, R315). -/
def recLost (self : Nat) (v : MapView) (r : PublishRec) : Bool :=
  let t := recTile v r
  r.takeover && r.owner = self && (t.mirror ≠ some self || t.syncing)

/-- A record applied to a view (R18, R311 to R315): the new owner and mirror. A device that is neither frees its copy; a mirror that
was the old owner needs no copy (R312); any other new mirror starts syncing (R314). A role that the device keeps has held since before (R318). -/
def applyRec (self epoch : Nat) (v : MapView) (r : PublishRec) : MapView :=
  let t := recTile v r
  let mirror := recMirror r
  let switched := t.owner ≠ r.owner
  let v := if recLost self v r || (r.owner ≠ self && mirror ≠ some self) then (v.setTile t).emptyTile r.ix r.iy else v.setTile t
  let t := (v.tile r.ix r.iy).getD t
  let syncing := if mirror.isNone then false else if mirror = t.mirror then t.syncing else !(switched && !r.takeover && mirror = some t.owner)
  v.setTile { t with
    owner := r.owner, mirror := mirror, syncing := syncing
    since := if (t.owner = self && r.owner = self) || (t.owner ≠ self && r.owner ≠ self && t.mirror = some self && mirror = some self) then t.since else epoch
    ownerSince := if switched then epoch else t.ownerSince
    handover := if switched then none else t.handover
    accesses := if switched then [] else t.accesses }

/-! ## Handovers -/

/-- Change the recorded tile at a coordinate. -/
def State.updTile (s : State) (ix iy : Int) (f : Tile → Tile) : State := s.setCur (s.map.cur.setTile (f (s.curTile ix iy)))

/-- HOLD_EPOCHS (R320). -/
def State.holdEpochs (s : State) : Nat := max 1 (s.regF 0xF004 0 23 16)

/-- The end of a handover that did not switch, on either side: it is counted, the target discards what it received, and the tile is
not proposed again for HOLD_EPOCHS epochs (R313). -/
def State.dropHandover (s : State) (t : Tile) : State :=
  let until_ := s.map.published + s.holdEpochs
  let s := s.updTile t.ix t.iy fun t => { t with handover := none, noProposalUntil := until_ }
  let s := if t.owner = s.self || t.mirror = some s.self then s else s.setCur (s.map.cur.emptyTile t.ix t.iy)
  s.bump Ctr.handoverAbort

/-- The device aborts a handover for a row of R313 and tells the other party. -/
def State.abortHandover (s : State) (t : Tile) (reason : Nat) : State :=
  match t.handover with
  | none => s
  | some h => (s.dropHandover t).sendFz 0x24 3 h.peer 0 (tileBe t.ix t.iy ++ beBytes reason 1)

/-- Outgoing handovers in progress (R308, R320). -/
def State.handoversOut (s : State) : Nat := (s.map.cur.tiles.filter fun t => t.handover.any fun h => h.outgoing).length

/-- Counted accesses of a device to a tile in the last HANDOVER_WINDOW published epochs (R308). -/
def Tile.count (t : Tile) (from_ : Nat) (dev : Nat → Bool) : Nat :=
  ((t.accesses.filter fun a => decide (from_ ≤ a.1) && dev a.2.1).map fun a => a.2.2).sum

/-- Tiles a member owns in a view. -/
def MapView.ownedBy (v : MapView) (dev : Nat) : Nat := (v.tiles.filter fun t => t.owner = dev).length

/-- The device a tile is proposed to by its preference (R317). -/
def State.preferTarget (s : State) (t : Tile) : Option Nat :=
  match t.prefer with
  | some p => if s.others.contains p && decide (s.map.latest.ownedBy p < s.tileCap) then some p else none
  | none => none

/-- The device a tile is proposed to by its accesses, with its share in counts and of the total (R308). A graceful leave waives SHARE and
HOLD_EPOCHS (R392). -/
def State.shareTarget (s : State) (t : Tile) : Option (Nat × Nat × Nat) :=
  let from_ := s.map.published + 1 - clampN 4 255 (s.regF 0xF004 0 7 0)
  let total := t.count from_ fun _ => true
  let mine := t.count from_ fun d => d = s.self
  let n (p : Nat) : Nat := t.count from_ fun d => d = p
  let able (p : Nat) : Bool := !(t.refusedBy.any fun r => r.1 = p && decide (s.map.published < r.2))
  let share := clampN 50 95 (s.regF 0xF004 0 14 8)
  let good (p : Nat) : Bool :=
    able p && (s.fabric.leaving || (decide (0 < n p) && decide (share * total ≤ 100 * n p) && decide (2 * mine ≤ n p)))
  let rested := s.fabric.leaving || (decide (t.ownerSince + s.holdEpochs ≤ s.map.published) && decide (t.noProposalUntil ≤ s.map.published))
  if !rested then none
  else
    let best := (s.others.filter good).foldl (fun (b : Option Nat) p => match b with | none => some p | some q => if n q < n p then some p else some q) none
    best.map fun p => (p, n p, total)

/-- The proposals of a publication: preferred ones first, then by descending share, ties by tile order (R308, R317). -/
def State.proposals (s : State) : List (Tile × Nat) :=
  if !bit (s.reg 0xF004 0) 15 || s.single || s.fabric.isolated then []
  else
    let able := s.owned.filter fun t => t.handover.isNone && !t.hold
    let pref := able.filterMap fun t => (s.preferTarget t).map fun p => (t, p)
    let rest := (able.filter fun t => (s.preferTarget t).isNone).filterMap fun t => (s.shareTarget t).map fun g => (t, g)
    let sorted := rest.mergeSort fun a b => decide (b.2.2.1 * a.2.2.2 ≤ a.2.2.1 * b.2.2.2)
    (pref ++ sorted.map fun x => (x.1, x.2.1)).take (clampN 1 15 (s.regF 0xF004 0 27 24) - s.handoversOut)

/-- A handover is proposed (R308, R387). -/
def State.propose (s : State) (t : Tile) (p : Nat) : State :=
  (s.updTile t.ix t.iy fun t => { t with handover := some { peer := p } }).sendFz 0x20 3 p 0 (tileBe t.ix t.iy ++ beBytes s.map.published 8)

/-! ## What a publication does -/

/-- The waits for epochs that a publication ends (R27). -/
def State.endEpochWaits (s : State) : State :=
  (s.ops.list.filter fun o => o.opcode = 0x1A && o.phase = .waiting && decide (o.waitTarget ≤ s.map.published)).foldl
    (fun (s : State) o => s.complete o.id (Res.ok 0 s.map.published)) s

/-- The clusters' figures of the last epoch and the run of imbalance (R307, R318). The load, and what each class waited at the cluster's arbiters besides
the waits of operations for its cores, are the work's own timing and so free (R56). -/
def State.evaluate (s : State) : State :=
  let n := s.free
  let cs := s.place.clusters.zipIdx.map fun p =>
    let c : Cluster := p.1
    let f (k : Nat) : Nat := Config.freeNat (n + 6 * p.2 + k)
    if c.role = .inService then { c with load := f 0 % 101, waits := (List.range 5).map (fun k => (c.waiting.getD k 0) / 1000 + f (k + 1)), waiting := [0, 0, 0, 0, 0] }
      else { c with load := 0, waits := [0, 0, 0, 0, 0], waiting := [0, 0, 0, 0, 0] }
  let live := (cs.filter fun c => c.role = .inService).map (·.load)
  let gap := live.foldl max 0 - live.foldl min (live.foldl max 0)
  let wide := decide (clampN 5 50 (s.regF 0xF000 0 14 8) < gap)
  { s with
    place := { s.place with clusters := cs, movesLastEpoch := min 255 s.place.movesDone, movesDone := 0, movesThisEpoch := 0,
                            imbalanceRun := if wide then s.place.imbalanceRun + 1 else 0, imbalanceEpoch := s.map.published }
    free := n + 6 * cs.length }

/-- Handovers that a TILE_AFFINITY now in effect holds or redirects are aborted (R313). -/
def State.affinityAborts (s : State) : State :=
  (s.owned.filter fun t => t.handover.any fun h => h.outgoing && (t.hold || (t.prefer.any fun p => p ≠ h.peer))).foldl
    (fun (s : State) t => s.abortHandover t 4) s

/-- Tiles of the device whose mirror is new receive their full copy through the mirror stream (R314). -/
def State.startCopies (s : State) (recs : List PublishRec) : State :=
  (recs.filter fun r => (s.curTile r.ix r.iy).owner = s.self && (s.curTile r.ix r.iy).syncing).foldl (fun (s : State) r => s.stream r.ix r.iy) s

/-- Each tile whose contents a takeover loses is counted and logged (R314, R315). -/
def State.logLost (s : State) (recs : List PublishRec) : State :=
  (recs.filter fun r => recLost s.self s.map.cur r).foldl
    (fun (s : State) r => (s.bump Ctr.tileLost).log (dieUnit 12) 0x0041 1 255 (tc 16 r.ix) (tc 32 r.iy)) s

/-- Tiles come to the device's shards or leave them: the entry nodes are chosen anew (R216, R220; DESIGN CHOICE, log entry 148). -/
def MapView.reseed (v : MapView) (self : Nat) : MapView :=
  { v with indexes := v.indexes.map fun x => x.reseed fun e => v.ownerOf e.ix e.iy = self }

/-- The records of a publication applied to a view, which has the tiles not listed from then on belong to the leader (R18, R311 to R315). -/
def MapView.publish (v : MapView) (self leader epoch : Nat) (recs : List PublishRec) : MapView :=
  let w := { recs.foldl (applyRec self epoch) v with leader := leader }
  if recs.any fun r => (v.ownerOf r.ix r.iy ≠ r.owner) && (r.owner = self || v.ownerOf r.ix r.iy = self) then w.reseed self else w

/-- Publication of the next epoch with its records (R311, R393, R394). -/
def State.publish (s : State) (recs : List PublishRec) : State :=
  let e := s.map.published + 1
  let s := s.logLost recs
  let go (v : MapView) : MapView := v.publish s.self s.fabric.leader e recs
  let v := go (s.map.sealedView.getD s.map.cur)
  let s := { s with map := { s.map with cur := go s.map.cur, sealedView := none, held := (e, v) :: s.map.held.take 3, published := e } }
  let s := { s with fabric := { s.fabric with barrier := none, readySent := false, readys := [] } }
  let s := (s.startCopies recs).endEpochWaits
  let s := (((s.settlePublished e).serveLater).evaluate).affinityAborts.syncPool
  s.proposals.foldl (fun (s : State) p => s.propose p.1 p.2) s

/-! ## The leader's records (R394) -/

/-- The member with the fewest mirrored tiles that may mirror a tile: ties to the lower array ID (R314). -/
def chooseMirror (eligible : List Nat) (load : Nat → Nat) : Option Nat :=
  eligible.foldl (fun (b : Option Nat) m => match b with | none => some m | some q => if load m < load q then some m else some q) none

/-- Tiles mirrored by a member in a view. -/
def MapView.mirroredBy (v : MapView) (dev : Nat) : Nat := (v.tiles.filter fun t => t.mirror = some dev).length

/-- The target of a tile's handover that both parties have declared ready (R310, R394). -/
def State.readyTarget (s : State) (t : Tile) : Option Nat :=
  let by_ := (s.fabric.readys.filter fun r => r.2.contains (t.ix, t.iy)).map (·.1)
  if by_.contains t.owner then by_.find? fun m => m ≠ t.owner else none

/-- The record of a tile at the next epoch, none where nothing changes (R36, R312, R314, R315). The load of a member is the tiles it mirrors
and those the records before this one have given it. -/
def State.recordOf (s : State) (v : MapView) (given : List PublishRec) (t : Tile) : Option PublishRec :=
  let alive (m : Nat) : Bool := bit s.fabric.members m
  let stays (m : Nat) : Bool := !s.fabric.leavers.contains m && !(s.fabric.leaving && m = s.self)
  let taken := !alive t.owner
  let target := s.readyTarget t
  let owner := if taken then (match t.mirror with | some m => if alive m then m else s.self | none => s.self) else target.getD t.owner
  let kept : Option Nat :=
    if taken then none
    else if target.isSome && t.mirror = target then some t.owner
    else t.mirror.filter fun m => alive m && m ≠ owner && stays m
  let eligible := (bitList s.fabric.members 64).filter fun m => m ≠ owner && stays m
  let load (m : Nat) : Nat := v.mirroredBy m + (given.filter fun r => r.mirror = m).length
  let mirror := match kept with
    | some m => some m
    | none => chooseMirror eligible load
  if owner = t.owner && mirror = t.mirror && !taken then none
  else some { ix := t.ix, iy := t.iy, owner := owner, mirror := mirror.getD 255, takeover := taken }

/-- The record list of BARRIER_PUBLISH (R394). -/
def State.publishRecs (s : State) : List PublishRec :=
  let v := s.map.sealedView.getD s.map.cur
  v.tiles.foldl (fun (l : List PublishRec) t => match s.recordOf v l t with | some r => l ++ [r] | none => l) []

/-- The bytes of a record (R387). -/
def PublishRec.bytes (r : PublishRec) : List Byte := tileBe r.ix r.iy ++ beBytes r.owner 1 ++ beBytes r.mirror 1 ++ beBytes (b2n r.takeover) 1 ++ zeros 1

/-- The leader publishes when READY has arrived from every member (R394). -/
def State.tryPublish (s : State) : State :=
  let ready := (bitList s.fabric.members 64).all fun m => s.fabric.readys.any fun r => r.1 = m
  match s.fabric.barrier with
  | none => s
  | some e =>
    if s.fabric.leader ≠ s.self || s.fabric.isolated || !ready then s
    else
      let recs := s.publishRecs
      let body := beBytes e 8 ++ beBytes s.fabric.viewNo 2 ++ beBytes recs.length 2 ++ recs.flatMap PublishRec.bytes
      (s.others.foldl (fun (s : State) p => s.sendFz 0x31 1 p 0 body) s).publish recs

/-- Whether a settling pass of a shard of the device runs, or waits for a later epoch than the one pending (R224). -/
def State.settlingBars (s : State) : Bool :=
  s.map.cur.indexes.any fun x => x.settling.running || x.settling.finished.any fun f => decide (s.map.published + 1 < f.2.2.2)

/-- The handovers a member declares ready, and those of its own that wait for settling (R224, R310, R393). -/
def State.declared (s : State) : List (Int × Int) × Nat :=
  let ready := s.map.cur.tiles.filter fun t => t.handover.any fun h => h.state = .synced
  let bars := s.settlingBars
  let late := ready.filter fun t => t.owner = s.self && bars
  ((ready.filter fun t => !(t.owner = s.self && bars)).map fun t => (t.ix, t.iy), late.length)

/-- Whether the mirrors have acknowledged every item sealed into the pending epoch (R393). -/
def State.sealedAcked (s : State) (e : Nat) : Bool :=
  s.fabric.outStreams.all fun x => x.items.all fun i => decide (e < i.2.2.2) || (s.curTile i.2.1 i.2.2.1).liveMirror ≠ some x.peer

/-- A pending firmware switch is made at the boundary of its epoch (R418): the operation completes with the version now active. -/
def State.switchFirmware (s : State) (epoch : Nat) : State :=
  match s.fault.switchOp with
  | none => s
  | some w =>
    if epoch < w.2 then s
    else
      let new := 1 - s.fault.activeSlot
      let verOf (k : Nat) : Nat := if k = 0 then s.chip.slotA.version else s.chip.slotB.version
      let s := s.log (dieUnit 15) 0x0050 4 255 0 (verOf s.fault.activeSlot % 65536 + verOf new % 65536 * 65536)
      { s with fault := { s.fault with activeSlot := new, switchOp := none }, power := { s.power with version := verOf new },
               chip := { s.chip with slotRecord := new } }.complete w.1 (Res.ok 0 (verOf new))

/-- The tick of the next epoch boundary: the least multiple of EPOCH_PERIOD that has neither been a boundary nor, after a step back, been passed by
the ticks (R361, R393). -/
def State.nextBoundary (s : State) : Nat :=
  let ms := s.devNs / 1000000
  let from_ := max (s.clock.lastBoundary + 1) (if ms = s.clock.lastTick then ms else max ((s.devNs + 999999) / 1000000) (s.clock.lastTick + 1))
  (from_ + s.epochPeriod - 1) / s.epochPeriod * s.epochPeriod

/-- EPOCH_BOUNDARY (R393, R394, R469): the EPOCH shadows are applied; recorded changes are sealed, unless a barrier is pending, which is
counted; a member alone in its view publishes at once. -/
def execEpochBoundary (s : State) : Result :=
  if !s.running then .next s
  else
    let b := s.nextBoundary
    let s := s.toDev (b * 1000000)
    let s := { s with clock := { s.clock with lastBoundary := b } }
    let s := { s with regs := s.regs.applyAt s.chip (fun b => b = Bnd.epoch) (fun _ => true) }
    let s := (s.place.clusters.filter fun (c : Cluster) => s.clusterBusy c.idx).foldl (fun (s : State) (c : Cluster) => s.placed c.idx) s
    if s.fabric.isolated then .next s
    else
      match s.fabric.barrier with
      | some _ => .next (s.bump Ctr.epochLate)
      | none =>
        let e := s.map.published + 1
        let s := s.switchFirmware e
        let s := { s with map := { s.map with sealedView := some s.map.cur }, fabric := { s.fabric with barrier := some e, readySent := false } }.dueChanges
        if s.others.isEmpty then .next (s.publish s.publishRecs) else .next s

/-- Whether the device has taken a change that may belong to an epoch, and does not know its commit epoch yet (R263). -/
def State.changeOpen (s : State) (e : Nat) : Bool := s.map.commits.any fun h => h.epoch.isNone && decide (h.answered ≤ e)

/-- EPOCH_READY_SEND (R263, R393): once its mirrors have acknowledged every sealed item, and no change of the epoch is still open, the member declares
READY. -/
def execEpochReadySend (s : State) : Result :=
  match s.fabric.barrier with
  | none => .next s
  | some e =>
    if s.fabric.readySent || s.fabric.isolated || !s.running || !s.sealedAcked e || s.changeOpen e then .next s
    else
      let d := s.declared
      let s := { s with fabric := { s.fabric with readySent := true } }.bumpBy Ctr.settleDeferHandover 0 d.2
      if s.fabric.leader = s.self then
        .next { s with fabric := { s.fabric with readys := (s.fabric.readys.filter fun (r : Nat × List (Int × Int)) => r.1 ≠ s.self) ++ [(s.self, d.1)] } }.tryPublish
      else
        .next (s.sendFz 0x30 1 s.fabric.leader 0
          (beBytes e 8 ++ beBytes s.fabric.viewNo 2 ++ beBytes d.1.length 2 ++ d.1.flatMap fun t => tileBe t.1 t.2))

/-- BARRIER_READY at the leader (R394). -/
def execBarrierReady (src epoch viewNo : Nat) (tiles : List (Int × Int)) (s : State) : Result :=
  let s := s.taken (s.portOf src) 1 (12 + 4 * tiles.length)
  if !s.running || s.fabric.isolated || s.fabric.leader ≠ s.self || !s.others.contains src || viewNo ≠ s.fabric.viewNo || epoch ≠ s.map.published + 1 then .next s
  else .next { s with fabric := { s.fabric with readys := (s.fabric.readys.filter fun (r : Nat × List (Int × Int)) => r.1 ≠ src) ++ [(src, tiles)] } }.tryPublish

/-- BARRIER_PUBLISH at a member (R394): an epoch already published is ignored. -/
def execBarrierPublish (epoch viewNo : Nat) (recs : List PublishRec) (s : State) : Result :=
  let s := s.taken (s.portOf s.fabric.leader) 1 (12 + 8 * recs.length)
  if !s.running || s.fabric.isolated || s.fabric.leader = s.self || viewNo ≠ s.fabric.viewNo || epoch ≠ s.map.published + 1 then .next s
  else .next (s.publish recs)

end Sys2Proof.Machine
end

