-- ==== Sys2Proof/Machine/PlaceOps.lean ====
section
/-! DEFINITION. The mirror stream (R395, R411), new mirrors (R314), the messages of a handover (R309 to R313) and the placement reports
of DIAG (R318). -/

namespace Sys2Proof.Machine

/-! ## The mirror stream -/

/-- Whether an item of a stream has been acknowledged, or its mirror is gone (R411). -/
def State.acked (s : State) (need : Nat × Nat) : Bool :=
  !(bit s.fabric.members need.1) || !((s.streamTo need.1).items.any fun i => i.1 = need.2)

/-- A change that every mirror has acknowledged is recorded (R411): its operation completes, its solve goes on, or the answer of another
member's request goes out. -/
def State.ackDone (s : State) (w : AckWait) : State :=
  let r : Res := { status := w.status, count := w.count, detail := w.detail }
  match w.op, w.remote with
  | some id, _ =>
    if !((s.requestsOf id).all fun q => q.answered) then s
    else match s.findOp id, s.solveOf id with
    | some o, some _ => s.solveAnswered o
    | _, _ => (s.dropRequests id).complete id r
  | none, some p => s.sendResponse p.1 p.2.1 p.2.2 r w.data
  | none, none => s

/-- The changes whose acknowledgements have all arrived (R411). -/
def State.acksDone (s : State) : State :=
  let done := s.fabric.ackWaits.filter fun w => w.needs.all fun n => s.acked n
  let s := { s with fabric := { s.fabric with ackWaits := s.fabric.ackWaits.filter fun w => !(w.needs.all fun n => s.acked n) } }
  done.foldl State.ackDone s

/-- MIRROR_ACK at an owner (R395, R411). -/
def execMirrorAck (src seq : Nat) (s : State) : Result :=
  let s := s.taken (s.portOf src) 3 4
  let x := s.streamTo src
  if !s.running || !(x.items.any fun i => i.1 = seq) then .next s
  else
    let left := (x.items.dropWhile fun i => i.1 ≠ seq).drop 1
    .next (s.setStream { x with acked := seq, items := left }).acksDone

/-- The stream from a peer. -/
def State.streamFrom (s : State) (peer : Nat) : Stream := (s.fabric.inStreams.find? fun x => x.peer = peer).getD { peer := peer }

/-- Write the stream from a peer. -/
def State.setInStream (s : State) (x : Stream) : State :=
  let l := s.fabric.inStreams
  let l' := if l.any (fun y => y.peer = x.peer) then updFirst (fun y => y.peer = x.peer) (fun _ => x) l else l ++ [x]
  { s with fabric := { s.fabric with inStreams := l' } }

/-- Acknowledge the items applied from a peer (R395). -/
def State.sendAck (s : State) (x : Stream) : State := (s.setInStream { x with acked := x.seq }).sendFz 0x11 3 x.peer 0 (beBytes x.seq 4)

/-- The contents that an item gives a tile go into what is recorded (R310, R395); a malformed item changes nothing. -/
def State.takeItem (s : State) (ix iy : Int) (b : List Byte) : State :=
  match s.map.cur.takeItem (s.curTile ix iy) s.tileSize b with
  | some v => s.setCur v
  | none => s

/-- Bytes of an item (R387). -/
def itemLen : MirrorChange → Nat
  | .objects b => b.length
  | .copyEnd => 0

/-- Whether the device keeps a copy of a tile for another member: as its mirror, or as the target of its handover (R16, R310). -/
def State.copies (s : State) (t : Tile) (src : Nat) : Bool :=
  t.mirror = some s.self || t.handover.any fun h => !h.outgoing && h.peer = src

/-- The target tells the owner how far it is, once it has the snapshot (R310). -/
def State.sendSynced (s : State) (t : Tile) : State :=
  match t.handover with
  | some h =>
    if !h.outgoing && h.state = .synced then s.sendFz 0x23 3 h.peer 0 (tileBe t.ix t.iy ++ beBytes (s.streamFrom h.peer).seq 4) else s
  | none => s

/-- MIRROR_ITEM (R395): applied in ITEM_SEQ order, repeats and items after a gap left out, acknowledged every 64. -/
def execMirrorItem (m : MirrorItemMsg) (s : State) : Result :=
  let s := s.taken (s.portOf m.src) 3 (16 + itemLen m.change)
  let x := s.streamFrom m.src
  if !s.running || !s.others.contains m.src || m.seq ≠ (x.seq + 1) % 2 ^ 32 then .next s
  else
    let x := { x with seq := m.seq }
    let s := s.setInStream x
    let t := s.curTile m.ix m.iy
    let s :=
      if !s.copies t m.src then s
      else match m.change with
        | .objects img =>
          let s := if m.epoch < s.nextEpoch then s.inSealed fun s => s.takeItem m.ix m.iy img else s
          (s.takeItem m.ix m.iy img).updTile m.ix m.iy fun t => { t with handover := t.handover.map fun h => { h with streamed := true } }
        | .copyEnd => s.updTile m.ix m.iy fun t => if t.mirror = some s.self then { t with syncing := false } else t
    let s := if 64 ≤ (x.seq + 2 ^ 32 - x.acked) % 2 ^ 32 then s.sendAck x else s
    .next (s.sendSynced (s.curTile m.ix m.iy))

/-- After 1 ms, a mirror acknowledges what it has applied (R395). -/
def execMirrorAckTimer (src : Nat) (s : State) : Result :=
  let x := s.streamFrom src
  if s.running && x.seq ≠ x.acked then .next (s.sendAck x) else .next s

/-- A new mirror's copy is complete (R314): at the owner once the mirror has acknowledged the tile's items, at the mirror itself. -/
def execMirrorSyncComplete (ix iy : Int) (s : State) : Result :=
  let t := s.curTile ix iy
  let sent := match t.mirror with
    | some m => !((s.streamTo m).items.any fun i => i.2.1 = ix && i.2.2.1 = iy)
    | none => false
  if s.running && t.syncing && (t.mirror = some s.self || (t.owner = s.self && sent)) then .next (s.updTile ix iy fun t => { t with syncing := false })
  else .next s

/-! ## Handover messages -/

/-- HANDOVER_PROPOSE at a target (R309, R310, R387). A target that mirrors the tile is SYNCED at once. -/
def execHandoverPropose (src : Nat) (ix iy : Int) (_epoch : Nat) (s : State) : Result :=
  let s := s.taken (s.portOf src) 3 12
  if !s.running || s.fabric.isolated || !s.others.contains src then .next s
  else
    let t := s.curTile ix iy
    let code := if s.fabric.leaving then 3 else if t.handover.isSome || t.owner = s.self then 2 else if s.tileCap ≤ s.owned.length then 1 else 0
    let h : Handover := { peer := src, outgoing := false, state := if t.mirror = some s.self then .synced else .copying, copyEpoch := s.map.published }
    let s := if code = 0 then s.updTile ix iy fun t => { t with handover := some h } else s
    let s := if code = 1 then s.bump Ctr.handoverRefused else s
    .next (s.sendFz 0x21 3 src 0 (tileBe ix iy ++ beBytes code 1))

/-- The snapshot of a tile as of the latest published epoch, in SNAPSHOT segments (R310, R387). -/
def State.sendSnapshot (s : State) (t : Tile) (peer : Nat) : State :=
  let v := s.map.latest
  let img := tileItem v ((v.tile t.ix t.iy).getD { ix := t.ix, iy := t.iy }) s.map.published s.tileSize
  let segs := segments 65504 img
  segs.foldl (fun (s : State) g =>
    s.sendFz 0x22 3 peer 0 (tileBe t.ix t.iy ++ beBytes g.1 8 ++ beBytes (b2n (decide (img.length ≤ g.1 + g.2.length))) 1 ++ zeros 3 ++ g.2)) s

/-- HANDOVER_REPLY at the owner (R309, R310): on an accept COPYING starts, and what is recorded and not yet published follows on the
stream (R311). A refusal at TILE_CAP bars the target for HOLD_EPOCHS epochs. -/
def execHandoverReply (src : Nat) (ix iy : Int) (code : Nat) (s : State) : Result :=
  let s := s.taken (s.portOf src) 3 5
  let t := s.curTile ix iy
  let mine := t.owner = s.self && t.handover.any fun h => h.outgoing && h.peer = src && h.state = .proposed
  if !s.running || !mine then .next s
  else if code = 0 then
    if t.mirror = some src then .next (s.updTile ix iy fun t => { t with handover := some { peer := src, state := .synced, copyEpoch := s.map.published } })
    else
      let s := s.updTile ix iy fun t => { t with handover := some { peer := src, state := .copying, copyEpoch := s.map.published } }
      .next ((s.sendSnapshot t src).stream ix iy)
  else
    let until_ := s.map.published + s.holdEpochs
    .next (s.updTile ix iy fun t => { t with handover := none, refusedBy := if code = 1 then (t.refusedBy.filter fun r => r.1 ≠ src) ++ [(src, until_)] else t.refusedBy })

/-- SNAPSHOT at the target (R310): segments in order; the last makes the copy complete, unless a later item of the stream already has, and
the target is SYNCED. -/
def execSnapshot (src : Nat) (ix iy : Int) (offset : Nat) (last : Bool) (data : List Byte) (s : State) : Result :=
  let s := s.taken (s.portOf src) 3 (16 + data.length)
  let t := s.curTile ix iy
  match t.handover with
  | none => .next s
  | some h =>
    if !s.running || h.outgoing || h.peer ≠ src || h.state ≠ .copying || offset ≠ h.received.length then .next s
    else if !last then .next (s.updTile ix iy fun t => { t with handover := some { h with received := h.received ++ data } })
    else
      let s := if h.streamed then s else s.takeItem ix iy (h.received ++ data)
      let s := s.updTile ix iy fun t => { t with handover := some { h with received := [], state := .synced } }
      .next (s.sendSynced (s.curTile ix iy))

/-- SYNCED at the owner (R310): the target has applied the snapshot and every item sent so far. -/
def execSynced (src : Nat) (ix iy : Int) (seq : Nat) (s : State) : Result :=
  let s := s.taken (s.portOf src) 3 8
  let t := s.curTile ix iy
  match t.handover with
  | none => .next s
  | some h =>
    if !s.running || !h.outgoing || h.peer ≠ src || h.state ≠ .copying || seq ≠ (s.streamTo src).seq then .next s
    else .next (s.updTile ix iy fun t => { t with handover := some { h with state := .synced } })

/-- HANDOVER_ABORT from the other party (R313). -/
def execHandoverAbort (src : Nat) (ix iy : Int) (_reason : Nat) (s : State) : Result :=
  let s := s.taken (s.portOf src) 3 5
  let t := s.curTile ix iy
  if s.running && t.handover.any fun h => h.peer = src then .next (s.dropHandover t) else .next s

/-- 4 epochs have passed since COPYING and the handover is not SYNCED, or a settling pass still bars its declaration (R313). -/
def execHandoverCopyTimeout (ix iy : Int) (s : State) : Result :=
  let t := s.curTile ix iy
  let due := t.handover.any fun h =>
    h.outgoing && (h.state = .copying || (h.state = .synced && s.settlingBars)) && decide (h.copyEpoch + 4 ≤ s.map.published)
  if s.running && t.owner = s.self && due then .next (s.abortHandover t 3) else .next s

/-! ## Reports of DIAG (R318) -/

/-- A 16-bit core ID (R46). -/
def coreId (cluster kind index : Nat) : Nat := cluster * 4096 + kind * 256 + index

/-- The result of a report: the 16-byte header and the records that fit CAPACITY (R318, R423). -/
def State.report (s : State) (o : Op) (size : Nat) (recs : List (List Byte)) : State :=
  let n := min recs.length ((o.u32 32 - 16) / size)
  let out := leBytes s.map.published 8 ++ leBytes recs.length 4 ++ leBytes n 4 ++ (recs.take n).flatten
  (s.writeMem (o.u64 24) out).finish o.id
    { status := if n < recs.length then St.okPartial else St.ok, count := n, detail := recs.length }

/-- Run a report after its CAPACITY check (R318). -/
def State.diag (s : State) (op sub size : Nat) (recs : Op → List (List Byte)) : Result :=
  s.runSub op 0x49 sub fun o => if o.u32 32 < 16 then s.finish op (Res.field 32) else s.report o size (recs o)

/-- The tidy core that fused the last frame of a session: which of its cluster's tidy cores in service is the placement's choice, so free (R318). -/
def State.tidyOf (s : State) (x : Session) : Nat :=
  let l := (List.range 10).filter fun i => (s.place.clusters.find? fun c => c.idx = x.cluster).any fun c => bit c.tidyIn i
  (l[Config.freeNat (s.free + x.id) % l.length]?).getD 0

/-- The SESSIONS record of a session (R318). -/
def State.sessionRec (s : State) (x : Session) : List Byte :=
  leBytes x.id 4 ++ leBytes (coreId x.cluster 2 0) 2 ++ leBytes (coreId x.cluster 1 (s.tidyOf x)) 2 ++
    leBytes (min 65535 x.moves) 2 ++ leBytes (min 65535 x.movesAbandoned) 2 ++ zeros 4

/-- DIAG REPORT = SESSIONS (R318). -/
def execDiagSessions (op : Nat) (s : State) : Result :=
  s.diag op 0x10 16 fun o => (((s.sess.list.filter fun x => x.fn = o.fn).mergeSort fun a b => decide (a.id ≤ b.id))).map s.sessionRec

/-- The CLUSTERS record of a cluster (R318). -/
def State.clusterRec (s : State) (c : Cluster) : List Byte :=
  leBytes c.idx 1 ++ leBytes c.role.code 1 ++ leBytes (s.sess.list.filter fun x => x.cluster = c.idx && x.state != .closed).length 2 ++
    leBytes ((s.matrix.infers.filter fun i => i.cluster = c.idx).length + (s.abacus.running.filter fun r => r.cluster = c.idx).length) 1 ++
    leBytes c.load 1 ++ zeros 2 ++ c.waits.flatMap (fun w => leBytes w 4) ++ zeros 4

/-- DIAG REPORT = CLUSTERS (R318). -/
def execDiagClusters (op : Nat) (s : State) : Result :=
  s.diag op 0x11 32 fun _ => (s.place.clusters.mergeSort fun a b => decide (a.idx ≤ b.idx)).map s.clusterRec

/-- The TILES record of a tile of the latest epoch, none where the device has no part in it (R318). A device that has handed the tile over
and still holds an epoch in which it owned it is listed as handing over (DEDUCED). A handover's roles have held since the epoch of its copy. -/
def State.tileRec (s : State) (t : Tile) : Option (List Byte) :=
  let h := (s.curTile t.ix t.iy).handover
  let wasMine := s.map.held.any fun v => ((v.2.tile t.ix t.iy).any fun x => x.owner = s.self)
  let kept := if t.mirror = some s.self then some (1, t.owner, t.since) else if wasMine then some (2, t.owner, t.since) else none
  let role : Option (Nat × Nat × Nat) :=
    match h with
    | some h =>
      if t.owner = s.self then (if h.outgoing && h.state != .proposed then some (2, h.peer, h.copyEpoch) else some (0, t.mirror.getD 255, t.since))
      else if !h.outgoing then some (3, t.owner, h.copyEpoch)
      else kept
    | none => if t.owner = s.self then some (0, t.mirror.getD 255, t.since) else kept
  role.map fun r =>
    leBytes (tc 16 t.ix) 2 ++ leBytes (tc 16 t.iy) 2 ++ leBytes r.1 1 ++ leBytes r.2.1 1 ++
      leBytes (b2n t.prefer.isSome + 2 * b2n t.hold + 4 * b2n t.syncing) 1 ++ zeros 1 ++ leBytes r.2.2 8

/-- DIAG REPORT = TILES (R318). -/
def execDiagTiles (op : Nat) (s : State) : Result := s.diag op 0x12 16 fun _ => s.map.latest.tiles.filterMap s.tileRec

end Sys2Proof.Machine
end

