-- ==== Sys2Proof/Machine/TimeOps.lean ====
section
/-! DEFINITION. Device time: its states, steps and measured offsets (R356 to R361), PTP (R362, R363), PPS (R375), triggers (R373,
R374), ticks (R361, R469), and what the TIME registers do (R376). -/

namespace Sys2Proof.Machine

/-! ## Sources and offsets -/

/-- The sources of device time (R359). -/
inductive TimeSource where
  | host | ptp | pps | fabric
  deriving DecidableEq, Repr

/-- The source in force: PTP and PPS act as HOST without a net unit, and so does a code of 4 or more (R359, R376). -/
def State.timeSource (s : State) : TimeSource :=
  let c := s.regF 0x6000 0 2 0
  if c = 1 ∧ s.hasNet then .ptp else if c = 2 ∧ s.hasNet then .pps else if c = 3 then .fabric else .host

/-- A step moves device time by d ns at once: it is counted and logged, and each trigger stays inactive for at least its WIDTH
before its next pulse (R360, R361). -/
def State.stepBy (s : State) (d : Int) : State :=
  let dev : Nat := ((s.clock.dev : Int) + d * (devUnit : Int)).toNat
  let rest (g : Trig) : Trig := { g with idleUntil := (if g.level then max g.endsAt s.clock.now else s.clock.now) + g.width }
  let s := { s with clock := { s.clock with dev := dev }, net := { s.net with trigs := s.net.trigs.map rest } }
  (s.bump Ctr.timeStep).log (dieUnit 4) 0x0040 4 255 0 (tc 64 d)

/-- A step to a device time in ns. -/
def State.stepTo (s : State) (ns : Nat) : State := s.stepBy ((ns : Int) - (s.devNs : Int))

/-- The state of device time set. -/
def State.timeIs (s : State) (t : TimeState) : State := { s with clock := { s.clock with state := t } }

/-- STEP_LIMIT in ns, 1 to 255 units of 10 µs (R376). -/
def State.stepLimit (s : State) : Nat := max 1 (s.regF 0x6000 0 15 8) * 10000

/-- An offset measured from the source, device time less source time (R358, R360): the first one while UNSET and one beyond
STEP_LIMIT are steps; a smaller one is removed by a rate within ±500 ppm that the device chooses; 16 in a row within 1 µs lock. -/
def State.measured (s : State) (off : Int) : State :=
  let c := s.clock
  let s := { s with clock := { c with lastOffset := off, sourceLost := false, holdoverSince := c.now } }
  if c.state = .unset then
    let s := (s.stepBy (-off)).timeIs .free
    { s with clock := { s.clock with goodRun := 0 } }
  else
    let good := decide (off.natAbs ≤ 1000)
    let run := if good then c.goodRun + 1 else 0
    let st : TimeState := if 16 ≤ run then .locked else if c.state = .locked ∧ !good then .free else c.state
    let s := { s with clock := { s.clock with goodRun := min 16 run, state := st } }
    if s.stepLimit < off.natAbs then s.stepBy (-off)
    else { s with clock := { s.clock with rate := clampI (-512000000) 512000000 (Config.slewRate off s.free) }, free := s.free + 1 }

/-- The source is lost: LOCKED becomes HOLDOVER (R358). -/
def State.lostSource (s : State) : State :=
  let c := { s.clock with sourceLost := true, goodRun := 0 }
  { s with clock := if c.state = .locked then { c with state := .holdover, holdoverSince := c.now } else c }

/-- Whether TIME_CMD and TIME_RATE are refused: under PTP, and under FABRIC with a parent (R376). -/
def State.timeLocked (s : State) : Bool := s.timeSource = .ptp || (s.timeSource = .fabric && s.fabric.parentPort.isSome)

/-- The time that TIME_SET asks for, its nanoseconds at most 999,999,999 (R376). -/
def State.timeSetNs (s : State) (ns : Nat) : Nat :=
  (s.reg 0x6018 0 + s.reg 0x601C 0 * 2 ^ 32) * 1000000000 + min 999999999 ns

/-- TIME_CMD SET (R358, R359, R360, R376): a step to TIME_SET, at once or with SOURCE = PPS at the next edge. -/
def State.timeSet (s : State) (fn : Nat) : State :=
  if s.timeLocked then s.lockViolation fn 0x6020
  else if s.timeSource = .pps then { s with clock := { s.clock with ppsSetPending := true } }
  else
    let s := (s.stepTo (s.timeSetNs (s.regF 0x6014 0 29 0))).timeIs .free
    { s with clock := { s.clock with goodRun := 0 } }

/-- TIME_CMD STEP (R358, R360, R376): a step by TIME_STEP; one whose result would lie before 0 is not taken; UNSET stays. -/
def State.timeStep (s : State) (fn : Nat) : State :=
  let d := sext 32 (s.reg 0x6024 0)
  if s.timeLocked then s.lockViolation fn 0x6020
  else if (s.clock.dev : Int) + d * (devUnit : Int) < 0 then s.lockViolation fn 0x6020
  else
    let s := s.stepBy d
    if s.clock.state = .locked then { s with clock := { s.clock with state := .free, goodRun := 0 } } else s

/-- A write of TIME_RATE, brought into ±512,000,000 (R376). -/
def State.timeRate (s : State) (fn v : Nat) : State :=
  if s.timeLocked then s.lockViolation fn 0x6028
  else { s with clock := { s.clock with rate := clampI (-512000000) 512000000 (sext 32 v) } }

/-- A read of TIME_NS latches the seconds (R376). -/
def State.latchSeconds (s : State) : State := { s with clock := { s.clock with latchSec := s.devNs / 1000000000 } }

/-- TIME_STATUS (R376). -/
def State.timeStatus (s : State) : Nat :=
  s.clock.state.code + 4 * b2n s.clock.ppsSeen + 8 * b2n s.clock.ptpMaster + tc 16 (clampI (-32767) 32767 s.clock.lastOffset) * 2 ^ 16

/-- HOLDOVER_LIMIT (R358): 600 s in HOLDOVER without a measurement. -/
def execHoldoverLimit (s : State) : Result :=
  if s.clock.state = .holdover then .next ((s.toTime (s.clock.holdoverSince + 600000000000)).timeIs .free) else .next s

/-! ## Triggers -/

/-- The settings of a trigger taken at a tick: an enable that breaks R374 leaves it off and sets CFG_ERR. A pulse in progress goes on. -/
def State.takeTrigger (s : State) (t : Nat) : State :=
  let period := clampN 100000 1000000000 (s.reg 0x7004 t)
  let phase := s.regF 0x7008 t 29 0
  let cfg := s.reg 0x700C t
  let width := bits cfg 23 8 * 1000
  let good := decide (1000000000 % period = 0 ∧ width ≠ 0 ∧ 2 * width ≤ period ∧ phase < period)
  let take (g : Trig) : Trig :=
    let g := { g with invert := bit cfg 1 }
    if bit cfg 0 then
      if good then { g with running := true, cfgErr := false, period := period, phase := phase, width := width }
      else { g with running := false, cfgErr := true }
    else { g with running := false }
  { s with net := { s.net with trigs := updAt t take s.net.trigs } }

/-- The first edge time of a trigger at or after a device time (R373). -/
def Trig.edgeFrom (g : Trig) (ns : Nat) : Nat :=
  let sec := ns / 1000000000 * 1000000000
  if ns ≤ sec + g.phase then sec + g.phase
  else
    let e := sec + g.phase + (ns - sec - g.phase + g.period - 1) / g.period * g.period
    if e < sec + 1000000000 then e else sec + 1000000000 + g.phase % g.period

/-- The next edge of a trigger: after the last one where that lies at or before the present (R361, R373). -/
def State.nextEdge (s : State) (g : Trig) : Nat :=
  match g.lastEdge with
  | some e => if e ≤ s.devNs then g.edgeFrom (max s.devNs (e + 1)) else g.edgeFrom s.devNs
  | none => g.edgeFrom s.devNs

/-- TRIGGER_EDGE (R361, R373): device time reaches the trigger's next edge time; the pulse begins unless a step holds the
output inactive. -/
def execTriggerEdge (t : Nat) (s : State) : Result :=
  match s.net.trigs[t]? with
  | none => .next s
  | some g =>
    if g.running && !g.level && s.clock.state != .unset && s.hasNet && s.running then
      let e := s.nextEdge g
      let s := s.toDev e
      let rise (g : Trig) : Trig :=
        if s.clock.now < g.idleUntil then { g with lastEdge := some e }
        else { g with level := true, endsAt := s.clock.now + g.width, lastEdge := some e }
      .next { s with net := { s.net with trigs := updAt t rise s.net.trigs } }
    else .next s

/-- TRIGGER_PULSE_END (R361, R373): WIDTH after its edge the pulse ends, whatever changed meanwhile. -/
def execTriggerPulseEnd (t : Nat) (s : State) : Result :=
  match s.net.trigs[t]? with
  | none => .next s
  | some g =>
    if g.level then
      let s := s.toTime g.endsAt
      .next { s with net := { s.net with trigs := updAt t (fun (g : Trig) => { g with level := false }) s.net.trigs } }
    else .next s

/-- The level that a trigger drives (R373, R378). -/
def Trig.ball (g : Trig) : Bool := g.level != g.invert

/-- The level at a trigger's ball: driven while the NET domain, which holds the drivers, is on and the trigger has been configured; otherwise a
pull-down holds it low, and safe hold drives it inactive (R413, R430, R431, R452). -/
def State.trigBall (s : State) (t : Nat) : Bool :=
  match s.net.trigs[t]? with
  | none => false
  | some g => if !s.domOn 4 then false else if s.fault.safeHold && !g.level then g.invert else g.ball

/-! ## Ticks -/

/-- TICK (R361, R374, R469): the 1 ms boundary of device time at or after the present, never one whose tick has been, applies the shadows of TICK and FRAME
and the triggers' settings; the power of the last tick is measured (R456), which the spec gives no value for. -/
def execTick (s : State) : Result :=
  let n := max ((s.devNs + 999999) / 1000000) (s.clock.lastTick + 1)
  let s := s.toDev (n * 1000000)
  let trigs := (List.range 8).filter fun t => s.regs.waiting.any fun w => w.2 = t && [0x7004, 0x7008, 0x700C].contains w.1
  let regs := s.regs.applyAt s.chip (fun b => b = .tick || b = .frame) (fun _ => true)
  let s := { s with regs := regs, clock := { s.clock with lastTick := n }, power := { s.power with powerMw := Config.freeNat s.free, tjMax := Config.freeNat (s.free + 1) }, free := s.free + 2 }
  .next (if s.running && s.hasNet then trigs.foldl (fun (s : State) t => s.takeTrigger t) s else s)

/-! ## PPS -/

/-- The offset of device time from the nearest whole second. -/
def State.secondOffset (s : State) : Int :=
  let r := s.devNs % 1000000000
  if r < 500000000 then (r : Int) else (r : Int) - 1000000000

/-- PPS_IN_EDGE (R358, R359, R375): the edge is a whole second; with SOURCE = PPS it applies a pending SET, or is a measurement. -/
def execPpsInEdge (s : State) : Result :=
  if s.hasNet && s.power.boot = .running then
    let s := { s with clock := { s.clock with ppsSeen := true, lastPps := s.clock.now } }
    if s.timeSource = .pps then
      if s.clock.ppsSetPending then
        let s := (s.stepTo (s.timeSetNs 0 / 1000000000 * 1000000000)).timeIs .free
        .next { s with clock := { s.clock with goodRun := 0, ppsSetPending := false, sourceLost := false } }
      else if s.clock.state = .unset then .next s
      else .next (s.measured s.secondOffset)
    else .next s
  else .next s

/-- PPS_SEEN_TIMEOUT (R358, R375): 1.5 s after the last edge PPS_SEEN clears, which is loss of a PPS source. -/
def execPpsSeenTimeout (s : State) : Result :=
  if s.clock.ppsSeen then
    let s := s.toTime (s.clock.lastPps + 1500000000)
    let s := { s with clock := { s.clock with ppsSeen := false } }
    .next (if s.timeSource = .pps then s.lostSource else s)
  else .next s

/-- PPS_OUT_RISE (R375): at the next whole second while PPS_OUT_EN = 1 and device time is not UNSET. -/
def execPpsOutRise (s : State) : Result :=
  if s.hasNet && s.running && bit (s.reg 0x6000 0) 4 && s.clock.state != .unset && !s.net.ppsOut then
    let s := s.toDev ((s.devNs + 999999999) / 1000000000 * 1000000000)
    .next { s with net := { s.net with ppsOut := true, ppsRoseAt := s.clock.now } }
  else .next s

/-- PPS_OUT_FALL (R375): 10 ms after it rose. -/
def execPpsOutFall (s : State) : Result :=
  if s.net.ppsOut then
    let s := s.toTime (s.net.ppsRoseAt + 10000000)
    .next { s with net := { s.net with ppsOut := false } }
  else .next s

/-! ## PTP -/

/-- NET_CTRL of the ordinary clock: its port (R377). -/
def State.ptpPort (s : State) : Nat := s.regF 0x5000 0 7 7

/-- Whether the ordinary clock runs (R362, R377). -/
def State.ptpOn (s : State) : Bool := s.hasNet && s.running && !s.net.stopped && bit (s.reg 0x5000 0) 6 && s.portUp s.ptpPort

/-- Whether peer delay is used; PROFILE = 1 forces it (R377). -/
def State.ptpPeer (s : State) : Bool := bit (s.reg 0x5000 0) 10 || bit (s.reg 0x5000 0) 8

/-- The transport of PTP; PROFILE = 1 forces Ethernet (R377). -/
def State.ptpTransport (s : State) : PtpTransport :=
  let t := s.regF 0x5000 0 12 11
  if bit (s.reg 0x5000 0) 8 ∨ 2 ≤ t then .ethernet else if t = 1 then .udp6 else .udp4

/-- The MAC address of a port (R377). -/
def State.mac (s : State) (p : Nat) : Nat := s.reg 0x5010 p + s.regF 0x5014 p 15 0 * 2 ^ 32

/-- The clock identity: the EUI-64 of the port's MAC address. PRESUMED, of IEEE 1588. -/
def State.clockIdentity (s : State) : Nat :=
  let m := s.mac s.ptpPort
  m / 2 ^ 24 * 2 ^ 40 + 0xFFFE * 2 ^ 24 + m % 2 ^ 24

/-- The dataset the device announces (R362, R377). -/
def State.ownDataset (s : State) : List Nat :=
  [s.regF 0x5004 0 15 8, s.regF 0x5004 0 31 24, s.regF 0x5004 0 23 16, s.clockIdentity]

/-- The best master clock comparison, lower values first (R362). PRESUMED, of IEEE 1588, over the members an Announce carries here. -/
def datasetBetter : List Nat → List Nat → Bool
  | a :: x, b :: y => decide (a < b) || (decide (a = b) && datasetBetter x y)
  | _, _ => false

/-- Send a PTP message from the ordinary clock's port. -/
def State.sendPtp (s : State) (m : PtpMsg) : State := { s with out := { s.out with ptp := { port := s.ptpPort, msg := m } :: s.out.ptp } }

/-- Become grandmaster, unless the device only follows (R362, R377). -/
def State.becomeMaster (s : State) : State :=
  { s with clock := { s.clock with ptpParent := none, ptpSet := [], ptpDelay := none, ptpSyncRx := none, ptpLastSync := none,
                                   ptpMaster := !bit (s.reg 0x5000 0) 13 } }

/-- An Announce from another clock: the better of it and the present master is followed, a worse parent is dropped (R362). -/
def State.ptpAnnounce (s : State) (set_ : List Nat) (id : Nat) : State :=
  let c := s.clock
  let follow := bit (s.reg 0x5000 0) 13 || datasetBetter set_ s.ownDataset
  if c.ptpParent = some id then
    if follow then { s with clock := { c with ptpSet := set_ } } else s.becomeMaster
  else if follow && (c.ptpParent.isNone || datasetBetter set_ c.ptpSet) then
    { s with clock := { c with ptpParent := some id, ptpSet := set_, ptpMaster := false, ptpDelay := none, ptpSyncRx := none, ptpReqTx := none,
                               ptpLastSync := none } }
  else s

/-- A Sync whose origin time is known: the delay request mechanism keeps it, and with a path delay it is a measurement (R358, R360, R362). -/
def State.ptpSynced (s : State) (origin rx : Nat) : State :=
  let s := { s with clock := { s.clock with ptpSyncRx := none, ptpLastSync := some (origin, rx) } }
  match s.clock.ptpDelay with
  | some d => if s.timeSource = .ptp then s.measured ((rx : Int) - (origin : Int) - d) else s
  | none => s

/-- A path delay measured. -/
def State.ptpDelayIs (s : State) (d : Int) : State := { s with clock := { s.clock with ptpDelay := some d, ptpReqTx := none } }

/-- A PTP message that reached the time unit with a receive stamp (R362, R363). -/
def State.ptpReceive (s : State) (m : PtpMsg) (rx : Nat) : State :=
  match m with
  | .announce p1 cc p2 id => if id = s.clockIdentity then s else s.ptpAnnounce [p1, cc, p2, id] id
  | .sync id origin twoStep =>
    if s.clock.ptpParent = some id then
      if twoStep then { s with clock := { s.clock with ptpSyncRx := some rx } } else s.ptpSynced origin rx
    else s
  | .followUp id origin =>
    if s.clock.ptpParent = some id then
      match s.clock.ptpSyncRx with
      | some r => s.ptpSynced origin r
      | none => s
    else s
  | .delayReq _ => if s.clock.ptpMaster && !s.ptpPeer then s.sendPtp (.delayResp s.clockIdentity rx) else s
  | .delayResp id stamp =>
    match s.clock.ptpReqTx, s.clock.ptpLastSync with
    | some t3, some (t1, t2) =>
      if s.clock.ptpParent = some id ∧ ¬ s.ptpPeer then
        s.ptpDelayIs ((((t2 : Int) - (t1 : Int)) + ((stamp : Int) - (t3 : Int))) / 2)
      else s
    | _, _ => s
  | .pdelayReq _ => if s.ptpPeer then (s.sendPtp (.pdelayResp s.clockIdentity (Config.freeNat s.free))).spend 1 else s
  | .pdelayResp _ turn =>
    match s.clock.ptpReqTx with
    | some t => if s.ptpPeer then s.ptpDelayIs (((rx : Int) - (t : Int) - (turn : Int)) / 2) else s
    | none => s
  | .management => s

/-- PTP_MESSAGE (R362): a message handled by the ordinary clock as it arrives. -/
def execPtpMessage (m : PtpMsg) (s : State) : Result := if s.ptpOn then .next (s.ptpReceive m (s.rxStamp s.ptpPort)) else .next s

/-- PTP_ANNOUNCE_TIMEOUT (R358, R362): with no other master qualified the source is lost, and the device may become grandmaster. -/
def execPtpAnnounceTimeout (s : State) : Result :=
  if s.ptpOn then
    let had := s.clock.ptpParent.isSome
    let s := s.becomeMaster
    .next (if had && s.timeSource = .ptp then s.lostSource else s)
  else .next s

/-- PTP_MESSAGE_INTERVAL (R362): Announce and Sync as grandmaster, a delay request as follower or under peer delay. -/
def execPtpMessageInterval (s : State) : Result :=
  if s.ptpOn then
    let tx := s.txStamp s.ptpPort
    let id := s.clockIdentity
    let s :=
      if s.clock.ptpMaster then
        let s := s.sendPtp (.announce (s.regF 0x5004 0 15 8) (s.regF 0x5004 0 31 24) (s.regF 0x5004 0 23 16) id)
        if bit (s.reg 0x5000 0) 9 then s.sendPtp (.sync id tx false) else (s.sendPtp (.sync id tx true)).sendPtp (.followUp id tx)
      else s
    if s.ptpPeer then .next { s.sendPtp (.pdelayReq id) with clock := { s.clock with ptpReqTx := some tx } }
    else if s.clock.ptpParent.isSome then .next { s.sendPtp (.delayReq id) with clock := { s.clock with ptpReqTx := some tx } }
    else .next s
  else .next s

end Sys2Proof.Machine
end

