-- ==== Sys2Proof/Machine/FabricOps.lean ====
section
/-! DEFINITION. The Farzako link and the array: links and lanes (R381 to R384), HELLO (R389), views (R390 to R392), time across the
array (R396), forwarding (R386), and the work a device does for another member (R29, R312, R388). -/

namespace Sys2Proof.Machine

/-! ## Ports and flits -/

/-- Change a fabric port. -/
def State.updPort (s : State) (p : Nat) (f : FzPort → FzPort) : State :=
  { s with fabric := { s.fabric with ports := updAt p f s.fabric.ports } }

/-- A fabric port. -/
def State.fzPort (s : State) (p : Nat) : FzPort := (s.fabric.ports[p]?).getD {}

/-- Whether a port may come up: the part has it, PORT_EN is set, and its dimension has more than one device (R379, R380, R397). -/
def State.portUsable (s : State) (p : Nat) : Bool :=
  decide (p < s.fzPorts) && bit (s.reg 0x8004 0) p && decide (2 ≤ (s.power.options.dims[p / 2]?).getD 1) && s.running && s.fabricUp

/-- FZL_LINK_UP (R384, R389): a usable port has trained; HELLO starts. The flit sequence survives a retraining. -/
def execFzlLinkUp (port : Nat) (s : State) : Result :=
  if s.portUsable port ∧ s.domOn (5 + port) then
    .next (s.updPort port fun q =>
      { q with up := true, retraining := false, agreed := false, isolated := false,
               lanes := if q.lanes = 0 then 31 else q.lanes })
  else .next s

/-- A port goes down. -/
def State.portDown (s : State) (p : Nat) : State :=
  s.updPort p fun q => { q with up := false, retraining := false, agreed := false, isolated := false, neighbourKnown := false, masterSeen := none, flits := {} }

/-- The sender replays from a flit, out of the last 512 that it keeps: counted; after 16 replays of the same flit the port retrains (R384). -/
def State.replayFrom (s : State) (port flit : Nat) : State :=
  let q := s.fzPort port
  let n := if q.nacked = some flit then q.replayed + 1 else 1
  let again := q.flits.kept.dropWhile fun k => k.1 ≠ flit
  let s := (s.bumpBy Ctr.fzlReplay port 1).updPort port fun q => { q with nacked := some flit, replayed := n }
  let s := { s with out := { s.out with replays := (port, flit) :: s.out.replays, flits := (again.map fun k => (port, k.2)).reverse ++ s.out.flits } }
  if 16 ≤ n then
    (s.bumpBy Ctr.fzlRetrain port 1).updPort port fun q => { q with retraining := true, retrainAt := s.clock.now, replayed := 0, agreed := false }
  else s

/-- FLIT_NAK (R384): replay from ACK + 1. -/
def execFlitNak (port ack : Nat) (s : State) : Result :=
  let q := s.fzPort port
  if q.up && !q.retraining then .next ((s.updPort port fun q => { q with ackSeq := ack % 4096 }).replayFrom port ((ack + 1) % 4096)) else .next s

/-- FLIT_REPLAY_TIMEOUT (R384): 1 µs without an advance in ACK while flits are unacknowledged. -/
def execFlitReplayTimeout (port : Nat) (s : State) : Result :=
  let q := s.fzPort port
  if q.up && !q.retraining && q.txSeq != (q.ackSeq + 1) % 4096 then .next (s.replayFrom port ((q.ackSeq + 1) % 4096)) else .next s

/-- PORT_RETRAIN_TIMEOUT (R384): a port that has not retrained within 100 ms is down. -/
def execPortRetrainTimeout (port : Nat) (s : State) : Result :=
  let q := s.fzPort port
  if q.retraining then .next ((s.toTime (q.retrainAt + 100000000)).portDown port) else .next s

/-- A LANE_SWAP flit leaves by a port (R381, R382). -/
def State.laneSwap (s : State) (port : Nat) : State :=
  let q := s.fzPort port
  { s with out := { s.out with flits := (port, flitBytes 3 { last := false } q.txSeq ((q.rxNext + 4095) % 4096) none) :: s.out.flits } }

/-- LANE_FAILURE (R381, R409): the spare takes over; without it the port narrows to 2 lanes; a further failure takes it down. -/
def execLaneFailure (port lane : Nat) (s : State) : Result :=
  let q := s.fzPort port
  if !q.up || 5 ≤ lane || !bit q.lanes lane then .next s
  else
    let s := s.updPort port fun q => { q with lanes := setBit q.lanes lane false }
    if !q.spareUsed && lane = 4 then .next s
    else if !q.spareUsed && bit q.lanes 4 then
      let s := ((s.updPort port fun q => { q with spareUsed := true }).laneSwap port).bumpBy Ctr.fzlLaneRepair port 1
      .next ((s.useSpare 6).unitGone (dieUnit 7) 6 0xFFFF port)
    else if !q.degraded then .next ((s.updPort port fun q => { q with degraded := true }).exhaust (dieUnit 7) 6)
    else .next (s.portDown port)

/-- FLIT_RECEIVE_ERROR (R384): a CRC failure or a gap is answered with a NAK, and flits are discarded until the missing one. -/
def execFlitReceiveError (port expected : Nat) (s : State) : Result :=
  if (s.fzPort port).up then
    let s := s.updPort port fun q => { q with rxNext := expected % 4096 }
    .next { s with out := { s.out with naks := (port, (expected + 4095) % 4096) :: s.out.naks } }
  else .next s

/-! ## HELLO and coordinates (R389) -/

/-- The device's HELLO body (R387). -/
def State.helloBody (s : State) (port : Nat) : List Byte :=
  let o := s.power.options
  beBytes s.self 1 ++ beBytes port 1 ++ beBytes o.dimX 1 ++ beBytes o.dimY 1 ++ beBytes o.dimZ 1 ++ beBytes (b2n s.fabric.coordValid) 1 ++
    beBytes s.fabric.coord 1 ++ beBytes o.tileSize 1 ++ beBytes s.fabric.leader 1 ++ zeros 1 ++ beBytes s.fabric.viewNo 2 ++
    beBytes s.epochPeriod 2 ++ beBytes 1 2

/-- The first field of a HELLO or JOIN that disagrees with the device's own, as JOIN_REPLY codes it (R387, R389, R392). -/
def State.helloCode (s : State) (h : Hello) : Nat :=
  let o := s.power.options
  if h.tileSize ≠ o.tileSize then 1
  else if h.dimX ≠ o.dimX ∨ h.dimY ≠ o.dimY ∨ h.dimZ ≠ o.dimZ then 3
  else if h.epochPeriod ≠ s.epochPeriod then 4
  else if h.version ≠ 1 then 5
  else 0

/-- The coordinate of a device one step back from a neighbour that a port leads to (R380, R389). -/
def State.coordFrom (s : State) (port c : Nat) : Nat :=
  let dims := s.power.options.dims
  let k := port / 2
  let n := max 1 ((dims[k]?).getD 1)
  let shift (i v : Nat) : Nat := if i = k then (if port % 2 = 0 then (v + n - 1) % n else (v + 1) % n) else v
  match coordParts c with
  | [x, y, z] => shift 0 x * 16 + shift 1 y * 4 + shift 2 z
  | _ => 0

/-- Whether every neighbour heard, and every leader it named, has a higher array ID than the device. -/
def State.lowestSeen (s : State) (h : Hello) : Bool :=
  decide (s.self < h.arrayId) && decide (s.self ≤ h.leader) && s.fabric.ports.all fun q => !q.neighbourKnown || decide (s.self < q.neighbour)

/-- Whether another device has claimed the coordinate of a HELLO before, at another port (R389). -/
def State.coordClaimed (s : State) (port : Nat) (h : Hello) : Bool :=
  (List.range 6).any fun i => i ≠ port && (s.fzPort i).neighbourKnown && (s.fzPort i).coord = some h.coord && decide ((s.fzPort i).neighbour ≠ h.arrayId)

/-- The cause for which a HELLO isolates its port, as the list of R389 numbers it; 4 stands for a coordinate. -/
def State.helloCause (s : State) (port : Nat) (h : Hello) : Option Nat :=
  let partner := if port % 2 = 0 then port + 1 else port - 1
  if h.port ≠ partner then some 1
  else if s.helloCode h ≠ 0 then some 2
  else if h.arrayId = s.self then some 3
  else if s.fabric.coordValid && h.coordValid && s.coordFrom port h.coord ≠ s.fabric.coord then some 4
  else if h.coordValid && s.coordClaimed port h then some 4
  else none

/-- A JOIN goes to the leader a HELLO named, while the device is alone or isolated and JOIN_EN is set (R392, R397). -/
def State.sendJoin (s : State) (port leader : Nat) : State :=
  if bit (s.reg 0x8004 0) 6 && (s.others.isEmpty || s.fabric.isolated) && !s.fabric.joinSeen && s.fabric.coordValid && leader ≠ s.self then
    { s with fabric := { s.fabric with joinSeen := true } }.sendFz 0x51 0 leader 0 (s.helloBody port)
  else s

/-- HELLO (R389, R392): the neighbour's fields are checked, its coordinate gives the device's own, and a leader may be joined. -/
def execHello (port : Nat) (h : Hello) (s : State) : Result :=
  let s := s.taken port 0 16
  if !(s.fzPort port).up || !s.running || !s.fabricUp then .next s
  else match s.helloCause port h with
  | some c =>
    let s := s.updPort port fun q => { q with isolated := true, agreed := false, neighbour := h.arrayId, neighbourKnown := true }
    .next (s.log (dieUnit 7) 0x0042 4 255 0 (port + c * 65536))
  | none =>
    let f := s.fabric
    let learn := !f.coordValid && (h.coordValid || s.lowestSeen h)
    let coord := if !learn then f.coord else if h.coordValid then s.coordFrom port h.coord else 0
    let s := { s with fabric := { f with coordValid := f.coordValid || learn, coord := coord } }
    let s := s.updPort port fun q =>
      { q with isolated := false, agreed := h.coordValid && s.fabric.coordValid, neighbour := h.arrayId, neighbourKnown := true,
               coord := if h.coordValid then some h.coord else none }
    .next (s.sendJoin port h.leader)

/-- Every 1 ms a port sends HELLO until the two ends agree (R389). -/
def execHelloTimer (port : Nat) (s : State) : Result :=
  let q := s.fzPort port
  if q.up && !q.retraining && !q.agreed && s.running && s.fabricUp then .next (s.sendOn port 0x50 0 q.neighbour 0 (s.helloBody port)) else .next s

/-! ## Requests of other members -/

/-- Send a request on to the tile's new owner, as from the member that sent it (R312). -/
def State.forwardReq (s : State) (dst src cls xid : Nat) (desc data : List Byte) : State :=
  let s := s.bump Ctr.handoverForward
  match s.route dst with
  | some p =>
    (segments 65448 data).foldl (fun (s : State) g =>
      let body := beBytes g.1 4 ++ beBytes data.length 4 ++ desc ++ g.2
      let h : FzlHeader := { type := 0x03, cls := cls, src := src, dst := dst, bodyLen := body.length, hops := 16, xid := xid }
      { s with out := { s.out with fzl := { hdr := h, port := p, body := body } :: s.out.fzl } }.putFlits p (flitsOf h body)) s
  | none => s

/-- Whether the device owned a tile in an epoch it holds and does so no longer (R312). -/
def State.handedOver (s : State) (ix iy : Int) : Bool :=
  !s.ownsIn s.map.cur ix iy && s.map.held.any fun v => (v.2.tile ix iy).any fun t => t.owner = s.self

/-- An edit carried out for another member: its answer waits until the mirrors have acknowledged (R388, R411). -/
def State.answerEdit (s old : State) (peer cls xid : Nat) (r : Res) (data : List Byte) : State :=
  let needs := s.ackNeeds old
  if needs.isEmpty then s.sendResponse peer cls xid r data
  else s.awaitAcks { remote := some (peer, cls, xid), status := r.status, count := r.count, detail := r.detail, data := data, needs := needs }

/-- The edits that several members record: KEYFRAME_DELETE once the keyframe's observations are known, QUARANTINE and RELEASE, the index edits and
TILE_AFFINITY (R24). -/
def manyEdit (sub : Nat) (data : List Byte) : Bool := [0x10, 0x11, 0x20, 0x21, 0x30].contains sub || (sub = 0x02 && !data.isEmpty)

/-- An edit asked for by another member (R24, R26, R29, R203, R300). -/
def State.serveEdit (s : State) (peer xid : Nat) (o : Op) (data : List Byte) : State :=
  let sub := o.u8 16
  let ix := o.i16 20
  let iy := o.i16 22
  let oneTile := [1, 2, 3, 4, 5].contains sub
  if sub = 0 then
    let k := { keyframeOf data with maskPending := true }
    if s.ownsIn s.map.cur k.ix k.iy then (s.addKeyframe k peer).insertPlace k
    else if s.handedOver k.ix k.iy then s.forwardReq (s.map.cur.ownerOf k.ix k.iy) peer o.cls xid o.desc data
    else s
  else if sub = 0x7F then
    match s.map.cur.homeOf (o.u64 24) with
    | some t => if t.owner = s.self then s.addObservations t.ix t.iy (o.u64 24) (featuresOf data) peer else s
    | none => s
  else if sub = 0x7C then s.pointAsked peer (o.u64 24) data
  else if sub = 0x7B then s.pointGiven ix iy (o.u64 24) data
  else if manyEdit sub data then
    let r := s.serveChange peer o data
    r.1.answerEdit s peer o.cls xid r.2.1 r.2.2
  else if oneTile && s.handedOver ix iy then s.forwardReq (s.map.cur.ownerOf ix iy) peer o.cls xid o.desc data
  else if sub = 2 then
    match s.editBar ix iy (o.u64 24) with
    | some r => s.sendResponse peer o.cls xid r []
    | none => (s.access ix iy peer).sendResponse peer o.cls xid (Res.ok 0 0) (s.deleteData o)
  else
    let r := s.applyEdit o data
    (r.1.access ix iy peer).answerEdit s peer o.cls xid r.2 []

/-- The records of a VEC operation asked for by another member; a request that only concerns tiles handed over goes on to their new
owner (R238, R312). -/
def State.serveVec (s : State) (peer xid : Nat) (o : Op) (data : List Byte) : State :=
  let insert := decide (o.opcode = 0x21)
  match s.map.latest.index o.handle with
  | none => s.sendResponse peer o.cls xid (Res.field 12) []
  | some x =>
    let recs := cut (vecSize insert x.dim) (o.u32 24) data
    let tiles := recs.map (vecTile insert)
    let mine := tiles.any fun t => s.ownsIn s.map.cur t.1 t.2
    match tiles.find? fun t => s.handedOver t.1 t.2 with
    | some t => if mine then s else s.forwardReq (s.map.cur.ownerOf t.1 t.2) peer o.cls xid o.desc data
    | none =>
      let r := s.vecApply insert o.handle x recs peer
      r.1.sendResponse peer o.cls xid (Res.ok 0 0) (r.2.map (BitVec.ofNat 8))

/-- A request whose input data has all arrived is carried out (R29, R388). An isolated device records nothing (R391). -/
def State.serve (s : State) (peer xid : Nat) (desc data : List Byte) : State :=
  let o : Op := { desc := desc, epochAtFetch := s.map.published }
  match o.opcode with
  | 0x18 => s.serveRead peer xid o data
  | 0x19 => if s.canCommit then s.serveEdit peer xid o data else s
  | 0x21 => if s.canCommit then s.serveVec peer xid o data else s
  | 0x22 => if s.canCommit then s.serveVec peer xid o data else s
  | 0x28 =>
    if fld data 0 1 = 0 then s.serveGather peer xid o data
    else if s.canCommit then
      let r := s.serveChange peer o data
      r.1.answerEdit s peer o.cls xid r.2.1 r.2.2
    else s
  | _ => s

/-- REMOTE_REQ (R388): a segment joins its request; a malformed one ends it without an answer. -/
def execRemoteReq (m : RemoteReqMsg) (s : State) : Result :=
  let s := s.taken (s.portOf m.src) (fld m.desc 2 1 % 8) (72 + m.data.length)
  if !s.running || !s.others.contains m.src then .next s
  else
    let is (r : RemoteSt) : Bool := r.peer = m.src && r.xid = m.xid
    let old := (s.sound.responses.find? is).getD { xid := m.xid, peer := m.src, desc := m.desc }
    let j := old.join 65448 m.offset m.total m.data
    let rest := s.sound.responses.filter fun r => !is r
    if j.2 then
      .next ({ s with sound := { s.sound with responses := rest ++ [j.1] } }.bumpBy Ctr.fzlMalformed (s.portOf m.src) 1)
    else if j.1.full then .next ({ s with sound := { s.sound with responses := rest } }.serve m.src m.xid j.1.desc j.1.data)
    else .next { s with sound := { s.sound with responses := rest ++ [j.1] } }

/-- Every member asked has answered an operation: it goes on (R23, R24, R237, R253, R388). -/
def State.answered (s : State) (id : Nat) : State :=
  match s.findOp id with
  | none => if (s.requestsOf id).all fun r => r.answered then s.ownAnswered id else s
  | some o =>
    if o.phase = .final || !((s.requestsOf id).all fun r => r.answered) then s
    else match o.opcode with
    | 0x18 =>
      match s.viewFor o 40 with
      | .ok v => s.mapReadDone o v
      | .error r => (s.dropRequests id).complete id r
    | 0x19 => s.editAnswered o
    | 0x21 => s.vecDone o
    | 0x22 => s.vecDone o
    | 0x28 => s.solveAnswered o
    | _ => s

/-- REMOTE_RESP (R388): a segment joins its answer. -/
def execRemoteResp (m : RemoteRespMsg) (s : State) : Result :=
  let s := s.taken (s.portOf m.src) 2 (32 + m.data.length)
  match s.sound.requests.find? fun r => r.xid = m.xid && !r.answered with
  | none => .next s
  | some old =>
    if !s.running || !s.others.contains m.src then .next s
    else
      let j := old.join 65488 m.offset m.total m.data
      let done := j.1.full && !j.2
      let new : RemoteSt := { j.1 with status := m.status, count := m.count, detail := m.detail, answered := done }
      let s := { s with sound := { s.sound with requests := updFirst (fun r => r.xid = m.xid) (fun _ => new) s.sound.requests } }
      if j.2 then .next (s.bumpBy Ctr.fzlMalformed (s.portOf m.src) 1) else if done then .next (s.answered old.op) else .next s

/-! ## Views -/

/-- Whether a set of members is a valid successor of another: more than half, or half with the lowest (R391). -/
def validView (old new : Nat) : Bool :=
  let o := bitList old 64
  let kept := (o.filter fun i => bit new i).length
  decide (o.length < 2 * kept) || (decide (o.length = 2 * kept) && (o.head?).any fun i => bit new i)

/-- Whether an operation goes on without the answer of a member that is lost: VEC operations (R237), and those whose commit point is reached. -/
def State.goesOn (s : State) (id : Nat) : Bool := (s.findOp id).any fun o => o.opcode = 0x21 || o.opcode = 0x22 || o.committed

/-- Members are lost: such operations do not wait for their answers; changes that they coordinate and whose commit epoch is not known are dropped, and
the device's own changes that they have not answered are withdrawn (R36, R237, R263). -/
def State.membersLost (s : State) (gone : List Nat) : State :=
  let mine := s.sound.requests.filter fun r => gone.contains r.peer
  let s := { s with sound := { s.sound with requests := s.sound.requests.filter fun r => !(gone.contains r.peer && s.goesOn r.op) },
                    map := { s.map with commits := s.map.commits.filter fun h => !(gone.contains h.peer && h.epoch.isNone) } }
  let ops := (mine.map (·.op)).eraseDups
  let s := (ops.filter fun id => (s.findOp id).isNone).foldl (fun (s : State) id => (s.withdrawChange id).dropRequests id) s
  (ops.filter s.goesOn).foldl (fun (s : State) id => s.answered id) s

/-- The index table and the quarantined keyframes go to a member that the leader admits (R206, R211). DESIGN CHOICE, log entry 151. -/
def State.tellTables (s : State) (peer : Nat) : State :=
  let tell (s : State) (desc data : List Byte) : State := s.tell peer 2 desc (changeBytes 2 0 s.nextEpoch data)
  let desc (sub handle : Nat) (tail : List Byte) : List Byte := [0x19] ++ zeros 1 ++ leBytes 2 1 ++ zeros 9 ++ leBytes handle 4 ++ leBytes sub 1 ++ tail
  let s := s.map.cur.indexes.foldl (fun (s : State) x =>
    tell s (desc 0x20 x.handle (leBytes x.metric 1 ++ leBytes x.m 1 ++ leBytes x.degree 1 ++ leBytes x.dim 2 ++ leBytes x.cells 2 ++ zeros 8 ++ leBytes x.mask 8 ++ zeros 24))
      (wBytes x.codebook)) s
  if s.map.cur.quar.isEmpty then s else tell s (desc 0x10 0 (zeros 47)) (s.map.cur.quar.flatMap fun k => leBytes k 8)

/-- Items not yet acknowledged are sent again (R395). -/
def State.resendStreams (s : State) : State :=
  s.fabric.outStreams.foldl (fun (s : State) x => x.items.foldl (fun (s : State) i => s.sendItem x.peer i.1 i.2.1 i.2.2.1 i.2.2.2) s) s

/-- A new view is taken (R232, R313, R390, R394, R395, R411): removed members answer no more, handovers with them are aborted, the
streams start again, the pending barrier restarts. The device keeps its own tile table and its own published epoch (DESIGN CHOICE, log entry 155: no
message of R387 brings a device that joins or rejoins the tile owners or the array's epoch number, R16). -/
def State.adopt (s : State) (viewNo members : Nat) : State :=
  let gone := s.others.filter fun i => !bit members i
  let beats := ((bitList members 64).filter fun i => i ≠ s.self).foldl (fun (l : Store Nat) i => Store.set (fun _ => 0) i s.clock.now l) []
  let f := s.fabric
  let s := { s with fabric := { f with
    viewNo := viewNo % 65536, members := members, leader := (lowestBit members 64).getD s.self, isolated := false, joinSeen := false, lastBeat := beats
    acks := [], readySent := false, readys := [], leavers := f.leavers.filter fun i => bit members i
    outStreams := f.outStreams.filter fun x => bit members x.peer
    inStreams := f.inStreams.filter fun x => bit members x.peer } }
  let s := s.log (dieUnit 7) 0x0043 4 255 0 (viewNo % 65536)
  let lost := s.map.cur.tiles.filter fun t => t.handover.any fun h => gone.contains h.peer && h.state != .switched
  let s := lost.foldl (fun (s : State) t => s.dropHandover t) s
  let s := gone.foldl (fun (s : State) i => s.peerGone i) s
  ((s.membersLost gone).resendStreams).acksDone

/-- The device is outside every valid view (R391). -/
def State.isolate (s : State) : State := { s with fabric := { s.fabric with isolated := true } }

/-- Form the next view with some members: VIEW goes to each, and it is taken when it is valid (R390, R391). -/
def State.formView (s : State) (members : Nat) : State :=
  let n := (s.fabric.viewNo + 1) % 65536
  if validView s.fabric.members members then
    let body := beBytes n 2 ++ beBytes ((lowestBit members 64).getD s.self) 1 ++ zeros 1 ++ beBytes members 8
    let old := s.fabric.members
    let t := (((bitList members 64).filter fun i => i ≠ s.self).foldl (fun (s : State) p => s.sendFz 0x53 0 p 0 body) s).adopt n members
    ((bitList members 64).filter fun i => !bit old i).foldl State.tellTables t
  else s.isolate

/-- The member that forms the next view without an array ID: the leader, or where the leader is missing the next lowest (R390). -/
def State.formerWithout (s : State) (id : Nat) : Option Nat := lowestBit (setBit s.fabric.members id false) 64

/-- JOIN at the leader (R392). -/
def execJoin (src : Nat) (h : Hello) (s : State) : Result :=
  let s := s.taken (s.portOf src) 0 16
  if !s.running || !s.fabricUp || s.fabric.leader ≠ s.self then .next s
  else
    let c := s.helloCode h
    let code := if c = 1 then 1 else if bit s.fabric.members src then 2 else if c ≠ 0 then c else if s.fabric.isolated then 6 else 0
    let s := s.sendFz 0x52 0 src 0 (beBytes code 1)
    .next (if code = 0 then s.formView (setBit s.fabric.members src true) else s)

/-- JOIN_REPLY (R392): a device that was not admitted may ask again; one that was waits for its VIEW. -/
def execJoinReply (code : Nat) (s : State) : Result :=
  let s := s.taken (s.portOf s.fabric.leader) 0 1
  if s.running && s.fabric.joinSeen && code ≠ 0 then .next { s with fabric := { s.fabric with joinSeen := false } } else .next s

/-- VIEW (R390, R391): a valid view with the device in it is taken and acknowledged; a device left out of it is isolated. -/
def execView (viewNo leader members : Nat) (s : State) : Result :=
  let s := s.taken (s.portOf leader) 0 12
  if !s.running || !s.fabricUp then .next s
  else if !bit members s.self then .next (if viewNo = (s.fabric.viewNo + 1) % 65536 && !s.others.isEmpty then s.isolate else s)
  else if s.fabric.joinSeen || s.fabric.isolated || (decide (viewNo ≠ s.fabric.viewNo) && validView s.fabric.members members) then
    .next ((s.adopt viewNo members).sendFz 0x54 0 leader 0 (beBytes (viewNo % 65536) 2))
  else .next s

/-- VIEW_ACK at the leader (R390). -/
def execViewAck (src viewNo : Nat) (s : State) : Result :=
  let s := s.taken (s.portOf src) 0 2
  if s.running && s.others.contains src && viewNo = s.fabric.viewNo then
    .next { s with fabric := { s.fabric with acks := (s.fabric.acks.filter fun i => i ≠ src) ++ [src] } }
  else .next s

/-- HEARTBEAT (R390): when it came is kept; state 1 says that the member is leaving (R392). -/
def execHeartbeat (src viewNo : Nat) (leaving : Bool) (s : State) : Result :=
  let s := s.taken (s.portOf src) 0 3
  if s.running && s.others.contains src && viewNo = s.fabric.viewNo then
    let rest := s.fabric.leavers.filter fun i => i ≠ src
    .next { s with fabric := { s.fabric with lastBeat := Store.set (fun _ => 0) src s.clock.now s.fabric.lastBeat,
                                             leavers := if leaving then rest ++ [src] else rest } }
  else .next s

/-- Every 1 ms: a member's HEARTBEAT to the leader, and the leader's to every member (R390). -/
def execHeartbeatTimer (s : State) : Result :=
  if s.running && !s.fabric.isolated then
    let body := beBytes s.fabric.viewNo 2 ++ beBytes (b2n s.fabric.leaving) 1
    .next ((if s.fabric.leader = s.self then s.others else [s.fabric.leader]).foldl (fun (s : State) p => s.sendFz 0x55 0 p 0 body) s)
  else .next s

/-- MEMBER_TIMEOUT (R390): a heartbeat missing for MEMBER_TIMEOUT; the leader, or without it the next lowest, forms a view. -/
def execMemberTimeout (id : Nat) (s : State) : Result :=
  if s.running && !s.fabric.isolated && s.others.contains id && (s.fabric.leader = s.self || (id = s.fabric.leader && s.formerWithout id = some s.self)) then
    let last := Store.get (fun _ => 0) id s.fabric.lastBeat
    let s := s.toTime (last + s.memberTimeout * 1000000)
    .next (s.formView (setBit s.fabric.members id false))
  else .next s

/-- LEAVE from a member (R390). -/
def execLeave (src _reason : Nat) (s : State) : Result :=
  let s := s.taken (s.portOf src) 0 1
  if s.running && !s.fabric.isolated && s.others.contains src && (s.fabric.leader = s.self || (src = s.fabric.leader && s.formerWithout src = some s.self)) then
    .next (s.formView (setBit s.fabric.members src false))
  else .next s

/-- The device sends LEAVE to the other members (R390, R392, R413). -/
def State.sendLeave (s : State) (reason : Nat) : State := s.others.foldl (fun (s : State) p => s.sendFz 0x56 0 p 0 (beBytes reason 1)) s

/-- A graceful leave ends when the device owns and mirrors nothing (R36, R392): it sends LEAVE, LEAVE clears, its sessions end, and the device is outside
the view. The reason in their CLOSED events is that of safe hold (DESIGN CHOICE, log entry 154: R137 has none for leaving). -/
def execGracefulLeaveComplete (s : State) : Result :=
  let none_ (v : MapView) : Bool := !(v.tiles.any fun t => t.owner = s.self || t.mirror = some s.self)
  if s.running && s.fabric.leaving && none_ s.map.cur && none_ s.map.latest then
    let s := s.sendLeave 1
    let s := (s.sess.list.filter fun x => x.state != .closed).foldl (fun (s : State) x => s.closeSession x.id 0x04) s
    .next { s with fabric := { s.fabric with leaving := false, members := setBit 0 s.self true, leader := s.self, isolated := true, lastBeat := [],
                                             readySent := false, readys := [], barrier := none, outStreams := [], inStreams := [] } }
  else .next s

/-- FORCE_VIEW (R391): the device forms a valid view from the members it can reach. -/
def State.forceView (s : State) (reachable : Nat) : State :=
  let members := setBit ((bitList s.fabric.members 64).foldl (fun v i => setBit v i (bit reachable i)) 0) s.self true
  let n := (s.fabric.viewNo + 1) % 65536
  let body := beBytes n 2 ++ beBytes ((lowestBit members 64).getD s.self) 1 ++ zeros 1 ++ beBytes members 8
  (((bitList members 64).filter fun i => i ≠ s.self).foldl (fun (s : State) p => s.sendFz 0x53 0 p 0 body) s).adopt n members

/-! ## Time across the array (R396) -/

/-- The parent port: the fewest hops to the master, ties to the lower port (R396). -/
def State.bestParent (s : State) : Option (Nat × Nat × Nat) :=
  s.fabric.ports.zipIdx.foldl (fun (b : Option (Nat × Nat × Nat)) q =>
    match q.1.masterSeen, b with
    | some m, none => if q.1.carries then some (q.2, m.1, m.2) else none
    | some m, some c => if q.1.carries && decide (m.1 < c.2.1) then some (q.2, m.1, m.2) else some c
    | none, b => b) none

/-- Follow the best parent there is. -/
def State.chooseParent (s : State) : State :=
  match if s.timeSource = .fabric then s.bestParent else none with
  | some b => { s with fabric := { s.fabric with parentPort := some b.1, timeHops := b.2.1 + 1, timeMaster := b.2.2 } }
  | none => { s with fabric := { s.fabric with parentPort := none, timeHops := 0, timeMaster := if s.timeSource = .fabric then s.fabric.leader else s.self } }

/-- TIME_SYNC (R358, R360, R396): the neighbour's master and hops are noted; from the parent it is a measurement. -/
def execTimeSync (port stamp hops master : Nat) (s : State) : Result :=
  let s := s.taken port 0 10
  if !(s.fzPort port).carries || !s.running || !s.fabricUp || master = s.self then .next s
  else
    let rx := s.devNs
    let s := (s.updPort port fun q => { q with masterSeen := some (hops, master), lastSync := some (stamp, rx) }).chooseParent
    if s.fabric.parentPort = some port then
      let s := { s with fabric := { s.fabric with lastParentSync := s.clock.now } }
      .next (s.measured ((rx : Int) - ((stamp : Int) + (s.fzPort port).delay)))
    else .next s

/-- Whether the device sends time: it follows a parent, or it runs its own time as master (R396). -/
def State.sendsTime (s : State) : Bool :=
  s.fabric.parentPort.isSome || (match s.timeSource with
    | .ptp => s.clock.state = .locked || s.clock.state = .free
    | .pps => s.clock.state = .locked || s.clock.state = .free
    | .host => s.clock.state = .free || s.fabric.leader = s.self
    | .fabric => s.fabric.leader = s.self)

/-- Every 1 ms a parent sends TIME_SYNC on its ports, but not to its own parent (R396). -/
def execTimeSyncTimer (s : State) : Result :=
  if s.running && s.fabricUp && s.sendsTime then
    let hops := if s.fabric.parentPort.isSome then s.fabric.timeHops else 0
    let master := if s.fabric.parentPort.isSome then s.fabric.timeMaster else s.self
    let ports := (List.range 6).filter fun p => (s.fzPort p).carries && s.fabric.parentPort ≠ some p
    .next (ports.foldl (fun (s : State) p => s.sendOn p 0x40 0 (s.fzPort p).neighbour 0 (beBytes (packTime s.devNs) 8 ++ beBytes hops 1 ++ beBytes master 1)) s)
  else .next s

/-- TIME_SYNC absent from the parent for MEMBER_TIMEOUT (R358, R396): loss of source; another parent is followed where there is one. -/
def execTimeSyncTimeout (s : State) : Result :=
  match s.fabric.parentPort with
  | none => .next s
  | some p =>
    let s := s.toTime (s.fabric.lastParentSync + s.memberTimeout * 1000000)
    let s := if s.timeSource = .fabric then s.lostSource else s
    .next (s.updPort p fun q => { q with masterSeen := none }).chooseParent

/-- DELAY_REQ from a child (R387, R396). -/
def execDelayReq (port _stamp : Nat) (s : State) : Result :=
  let s := s.taken port 0 8
  if (s.fzPort port).carries && s.running && s.fabricUp then .next (s.sendOn port 0x42 0 (s.fzPort port).neighbour 0 (beBytes (packTime s.devNs) 8)) else .next s

/-- Every 125 ms a child measures the delay to its parent (R396). -/
def execDelayReqTimer (s : State) : Result :=
  match s.fabric.parentPort with
  | some p =>
    if (s.fzPort p).carries && s.running && s.fabricUp then
      .next ((s.sendOn p 0x41 0 (s.fzPort p).neighbour 0 (beBytes (packTime s.devNs) 8)).updPort p fun q => { q with reqTx := some s.devNs })
    else .next s
  | none => .next s

/-- DELAY_RESP (R396): the link delay from the last TIME_SYNC and this exchange. -/
def execDelayResp (port stamp : Nat) (s : State) : Result :=
  let s := s.taken port 0 8
  let q := s.fzPort port
  match q.reqTx, q.lastSync with
  | some t3, some (t1, t2) =>
    .next (s.updPort port fun q => { q with reqTx := none, delay := (((t2 : Int) - (t1 : Int)) + ((stamp : Int) - (t3 : Int))) / 2 })
  | _, _ => .next s

/-! ## Forwarding (R385 to R387) -/

/-- Whether a message type is in the table of R387. -/
def fzType (t : Nat) : Bool :=
  [0x01, 0x02, 0x03, 0x04, 0x10, 0x11, 0x20, 0x21, 0x22, 0x23, 0x24, 0x30, 0x31, 0x40, 0x41, 0x42, 0x50, 0x51, 0x52, 0x53, 0x54, 0x55, 0x56].contains t

/-- Whether a body length can be one of its type's (R387). -/
def fzLenOk (t n : Nat) : Bool :=
  match t with
  | 0x01 => decide (32 ≤ n)
  | 0x02 => decide (16 ≤ n)
  | 0x03 => decide (72 ≤ n)
  | 0x04 => decide (32 ≤ n)
  | 0x10 => decide (16 ≤ n)
  | 0x11 => n = 4
  | 0x20 => n = 12
  | 0x21 => n = 5
  | 0x22 => decide (16 ≤ n)
  | 0x23 => n = 8
  | 0x24 => n = 5
  | 0x30 => decide (12 ≤ n ∧ n % 4 = 0)
  | 0x31 => decide (12 ≤ n ∧ n % 8 = 4)
  | 0x40 => n = 10
  | 0x41 => n = 8
  | 0x42 => n = 8
  | 0x50 => n = 16
  | 0x51 => n = 16
  | 0x52 => n = 1
  | 0x53 => n = 12
  | 0x54 => n = 2
  | 0x55 => n = 3
  | 0x56 => n = 1
  | _ => false

/-- MESSAGE_FORWARD (R386, R387): HOPS falls by 1, a message at 0 is dropped, the others leave by the device's own route. The command gives no body:
the bytes in the flits that leave are free. -/
def execMessageForward (port : Nat) (h : FzlHeader) (s : State) : Result :=
  let s := s.taken port h.cls h.bodyLen
  if !(s.fzPort port).carries || !s.running || !s.fabricUp then .next s
  else if !fzType h.type || !fzLenOk h.type h.bodyLen then .next (s.bumpBy Ctr.fzlMalformed port 1)
  else if h.dst = s.self || [0x40, 0x41, 0x42, 0x50].contains h.type then .next s
  else if h.hops ≤ 1 then .next (s.bumpBy Ctr.fzlHopsExpired port 1)
  else match s.route h.dst with
  | some p =>
    let h' := { h with hops := h.hops - 1 }
    let body := (List.range h.bodyLen).map fun i => BitVec.ofNat 8 (Config.given 386 [(h.xid : Int), h.src, i])
    .next ({ s with out := { s.out with fzl := { hdr := h', port := p, body := [] } :: s.out.fzl } }.putFlits p (flitsOf h' body))
  | none => .next s

end Sys2Proof.Machine
end

