-- ==== Sys2Proof/Machine/Usp.lean ====
section
/-! DEFINITION. Received USP packets: the five checks (R124 to R126), OPEN_REQ, RATE, IMAGE, MOTION, KEEPALIVE and CLOSE (R129 to
R137), and the session timers (R114, R133). -/

namespace Sys2Proof.Machine

/-! ## The packet checks -/

/-- Whether a counter lies inside a replay window of 1,024 and is not yet seen (R125). -/
def Replay.fresh (r : Replay) (c : Nat) : Bool :=
  match r.highest with
  | none => true
  | some h => decide (h < c) || (decide (h < c + 1024) && !r.seen.contains c)

/-- A counter recorded as seen (R125). -/
def Replay.note (r : Replay) (c : Nat) : Replay :=
  let h := max (r.highest.getD 0) c
  { highest := some h, seen := (c :: r.seen).filter fun x => decide (h < x + 1024) }

/-- Whether a type is one a robot may send, with a body of the right length; a MOTION's channels are those of its own mask (R124 check 5, R128). -/
def uspLengthOk (p : UspPacket) : Bool :=
  let n := p.body.length
  if p.kind = 0x1 then n = 24
  else if p.kind = 0x3 then 32 ≤ n && n = 32 + bfld p.body 28 2
  else if p.kind = 0x4 then 24 ≤ n && n = 24 + 4 * bfld p.body 20 2 * popCount (bfld p.body 14 2) 16
  else if p.kind = 0x5 then n = 20
  else if p.kind = 0x6 then n = 10
  else if p.kind = 0x8 then n = 4
  else false

/-- An authentication failure of a session: more than 64 in 1 s queue one AUTH_BURST (R124). -/
def State.authFail (s : State) (sid : Nat) : State :=
  let s := s.bump Ctr.uspAuthFail
  match s.keySlot sid with
  | none => s
  | some k =>
    let recent := k.net.authFails.filter fun t => decide (s.clock.now < t + 1000000000)
    let burst := k.net.authBurst && decide (64 < recent.length)
    let fails := s.clock.now :: recent
    let fire := decide (64 < fails.length) && !burst
    let s := s.updKeys sid fun k => { k with net := { k.net with authFails := fails, authBurst := burst || fire } }
    if fire then s.event sid 0x06 (min 65535 fails.length) else s

/-- The key of a session ID with a KEY_ID, and whether it is the next key (R124, R126). -/
def KeySlot.find (k : KeySlot) (id : Nat) : Option (Key × Bool) :=
  match k.cur, k.next with
  | some (c, ci), some (n, ni) => if ci = id then some (c, false) else if ni = id then some (n, true) else none
  | some (c, ci), none => if ci = id then some (c, false) else none
  | none, some (n, ni) => if ni = id then some (n, true) else none
  | none, none => none

/-- The next key becomes current, the old key is erased, both counters restart at 0 (R126). -/
def KeySlot.advance (k : KeySlot) : KeySlot :=
  { k with cur := k.next, next := none, erased := k.erased ++ (k.cur.map Prod.snd).toList,
           net := { k.net with replay := k.net.nextReplay, nextReplay := {}, txSeq := 0 } }

/-! ## Declarations -/

/-- A rate declaration from 20 big-endian bytes (R129). -/
def declOf (b : List Byte) : Decl :=
  { width := bfld b 0 2, height := bfld b 2 2, images := bfld b 5 1, frameRate := bfld b 8 4, samplePeriod := bfld b 12 4,
    channelMask := bfld b 16 2, maxFrag := bfld b 18 2 }

/-- The first test of R130: every field in range and every channel allowed. -/
def declOk (k : Kind) (b : List Byte) : Bool :=
  let d := declOf b
  within 128 2048 d.width && d.width % 32 = 0 && within 96 1536 d.height && d.height % 16 = 0 && bfld b 4 1 = 1 && within 1 2 d.images &&
    bfld b 6 2 = 0 && decide (d.frameRate ≤ 60000) && zeroOr 500000 10000000 d.samplePeriod && k.channelsOk d.channelMask &&
    (d.samplePeriod ≠ 0 || d.channelMask = 0) && within 64 8192 d.maxFrag

/-- The second test of R130: the load is within MAX_LOAD, and does not raise the total above the streaming limit. -/
def State.declLoadOk (s : State) (x : Session) (d : Decl) : Bool :=
  let own := if x.state = .admitted then 0 else x.declLoad
  decide (d.load ≤ x.cfg.base.maxLoad * loadDen) && (decide (d.load ≤ own) || s.loadFits (s.totalLoad - own + d.load))

/-- OPEN_ACK (R131). -/
def State.sendOpenAck (s : State) (sid : Nat) (x : Session) : State :=
  s.sendUsp sid 0x2 (wireTime s.devNs ++ beBytes s.self 2 ++ beBytes x.cfg.base.replyOffset 4 ++ beBytes x.cfg.base.keepalive 2 ++ zeros 2)

/-- OPEN_REQ of an admitted session (R131). -/
def State.openReq (s : State) (x : Session) (p : UspPacket) : State :=
  let d := declOf (p.body.drop 4)
  if bfld p.body 1 1 ≠ 0 ∨ bfld p.body 2 2 ≠ 0 then s.sendError x.id 0x03 p.seq
  else if bfld p.body 0 1 ≠ x.kind.code then s.sendError x.id 0x04 p.seq
  else if ¬ declOk x.kind (p.body.drop 4) then s.sendError x.id 0x03 p.seq
  else if x.state = .admitted then
    if s.declLoadOk x d then
      let s := s.updSession x.id fun x =>
        { x with state := .opened, decl := d, declLoad := d.load, openedAt := s.devNs, filter := { running := true, spanFrom := s.devNs } }
      let s := s.event x.id 0x01 x.kind.code
      (s.event x.id 0x08 0x01).sendOpenAck x.id x
    else s.sendError x.id 0x02 p.seq
  else s.sendOpenAck x.id x

/-- RATE (R130). -/
def State.rate (s : State) (x : Session) (p : UspPacket) : State :=
  let d := declOf p.body
  if ¬ declOk x.kind p.body then s.sendError x.id 0x03 p.seq
  else if ¬ s.declLoadOk x d then s.sendError x.id 0x02 p.seq
  else
    let changed := decide (d.samplePeriod ≠ x.decl.samplePeriod ∨ d.channelMask ≠ x.decl.channelMask)
    let now : Decl := { x.decl with frameRate := d.frameRate, samplePeriod := d.samplePeriod, channelMask := d.channelMask }
    let s := s.updSession x.id fun x => { x with decl := now, declLoad := d.load, pendingDecls := x.pendingDecls ++ [(x.highestFrame, d)] }
    let s := s.event x.id 0x07 (min 65535 (freeRound d.load loadDen))
    if changed then s.restartFilter x.id 0x03 else s

/-! ## Frames -/

/-- The length of fragment 0 that a fragment of an image implies, where its fields are consistent (R132). -/
def fragZero (index count offset len : Nat) : Option Nat :=
  if index = 0 then (if offset = 0 then some len else none)
  else if offset % index = 0 ∧ (index + 1 = count ∨ len = offset / index) then some (offset / index) else none

/-- Whether an IMAGE fragment agrees with its declaration (R132). -/
def fragOk (d : Decl) (b : List Byte) : Bool :=
  let index := bfld b 20 2
  let count := bfld b 22 2
  let offset := bfld b 24 4
  let len := bfld b 28 2
  decide (bfld b 10 4 ≤ 999999999) && decide (bfld b 14 1 < d.images) && bfld b 15 1 = 1 && bfld b 16 2 = d.width && bfld b 18 2 = d.height &&
    decide (index < count) && bfld b 30 2 = 0 && (fragZero index count offset len).isSome && decide (1 ≤ len ∧ len ≤ d.maxFrag) &&
    (if index + 1 = count then d.width * d.height = offset + len else decide (64 ≤ len) && len % 64 = 0)

/-- A fragment agrees with the earlier ones of its frame (R132). -/
def Reasm.agrees (r : Reasm) (capture image count len0 : Nat) : Bool :=
  r.capture = capture && (r.shapes.find? fun q => q.1 = image).all fun q => q.2.1 = count && q.2.2 = len0

/-- A fragment joins a frame; one already held changes nothing. -/
def Reasm.join (r : Reasm) (image index count len0 : Nat) (data : List Byte) : Reasm :=
  if r.frags.any fun f => f.1 = image && f.2.1 = index then r
  else
    { r with shapes := if r.shapes.any (fun q => q.1 = image) then r.shapes else r.shapes ++ [(image, count, len0)],
             frags := r.frags ++ [(image, index, data)] }

/-- The bytes of an image of which every fragment has arrived (R133). -/
def Reasm.image (r : Reasm) (image : Nat) : Option (List Byte) :=
  match r.shapes.find? fun q => q.1 = image with
  | none => none
  | some q =>
    (List.range q.2.1).foldl
      (fun acc i => match acc, r.frags.find? fun f => f.1 = image && f.2.1 = i with
        | some l, some f => some (l ++ f.2.2)
        | _, _ => none) (some [])

/-- Whether every fragment of each declared image has arrived (R133). -/
def Reasm.complete (r : Reasm) (images : Nat) : Bool := (List.range images).all fun i => (r.image i).isSome

/-- The frame leaves reassembly, complete or abandoned, with the images that are complete, and meets the tests of R134. -/
def State.frameOut (s : State) (sid : Nat) (r : Reasm) : State :=
  match s.session sid with
  | none => s
  | some x =>
    let s := s.updSession sid fun x =>
      { x with reasm := x.reasm.filter (fun q => q.frameNo ≠ r.frameNo), lastDone := some (max (x.lastDone.getD 0) r.frameNo) }
    let f : Frame := { frameNo := r.frameNo, capture := r.capture, arrival := r.firstArrival, left := r.image 0, right := r.image 1 }
    match x.accepts r.capture with
    | .accepted => s.acceptFrame sid f
    | .old => s.bump Ctr.frameOld
    | .excess => s.bump Ctr.rateExcess

/-- A frame in reassembly is abandoned: counted, and on to fusion with the images that are complete (R133). -/
def State.abandonFrame (s : State) (sid : Nat) (r : Reasm) : State := (s.bump Ctr.frameIncomplete).frameOut sid r

/-- A fragment of a frame in reassembly joins it; the frame leaves when it is complete. -/
def State.fragJoin (s : State) (x : Session) (r : Reasm) (b : List Byte) : State :=
  let image := bfld b 14 1
  let index := bfld b 20 2
  let count := bfld b 22 2
  let len0 := (fragZero index count (bfld b 24 4) (bfld b 28 2)).getD 0
  if r.agrees (ofWireTime b 4) image count len0 then
    let r' := r.join image index count len0 (b.drop 32)
    let s := s.updSession x.id fun x => { x with reasm := updFirst (fun q => q.frameNo = r.frameNo) (fun _ => r') x.reasm }
    if r'.complete (x.declFor r.frameNo).images then s.frameOut x.id r' else s
  else s.bump Ctr.uspMalformed

/-- IMAGE (R132, R133): the fragment joins its frame, starts a new reassembly, or is late. -/
def State.fragment (s : State) (x : Session) (b : List Byte) : State :=
  let no := bfld b 0 4
  if ¬ fragOk (x.declFor no) b then s.bump Ctr.uspMalformed
  else
    let s := s.updSession x.id fun x => { x with highestFrame := some (max (x.highestFrame.getD 0) no) }
    match x.reasm.find? fun r => r.frameNo = no with
    | some r => s.fragJoin x r b
    | none =>
      let newer := (x.lastDone.all fun d => decide (d < no)) && (x.reasm.length < 2 || x.reasm.all fun r => decide (r.frameNo < no))
      if newer then
        let capture := ofWireTime b 4
        let r : Reasm := { frameNo := no, capture := capture, firstArrival := s.arrivalStamp x.id }
        let older := x.reasm.foldl (fun m r => match m with
          | none => some r
          | some q => if r.frameNo < q.frameNo then some r else some q) (none : Option Reasm)
        let s := match older with
          | some q => if x.reasm.length = 2 then s.abandonFrame x.id q else s
          | none => s
        let s := s.updSession x.id fun x => { x with reasm := x.reasm ++ [r] }
        let s := s.arrivalLate x.id capture (s.arrivalStamp x.id)
        match s.session x.id with
        | some y => s.fragJoin y r b
        | none => s
      else s.bump Ctr.fragmentLate

/-- MOTION (R135, R139, R145): a mask, period, count or reserved field out of range answers FORMAT_UNSUPPORTED. -/
def State.motion (s : State) (x : Session) (p : UspPacket) : State :=
  let b := p.body
  if bfld b 14 2 = x.decl.channelMask ∧ bfld b 16 4 = x.decl.samplePeriod ∧ within 1 64 (bfld b 20 2) ∧ bfld b 22 2 = 0 ∧ bfld b 10 4 ≤ 999999999 then
    s.motionIn x.id (ofWireTime b 4) (samplesOf x.decl.channelMask (bfld b 20 2) fun i => BitVec.ofNat 32 (bfld b (24 + i) 4))
  else s.sendError x.id 0x03 p.seq

/-- A packet that passed every check, by type and session state (R114, R128 to R139, a KEEPALIVE's answer R136 among them). A CLOSE whose bytes 1–3 are not 0, for which the spec gives no
answer, is counted as malformed and closes nothing (DESIGN CHOICE, log entry 143). -/
def State.uspAccepted (s : State) (p : UspPacket) : State :=
  match s.session p.session with
  | none => if p.kind = 0x1 then s.sendError p.session 0x01 p.seq else s
  | some x =>
    if x.state = .admitted then (if p.kind = 0x1 then s.openReq x p else s.sendError x.id 0x05 p.seq)
    else
      let wake (x : Session) : Session := { x with state := .opened, silentSpent := x.silentSpent + (s.devNs - x.silentAt.getD s.devNs), silentAt := none }
      let s := if x.state = .silent then s.updSession x.id wake else s
      if p.kind = 0x1 then s.openReq { x with state := .opened } p
      else if p.kind = 0x3 then s.fragment x p.body
      else if p.kind = 0x4 then s.motion x p
      else if p.kind = 0x5 then s.rate x p
      else if p.kind = 0x6 then s.sendUsp x.id 0x6 (p.body ++ wireTime s.devNs)
      else if allZero (p.body.drop 1) then (s.sendUsp x.id 0x8 (leBytes 0x01 1 ++ zeros 3)).closeSession x.id (bfld p.body 0 1)
      else s.bump Ctr.uspMalformed

/-- Check 1 of R124. -/
def uspFormOk (b : List Byte) : Bool := 32 ≤ b.length && bfld b 0 1 = 1 && bfld b 3 1 = 0 && decide (bfld b 8 8 < 2 ^ 63)

/-- A USP packet that arrived: the checks of R124 in order, a key change (R126), then its handling. A packet to a host-path session, which receives
none (R114), is checked and ignored. -/
def State.uspReceive (s : State) (src : SrcAddr) (b : List Byte) : State :=
  if !uspFormOk b then s.bump Ctr.uspMalformed
  else match s.keySlot (bfld b 4 4) with
  | none => s.bump Ctr.uspUnknownSession
  | some k =>
    match k.find (bfld b 2 1) with
    | none => s.bump (if k.erased.contains (bfld b 2 1) then Ctr.uspStaleKey else Ctr.uspUnknownSession)
    | some (key, isNext) =>
      match openUsp key b with
      | none => s.authFail (bfld b 4 4)
      | some body =>
        let p := UspPacket.ofBytes b body
        let window := if isNext then k.net.nextReplay else k.net.replay
        if ¬ window.fresh p.seq then s.bump Ctr.uspReplay
        else
          let s := s.updKeys p.session fun k =>
            { k with net := if isNext then { k.net with nextReplay := window.note p.seq } else { k.net with replay := window.note p.seq } }
          if ¬ uspLengthOk p then s.bump Ctr.uspMalformed
          else if (s.session p.session).any fun x => x.hostPath then s
          else
            let s := if isNext then s.updKeys p.session KeySlot.advance else s
            let s := s.updKeys p.session fun k => { k with net := { k.net with src := src, haveSrc := true, lastValid := s.clock.now } }
            s.uspAccepted p

/-! ## Session timers -/

/-- REASSEMBLY_TIMEOUT (R133): device time reaches the capture time plus REASSEMBLY_WINDOW. -/
def execReassemblyTimeout (sid frameNo : Nat) (s : State) : Result :=
  match s.session sid with
  | some x =>
    match x.reasm.find? fun r => r.frameNo = frameNo with
    | some r => .next ((s.toDev (r.capture + x.cfg.base.window * 1000000)).abandonFrame sid r)
    | none => .next s
  | none => .next s

/-- SILENT_TIMEOUT (R114): no valid packet for 3 × KEEPALIVE_PERIOD. -/
def execSilentTimeout (sid : Nat) (s : State) : Result :=
  match s.session sid, s.keySlot sid with
  | some x, some k =>
    if x.state = .opened ∧ ¬ x.hostPath then
      let s := s.toTime (k.net.lastValid + 3 * x.cfg.base.keepalive * 1000000)
      .next ((s.updSession sid fun x => { x with state := .silent, silentAt := some s.devNs }).event sid 0x02 0)
    else .next s
  | _, _ => .next s

/-- LINGER_EXPIRY (R114, R137): LINGER passes since the last valid packet; nothing is sent. -/
def execLingerExpiry (sid : Nat) (s : State) : Result :=
  match s.session sid, s.keySlot sid with
  | some x, some k =>
    if x.state = .silent then .next ((s.toTime (k.net.lastValid + x.cfg.base.linger * 1000000000)).closeSession sid 0x03)
    else .next s
  | _, _ => .next s

end Sys2Proof.Machine
end

