-- ==== Sys2Proof/Machine/NetOps.lean ====
section
/-! DEFINITION. The net ports: received frames (R365, R366), NET_SEND and the launch order (R368 to R371), NET_RECV_POST (R372), and
links that go up and down (R365, R367). -/

namespace Sys2Proof.Machine

/-- The function of the net opcodes (R371, R377). -/
def State.passFn (s : State) : Nat := s.regF 0x5008 0 21 16

/-- Whether the net unit works. -/
def State.netUp (s : State) : Bool := s.hasNet && s.running && !s.net.stopped

/-- Whether a post covers a port (R372). -/
def Op.postCovers (o : Op) (port : Nat) : Bool := o.opcode = 0x41 && (o.u8 28 % 4 = 0 || bit (o.u8 28) port)

/-- A pass-through frame goes to the earliest-fetched pending post that covers its port; with none it is dropped (R372). -/
def State.passThrough (s : State) (port : Nat) (frame : List Byte) : State :=
  match s.ops.list.find? fun o => o.phase = .waiting && o.postCovers port with
  | none => s.bumpBy Ctr.passDrop port 1
  | some o =>
    let n := min frame.length (o.u32 24 - 16)
    let short := decide (n < frame.length)
    let head := leBytes (if s.clock.state = .unset then 0 else packTime (s.rxStamp port)) 8 ++ leBytes port 1 ++ leBytes (b2n short) 1 ++ zeros 2 ++
      leBytes frame.length 4
    (s.writeMem (o.u64 16) (head ++ frame.take n)).finish o.id
      { status := if short then St.okPartial else St.ok, count := n, detail := frame.length }

/-- Whether a UDP datagram is addressed to a port and to SESSION_PORT (R366, R377). -/
def State.isSession (s : State) (port mac ip udp : Nat) (v6 : Bool) : Bool :=
  let own := s.ownIp port v6
  decide (mac = s.mac port ∧ own ≠ 0 ∧ ip = own ∧ udp = s.regF 0x5008 0 15 0)

/-- NET_FRAME_RECEIVE (R120, R363, R365, R366): a frame that arrives at a port that is up. -/
def execNetFrameReceive (f : RxFrame) (s : State) : Result :=
  if s.netUp && s.portUp f.port then
    let n := f.bytes.length + 4
    if !f.fcsOk || n < 64 || 9216 < n then .next (s.bumpBy Ctr.netRxError f.port 1)
    else match f.proto with
    | .pause => .next (s.bumpBy Ctr.netPauseDiscard f.port 1)
    | .ptp t domain m =>
      if s.ptpOn && f.port = s.ptpPort && t = s.ptpTransport && m != .management then
        .next (if domain = s.regF 0x5004 0 7 0 then s.ptpReceive m (s.rxStamp f.port) else s)
      else .next (s.passThrough f.port f.bytes)
    | .udp mac ip udp v6 fragment badChecksum src payload =>
      if s.isSession f.port mac ip udp v6 then
        if fragment then .next (s.bump Ctr.uspIpFragment)
        else if badChecksum then .next s
        else .next (s.uspReceive { src with port := f.port } payload)
      else .next (s.passThrough f.port f.bytes)
    | .other => .next (s.passThrough f.port f.bytes)
  else .next s

/-- The launch time of a NET_SEND in ns (R370). -/
def Op.launchNs (o : Op) : Nat := o.u64 28 * 1000000000 + o.u32 36

/-- The payload checks of NET_SEND (R370, R371). -/
def State.netSendCheck (s : State) (o : Op) : Option Res :=
  let launch := bit (o.u8 27) 0
  let port := o.u8 26
  if o.fn ≠ s.passFn then some (Res.denied 3)
  else if o.u16 24 < 60 ∨ 9212 < o.u16 24 then some (Res.field 24)
  else if 1 < port then some (Res.field 26)
  else if launch = false ∧ (o.u64 28 ≠ 0 ∨ o.u32 36 ≠ 0) then some (Res.field 28)
  else if launch ∧ (999999999 < o.u32 36 ∨ o.fetchedDev + o.deadlineUs * 1000 < o.launchNs) then some (Res.field 28)
  else if launch ∧ s.clock.state = .unset then some (Res.bound 0x60)
  else if ¬ bit (s.reg 0x5000 0) port ∨ ¬ s.portUp port ∨ ¬ s.netUp then some (Res.bound 0x61)
  else none

/-- Put a frame into a port's queue. -/
def State.queueFrame (s : State) (port : Nat) (f : TxFrame) : State :=
  { s with net := { s.net with txSeq := s.net.txSeq + 1,
                               ports := updAt port (fun (q : NetPort) => { q with queue := q.queue ++ [{ f with seq := s.net.txSeq }] }) s.net.ports } }

/-- NET_SEND (R369 to R371): the frame reaches the port, where it waits for its turn; one whose launch time has passed already is
late, and LATE_POLICY may drop it. -/
def execNetSend (op : Nat) (s : State) : Result :=
  s.runOp op 0x40 fun o =>
    match s.netSendCheck o with
    | some r => s.finish op r
    | none =>
      let launch := bit (o.u8 27) 0
      if launch ∧ o.lateDrop ∧ o.launchNs < s.txStamp (o.u8 26) then s.finish op o.timedOut
      else
        let past := launch && decide (o.launchNs < s.txStamp (o.u8 26))
        ((s.await op).updOp op fun o => { o with late := past }).queueFrame (o.u8 26)
          { launch := if launch then some o.launchNs else none, cls := o.cls, len := o.u16 24, op := some op, drop := o.lateDrop,
            stamp := bit (o.u8 27) 1 || launch, bytes := s.readMem (o.u64 16) (o.u16 24) }

/-- NET_RECV_POST (R371, R372): one receive buffer is posted. -/
def execNetRecvPost (op : Nat) (s : State) : Result :=
  s.runOp op 0x41 fun o =>
    if o.fn ≠ s.passFn then s.finish op (Res.denied 3)
    else if o.u32 24 < 80 then s.finish op (Res.field 24)
    else s.await op

/-! ## Launching -/

/-- The first of frames under an order. -/
def firstFrame (before : TxFrame → TxFrame → Bool) (l : List TxFrame) : Option TxFrame :=
  l.foldl (fun m f => match m with | none => some f | some g => if before f g then some f else some g) none

/-- Order by launch time, then arrival (R368). -/
def launchesBefore (a b : TxFrame) : Bool :=
  let x := a.launch.getD 0
  let y := b.launch.getD 0
  decide (x < y ∨ (x = y ∧ a.seq < b.seq))

/-- Order by class, then arrival (R368). -/
def classBefore (a b : TxFrame) : Bool := decide (a.cls < b.cls ∨ (a.cls = b.cls ∧ a.seq < b.seq))

/-- The earliest launch time of the replies held for a port (R200, R368). -/
def State.replyLaunchAt (s : State) (port : Nat) : Option Nat :=
  (s.sess.list.filterMap fun x =>
    if ((s.keySlot x.id).bind fun k => s.exitPort k.net.src) = some port then
      x.replies.head?.bind fun r => if bit r.record.flags 3 ∨ r.launch < r.eligible then none else some r.launch
    else none).min?

/-- The launch instant of a frame at its MAC, in 1/100 ns of device time: the board correction taken off (R364). -/
def State.launchPoint (s : State) (port ns : Nat) : Nat := ((1600 * (ns : Int) - 100 * sext 16 (s.regF 0x502C port 15 0)) / 16).toNat

/-- Take a frame off a port's queue. -/
def State.dequeue (s : State) (port seq : Nat) : State :=
  { s with net := { s.net with ports := updAt port (fun (q : NetPort) => { q with queue := q.queue.filter fun f => f.seq ≠ seq }) s.net.ports } }

/-- A frame leaves a port with its stamp point at an instant in 1/100 ns since power-on: its operation commits and completes; one
more than 8 ns after its launch time, or that reached the port after it, is late, and is sent so or dropped (R369, R371). -/
def State.sendFrame (s : State) (port : Nat) (f : TxFrame) (at_ : Nat) : State :=
  let late := (f.launch.any fun l => decide (s.launchPoint port l + 800 < s.devAt at_)) || (f.op.bind s.findOp).any fun o => o.late
  let tx : Nat := ((16 * (s.devAt at_ : Int) + 100 * sext 16 (s.regF 0x502C port 15 0) + 800) / 1600).toNat
  let s := s.toTime (at_ / 100)
  let s := s.dequeue port f.seq
  if late && f.drop then
    match f.op.bind s.findOp with
    | some o => s.finish o.id o.timedOut
    | none => s
  else
    let stamp := match f.launch with
      | some l => if late then tx else l
      | none => tx
    let s := s.occupy port f.len at_
    let s := { s with out := { s.out with eth := (port, stamp, f.bytes) :: s.out.eth } }
    match f.op with
    | none => s
    | some id =>
      let s := s.updOp id fun o => { o with committed := true, late := o.late || late }
      s.complete id (Res.ok f.len (if f.stamp ∧ s.clock.state ≠ .unset then packTime stamp else 0))

/-- FRAME_LAUNCH (R368, R369): the next frame in the port's order leaves. Frames whose launch time has come go first; another
frame starts only if it ends before the earliest launch time held, and otherwise the port stays idle until then. -/
def execFrameLaunch (port : Nat) (s : State) : Result :=
  match s.net.ports[port]? with
  | none => .next s
  | some q =>
    if s.netUp && q.up then
      let start := s.portFree port
      let dev := s.devAt start
      let held := q.queue.filter fun f => f.launch.isSome
      let reply := s.replyLaunchAt port
      match firstFrame launchesBefore held with
      | some f =>
        let l := f.launch.getD 0
        if reply.any fun r => decide (r < l ∧ s.launchPoint port r ≤ dev) then .next s
        else if s.launchPoint port l ≤ dev then .next (s.sendFrame port f start)
        else
          let first := min l (reply.getD l)
          match firstFrame classBefore (q.queue.filter fun f => f.launch.isNone) with
          | some g =>
            if dev + q.wire g.len ≤ s.launchPoint port first then .next (s.sendFrame port g start)
            else if reply.any fun r => decide (r < l) then .next s
            else .next (s.sendFrame port f (start + (s.launchPoint port l - dev)))
          | none =>
            if reply.any fun r => decide (r < l) then .next s
            else .next (s.sendFrame port f (start + (s.launchPoint port l - dev)))
      | none =>
        match firstFrame classBefore q.queue with
        | some g =>
          if reply.all fun r => decide (dev + q.wire g.len ≤ s.launchPoint port r) then .next (s.sendFrame port g start) else .next s
        | none => .next s
    else .next s

/-- NET_LINK_CHANGE (R365, R367, R377): a port that is enabled goes up at the speed set, or goes down. -/
def execNetLinkChange (port : Nat) (up : Bool) (s : State) : Result :=
  let ctl := s.reg 0x5000 0
  let ok := up && s.netUp && bit ctl port && s.domOn 4
  let fast := !bit ctl (2 + port)
  let set_ (q : NetPort) : NetPort :=
    if ok then { q with up := true, at10g := !fast, fec := fast && bit ctl (4 + port) }
    else { q with up := false, at10g := false, fec := false }
  .next { s with net := { s.net with ports := updAt port set_ s.net.ports } }

end Sys2Proof.Machine
end

