-- ==== Sys2Proof/Machine/Rings.lean ====
section
/-! DEFINITION. Rings, doorbells, write-back records, completion entries and deadlines (R62 to R105), and NOP and FENCE (R83). -/

namespace Sys2Proof.Machine

/-! ## Ring contexts -/

/-- A function context that nothing has written: 256 rings of each kind for PF0, none for a VF (R106). -/
def fnDefault (k : Nat) : FnCtx := if k = 0 then { sqCount := 0x100, cqCount := 0x100 } else {}

/-- A function's context. -/
def State.fnc (s : State) (fn : Nat) : FnCtx := Store.get fnDefault fn s.rings.fns

/-- Write a function's context. -/
def State.setFnc (s : State) (fn : Nat) (c : FnCtx) : State :=
  { s with rings := { s.rings with fns := Store.set fnDefault fn c s.rings.fns } }

/-- A function's context as its registers act: one that holds a parity fault acts as if it held its reset value (R479). -/
def State.fncNow (s : State) (fn : Nat) : FnCtx :=
  let f := s.fnc fn
  let d := fnDefault fn
  let ok (off : Nat) : Bool := !s.regs.faulted off fn
  { f with sqCount := if ok 0x1024 then f.sqCount else d.sqCount, cqCount := if ok 0x1024 then f.cqCount else d.cqCount
           dbLo := if ok 0x2000 then f.dbLo else 0, dbHi := if ok 0x2004 then f.dbHi else 0
           wbLo := if ok 0x2008 then f.wbLo else 0, wbHi := if ok 0x200C then f.wbHi else 0, sweep := if ok 0x2014 then f.sweep else 0 }

/-- The key of a ring context. -/
def ringKey (fn n : Nat) : Nat := fn * 32768 + n

/-- A submission ring's context. -/
def State.sq (s : State) (fn n : Nat) : SqCtx := Store.get (fun _ => ({} : SqCtx)) (ringKey fn n) s.rings.sq

/-- A completion ring's context. -/
def State.cq (s : State) (fn n : Nat) : CqCtx := Store.get (fun _ => ({} : CqCtx)) (ringKey fn n) s.rings.cq

/-- Write a completion ring's context. -/
def State.setCq (s : State) (fn n : Nat) (c : CqCtx) : State :=
  { s with rings := { s.rings with cq := Store.set (fun _ => ({} : CqCtx)) (ringKey fn n) c s.rings.cq } }

/-- Write a submission ring's context, without its write-back record. -/
def State.setSq (s : State) (fn n : Nat) (c : SqCtx) : State :=
  { s with rings := { s.rings with sq := Store.set (fun _ => ({} : SqCtx)) (ringKey fn n) c s.rings.sq } }

/-- ENABLE of a RING_CFG word (R107). -/
def cfgEnable (w : Word) : Bool := bit w.toNat 15

/-- Entries of a ring (R62). -/
def cfgSize (w : Word) : Nat := 2 ^ bits w.toNat 4 0

/-- Ring class (R107). The rule names 0 to 4; a code of 5 to 7 acts as 4 (DESIGN CHOICE, log entry 135). -/
def cfgClass (w : Word) : Nat := min 4 (bits w.toNat 7 5)

/-- Ring group (R107). -/
def cfgGroup (w : Word) : Nat := bits w.toNat 11 8

/-- The completion ring a submission ring names (R64). -/
def cfgCq (w : Word) : Nat := bits w.toNat 30 16

/-- The base address of a ring (R62). -/
def ringBase (lo hi : Word) : Nat := hi.toNat * 2 ^ 32 + bits lo.toNat 31 12 * 4096

/-- The address of a submission ring's doorbell slot (R68). With bit 63 of DB_BASE set the slot is read in the device range, as any pointer is, and
so is a record of WB_BASE (DESIGN CHOICE, log entry 136: the rules give no outcome). -/
def FnCtx.sqSlot (f : FnCtx) (n : Nat) : Nat := ringBase f.dbLo f.dbHi + 4 * n

/-- The address of a completion ring's doorbell slot: from the first 4 KB boundary at or after the submission slots (R68). -/
def FnCtx.cqSlot (f : FnCtx) (m : Nat) : Nat := ringBase f.dbLo f.dbHi + (4 * f.sqCount + 4095) / 4096 * 4096 + 4 * m

/-- The index a doorbell slot holds, none where the slot is invalid (R69, R70). -/
def slotIndex (s : State) (addr size : Nat) : Option Nat :=
  let v := leNat (s.readMem addr 4)
  if v < 65536 ∧ v < size then some v else none

/-- WAKE_WHEN (R74). -/
def SqCtx.wakeWhen (c : SqCtx) : Nat :=
  let size := cfgSize c.cfg
  if bit c.cfg.toNat 12 ∧ c.head = c.tail then c.head else (c.head + size - 1) % size

/-- The write-back record of a submission ring (R71). -/
def SqCtx.record (c : SqCtx) : List Byte :=
  leBytes c.head 2 ++ leBytes c.wakeWhen 2 ++
    leBytes (b2n c.stalledTags + 2 * b2n c.stalledCq + 4 * b2n (!cfgEnable c.cfg)) 1 ++ zeros 3

/-- Write a ring's write-back record (R71): the area holds one for each submission ring granted. -/
def State.writeRecord (s : State) (fn n : Nat) : State :=
  let f := s.fncNow fn
  if n < f.sqCount then s.writeMem (ringBase f.wbLo f.wbHi + 8 * n) (s.sq fn n).record else s

/-- The doorbell slot of a submission ring read: a valid index becomes the tail last seen, an invalid one is counted (R70). -/
def State.readTail (s : State) (fn n : Nat) : State :=
  let c := s.sq fn n
  match slotIndex s ((s.fncNow fn).sqSlot n) (cfgSize c.cfg) with
  | some t => s.setSq fn n { c with tail := t }
  | none => s.bump Ctr.doorbellInvalid

/-- Write the record, and after a record with WAKE_WHEN = HEAD read the slot once more; a tail that has moved is written back
again (R76). -/
def State.writeBack (s : State) (fn n : Nat) : State :=
  let s := s.writeRecord fn n
  let c := s.sq fn n
  if bit c.cfg.toNat 12 ∧ c.wakeWhen = c.head then
    let s' := s.readTail fn n
    if (s'.sq fn n).tail = c.tail then s' else s'.writeRecord fn n
  else s

/-- Write a submission ring's context, with its write-back record when the record changes (R71). -/
def State.putSq (s : State) (fn n : Nat) (c : SqCtx) : State :=
  let old := s.sq fn n
  let s := s.setSq fn n c
  if c.record = old.record then s else s.writeBack fn n

/-! ## Tags and completion space -/

/-- The pool a ring class draws from now: its own reserve first, then the shared pool (R57 to R59). -/
def State.pool (s : State) (cls : Nat) : Option Nat :=
  if cls = 0 ∧ s.ops.used0 < 512 then some 0
  else if cls = 1 ∧ s.ops.used1 < 1024 then some 1
  else if s.ops.usedShared < 6656 then some 2
  else none

/-- Take a tag of a pool. -/
def Ops.take (o : Ops) (pool : Nat) : Ops :=
  if pool = 0 then { o with used0 := o.used0 + 1 }
  else if pool = 1 then { o with used1 := o.used1 + 1 }
  else { o with usedShared := o.usedShared + 1 }

/-- Give a tag back to the pool it came from (R58). -/
def Ops.give (o : Ops) (pool : Nat) : Ops :=
  if pool = 0 then { o with used0 := o.used0 - 1 }
  else if pool = 1 then { o with used1 := o.used1 - 1 }
  else { o with usedShared := o.usedShared - 1 }

/-- Whether a completion ring would hold at most size − 1 reserved or unconsumed entries with one more reserved (R67). -/
def CqCtx.space (c : CqCtx) : Bool :=
  let size := cfgSize c.cfg
  decide (c.reserved + (c.post + size - c.hostHead) % size + 1 ≤ size - 1)

/-- Whether a submission ring is in service and has descriptors it has not fetched (R65, R106, R479). -/
def SqCtx.ready (c : SqCtx) : Bool := cfgEnable c.cfg && !c.parityErr && decide (c.head ≠ c.tail)

/-- Whether a function's host is reachable: the link is up (R415, R455). A FUNCTION reset is one command, so none is in progress between commands. -/
def State.hostUp (s : State) (_fn : Nat) : Bool := s.host.linkUp && !s.host.perstLow

/-- Whether a ring of a lower class number waits for a tag of a pool, and so takes it first (R59). -/
def State.outranked (s : State) (cls pool : Nat) : Bool :=
  s.rings.sq.any fun e =>
    let c := cfgClass e.2.cfg
    e.2.ready && e.2.wantsTag && decide (c < cls) && (pool = 2 || pool = c) &&
      (s.cq (e.1 / 32768) (cfgCq e.2.cfg)).space && s.hostUp (e.1 / 32768)

/-- Whether a fetch of a ring class has to wait for a tag (R59). -/
def State.tagWait (s : State) (cls : Nat) : Bool :=
  match s.pool cls with
  | none => true
  | some pool => s.outranked cls pool

/-- The time of each wait of a ring that now ends is counted, per class and per ring (R59, R67). -/
def State.endStall (s : State) (fn n : Nat) (tags cq : Bool) : State :=
  let c := s.sq fn n
  let s := if c.stalledTags && !tags then s.bumpBy Ctr.tagFullTime (cfgClass c.cfg) (s.clock.now - c.tagsSince) else s
  if c.stalledCq && !cq then s.bumpBy Ctr.cqFullTime (ringKey fn n) (s.clock.now - c.cqSince) else s

/-- What a ring's fetch waits for is set: a wait that ends is counted, and the record follows the flags (R59, R67, R71). -/
def State.setStall (s : State) (fn n : Nat) (tags cq : Bool) : State :=
  let c := s.sq fn n
  (s.endStall fn n tags cq).putSq fn n { c with
    stalledTags := tags, tagsSince := if tags && !c.stalledTags then s.clock.now else c.tagsSince,
    stalledCq := cq, cqSince := if cq && !c.stalledCq then s.clock.now else c.cqSince,
    wantsTag := tags || (c.wantsTag && c.ready) }

/-- What a ring's fetch waits for now: a tag, or completion space, while it has descriptors to fetch (R59, R67, R71). -/
def State.noteStall (s : State) (fn n : Nat) : State :=
  let c := s.sq fn n
  s.setStall fn n (c.ready && s.tagWait (cfgClass c.cfg)) (c.ready && !(s.cq fn (cfgCq c.cfg)).space)

/-- The rings whose fetch waits are judged anew, after a tag or completion space came free (R59, R67). -/
def State.restall (s : State) : State :=
  (s.rings.sq.filter fun e => e.2.stalledTags || e.2.stalledCq).foldl (fun (s : State) e => s.noteStall (e.1 / 32768) (e.1 % 32768)) s

/-- The waits in progress are counted up to now, so that a counter read during a wait holds it (R59, R67, R423). -/
def State.countStalls (s : State) : State :=
  s.rings.sq.foldl
    (fun (s : State) e =>
      let s := if e.2.stalledTags then s.bumpBy Ctr.tagFullTime (cfgClass e.2.cfg) (s.clock.now - e.2.tagsSince) else s
      if e.2.stalledCq then s.bumpBy Ctr.cqFullTime e.1 (s.clock.now - e.2.cqSince) else s) s

/-- The local numbers of a function's enabled submission rings in a group (none: all groups). -/
def State.sqsOf (s : State) (fn : Nat) (group : Option Nat) : List Nat :=
  (s.rings.sq.filter fun e => decide (e.1 / 32768 = fn) && cfgEnable e.2.cfg && group.all fun g => decide (g = cfgGroup e.2.cfg)).map
    fun e => e.1 % 32768

/-- The local numbers of a function's enabled completion rings in a group (none: all groups). -/
def State.cqsOf (s : State) (fn : Nat) (group : Option Nat) : List Nat :=
  (s.rings.cq.filter fun e => decide (e.1 / 32768 = fn) && cfgEnable e.2.cfg && group.all fun g => decide (g = cfgGroup e.2.cfg)).map
    fun e => e.1 % 32768

/-- The doorbell slot of a completion ring read (R69, R70). -/
def State.readHead (s : State) (fn m : Nat) : State :=
  let c := s.cq fn m
  match slotIndex s ((s.fncNow fn).cqSlot m) (cfgSize c.cfg) with
  | some h => s.setCq fn m { c with hostHead := h }
  | none => s.bump Ctr.doorbellInvalid

/-- The doorbell slot of a submission ring swept: a new tail changes WAKE_WHEN, so its record is written (R71, R72, R74). -/
def State.sweepSq (s : State) (fn n : Nat) : State :=
  let s' := s.readTail fn n
  let s'' := if (s'.sq fn n).record = (s.sq fn n).record then s' else s'.writeBack fn n
  s''.noteStall fn n

/-- Sweep the slots of every enabled ring of a function's group, completion and submission (R72). -/
def State.sweep (s : State) (fn : Nat) (group : Option Nat) : State :=
  let s := (s.cqsOf fn group).foldl (fun s m => s.readHead fn m) s
  ((s.sqsOf fn group).foldl (fun s n => s.sweepSq fn n) s).restall

/-- The poll interval of a ring group in ns (R72, R108): 2 to 1,000 µs, a value outside acting as the nearer end. -/
def State.sweepInterval (s : State) (fn g : Nat) : Nat := clampN 2 1000 (s.regF (0x2040 + 4 * g) fn 9 0) * 1000

/-- The end of a group's poll interval: time reaches it, and the next interval, of the length that the register now holds, begins (R72, R108). -/
def State.nextSweep (s : State) (fn g : Nat) : State :=
  let s := s.toTime (((s.fnc fn).sweepAt[g]?).getD 0)
  s.setFnc fn { s.fnc fn with sweepAt := updAt g (fun _ => s.clock.now + s.sweepInterval fn g) (s.fnc fn).sweepAt }

/-! ## Commands -/

/-- DOORBELL_SWEEP (R72, R73, R413): a group sweep at the end of its interval, or the sweep NUDGE asked for. Safe hold stops sweeps. A NUDGE written
while SWEEP_ENABLE is 0 stays pending until sweeps run (DESIGN CHOICE, log entry 137: the rules do not say). -/
def execDoorbellSweep (fn : Nat) (group : Option Nat) (s : State) : Result :=
  let f := s.fnc fn
  if s.hostUp fn ∧ bit (s.fncNow fn).sweep.toNat 0 ∧ s.fault.safeHold = false then
    match group with
    | some g => if g < 16 then .next ((s.nextSweep fn g).sweep fn group) else .next s
    | none =>
      match f.nudge with
      | .idle => .next s
      | .pending => .next ((s.setFnc fn { f with nudge := .idle }).sweep fn none)
      | .further => .next ((s.setFnc fn { f with nudge := .pending }).sweep fn none)
  else .next s

/-- NUDGE (R73): a sweep of the function's slots is asked for; while one is pending or running, at most one further. -/
def State.nudgeWrite (s : State) (fn : Nat) : State :=
  let f := s.fnc fn
  s.setFnc fn { f with nudge := match f.nudge with
    | .idle => .pending
    | .pending => .further
    | .further => .further }

/-- NUDGE (R73). -/
def execNudge (fn : Nat) (s : State) : Result := if s.hostUp fn then .next (s.nudgeWrite fn) else .next s

/-- Whether the result buffers of an operation that ended outside the OK group are as its chapter says, or as they were because the
operation had no side effects (R23, R84, R92, R119, R141, R264, R266, R350). -/
def Op.bufsDefined (o : Op) : Bool :=
  decide (o.status < 0x10) || (decide (St.cancelled ≤ o.status) && decide (o.status ≤ St.accessDenied)) ||
    match o.opcode with
    | 0x0B => o.status = St.timedOut
    | 0x10 => o.status = St.boundReached
    | 0x18 => o.status = St.boundReached || o.status = St.timedOut || o.status = St.dataError || o.status = St.epochGone
    | 0x28 => o.status = St.unsolvedPartial || (o.status = St.boundReached && decide (o.detail % 256 = 0x31))
    | 0x38 => o.status = St.timedOut || o.status = St.dataError
    | _ => false

/-- Result buffers that R92 leaves undefined hold free bytes, once the operation's outcome is final. -/
def State.blurBufs (s : State) (o : Op) : State :=
  if o.bufsDefined || o.blurred || o.phase != .final then s
  else
    (o.bufs.foldl (fun (s : State) p =>
      (s.writeMem p.1 ((List.range p.2).map fun i => BitVec.ofNat 8 (Config.freeNat (s.free + i)))).spend p.2) s).updOp o.id fun o => { o with blurred := true }

/-- Before later work starts, all result data of the operations whose outcome is final is in place (R100). -/
def State.settleBufs (s : State) : State := s.ops.list.foldl State.blurBufs s

/-- OPERATION_START (R100): an operation held by a fence or by ORDERED starts once the earlier work has completed. -/
def execOperationStart (op : Nat) (s : State) : Result :=
  match s.findOp op with
  | some o =>
    if o.phase = .held ∧ ¬ s.fenced o ∧ ¬ s.orderHeld o then
      .next (s.settleBufs.updOp op fun o => { o with phase := .started, readyAt := s.clock.now })
    else .next s
  | none => .next s

/-- The MSI-X vectors of a function's table (R458). -/
def vectors (fn : Nat) : Nat := if fn = 0 then 256 else 28

/-- What a word of an MSI-X table that nothing has written reads as: vectors are masked, bit 0 of their fourth word. PRESUMED, from PCIe. -/
def msixDefault (key : Nat) : Word := if key % 16 = 12 then 1 else 0

/-- Whether a vector is masked, by its own bit or by the Function Mask (R96). -/
def State.vectorMasked (s : State) (fn v : Nat) : Bool := s.host.msixMasked.contains fn || bit (Store.get msixDefault (fn * 65536 + 16 * v + 12) s.host.msixTable).toNat 0

/-- Send a vector's message, or note it as pending while the vector is masked; with MSI-X Enable clear nothing is sent (R96, PCIe). -/
def State.sendVector (s : State) (fn v : Nat) : State :=
  if s.host.msixOff.contains fn then s
  else if s.vectorMasked fn v then
    { s with host := { s.host with msixPending := (s.host.msixPending.filter fun p => p ≠ (fn, v)) ++ [(fn, v)] } }
  else { s with out := { s.out with msix := (fn, v) :: s.out.msix } }

/-- Signal a completion ring's vector; the entries posted so far are signalled (R96). -/
def State.signal (s : State) (fn m : Nat) : State :=
  let c := s.cq fn m
  let v := bits c.int.toNat 10 0
  let s := s.setCq fn m { c with unsignalled := 0 }
  if v < vectors fn then s.sendVector fn v else s.bump Ctr.intVectorInvalid

/-- TIMER of a completion ring in µs (R107). -/
def CqCtx.timer (c : CqCtx) : Nat := min 1000 (bits c.int.toNat 29 20)

/-- After an entry is posted: signal when COUNT is reached, with TIMER = 0, or for class 0 (R96, R97). -/
def State.postSignal (s : State) (fn m cls : Nat) : State :=
  let c := s.cq fn m
  let c := { c with unsignalled := c.unsignalled + 1, firstUnsignalled := if c.unsignalled = 0 then s.clock.now else c.firstUnsignalled }
  let s := s.setCq fn m c
  let now := decide (bits c.int.toNat 19 12 + 1 ≤ c.unsignalled) || decide (c.timer = 0) || (bit c.int.toNat 30 && decide (cls = 0))
  if bit c.int.toNat 31 && now then s.signal fn m else s

/-- The completion entry of a finished operation (R88). -/
def Op.entry (o : Op) (phase : Bool) : List Byte :=
  leBytes o.hostTag 4 ++ leBytes o.status 1 ++ leBytes (entryFlags phase o.wasHeld o.retried o.replayed o.late) 1 ++ leBytes o.sq 2 ++
    leBytes o.finalAt 8 ++ leBytes o.count 8 ++ leBytes o.detail 8

/-- Write bytes 8 to 31 of an entry, then bytes 0 to 7 (R89). -/
def State.writeEntry (s : State) (addr : Nat) (e : List Byte) : State :=
  (s.writeMem (addr + 8) (e.drop 8)).writeMem addr (e.take 8)

/-- Whether an extent of some function, or an operation in flight, keeps a parcel (R325). -/
def State.keeps (s : State) (n : Nat) (refs : Op → List (Nat × Nat)) : Bool :=
  (s.tiers.extents.any fun e =>
      bit e.2.size.toNat 31 && decide (e.2.base.toNat ≤ n ∧ n < e.2.base.toNat + bits e.2.size.toNat 23 0)) ||
    s.ops.list.any fun o => (refs o).any fun r => isDev r.1 && decide (r.2 ≠ 0 ∧ r.1 % 2 ^ 48 / 65536 ≤ n ∧ n ≤ (r.1 % 2 ^ 48 + r.2 - 1) / 65536)

/-- INTERRUPT_TIMER (R96): TIMER µs after the first entry not yet signalled. -/
def execInterruptTimer (fn cq : Nat) (s : State) : Result :=
  let c := s.cq fn cq
  if 0 < c.unsignalled ∧ bit c.int.toNat 31 then
    .next ((s.toTime (c.firstUnsignalled + c.timer * 1000)).signal fn cq)
  else .next s

/-- NOP (R83): OK, a result length of 0 and a detail word of 0. -/
def execNop (op : Nat) (s : State) : Result := s.runOp op 0x00 fun _ => s.finish op (Res.ok 0 0)

/-- FENCE (R83, R100): completes when the earlier work in its scope has completed, with the number it waited for. -/
def execFence (op : Nat) (s : State) : Result :=
  s.runOp op 0x01 fun o =>
    if s.fencePending { id := o.id, fn := o.fn, sq := o.sq, handle := o.handle, scope := o.scope } then s.begin op
    else s.finish op (Res.ok 0 o.waitedFor)

end Sys2Proof.Machine
end

