-- ==== Sys2Proof/Machine/FaultOps.lean ====
section
/-! DEFINITION. Retries and replays (R399 to R405), wear, retirement and the reservoir (R406 to R410, R416, R446), safe hold (R412 to R414),
firmware (R417, R418), and the reports of the tally log and counters (R422, R423). -/

namespace Sys2Proof.Machine

/-! ## Safe hold (R412, R413) -/

/-- The frames of a port's queue that are not held for a launch time are sent (R413 step 3). -/
def State.drainPort (s : State) (p : Nat) : State :=
  let q := (((s.net.ports[p]?).map (·.queue)).getD []).filter fun f => f.launch.isNone
  (q.mergeSort fun a b => classBefore a b || a.seq = b.seq).foldl (fun (s : State) f => s.sendFrame p f (s.portFree p)) s

/-- Each fabric port sends the flits queued at it, as its far end's credits let it (R383, R413 step 3). -/
def State.drainFabric (s : State) : State :=
  let n := (s.fabric.ports.map fun (q : FzPort) => q.flits.waiting.length).foldl max 0
  (List.range n).foldl (fun (s : State) _ => (s.toTime (s.clock.now + 11)).flitRound) s

/-- An operation in flight whose outcome is not final completes with DEVICE_SAFE_HOLD (R86, R413 step 4). -/
def State.holdOps (s : State) (idx : Nat) : State :=
  (s.ops.list.filter fun o => o.phase != .final).foldl
    (fun (s : State) o => (s.dropWork o.id).finish o.id { status := St.safeHold, detail := idx }) s

/-- Every session that is OPEN or SILENT is closed, those of the net path after they sent CLOSE (R114, R137, R413 step 2). -/
def State.closeAll (s : State) : State :=
  (s.sess.list.filter fun x => x.state = .opened || x.state = .silent).foldl
    (fun (s : State) x =>
      let s := if !x.hostPath then s.sendUsp x.id 0x8 (leBytes 0x04 1 ++ zeros 3) else s
      s.enterClosed x.id 0x04) s

/-- Entry into safe hold, with the CODE of the fault that caused it or 0 (R412, R413). Device time that was never set stays UNSET
(DEDUCED). -/
def State.enterSafeHold (s : State) (code : Nat) : State :=
  if s.fault.safeHold || s.power.boot != .running then s
  else
    let idx := s.tally.head % 65536
    let s := s.log (dieUnit 15) 0x00F0 3 255 0 code
    let s := (s.closeAll).sendLeave 2
    let s := ((s.drainPort 0).drainPort 1).drainFabric
    let dark (q : NetPort) : NetPort := { q with up := false, queue := [] }
    let s := { s with
      net := { s.net with stopped := true, ports := s.net.ports.map dark, trigs := s.net.trigs.map fun (g : Trig) => { g with running := false } }
      fabric := { s.fabric with stopped := true, ports := s.fabric.ports.map fun (q : FzPort) => { q with up := false } }
      clock := if s.clock.state = TimeState.unset then s.clock else { s.clock with state := .holdover, holdoverSince := s.clock.now } }
    let s := s.holdOps idx
    { s with fault := { s.fault with safeHold := true } }

/-- A DEVICE fault with its code (R398, R412). -/
def State.deviceFault (s : State) (code : Nat) : State := s.enterSafeHold code

/-- SAFE_HOLD (R412, R413): a DEVICE fault with its code, or a request with code 0. -/
def execSafeHold (code : Nat) (s : State) : Result := .next (s.enterSafeHold code)

/-- THERMAL_LIMIT (R496): the security core requests safe hold. -/
def execThermalLimit (s : State) : Result := .next (s.enterSafeHold 0)

/-- RESERVOIR_ACTION SAFE_HOLD (R416): completes, like every other operation in flight, with DEVICE_SAFE_HOLD. -/
def execSafeHoldAction (op : Nat) (s : State) : Result := s.runSub op 0x4A 2 fun _ => s.enterSafeHold 0

/-! ## Replay (R295, R404, R405) -/

/-- An operation is replayed from its replay point: counted and marked. An INFER starts again at its first layer; an operation waiting for
its frame at a net port starts again; a committed effect is not applied twice. -/
def State.replayOp (s : State) (id : Nat) : State :=
  match s.findOp id with
  | none => s
  | some o =>
    if o.phase = .final || !o.began then s
    else
      let s := (s.bump Ctr.replay).updOp id fun o =>
        { o with replayed := true, retrying := false, phase := if o.opcode = 0x40 && !o.committed then .started else o.phase }
      match s.inferOf id with
      | none => s
      | some i =>
        match s.prog i.handle with
        | none => s
        | some p => s.updInfer id fun i => { i with layer := 0, harts := startHarts p.image, bufs := s.inferBuffers o p.image }

/-- The clusters in service other than c. -/
def State.otherClusters (s : State) (c : Nat) : List Nat :=
  (s.place.clusters.filter fun k => k.role = .inService && k.idx ≠ c).map (·.idx)

/-- The work of a cluster goes to others that the placement engine chooses, and is replayed there (R319, R404). -/
def State.replayCluster (s : State) (c : Nat) (move : Bool) : State :=
  let to_ := s.otherClusters c
  let at_ (i old : Nat) : Nat := if move then (s.pick to_ i).getD old else old
  let inf := (s.matrix.infers.filter fun i => i.cluster = c).map (·.op)
  let sol := (s.abacus.running.filter fun r => r.cluster = c).map (·.op)
  let fr := (s.sess.list.filter fun x => x.cluster = c).flatMap fun x => x.frames.filterMap (·.op)
  let n := (s.sess.list.filter fun x => x.cluster = c).foldl (fun n x => n + (x.frames.filter fun f => f.op.isNone).length) 0
  let s := { s with
    matrix := { s.matrix with infers := s.matrix.infers.map fun (i : InferSt) => if i.cluster = c then { i with cluster := at_ i.op c } else i }
    abacus := { s.abacus with running := s.abacus.running.map fun (r : SolveSt) => if r.cluster = c then { r with cluster := at_ r.op c } else r }
    sess := { s.sess with list := s.sess.list.map fun (x : Session) => if x.cluster = c then { x with cluster := at_ x.id c, moving := none } else x } }
  let s := (if move then to_ else []).foldl (fun (s : State) i => s.placed i) s
  ((inf ++ sol ++ fr).foldl (fun (s : State) id => s.replayOp id) s).bumpBy Ctr.replay 0 n

/-! ## Retirement (R39 to R41, R407 to R409) -/

/-- Change a cluster. -/
def State.updCluster (s : State) (i : Nat) (f : Cluster → Cluster) : State :=
  { s with place := { s.place with clusters := updFirst (fun c => c.idx = i) f s.place.clusters } }

/-- The reservoir cluster, while it is in RESERVE (R45). -/
def State.reserveCluster (s : State) : Option Cluster := s.place.clusters.find? fun c => c.role = .reserve

/-- Parcels that stood in a cluster's pond are at home again (R346; OP-7 keeps their contents). -/
def State.pondGone (s : State) (c : Nat) : State :=
  let back (q : Parcel) : Parcel :=
    if q.upper = some (.pond c) || q.newUpper = some (.pond c) then { q with state := .home, upper := none, newUpper := none, dirty := false, deferred := false } else q
  { s with tiers := { s.tiers with parcels := s.tiers.parcels.map back } }

/-- A cluster is retired as a whole: its work is replayed elsewhere, and the reservoir cluster, where there is one, prepares to take its place;
otherwise the device goes on without it (R41, R407, R409). -/
def State.retireCluster (s : State) (c source subject : Nat) : State :=
  match s.cluster c with
  | none => s
  | some k =>
    if k.role = .retired || k.role = .reserve then s
    else
      let s := s.updCluster c fun k => { k with role := .retired, draining := [], load := 0 }
      let s := (s.replayCluster c true).pondGone c
      let s := (s.setDomain (15 + c) Domain.dark).setDomain (28 + c) Domain.dark
      match s.reserveCluster with
      | some r =>
        ((s.updCluster r.idx fun k => { k with role := .preparing }).setDomain (15 + r.idx) Domain.lit).setDomain (28 + r.idx) Domain.lit
          |>.unitGone source 2 (coreId r.idx (source / 256 % 16) (source % 256)) subject
      | none => (s.unitGone source 2 0xFFFF subject).exhaust source 2

/-- The number of cores of a kind in a cluster (R39): matrix 0, tidy 1. -/
def coresOf (kind : Nat) : Nat := if kind = 0 then 5 else 10

/-- The bitmaps of a kind: in service, retired. -/
def Cluster.bitsOf (k : Cluster) (kind : Nat) : Nat × Nat := if kind = 0 then (k.matrixIn, k.matrixRetired) else (k.tidyIn, k.tidyRetired)

/-- Set those bitmaps. -/
def Cluster.setBitsOf (k : Cluster) (kind : Nat) (b : Nat × Nat) : Cluster :=
  if kind = 0 then { k with matrixIn := b.1, matrixRetired := b.2 } else { k with tidyIn := b.1, tidyRetired := b.2 }

/-- A reserve core of a kind in a cluster: neither in service nor retired nor being powered (R40). At manufacture matrix core 4 is the reserve (R46);
that tidy cores 8 and 9 are, and that the lowest index comes into service first, the spec does not say (DESIGN CHOICE, log entry 141). -/
def State.reserveCore (s : State) (k : Cluster) (kind : Nat) : Option Nat :=
  let b := k.bitsOf kind
  (List.range (coresOf kind)).find? fun i =>
    !bit b.1 i && !bit b.2 i && !(s.fault.powering.any fun p => p.1 = coreId k.idx kind i)

/-- The KIND of R407 that replaces a matrix or tidy core. -/
def spareKind (kind : Nat) : Nat := if kind = 0 then 1 else 0

/-- Time to service of a spare core (R407). -/
def serviceTime (kind : Nat) : Nat := if kind = 0 then 150000 else 200000

/-- A core leaves service: a reserve core of its kind is powered, or its cluster is retired with it (R40, R41, R408, R409). -/
def State.retireCore (s : State) (id : Nat) : State :=
  let c := id / 4096
  let kind := id / 256 % 16
  let n := id % 256
  match s.cluster c with
  | none => s
  | some k =>
    let b := k.bitsOf kind
    if 2 ≤ kind then s.retireCluster c id 0
    else if !bit b.1 n then s
    else
      let s := s.updCluster c fun k => { k.setBitsOf kind (setBit b.1 n false, setBit b.2 n true) with draining := k.draining.filter fun i => i ≠ id }
      match s.reserveCore k kind with
      | some j =>
        let s := (s.useSpare (spareKind kind)).unitGone id (spareKind kind) (coreId c kind j) 0
        { s with fault := { s.fault with powering := s.fault.powering ++ [(coreId c kind j, s.clock.now + serviceTime kind)] } }
      | none =>
        let s := if s.sparesLeft (spareKind kind) = 0 then s.exhaust id (spareKind kind) else s
        s.retireCluster c id 0

/-- Work on a core that failed is replayed on its siblings (R404). -/
def State.replayCore (s : State) (id : Nat) : State :=
  let c := id / 4096
  let kind := id / 256 % 16
  if 2 ≤ kind then s
  else if kind = 0 then ((s.matrix.infers.filter fun i => i.cluster = c).map (·.op)).foldl (fun (s : State) o => s.replayOp o) s
  else (((s.sess.list.filter fun x => x.cluster = c).flatMap fun x => x.frames.filterMap (·.op)) ++
    (s.matrix.infers.filter fun i => i.cluster = c).map (·.op)).foldl (fun (s : State) o => s.replayOp o) s

/-- Whether a core is in service (R40, R46). -/
def State.coreIn (s : State) (id : Nat) : Bool :=
  match s.cluster (id / 4096) with
  | none => false
  | some k =>
    let kind := id / 256 % 16
    (k.role = .inService || k.role = .draining) &&
      (if kind ≤ 1 then bit (k.bitsOf kind).1 (id % 256) && decide (id % 256 < coresOf kind) else decide (kind ≤ 4) && id % 256 = 0)

/-- UNIT_RETIRED (R401, R408, R409): a unit fails suddenly; it is retired at once and its work is replayed. -/
def State.unitFails (s : State) (u : FailedUnit) : State :=
  match u with
  | .core id =>
    if id / 4096 = 15 then s.deviceFault 0x0031 else if s.coreIn id then (s.retireCore id).replayCore id else s
  | .pondBank c _ => if c ≤ 12 then s.retireCluster c (coreId c 0xF 0) 0 else s.deviceFault 0x0031
  | .crossbar c => s.retireCluster c (coreId c 0xF 0) 0
  | .spinePort c => s.retireCluster c (coreId c 0xF 0) 0
  | .basinLane pc =>
    if s.chip.part.pcs ≤ pc then s
    else if !s.tiers.spareUsed.contains pc then
      (({ s with tiers := { s.tiers with spareUsed := s.tiers.spareUsed ++ [pc], repairing := s.tiers.repairing.filter fun r => r.1 ≠ pc } }).useSpare 5).unitGone
        (dieUnit 9) 5 0xFFFF pc
    else if !s.tiers.worn.contains pc then { s with tiers := { s.tiers with worn := s.tiers.worn ++ [pc] } }.exhaust (dieUnit 9) 5
    else s.deviceFault 0x0032
  | .ringContext fn n =>
    let lost := decide (s.sparesLeft 7 = 0)
    let s := if n < 32768 then s.setSq fn n { s.sq fn n with parityErr := true, dead := lost }
      else s.setCq fn (n % 32768) { s.cq fn (n % 32768) with parityErr := true, dead := lost }
    if lost then s.exhaust (dieUnit 1) 7 else (s.useSpare 7).unitGone (dieUnit 1) 7 0xFFFF n
  | .dieUnit _ => s.deviceFault 0x0031

/-- UNIT_RETIRED (R408). -/
def execUnitRetired (u : FailedUnit) (s : State) : Result := if s.running then .next (s.unitFails u) else .next s

/-! ## Retries (R399 to R402) -/

/-- Attempts of a piece (R399). -/
def pieceAttempts : Piece → Nat
  | .matrixTile => 2
  | .visionStrip => 2
  | .abacusStep => 2
  | .soundingBatch => 2
  | .basinRead => 1
  | .lakeRead => 1
  | .hostRead => 1
  | .tierAccess => 1

/-- Whether a piece runs on a core (R399, R401). -/
def pieceOnCore : Piece → Bool
  | .matrixTile => true
  | .visionStrip => true
  | .abacusStep => true
  | .soundingBatch => true
  | .basinRead => false
  | .lakeRead => false
  | .hostRead => false
  | .tierAccess => false

/-- Another attempt of an operation's piece where attempts remain and the new budget is at least 1 µs: counted. Otherwise the operation
completes with DATA_ERROR, whose detail the chapters leave open (R400). -/
def State.attempt (s : State) (o : Op) (most : Nat) : State :=
  let budget := min (s.retryLimit * 1000) ((o.deadlineAt - s.clock.now) / 2)
  if o.attempts < most ∧ 1000 ≤ budget then
    (s.bump Ctr.retry).updOp o.id fun o =>
      { o with attempts := o.attempts + 1, attemptsMax := most, attemptEnds := s.clock.now + budget, retrying := true, retried := true }
  else
    let s := ((s.log (dieUnit 12) 0x0002 1 o.fn 0 (Config.freeNat s.free % 2 ^ 64)).withdrawChange o.id).dropWork o.id
    (s.spend 2).finish o.id { status := St.dataError, detail := Config.freeNat (s.free + 1) % 2 ^ 64 }

/-- PIECE_FAILURE (R399 to R401): the piece is retried within its budget; one that recurs on the same core marks the core as failed, and the
work is replayed. -/
def execPieceFailure (op : Nat) (piece : Piece) (core : Nat) (recurs : Bool) (s : State) : Result :=
  match s.findOp op with
  | none => .next s
  | some o =>
    if !s.running || o.phase = .final || o.phase = .held || o.deadlineAt ≤ s.clock.now then .next s
    else if recurs && pieceOnCore piece && o.retrying && s.coreIn core then
      .next ((s.updOp op fun o => { o with retrying := false, attempts := 0 }).unitFails (.core core))
    else .next (s.attempt o (pieceAttempts piece))

/-- RETRY_BUDGET_EXPIRY (R400): the attempt in progress fails. -/
def execRetryBudgetExpiry (op : Nat) (s : State) : Result :=
  match s.findOp op with
  | none => .next s
  | some o =>
    if !s.running || o.phase = .final || !o.retrying || o.deadlineAt ≤ o.attemptEnds then .next s
    else .next ((s.toTime o.attemptEnds).attempt o o.attemptsMax)

/-! ## Wear, drains and spares (R406 to R408) -/

/-- The row of R406 and the core ID that a worn unit logs. -/
def wearRow : WearUnit → Nat × Nat
  | .coreMargin c => (1, c)
  | .coreErrors c => (2, c)
  | .pondRow c _ => (3, coreId c 0xF 0)
  | .basinLane _ => (4, dieUnit 9)
  | .lakeFrame _ => (5, dieUnit 14)
  | .fabricLane _ _ => (6, dieUnit 7)
  | .ringContext _ _ => (7, dieUnit 1)
  | .pll _ => (8, dieUnit 4)

/-- A core, or for a vision, abacus or sounding core and one with no reserve its cluster, starts to drain (R408). -/
def State.drainCore (s : State) (id : Nat) : State :=
  match s.cluster (id / 4096) with
  | none => s
  | some k =>
    let kind := id / 256 % 16
    if kind ≤ 1 ∧ (s.reserveCore k kind).isSome then
      s.updCluster k.idx fun k => { k with draining := if k.draining.contains id then k.draining else k.draining ++ [id] }
    else s.updCluster k.idx fun k => { k with role := .draining }

/-- The wear of a core is why it drains (R408). -/
def State.wearDrain (s : State) (id : Nat) : State :=
  { s with fault := { s.fault with wearDrains := (s.fault.wearDrains.filter fun i => i ≠ id) ++ [id] } }

/-- A RETIRE that ends before its unit has left service leaves no change (R85): the unit drains no longer, unless wear or another RETIRE drains it. -/
def State.undrain (s : State) (op : Nat) : State :=
  let mine := s.fault.retireOps.filter fun r => r.1 = op
  let rest := s.fault.retireOps.filter fun r => r.1 ≠ op
  let s := { s with fault := { s.fault with retireOps := rest } }
  mine.foldl (fun (s : State) r =>
    let kept (whole : Bool) : Bool := (s.fault.wearDrains ++ rest.map (·.2)).any fun i => i / 4096 = r.2 / 4096 && (whole || i = r.2)
    s.updCluster (r.2 / 4096) fun k =>
      { k with role := if k.role = .draining && !kept true then .inService else k.role,
               draining := if kept false then k.draining else k.draining.filter fun i => i ≠ r.2 }) s

/-- The spare rows and columns of a pond bank that are used (R39). -/
def State.bankUsed (s : State) (c bank : Nat) : Nat × Nat := Store.get (fun _ => (0, 0)) (c * 64 + bank) s.fault.pondUsed

/-- Set them. -/
def State.setBank (s : State) (c bank : Nat) (n : Nat × Nat) : State :=
  { s with fault := { s.fault with pondUsed := Store.set (fun _ => (0, 0)) (c * 64 + bank) n s.fault.pondUsed } }

/-- A worn pond row's region is moved and remapped to a spare row of its bank, or column (R39, R407); with neither left in the bank, its cluster
drains (R41). -/
def State.wornRow (s : State) (c bank : Nat) : State :=
  let u := s.bankUsed c bank
  if u.1 < bankRows then ((s.setBank c bank (u.1 + 1, u.2)).useSpare 3).unitGone (coreId c 0xF 0) 3 0xFFFF bank
  else if u.2 < bankColumns then ((s.setBank c bank (u.1, u.2 + 1)).useSpare 4).unitGone (coreId c 0xF 0) 4 0xFFFF bank
  else
    let s := if s.sparesLeft 3 = 0 then s.exhaust (coreId c 0xF 0) 3 else s
    if c ≤ 12 then s.updCluster c fun k => if k.role = .inService then { k with role := .draining } else k else s

/-- WEAR_DETECTED (R406, R408): logged; with WEAR_ACTION = 1 the unit's planned replacement starts. The lane, context and PLL units have
commands of their own for it. -/
def execWearDetected (u : WearUnit) (s : State) : Result :=
  if !s.running then .next s
  else
    let r := wearRow u
    let s := s.log r.2 0x0030 0 255 0 r.1
    if !bit (s.reg 0x10000 0) 16 then .next s
    else match u with
    | .coreMargin c => .next (if s.coreIn c then (s.drainCore c).wearDrain c else s)
    | .coreErrors c => .next (if s.coreIn c then (s.drainCore c).wearDrain c else s)
    | .pondRow c b => .next (if b < banksOf c then s.wornRow c b else s)
    | .lakeFrame f => .next (if s.tiers.retiredLake.contains f then s else s.retireFrame true f)
    | .basinLane _ => .next s
    | .fabricLane _ _ => .next s
    | .ringContext _ _ => .next s
    | .pll _ => .next s

/-- The core ID of the spare that stands for a retirement: the reserve core, the reservoir cluster's, or 0xFFFF (R416). -/
def State.spareFor (s : State) (id : Nat) (whole : Bool) : Nat :=
  match s.cluster (id / 4096) with
  | none => 0xFFFF
  | some k =>
    let kind := id / 256 % 16
    let res := match s.reserveCluster with
      | some r => coreId r.idx kind (id % 256)
      | none => 0xFFFF
    if whole || 2 ≤ kind then res
    else match s.reserveCore k kind with
      | some j => coreId k.idx kind j
      | none => res

/-- DRAIN_COMPLETE (R408, R416): the draining unit's work has left it; a spare takes its place, it is retired, and RETIRE completes. -/
def execDrainComplete (core : Nat) (s : State) : Result :=
  let c := core / 4096
  match s.cluster c with
  | none => .next s
  | some k =>
    let empty := !(s.matrix.infers.any fun i => i.cluster = c) && !(s.abacus.running.any fun r => r.cluster = c) &&
      !(s.sess.list.any fun x => x.cluster = c && x.state != .closed)
    let whole := k.role = .draining
    if !s.running || !(if whole then empty else k.draining.contains core) then .next s
    else
      let spare := s.spareFor core whole
      let s := if whole then s.retireCluster c core 0 else s.retireCore core
      let done := s.fault.retireOps.filter fun r => r.2 / 4096 = c && (whole || r.2 = core)
      let left (i : Nat) : Bool := !(i / 4096 = c && (whole || i = core))
      let s := { s with fault := { s.fault with retireOps := s.fault.retireOps.filter (fun r => left r.2), wearDrains := s.fault.wearDrains.filter left } }
      .next (done.foldl (fun (s : State) r => s.complete r.1 (Res.ok 0 spare)) s)

/-- SPARE_IN_SERVICE (R40, R407): the reserve core serves under its own ID. -/
def execSpareInService (core : Nat) (s : State) : Result :=
  match s.fault.powering.find? fun p => p.1 = core with
  | none => .next s
  | some p =>
    let s := s.toTime p.2
    let kind := core / 256 % 16
    let s := { s with fault := { s.fault with powering := s.fault.powering.filter fun p => p.1 ≠ core } }
    .next (s.updCluster (core / 4096) fun k => k.setBitsOf kind (setBit (k.bitsOf kind).1 (core % 256) true, (k.bitsOf kind).2))

/-- RESERVOIR_CLUSTER_READY (R407): the reservoir cluster takes a retired cluster's place. -/
def execReservoirClusterReady (s : State) : Result :=
  match s.place.clusters.find? fun c => c.role = .preparing with
  | none => .next s
  | some r => .next ((s.updCluster r.idx fun k => { k with role := .inService }).useSpare 2)

/-- The outcome of a test of the reservoir cluster: back to RESERVE, or retired with KIND 2 exhausted (R407, R416). -/
def State.reservoirTested (s : State) (r : Cluster) (pass : Bool) : State :=
  if pass then s
  else (((s.updCluster r.idx fun k => { k with role := .retired }).useSpare 2).unitGone (coreId r.idx 0xF 0) 2 0xFFFF 0).exhaust (coreId r.idx 0xF 0) 2

/-- RESERVOIR_DAILY_TEST (R407). -/
def execReservoirDailyTest (pass : Bool) (s : State) : Result :=
  match s.reserveCluster with
  | none => .next s
  | some r => .next (if s.running then s.reservoirTested r pass else s)

/-- RESERVOIR_ACTION PREPARE (R416). With no reservoir cluster left it completes as RETIRE does with no spare (DEDUCED). -/
def execPrepare (op : Nat) (pass : Bool) (s : State) : Result :=
  s.runSub op 0x4A 3 fun _ =>
    match s.reserveCluster with
    | none => s.finish op (Res.bound 0x70)
    | some r => (s.reservoirTested r pass).finish op (Res.ok 0 (b2n (!pass)))

/-- RESERVOIR_ACTION RETIRE (R416): the planned path; it completes when the unit has left service. -/
def execRetire (op : Nat) (s : State) : Result :=
  s.runSub op 0x4A 1 fun o =>
    let id := o.u16 20
    let whole := decide (o.u8 18 = 1)
    let there := if whole then (s.cluster (id / 4096)).any fun k => k.role = .inService || k.role = .draining else s.coreIn id
    if 1 < o.u8 18 then s.finish op (Res.field 18)
    else if !there then s.finish op (Res.field 20)
    else if s.spareFor id whole = 0xFFFF ∧ ¬ bit (o.u8 17) 0 then s.finish op (Res.bound 0x70)
    else
      let s := if whole then s.updCluster (id / 4096) fun k => { k with role := .draining } else s.drainCore id
      { s with fault := { s.fault with retireOps := s.fault.retireOps ++ [(op, id)] } }.await op

/-! ## Clock loss (R446) -/

/-- Power domains that a clock generator drives: clusters 0 to 12, spine, host, net, time, fabric, basin, lake. PRESUMED numbering. -/
def genDomains (g : Nat) : List Nat :=
  if g < 13 then [15 + g, 28 + g]
  else if g = 13 then [1, 2]
  else if g = 14 then [3]
  else if g = 15 then [4]
  else if g = 17 then [5, 6, 7, 8, 9, 10]
  else if g = 18 then [11, 12]
  else if g = 19 then [13, 14]
  else []

/-- 64 cycles of a generator's clock in ns, rounded up (R437). -/
def genCycles (g : Nat) : Nat :=
  if g < 13 then 54 else if g = 13 then 27 else if g = 14 then 64 else if g = 15 then 107 else if g = 16 then 128 else if g = 17 then 328 else 80

/-- Ports of a generator's domain go down. -/
def State.genPorts (s : State) (g : Nat) : State :=
  if g = 15 then { s with net := { s.net with ports := s.net.ports.map fun (q : NetPort) => { q with up := false, queue := [] } } }
  else if g = 17 then { s with fabric := { s.fabric with ports := s.fabric.ports.map fun (q : FzPort) => { q with up := false, agreed := false } } }
  else s

/-- CLOCK_LOSS (R409, R438, R446): logged; the domains re-enter reset and the spare PLL starts to lock. With no spare it is a DEVICE fault. -/
def execClockLoss (gen : Nat) (s : State) : Result :=
  if !s.running || 20 ≤ gen || (gen < 13 && !(s.cluster gen).isSome) || (s.power.clockLost.any fun c => c.1 = gen) then .next s
  else
    let s := (s.bump Ctr.clockLoss).log (if gen < 13 then coreId gen 0xF 0 else dieUnit gen) 0x0033 2 255 0 gen
    if s.power.pllUsed.contains gen then .next ((s.exhaust (dieUnit 4) 8).deviceFault 0x0033)
    else
      let s := (s.useSpare 8).unitGone (if gen < 13 then coreId gen 0xF 0 else dieUnit gen) 8 0xFFFF gen
      let s := (genDomains gen).foldl (fun (s : State) d => s.setDomain d fun x => { x with released := false }) s
      let s := s.genPorts gen
      .next { s with power := { s.power with clockLost := s.power.clockLost ++ [(gen, s.clock.now)], pllUsed := s.power.pllUsed ++ [gen] } }

/-- SPARE_PLL_LOCKED (R404, R446): 12 µs and 64 cycles later the domains are released and their work is replayed. -/
def execSparePllLocked (gen : Nat) (s : State) : Result :=
  match s.power.clockLost.find? fun c => c.1 = gen with
  | none => .next s
  | some c =>
    let s := s.toTime (c.2 + 12000 + genCycles gen)
    let s := { s with power := { s.power with clockLost := s.power.clockLost.filter fun c => c.1 ≠ gen } }
    let back (x : Domain) : Domain := if x.state = .on then { x with released := true } else x
    let s := (genDomains gen).foldl (fun (s : State) d => s.setDomain d back) s
    if gen < 13 then .next ((s.replayCluster gen false).pondGone gen)
    else if gen = 13 then .next ((s.ops.list.filter fun o => o.phase != .final).foldl (fun (s : State) o => s.replayOp o.id) s)
    else if gen = 15 then .next ((s.ops.list.filter fun o => o.opcode = 0x40).foldl (fun (s : State) o => s.replayOp o.id) s)
    else .next s

/-! ## Firmware (R417, R418) -/

/-- FIRMWARE_STAGE STAGE (R417): the image goes into the inactive slot; the start of the flash write is the commit point. Whether the image
carries a return authorisation (R451) is the image's, so free. -/
def execStage (op : Nat) (signed : Bool) (version secVersion : Nat) (s : State) : Result :=
  s.runSub op 0x4B 1 fun o =>
    if o.u32 32 < 4096 ∨ 16777216 < o.u32 32 then s.finish op (Res.field 32)
    else if !signed then s.finish op (Res.field 24)
    else if secVersion < s.chip.minSecVersion then s.finish op (Res.bound 0x71)
    else if s.fault.switchOp.isSome then s.finish op (Res.bound 0x73)
    else
      let slot : Slot := { signed := true, version := version, secVersion := secVersion, returnAuth := Config.freeNat s.free % 2 = 1 }
      let chip := if s.fault.activeSlot = 0 then { s.chip with slotB := slot } else { s.chip with slotA := slot }
      (({ s with chip := chip, fault := { s.fault with stagedValid := true } }.spend 1).commit op).finish op (Res.ok 0 version)

/-- ACTIVATE and REVERT wait for the boundary of their epoch (R417, R418). -/
def State.askSwitch (s : State) (o : Op) (ready : Bool) : State :=
  let e := if o.u64 40 = 0 then s.nextEpoch else o.u64 40
  if o.u64 40 ≠ 0 ∧ o.u64 40 ≤ s.map.published then s.finish o.id (Res.field 40)
  else if !ready then s.finish o.id (Res.bound 0x72)
  else if s.fault.switchOp.isSome then s.finish o.id (Res.bound 0x73)
  else { s with fault := { s.fault with switchOp := some (o.id, e) } }.await o.id

/-- FIRMWARE_STAGE ACTIVATE (R417, R418). -/
def execActivate (op : Nat) (s : State) : Result := s.runSub op 0x4B 2 fun o => s.askSwitch o s.fault.stagedValid

/-- FIRMWARE_STAGE REVERT (R417, R418). -/
def execRevert (op : Nat) (s : State) : Result :=
  s.runSub op 0x4B 3 fun o => s.askSwitch o (if s.fault.activeSlot = 0 then s.chip.slotB.signed else s.chip.slotA.signed)

/-! ## LOG_READ and COUNTERS (R422, R423) -/

/-- The 32 bytes of a tally log entry (R419). -/
def TallyEntry.bytes (e : TallyEntry) : List Byte :=
  leBytes e.time 8 ++ leBytes e.seq 4 ++ leBytes e.source 2 ++ leBytes e.code 2 ++ leBytes e.cls 1 ++ leBytes (b2n e.springTime) 1 ++ leBytes e.fn 1 ++
    zeros 1 ++ leBytes e.subject 4 ++ leBytes e.detail 8

/-- SEQ of the oldest entry held, or of the next where none is (R422). -/
def Tally.oldest (t : Tally) : Nat := ((t.entries.head?).map (·.seq)).getD t.head

/-- Distance from a to b modulo 2³². -/
def seqDist (a b : Nat) : Nat := (b + 2 ^ 32 - a % 2 ^ 32) % 2 ^ 32

/-- LOG_READ (R422). A read with WAIT that finds nothing waits, and the command is given again. -/
def execLogRead (op : Nat) (s : State) : Result :=
  s.runOp op 0x48 fun o =>
    let cap := o.u32 32
    if cap < 32 ∨ cap % 32 ≠ 0 then s.finish op (Res.field 32)
    else
      let t := s.tally
      let from_ := o.u32 16
      let held := decide (seqDist t.oldest from_ < seqDist t.oldest t.head)
      let ahead := !held && decide (seqDist t.head from_ < 2 ^ 31)
      let start := if held || ahead then from_ else t.oldest
      let lost := if held || ahead then 0 else seqDist from_ t.oldest
      let es := t.entries.filter fun e => (o.fn = 0 || e.fn = o.fn) && (if ahead then false else decide (seqDist t.oldest start ≤ seqDist t.oldest e.seq))
      if es.isEmpty && bit (o.u8 20) 0 then s.begin op
      else
        let n := min es.length (cap / 32)
        let first := (((es.take n).head?).map (·.seq)).getD start
        (s.writeMem (o.u64 24) ((es.take n).flatMap TallyEntry.bytes)).finish op
          { status := if n < es.length then St.okPartial else St.ok, count := n, detail := first + lost * 2 ^ 32 }

/-- A record of COUNTERS (R423). -/
def counterRec (id inst v : Nat) : List Byte := leBytes id 2 ++ leBytes inst 2 ++ zeros 4 ++ leBytes v 8

/-- The counter records a function sees (R423): for PF0 every ID at instance 0 and every other instance that has counted; for another function
its own rings' and programs'. A ring's instance is its local number (DESIGN CHOICE). -/
def State.counterRecs (s : State) (fn : Nat) : List (List Byte) :=
  let inst (id k : Nat) : Nat := if id = Ctr.cqFullTime then k % 32768 else k
  let others := s.tally.counters.filter fun c => c.1 % 2 ^ 24 ≠ 0
  if fn = 0 then
    Ctr.all.flatMap fun id =>
      counterRec id 0 (s.counter id 0) ::
        (((others.filter fun c => c.1 / 2 ^ 24 = id).map fun c => (inst id (c.1 % 2 ^ 24), c.2)).mergeSort fun a b => decide (a.1 ≤ b.1)).map fun c =>
          counterRec id c.1 c.2
  else
    (s.tally.counters.filter fun c =>
      (c.1 / 2 ^ 24 = Ctr.cqFullTime && c.1 % 2 ^ 24 / 32768 = fn) ||
        (c.1 / 2 ^ 24 = Ctr.weightLateTime && (s.prog (c.1 % 2 ^ 24)).any fun p => p.fn = fn)).map
      fun c => counterRec (c.1 / 2 ^ 24) (inst (c.1 / 2 ^ 24) (c.1 % 2 ^ 24)) c.2

/-- DIAG REPORT = COUNTERS (R318, R423): the waits of rings in progress count up to now. -/
def execDiagCounters (op : Nat) (s : State) : Result := s.diag op 0x20 16 fun o => s.countStalls.counterRecs o.fn

end Sys2Proof.Machine
end

