-- ==== Sys2Proof/Machine/PowerOps.lean ====
section
/-! DEFINITION. Power domains and sleep (R430 to R434), the reset levels and their sources (R436, R439 to R442, R447), option bytes and
bring-up (R448, R449, R453 to R455), tamper and life-cycle (R450, R451), rails (R488 to R490) and the HBM refresh rate (R495). -/

namespace Sys2Proof.Machine

/-! ## Reset levels (R441) -/

/-- Clusters after a reset: a retired unit never serves again, a reservoir cluster being prepared and a core being powered have taken
their places, and a drain is forgotten (R40, R41; DEDUCED). -/
def State.clustersAfterReset (s : State) : List Cluster :=
  let s := s.fault.powering.foldl
    (fun (s : State) (p : Nat × Nat) =>
      s.updCluster (p.1 / 4096) fun k => k.setBitsOf (p.1 / 256 % 16) (setBit (k.bitsOf (p.1 / 256 % 16)).1 (p.1 % 256) true, (k.bitsOf (p.1 / 256 % 16)).2)) s
  s.place.clusters.map fun (k : Cluster) =>
    { idx := k.idx, matrixIn := k.matrixIn, tidyIn := k.tidyIn, matrixRetired := k.matrixRetired, tidyRetired := k.tidyRetired,
      role := if k.role = .preparing ∨ k.role = .draining then .inService else k.role }

/-- Host memory alone: the device range is volatile and its parcels are gone (R325, R441). -/
def Memory.hostOnly (m : Memory) : Memory := m.filter fun c => decide (c.1 < 2 ^ 63)

/-- Device time after a WARM reset: it runs on at its rate, in HOLDOVER unless it is UNSET (R358, R441). -/
def Clock.afterWarm (c : Clock) : Clock :=
  { now := c.now, dev := c.dev, rate := c.rate, lastTick := c.lastTick, lastBoundary := c.lastBoundary, holdoverSince := c.now, state := if c.state = .unset then .unset else .holdover }

/-- What every WARM and COLD reset does: every domain but SPRING starts afresh, and bring-up starts again, unless RESET_N holds the reset (R38, R441,
R447). -/
def State.resetDomains (s : State) (cause : Nat) (l : Level) : State :=
  let k := s.clustersAfterReset
  let held := decide (s.power.boot = .heldInReset)
  let f : FaultS := { used := (if s.place.clusters.any fun c => c.role = .preparing then s.useSpare 2 else s).fault.used, pondUsed := s.fault.pondUsed,
                      exhausted := s.fault.exhausted }
  let port (q : FzPort) : FzPort := { spareUsed := q.spareUsed, degraded := q.degraded, lanes := q.lanes }
  { pending := s.pending, chip := s.chip, clock := s.clock.afterWarm, mem := s.mem.hostOnly, tally := s.tally, mgmt := s.mgmt, out := s.out, free := s.free,
    host := { perstLow := s.host.perstLow },
    place := { clusters := k },
    tiers := { retiredLake := s.tiers.retiredLake, retiredBasin := s.tiers.retiredBasin, spareUsed := s.tiers.spareUsed, worn := s.tiers.worn,
               hotStacks := s.tiers.hotStacks, waitCycles := s.tiers.waitCycles, writeLost := s.tiers.writeLost },
    fabric := { ports := s.fabric.ports.map port },
    fault := f,
    power := { domains := coldDomains s.chip, cause := cause, level := l, tamperCause := s.power.tamperCause,
               boot := if held then .heldInReset else .start, resetAt := if held then s.power.resetAt else s.clock.now,
               brought := held && s.power.brought, parked := held && s.power.parked,
               options := s.power.options, optFromOtp := s.power.optFromOtp, bootSlot := s.power.bootSlot, pllUsed := s.power.pllUsed } }

/-- A WARM reset with its cause bit (R439, R441). While a COLD reset is held it stays COLD (R447). -/
def State.warmReset (s : State) (cause : Nat) : State :=
  s.resetDomains (2 ^ cause) (if s.power.boot = .heldInReset then s.power.level else .warm)

/-- A COLD reset with its cause bit: SPRING starts afresh too, its log, counters, registers and device time, and the management port (R441,
R484). -/
def State.coldReset (s : State) (cause : Nat) : State :=
  let s' := s.resetDomains (2 ^ cause) .cold
  { s' with clock := { now := s.clock.now }, tally := {}, tiers := { s'.tiers with waitCycles := [], writeLost := [] }, mgmt := { staticAddr := s.mgmt.staticAddr },
            power := { s'.power with options := {}, optFromOtp := false, bootSlot := 0 } }

/-- The secure pond wiped: no session has a key (R348). -/
def State.wipeKeys (s : State) : State := { s with sess := { s.sess with keys := [] } }

/-- A FUNCTION reset of one function (R441, R442): its operations are dropped with no completion, its rings, doorbell state, MSI-X state,
sessions, keys, handles and residency wishes go; what PF0 granted stays. -/
def State.functionReset (s : State) (fn : Nat) : State :=
  let mine := s.ops.list.filter fun o => o.fn = fn
  let s := mine.foldl (fun (s : State) o => { (s.withdrawChange o.id).dropWork o.id with ops := s.ops.give o.pool }) s
  let f := s.fnc fn
  let cut (q : Parcel) : Parcel := { q with wishes := q.wishes.filter fun w => w.1 ≠ fn }
  let s := { s with
    ops := { s.ops with list := s.ops.list.filter (fun o => o.fn ≠ fn), fences := s.ops.fences.filter fun x => x.fn ≠ fn }
    rings := { sq := s.rings.sq.filter (fun e => e.1 / 32768 ≠ fn), cq := s.rings.cq.filter (fun e => e.1 / 32768 ≠ fn), fns := s.rings.fns }
    sess := { s.sess with list := s.sess.list.filter (fun x => x.fn ≠ fn), keys := s.sess.keys.filter fun k => k.fn ≠ fn }
    matrix := { s.matrix with progs := s.matrix.progs.filter fun p => p.fn ≠ fn }
    abacus := { s.abacus with scheds := s.abacus.scheds.filter fun x => x.fn ≠ fn }
    tiers := { s.tiers with parcels := s.tiers.parcels.map cut }
    host := { s.host with privileged := if fn = 0 then false else s.host.privileged, privKeyAt := if fn = 0 then none else s.host.privKeyAt,
                          resetKeyAt := if fn = 0 then none else s.host.resetKeyAt,
                          msixTable := s.host.msixTable.filter (fun e => e.1 / 65536 ≠ fn), msixPending := s.host.msixPending.filter fun e => e.1 ≠ fn } }
  let s := s.setFnc fn { sqCount := f.sqCount, cqCount := f.cqCount }
  let doorbell (e : Nat × Word) : Bool := e.1 % 64 = fn && (e.1 / 64 = 0x1000 || decide (0x2040 ≤ e.1 / 64 ∧ e.1 / 64 < 0x2080))
  let bell (w : Nat × Nat) : Bool := w.2 = fn && (w.1 = 0x1000 || decide (0x2000 ≤ w.1 ∧ w.1 < 0x2080))
  let s := { s with regs := { s.regs with shadow := s.regs.shadow.filter (fun e => !doorbell e), applied := s.regs.applied.filter (fun e => !doorbell e),
                                          faults := s.regs.faults.filter fun w => !bell w } }
  s.syncPool.freeParcels

/-- A FUNCTION reset of every function, and the link down (R415, R439). -/
def State.linkLost (s : State) : State :=
  let s := (List.range (s.power.options.totalVfs + 1)).foldl (fun (s : State) fn => s.functionReset fn) s
  { s with host := { s.host with linkUp := false, detect := false } }

/-! ## Reset sources (R439, R440, R436, R442, R455) -/

/-- TAMPER_CAUSE is cleared, as at power-on (R441). -/
def State.noTamper (s : State) : State := { s with power := { s.power with tamperCause := 0 } }

/-- POWER_ON (R439, R489): power-on release, 1 ms after the last rail entered its range: nothing volatile is left, and time counts from here. -/
def execPowerOn (s : State) : Result :=
  let s' := (s.coldReset 0).noTamper
  .next { s' with clock := {}, power := { s'.power with resetAt := 0, boot := .start } }

/-- The rails of R488 in mV: the recommended range and the tamper window. -/
def railWindow : Nat → Option ((Nat × Nat) × Nat × Nat)
  | 0 => some ((730, 770), 660, 840)
  | 1 => some ((780, 820), 700, 900)
  | 2 => some ((780, 820), 700, 900)
  | 3 => some ((1710, 1890), 1550, 2000)
  | 4 => some ((1710, 1890), 1550, 2000)
  | 5 => some ((1160, 1240), 1080, 1320)
  | 6 => some ((2380, 2620), 2250, 2750)
  | 7 => some ((1020, 1080), 950, 1150)
  | 8 => some ((485, 515), 450, 550)
  | 9 => some ((820, 880), 770, 930)
  | 10 => some ((1160, 1240), 1080, 1320)
  | _ => none

/-- A tamper event (R348, R450): the wipe, the latch, the OTP count, and a COLD reset; in SCRAPPED the latch alone. -/
def State.tamperEvent (s : State) (c : TamperCause) : State :=
  let b := match c with
    | .pin => 0
    | .supply => 1
    | .clock => 2
    | .temperature => 3
  let s := { s with power := { s.power with tamperCause := setBit s.power.tamperCause b true } }
  if s.chip.lifeCycle = .scrapped then s
  else
    let s := { s with chip := { s.chip with tamperCount := min 255 (s.chip.tamperCount + 1) } }
    s.wipeKeys.coldReset 6

/-- RAIL_EXCURSION (R490): beyond the tamper window a tamper event; outside the recommended range for 10 µs a COLD reset with the power-on
cause, which clears TAMPER_CAUSE as power-on does (R441; DEDUCED, log entry 177). A shorter one does nothing. The HV-8306 does not use the HBM rails
(R488). -/
def execRailExcursion (rail mV us : Nat) (s : State) : Result :=
  match railWindow rail with
  | none => .next s
  | some w =>
    if (s.chip.part = .hv8306 && (rail = 5 || rail = 6)) || s.power.boot = .phaseA then .next s
    else if mV < w.2.1 ∨ w.2.2 < mV then .next (s.tamperEvent .supply)
    else if (mV < w.1.1 ∨ w.1.2 < mV) ∧ 10 ≤ us then .next ((s.toTime (s.clock.now + 10000)).coldReset 0).noTamper
    else .next s

/-- TAMPER (R450, R492): the pin is sampled 400 times by the spring RC, 80 to 133 µs, first. Before power-on release nothing is watched. -/
def execTamper (cause : TamperCause) (s : State) : Result :=
  if s.power.boot = .phaseA then .next s else
  let s := if cause = .pin then (s.toTime (s.clock.now + 80000 + Config.freeNat s.free % 53334)).spend 1 else s
  .next (s.tamperEvent cause)

/-- The time that 56 samples of the spring RC take: 11.2 to 18.7 µs (R440). -/
def State.filterTime (s : State) : Nat := s.clock.now + 11200 + Config.freeNat s.free % 7467

/-- RESET_N_ASSERT (R439, R440): a WARM reset, held while the pin is low. -/
def execResetNAssert (s : State) : Result :=
  if s.power.boot = .heldInReset ∨ s.power.boot = .phaseA then .next s
  else
    let done := decide (s.power.boot = .running)
    let s := ((s.toTime s.filterTime).spend 1).warmReset 1
    .next { s with power := { s.power with boot := .heldInReset, brought := done } }

/-- RESET_N_RELEASE (R436, R440, R454): bring-up resumes at its step 3. -/
def execResetNRelease (s : State) : Result :=
  if s.power.boot = .heldInReset then
    let s := (s.toTime s.filterTime).spend 1
    .next { s with power := { s.power with boot := .start, parked := false, resetAt := s.clock.now } }
  else .next s

/-- PARKED (R436): 1 ms in the WARM reset of RESET_N after a completed bring-up, with PARK_ON_RESET_N. -/
def execParked (s : State) : Result :=
  if s.power.boot = .heldInReset && s.power.level = .warm && s.power.brought && s.power.options.parkOnResetN && !s.power.parked then
    let s := s.toTime (s.power.resetAt + 1000000)
    .next { s with power := { s.power with parked := true, domains := coldDomains s.chip } }
  else .next s

/-- PERST_N_ASSERT (R439): low for 1 µs. -/
def execPerstNAssert (s : State) : Result :=
  if s.host.perstLow then .next s
  else
    let s := (s.toTime (s.clock.now + 1000)).linkLost
    .next { s with host := { s.host with perstLow := true } }

/-- PERST_N_RELEASE (R454, R455): the host unit enters Detect where its domain is released; the link comes up once tidy firmware runs. -/
def execPerstNRelease (s : State) : Result :=
  if s.host.perstLow then .next { s with host := { s.host with perstLow := false, detect := s.domOn 3, linkUp := s.domOn 3 && s.power.boot = .running } }
  else .next s

/-- FUNCTION_LEVEL_RESET (R439, R442). -/
def execFunctionLevelReset (fn : Nat) (s : State) : Result :=
  if s.host.linkUp ∧ fn ≤ s.power.options.totalVfs then .next (s.functionReset fn) else .next s

/-- HOST_PATH_FAILURE (R415): the link goes down, which acts as a FUNCTION reset of every function. -/
def execHostPathFailure (s : State) : Result := if s.host.linkUp then .next s.linkLost else .next s

/-- WATCHDOG_EXPIRY (R439): WDT_PERIOD since the firmware started to service it. -/
def execWatchdogExpiry (s : State) : Result :=
  if s.power.boot = .running then .next ((s.toTime (s.power.wdtAt + s.power.options.wdt * 250000000)).warmReset 5) else .next s

/-- SECURITY_CORE_REQUEST (R439). -/
def execSecurityCoreRequest (s : State) : Result := if s.domOn 1 then .next (s.warmReset 7) else .next s

/-! ## Bring-up (R448, R449, R454) -/

/-- Whether dimensions are allowed on a part (R379, R380). -/
def dimsOk (p : Part) (x y z : Nat) : Bool :=
  (x != 1 || (y = 1 && z = 1)) && (decide (x ≤ 4) || (y = 1 && z = 1)) && decide (x * y * z ≤ 64) &&
    match p with
    | .hv8312 => true
    | .hv8309 => z = 1
    | .hv8306 => y = 1 && z = 1

/-- The options of a 64-byte block, none where R449 rejects it. -/
def readOptions (p : Part) (b : List Byte) : Option Options :=
  let d := fld b 7 1
  let o : Options := { arrayId := fld b 6 1, dimX := bits d 3 0 + 1, dimY := bits d 5 4 + 1, dimZ := bits d 7 6 + 1, tileSize := fld b 8 1, wdt := fld b 9 1,
                       lake := 4 * fld b 10 1, totalVfs := bits (fld b 11 1) 5 0, bar2En := bit (fld b 11 1) 6, parkOnResetN := bit (fld b 12 1) 0 }
  if b.length = 64 && fld b 0 4 = 0x54504F48 && fld b 4 2 = 1 && decide (o.arrayId ≤ 63) && dimsOk p o.dimX o.dimY o.dimZ && [4, 8, 16].contains o.tileSize &&
      decide (1 ≤ o.wdt ∧ o.wdt ≤ 32) && decide (1 ≤ fld b 10 1 ∧ fld b 10 1 ≤ 8) && !bit (fld b 11 1) 7 && decide (fld b 12 1 ≤ 1) &&
      allZero (slice b 13 47) && fld b 60 4 = crc32 (b.take 60)
  then some o else none

/-- The options in force and whether the flash block was rejected: locked fields come from OTP (R449). -/
def Chip.optionsNow (c : Chip) : Options × Bool :=
  match readOptions c.part c.flashOptions with
  | none => (c.otpOptions, true)
  | some o =>
    let t := c.otpOptions
    let l (i : Nat) : Bool := bit c.otpLock i
    ({ arrayId := if l 0 then t.arrayId else o.arrayId, dimX := if l 0 then t.dimX else o.dimX, dimY := if l 0 then t.dimY else o.dimY,
       dimZ := if l 0 then t.dimZ else o.dimZ, tileSize := if l 1 then t.tileSize else o.tileSize, wdt := if l 2 then t.wdt else o.wdt,
       lake := if l 3 then t.lake else o.lake, totalVfs := if l 4 then t.totalVfs else o.totalVfs, bar2En := if l 4 then t.bar2En else o.bar2En,
       parkOnResetN := if l 5 then t.parkOnResetN else o.parkOnResetN }, false)

/-- The domains that bring-up powers first, and those released after SECURE and SPINE (R445, R454). -/
def bringDomains : List Nat := [1, 2, 3, 11, 12, 13, 14]

/-- BRING_UP (R449, R453, R454, bring-up steps 3 and 4): the options are read, 0.8 ms after the reset ended, and the first domains power up. A
device whose fuse map is not programmed stops before, and so does a SCRAPPED one. -/
def execBringUp (s : State) : Result :=
  if s.power.boot = .start && s.chip.fuseProgrammed && s.chip.lifeCycle != .scrapped then
    let s := s.toTime (s.power.resetAt + 800000)
    let o := s.chip.optionsNow
    let light (d : Domain) : Domain := if d.state = .fused then d else { d with state := .on, released := false }
    let s := bringDomains.foldl (fun (s : State) d => s.setDomain d light) s
    let s := { s with power := { s.power with options := o.1, optFromOtp := o.2, boot := .powered } }
    let led (v : MapView) : MapView := { v with leader := o.1.arrayId }
    let s := { s with map := { s.map with cur := led s.map.cur, held := s.map.held.map fun (h : Nat × MapView) => (h.1, led h.2) } }
    .next { s with fabric := { s.fabric with members := 2 ^ o.1.arrayId, leader := o.1.arrayId, coordValid := s.single, coord := 0, timeMaster := o.1.arrayId } }
  else .next s

/-- Whether a domain is released, or is fused. -/
def State.settled (s : State) (d : Nat) : Bool := (s.power.domains[d]?).all fun x => x.state = .fused || (x.state = .on && x.released)

/-- Whether the domains that R445 releases earlier than d are released. -/
def State.earlierReleased (s : State) (d : Nat) : Bool :=
  if d ≤ 2 then true
  else if d < 15 then s.settled 1 && s.settled 2
  else if d < 28 then bringDomains.all s.settled
  else s.settled (d - 13)

/-- A domain whose generator has lost its clock (R446). -/
def State.clockless (s : State) (d : Nat) : Bool := s.power.clockLost.any fun c => (genDomains c.1).contains d

/-- DOMAIN_RELEASE (R430, R431, R445, R454): a powered domain leaves reset in the order of R445; a waking NET or FZL domain at the end of its
wake. The host unit enters Detect with its domain when PERST_N is high (R455). -/
def execDomainRelease (domain : Nat) (s : State) : Result :=
  match s.power.domains[domain]? with
  | none => .next s
  | some x =>
    if x.state = .on && !x.released && x.wakeEnds.isNone && s.earlierReleased domain && !s.clockless domain then
      let s := (s.toTime (s.power.resetAt + 850000)).setDomain domain Domain.lit
      let s := if domain = 3 then { s with host := { s.host with detect := !s.host.perstLow } } else s
      .next { s with power := { s.power with boot := if s.power.boot = .powered && bringDomains.all s.settled then .released else s.power.boot } }
    else if x.state = .off && 4 ≤ domain && domain ≤ 10 then
      match x.wakeEnds with
      | some t => .next ((s.toTime t).setDomain domain Domain.lit)
      | none => .next s
    else .next s

/-- Whether a slot's image may boot in the life-cycle state (R451). -/
def Chip.slotBoots (c : Chip) (b : Slot) : Bool :=
  b.signed &&
    match c.lifeCycle with
    | .blank => b.vendor
    | .provisioned => !b.vendor
    | .field => !b.vendor && decide (c.minSecVersion ≤ b.secVersion)
    | .returned => b.vendor
    | .scrapped => false

/-- A firmware slot by number. -/
def Chip.slot (c : Chip) (n : Nat) : Slot := if n = 0 then c.slotA else c.slotB

/-- FIRMWARE_VERIFIED (R431, R448, R454, bring-up step 6): the slot that the slot record names, or else the other; with neither, BOOT_FAIL and
bring-up stops. The clusters in service are woken. -/
def execFirmwareVerified (s : State) : Result :=
  if s.power.boot = .released then
    let s := s.toTime (s.power.resetAt + 45800000)
    let a := s.chip.slotRecord % 2
    match [a, 1 - a].find? fun n => s.chip.slotBoots (s.chip.slot n) with
    | none => .next { s with power := { s.power with boot := .failed, bootFail := true } }
    | some n =>
      let wake (d : Domain) : Domain := if d.state = .fused then d else { d with state := .on, released := false, wakes := (d.wakes + 1) % 65536 }
      let s := s.serving.foldl (fun (s : State) c => (s.setDomain (15 + c) wake).setDomain (28 + c) wake) s
      .next { s with power := { s.power with boot := .verified, bootSlot := n }, fault := { s.fault with activeSlot := n } }
  else .next s

/-- TIDY_FIRMWARE_START (R451, R454, bring-up steps 7 and 8): once the clusters in service are released, in a life-cycle state with service. With
the host unit in Detect the link comes up. -/
def execTidyFirmwareStart (s : State) : Result :=
  let awake := s.serving.all fun c => s.settled (15 + c) && s.settled (28 + c)
  if s.power.boot = .verified && awake && (s.chip.lifeCycle = .provisioned || s.chip.lifeCycle = .field) then
    let s := s.toTime (s.power.resetAt + 46500000)
    .next { s with power := { s.power with boot := .running, wdtAt := s.clock.now, version := (s.chip.slot s.power.bootSlot).version },
                   host := { s.host with linkUp := s.host.detect } }
  else .next s

/-! ## Sleep and wake (R431 to R434) -/

/-- SLEEP_IDLE in ns (R456). -/
def State.sleepIdle (s : State) : Nat := clampN 20 1000 (s.regF 0x13008 0 9 0) * 1000

/-- Whether a cluster in service sleeps by itself now: out of reset, not waking, and with no work. -/
def State.maySleep (s : State) (c : Nat) : Bool := s.running && s.serving.contains c && !s.clusterWorks c

/-- CLUSTER_RETENTION (R433): SLEEP_IDLE passes with no work, and the cluster enters RETENTION. Its matrix cores, which need the cluster ON, go
off with it (DEDUCED). -/
def execClusterRetention (c : Nat) (s : State) : Result :=
  if s.maySleep c && s.domOn (15 + c) && bit (s.reg 0x13008 0) 10 then
    let s := s.toTime (s.clock.now + s.sleepIdle)
    .next ((s.setDomain (15 + c) fun d => { d with state := .retention, released := false }).setDomain (28 + c) Domain.dark)
  else .next s

/-- Whether a cluster in service other than c is ON or in RETENTION (R434). -/
def State.otherAwake (s : State) (c : Nat) : Bool :=
  s.serving.any fun i => i ≠ c && (s.power.domains[15 + i]?).any fun d => d.state = .on || d.state = .retention

/-- CLUSTER_OFF (R346, R433, R434): OFF_EPOCHS epochs without a session or work; the parcels of its pond go home first. Never the last cluster in
service that is ON or in RETENTION. -/
def execClusterOff (c : Nat) (s : State) : Result :=
  let idle := decide (Store.get (fun _ => 0) c s.power.idleSince + max 1 (s.regF 0x13008 0 23 16) ≤ s.map.published)
  let up := (s.power.domains[15 + c]?).any fun d => (d.state = .on || d.state = .retention) && d.wakeEnds.isNone
  if s.maySleep c && !s.clusterBusy c && idle && up && bit (s.reg 0x13008 0) 11 && s.otherAwake c then
    .next (((s.pondGone c).setDomain (15 + c) Domain.dark).setDomain (28 + c) Domain.dark)
  else .next s

/-- MATRIX_DOMAIN_OFF (R433): SLEEP_IDLE passes with no INFER on the cluster. -/
def execMatrixDomainOff (c : Nat) (s : State) : Result :=
  if s.running && s.serving.contains c && s.domOn (28 + c) && !(s.matrix.infers.any fun i => i.cluster = c) then
    .next ((s.toTime (s.clock.now + s.sleepIdle)).setDomain (28 + c) Domain.dark)
  else .next s

/-- At most 4 wakes begin in any 10 µs: a further one waits for the window (R434). -/
def State.wakeWindow (s : State) : State :=
  let s := if s.power.wakeStarts.length = 4 then s.toTime ((s.power.wakeStarts.headD 0) + 10000) else s
  { s with power := { s.power with wakeStarts := s.power.wakeStarts.drop (s.power.wakeStarts.length - 3) ++ [s.clock.now] } }

/-- CLUSTER_WAKE (R432, R434): work placed on a sleeping cluster, or on its matrix cores, starts the wake: 50 µs from OFF, 28 µs from RETENTION,
and 12 µs for the matrix cores with the cluster ON. -/
def execClusterWake (c : Nat) (mx : Bool) (s : State) : Result :=
  let i := if mx then 28 + c else 15 + c
  match s.power.domains[i]?, s.power.domains[15 + c]? with
  | some d, some k =>
    if !s.running || !s.serving.contains c || d.wakeEnds.isSome || d.state = .on || d.state = .fused then .next s
    else if mx && k.state != .on && k.wakeEnds.isNone then .next s
    else
      let s := s.wakeWindow
      let ends := if mx then (k.wakeEnds.getD s.clock.now) + 12000 else s.clock.now + (if d.state = .retention then 28000 else 50000)
      .next ((s.setDomain i fun d => { d with wakeEnds := some ends, wakes := (d.wakes + 1) % 65536 }).placed c)
  | _, _ => .next s

/-- CLUSTER_WAKE_COMPLETE (R342, R346, R432): the cluster, or when it is awake its matrix domain, is released at the end of its wake. A pond that
was off is cleared, and takes the TWIN setting. -/
def execClusterWakeComplete (c : Nat) (s : State) : Result :=
  let ends (d : Nat) : Option Nat := (s.power.domains[d]?).bind fun x => x.wakeEnds
  if 13 ≤ c then .next s
  else match ends (15 + c), ends (28 + c) with
    | some t, _ =>
      let fresh := (s.power.domains[15 + c]?).any fun x => x.state = .off
      let s := if fresh then s.updCluster c fun k => { k with pondTwin := bit (s.reg 0x3020 0) 0 } else s
      .next ((s.toTime t).setDomain (15 + c) Domain.lit)
    | none, some t => .next ((s.toTime t).setDomain (28 + c) Domain.lit)
    | none, none => .next s

/-- HBM_REFRESH_RATE (R495): the refresh rate of a stack doubles above 85 °C on its own sensor, and is restored below. -/
def execHbmRefreshRate (stack : Nat) (hot : Bool) (s : State) : Result :=
  if stack < s.chip.part.basinGb / 16 then
    let rest := s.tiers.hotStacks.filter fun i => i ≠ stack
    .next { s with tiers := { s.tiers with hotStacks := if hot then rest ++ [stack] else rest } }
  else .next s

/-! ## The test port (R451, R487) -/

/-- Whether the JTAG test port answers: the life-cycle states whose Debug column reads open, and PROVISIONED after authentication (R451, R487). -/
def State.testPortOpen (s : State) : Bool :=
  match s.chip.lifeCycle with
  | .blank => true
  | .provisioned => s.power.debugAuth
  | .field => false
  | .returned => true
  | .scrapped => false

/-- The level at TDO: that of the scan chain's last bit while the port answers, else hi-Z (R487). -/
def State.tdo (s : State) (chain : Bool) : Option Bool := if s.testPortOpen then some chain else none

/-- What the test port takes from its other balls: TCK, TMS, TDI and TRST_N while it answers, and nothing otherwise (R487). -/
def State.testInput (s : State) (balls : List Bool) : Option (List Bool) := if s.testPortOpen then some balls else none

/-- What happens in 1 ns with no command (DESIGN CHOICE, log entry 8): time passes, the spine makes a round of grants while its domain is on (R53, R430),
and each fabric port may send a flit (R383). -/
def State.idle (s : State) : State :=
  let s := { s with clock := s.clock.advance 1 }
  (if s.domOn 2 then s.meshRound else s).flitRound

/-- A life-cycle move (R348, R451): written in OTP, the secure pond wiped, then a COLD reset. -/
def State.lifeCycleMove (s : State) (t : LifeCycle) : State := { s with chip := { s.chip with lifeCycle := t } }.wipeKeys.coldReset 8

end Sys2Proof.Machine
end

