-- ==== Sys2Proof/Machine/RegRead.lean ====
section
/-! DEFINITION. What every register of BAR0 reads as: the capability list (R462 to R464), the DEVICE block (R465), and the blocks of the
chapters, with guarding (R467), selectors (R480) and byte access (R459). -/

namespace Sys2Proof.Machine

/-! ## The capability list (R462 to R464) -/

/-- A row of the block index (R464). -/
structure Cap where
  id : Nat
  header : Nat
  base : Nat
  size : Nat
  flags : Nat := 0
  deriving DecidableEq, Repr

/-- The block index (R464). -/
def capTable : List Cap := [
  { id := 0x01, header := 0x100, base := 0x110, size := 0x20 },
  { id := 0x02, header := 0x140, base := 0x1000, size := 0x28, flags := 1 },
  { id := 0x03, header := 0x150, base := 0x2000, size := 0x80, flags := 1 },
  { id := 0x10, header := 0x160, base := 0x3000, size := 0x3C },
  { id := 0x11, header := 0x170, base := 0x4000, size := 0x0C },
  { id := 0x20, header := 0x180, base := 0x5000, size := 0x34 },
  { id := 0x21, header := 0x190, base := 0x6000, size := 0x2C },
  { id := 0x22, header := 0x1A0, base := 0x7000, size := 0x14 },
  { id := 0x30, header := 0x1B0, base := 0x8000, size := 0x2C },
  { id := 0x40, header := 0x1C0, base := 0x9000, size := 0x800 },
  { id := 0x41, header := 0x1D0, base := 0xA000, size := 0x04 },
  { id := 0x50, header := 0x1E0, base := 0xB000, size := 0x14 },
  { id := 0x60, header := 0x1F0, base := 0xC000, size := 0x14 },
  { id := 0x70, header := 0x200, base := 0xD000, size := 0x10 },
  { id := 0x80, header := 0x210, base := 0xE000, size := 0x28 },
  { id := 0x90, header := 0x220, base := 0xF000, size := 0x74 },
  { id := 0xA0, header := 0x230, base := 0x10000, size := 0x14 },
  { id := 0xB0, header := 0x240, base := 0x11000, size := 0x40, flags := 6 },
  { id := 0xC0, header := 0x250, base := 0x12000, size := 0x08, flags := 2 },
  { id := 0xD0, header := 0x260, base := 0x13000, size := 0x20, flags := 4 } ]

/-- Whether a part has a block (R3, R464). -/
def Part.hasCap (p : Part) (c : Cap) : Bool := p != .hv8306 || !([0x11, 0x20, 0x22, 0x41].contains c.id)

/-- The block that holds an offset, where the part has it (R463, R464). -/
def State.blockOf (s : State) (off : Nat) : Option Cap :=
  capTable.find? fun c => s.chip.part.hasCap c && decide (c.base ≤ off ∧ off < c.base + c.size)

/-- A word of the capability headers; an absent unit's slot reads 0 and the header before it skips it (R462, R463). -/
def State.headerWord (s : State) (off : Nat) : Nat :=
  match capTable.find? fun c => s.chip.part.hasCap c && decide (c.header ≤ off ∧ off < c.header + 16) with
  | none => 0
  | some c =>
    match (off - c.header) / 4 with
    | 0 => c.id + 2 ^ 16 + c.flags * 2 ^ 24
    | 1 => ((capTable.find? fun d => s.chip.part.hasCap d && decide (c.header < d.header)).map (·.header)).getD 0
    | 2 => c.base
    | _ => c.size

/-! ## Access (R466, R467, R480) -/

/-- Whether a function is PF0 in privileged mode (R466). -/
def State.privileged (s : State) (fn : Nat) : Bool := fn = 0 && s.host.privileged

/-- The part of the word at a byte offset that a register row's instance has, for the accessing function (R480). -/
def State.instOf (s : State) (fn : Nat) (r : Row) : Nat :=
  match r.inst with
  | .single => 0
  | .perFn => fn
  | .port => s.regF 0x500C fn 0 0
  | .trig => s.regF 0x7000 fn 2 0

/-- The function and extent that REACH_SEL names, as an extent key (R354). -/
def State.extentSel (s : State) (fn : Nat) : Nat := s.regF 0x300C fn 5 0 * 8 + s.regF 0x300C fn 10 8

/-- The local ring number and kind that RING_SEL names (R107). -/
def State.ringSel (s : State) (fn : Nat) : Nat × Bool := (s.regF 0x1000 fn 14 0, bit (s.reg 0x1000 fn) 15)

/-! ## The blocks -/

/-- The offsets of registers that hold a parity fault (R479). -/
def State.faultOffsets (s : State) : List Nat :=
  s.regs.faults.map (·.1) ++ (if (s.rings.sq.any fun e => e.2.parityErr) || (s.rings.cq.any fun e => e.2.parityErr) then [0x1004] else [])

/-- The DEVICE block (R465). -/
def State.readDevice (s : State) (fn off : Nat) : Nat :=
  if off = 0x110 then (match s.chip.part with | .hv8312 => 0x8312 | .hv8309 => 0x8309 | .hv8306 => 0x8306) + 0x10 * 2 ^ 16
  else if off = 0x114 then s.chip.serial % 2 ^ 32
  else if off = 0x118 then s.chip.serial / 2 ^ 32 % 2 ^ 32
  else if off = 0x124 then
    b2n (s.privileged fn) + 2 * b2n (fn = 0) + 4 * (fn % 64) + 2 ^ 8 * b2n (!s.faultOffsets.isEmpty) + 2 ^ 9 * b2n (s.regs.pendingAt .frame) +
      2 ^ 10 * b2n (s.regs.pendingAt .tick) + 2 ^ 11 * b2n (s.regs.pendingAt .epoch) + 2 ^ 12 * b2n (s.regs.pendingAt .link)
  else if off = 0x128 then (match s.faultOffsets with | [] => 0 | a :: t => t.foldl min a)
  else if off = 0x12C then s.host.hostTag.toNat
  else 0

/-- Operations in flight of a submission ring, or that post to a completion ring (R105, R107). -/
def State.inFlight (s : State) (fn n : Nat) (cq : Bool) : Nat := (s.ops.list.filter fun o => o.fn = fn && (if cq then o.cq else o.sq) = n).length

/-- The RINGS block: the ring context that RING_SEL names, and FN_RINGS (R106, R107). -/
def State.readRings (s : State) (fn off : Nat) : Nat :=
  let r := s.ringSel fn
  let q := s.sq fn r.1
  let c := s.cq fn r.1
  let either (a b : Word) : Nat := if r.2 then b.toNat else a.toNat
  let n := s.inFlight fn r.1 r.2
  if off = 0x1004 then either q.cfg c.cfg
  else if off = 0x1008 then either q.baseLo c.baseLo
  else if off = 0x100C then either q.baseHi c.baseHi
  else if off = 0x1010 then either q.deadline c.deadline
  else if off = 0x1014 then (if r.2 then c.int.toNat else 0)
  else if off = 0x1018 then
    if r.2 then b2n (cfgEnable c.cfg || n != 0) + 8 * b2n c.cfgErr + 16 * b2n c.parityErr + n % 2 ^ 14 * 2 ^ 16
    else b2n (cfgEnable q.cfg || n != 0) + 2 * b2n q.stalledTags + 4 * b2n q.stalledCq + 8 * b2n q.cfgErr + 16 * b2n q.parityErr + n % 2 ^ 14 * 2 ^ 16
  else if off = 0x101C then (if r.2 then c.hostHead + c.post * 2 ^ 16 else q.head + q.tail * 2 ^ 16)
  else if off = 0x1024 then
    let f := s.fnc (s.regF 0x1020 fn 5 0)
    f.sqCount % 2 ^ 16 + f.cqCount % 2 ^ 16 * 2 ^ 16
  else 0

/-- The DOORBELL block (R108). -/
def State.readDoorbell (s : State) (fn off : Nat) : Nat :=
  let f := s.fnc fn
  if off = 0x2000 then f.dbLo.toNat else if off = 0x2004 then f.dbHi.toNat else if off = 0x2008 then f.wbLo.toNat
  else if off = 0x200C then f.wbHi.toNat else if off = 0x2014 then f.sweep.toNat else 0

/-- A counter of the cluster and master that CONFLICT_SEL names; those of other masters read 0 (R344, R354). -/
def State.conflict (s : State) (l : Store Nat) : Nat :=
  let c := s.regF 0x3028 0 3 0
  let m := s.regF 0x3028 0 12 8
  if pondMasters.contains m then Store.get (fun _ => 0) (c * 32 + m) l else 0

/-- The TIERS and BASIN blocks (R354, R355). -/
def State.readTiers (s : State) (fn off : Nat) : Nat :=
  let e := s.extent (s.extentSel fn)
  let mask (l : List Nat) : Nat := l.foldl (fun v i => setBit v i true) 0
  if off = 0x3000 then s.lakeFrames / 16384 + s.chip.part.basinGb * 2 ^ 16
  else if off = 0x3004 then s.lakeFree
  else if off = 0x3010 then e.base.toNat
  else if off = 0x3014 then setBit e.size.toNat 24 e.err
  else if off = 0x302C then s.conflict s.tiers.waitCycles % 2 ^ 32
  else if off = 0x3030 then s.conflict s.tiers.waitCycles / 2 ^ 32 % 2 ^ 32
  else if off = 0x3034 then s.conflict s.tiers.writeLost
  else if off = 0x3038 then s.tiers.holding
  else if off = 0x4000 then (if s.chip.part = .hv8312 then 3 else 1) + s.chip.part.pcs * 2 ^ 8
  else if off = 0x4004 then mask (s.tiers.repairing.map (·.1))
  else if off = 0x4008 then mask s.tiers.spareUsed
  else 0

/-- The NET, TIME and TRIGGER blocks (R376 to R378). -/
def State.readTime (s : State) (fn off : Nat) : Nat :=
  let mask (l : List Bool) : Nat := ofBits l
  if off = 0x5030 then
    match s.net.ports[s.regF 0x500C fn 0 0]? with
    | some q => b2n q.up + 2 * b2n q.at10g + 4 * b2n q.fec
    | none => 0
  else if off = 0x6004 then s.timeStatus
  else if off = 0x6008 then s.devNs % 1000000000
  else if off = 0x600C then s.clock.latchSec % 2 ^ 32
  else if off = 0x6010 then s.clock.latchSec / 2 ^ 32 % 2 ^ 32
  else if off = 0x6028 then tc 32 s.clock.rate
  else if off = 0x7010 then mask (s.net.trigs.map fun g => g.running)
  else 0

/-- The FABRIC block (R397). -/
def State.readFabric (s : State) (fn off : Nat) : Nat :=
  let f := s.fabric
  let o := s.power.options
  if off = 0x8000 then
    o.arrayId % 64 + f.coord % 256 * 2 ^ 8 + b2n f.coordValid * 2 ^ 16 + (o.dimX - 1) % 16 * 2 ^ 17 + (o.dimY - 1) % 4 * 2 ^ 21 + (o.dimZ - 1) % 4 * 2 ^ 23
  else if off = 0x800C then f.viewNo % 2 ^ 16 + f.leader % 64 * 2 ^ 16 + b2n f.isolated * 2 ^ 22 + popCount f.members 64 * 2 ^ 24
  else if off = 0x8010 then f.members % 2 ^ 32
  else if off = 0x8014 then f.members / 2 ^ 32 % 2 ^ 32
  else if off = 0x8018 then s.map.published % 2 ^ 32
  else if off = 0x801C then s.map.published / 2 ^ 32 % 2 ^ 32
  else if off = 0x8024 then
    let p := s.regF 0x8020 fn 2 0
    match f.ports[p]? with
    | some q =>
      if p < s.fzPorts then
        b2n (q.up && !q.retraining) + 2 * b2n q.spareUsed + 4 * b2n q.degraded + 8 * b2n q.isolated + q.lanes % 32 * 2 ^ 4 + q.neighbour % 64 * 2 ^ 16
      else 0
    | none => 0
  else if off = 0x8028 then f.timeMaster % 64 + f.timeHops % 16 * 2 ^ 8 + f.parentPort.getD 15 * 2 ^ 12
  else 0

/-- The clusters whose single cores are in service, as a bitmap (R179, R270). -/
def State.coreBitmap (s : State) : Nat :=
  (s.place.clusters.filter fun k => k.role = .inService || k.role = .draining).foldl (fun v k => setBit v k.idx true) 0

/-- The MATRIX block (R301). -/
def State.readMatrix (s : State) (fn off : Nat) : Nat :=
  let k := s.cluster (s.regF 0xE004 fn 3 0)
  let p := (s.prog (s.regF 0xE010 fn 11 0)).filter fun p => p.fn = fn
  let count (f : Prog → Nat) : Nat := (p.map f).getD 0
  if off = 0xE000 then s.matrix.progs.length % 2 ^ 10 + s.matrix.infers.length % 2 ^ 6 * 2 ^ 16
  else if off = 0xE008 then ((k.filter fun k => k.role = .inService || k.role = .draining).map fun k => k.matrixIn + k.tidyIn * 2 ^ 8).getD 0
  else if off = 0xE014 then
    count fun p => 1 + (progHead p.image).depth % 8 * 2 ^ 8 + ofBits ((List.range 16).map fun i => (p.weights i).complete) * 2 ^ 16
  else if off = 0xE018 then count (fun p => p.lateTime % 2 ^ 32)
  else if off = 0xE01C then count (fun p => p.lateTime / 2 ^ 32 % 2 ^ 32)
  else if off = 0xE020 then count (fun p => p.inferCount % 2 ^ 32)
  else if off = 0xE024 then count (fun p => p.inferCount / 2 ^ 32 % 2 ^ 32)
  else 0

/-- An entry of the topology table (R320). -/
def Cluster.topo (k : Cluster) : Nat := k.idx % 16 + k.role.code * 2 ^ 4 + k.matrixRetired % 32 * 2 ^ 8 + k.tidyRetired % 1024 * 2 ^ 16

/-- The read-only registers of the VISION, PROJECTION, FUSION, SOUNDING, ABACUS and PLACEMENT blocks (R179 to R181, R210, R242, R270, R320). The
requests that wait at the projection unit are the PROJECT operations not yet run: the device's own run at once. -/
def State.readUnits (s : State) (off : Nat) : Nat :=
  let tiles (v : MapView) (f : Tile → Bool) : Nat := (v.tiles.filter f).length
  let out := tiles s.map.cur fun t => t.handover.any fun h => h.outgoing
  let in_ := tiles s.map.cur fun t => t.handover.any fun h => !h.outgoing
  if off = 0x900C then s.coreBitmap
  else if off = 0x9010 then 1
  else if 0x9400 ≤ off ∧ off < 0x9800 then patternWord ((off - 0x9400) / 4)
  else if off = 0xA000 then min 65535 (s.ops.list.filter fun o => o.opcode = 0x11 && o.u8 16 = 4 && o.phase = .started).length
  else if off = 0xB010 then
    (s.sess.list.filter fun x => x.fusion.unlockCause ≠ 0).length % 2 ^ 16 + (s.sess.list.filter fun x => x.fusion.step = 3 && x.state != .closed && x.kind != .station).length % 2 ^ 16 * 2 ^ 16
  else if off = 0xC010 then s.map.cur.inletUsed % 2 ^ 23 + (s.map.cur.indexes.filter fun x => x.settling.running).length % 2 ^ 8 * 2 ^ 24
  else if off = 0xD008 then s.abacus.scheds.length % 2 ^ 11 + s.abacus.running.length % 16 * 2 ^ 16
  else if off = 0xD00C then s.coreBitmap
  else if off = 0xF00C then (tiles s.map.latest fun t => t.owner = s.self) % 2 ^ 16 + (tiles s.map.latest fun t => t.mirror = some s.self) % 2 ^ 16 * 2 ^ 16
  else if off = 0xF010 then
    min 15 out + min 15 in_ * 2 ^ 4 + min 255 s.place.movesLastEpoch * 2 ^ 8 + (tiles s.map.cur fun t => t.mirror = some s.self && t.syncing) % 2 ^ 16 * 2 ^ 16
  else if off = 0xF020 then
    s.place.clusters.length % 16 + ((s.place.clusters.find? fun k => k.role = .reserve || k.role = .preparing).map (·.idx)).getD 15 * 2 ^ 8
  else if 0xF040 ≤ off ∧ off < 0xF074 then ((s.place.clusters[(off - 0xF040) / 4]?).map Cluster.topo).getD 0
  else 0

/-- The tally log's registers: copies of the spring, read here with no age (R427, R473). -/
def State.readTally (s : State) (fn off : Nat) : Nat :=
  let t := s.tally
  let sel := Store.get (fun _ => 0) fn t.sel
  if off = 0x11000 ∨ off = 0x11004 then t.head
  else if off = 0x11008 then min 4096 (seqDist t.ackedTo t.head)
  else if off = 0x1100C then t.summary % 32
  else if off = 0x11010 then t.alertMask.toNat
  else if off = 0x11014 then sel
  else if 0x11020 ≤ off ∧ off < 0x11040 then ((t.entries.find? fun e => e.seq = sel).map fun e => fld e.bytes (off - 0x11020) 4).getD 0
  else 0

/-- RESET_CAUSE (R456). -/
def State.resetCause (s : State) : Nat :=
  let p := s.power
  p.cause % 512 + (match p.level with | .cold => 0 | .warm => 1) * 2 ^ 9 + b2n p.optFromOtp * 2 ^ 11 + p.bootSlot % 2 * 2 ^ 12 + b2n p.bootFail * 2 ^ 13

/-- The RESERVOIR, SECURITY and POWER blocks (R426, R456, R457). -/
def State.readPower (s : State) (fn off : Nat) : Nat :=
  if off = 0x10008 then
    let k := s.regF 0x10004 fn 3 0
    s.sparesLeft k % 2 ^ 16 + s.sparesFitted k % 2 ^ 16 * 2 ^ 16
  else if off = 0x1000C then s.fault.exhausted % 2 ^ 9 + b2n s.fault.safeHold * 2 ^ 16
  else if off = 0x10010 then s.fault.activeSlot % 2 + 2 * b2n s.fault.stagedValid + 4 * b2n s.fault.switchOp.isSome + s.power.version % 2 ^ 16 * 2 ^ 16
  else if off = 0x12000 then s.chip.lifeCycle.code
  else if off = 0x13004 then
    match s.power.domains[s.regF 0x13000 fn 5 0]? with
    | some d => d.state.code + d.wakes % 2 ^ 16 * 2 ^ 16
    | none => 0
  else if off = 0x1300C then s.power.powerMw / 10 % 2 ^ 16 + s.power.tjMax % 2 ^ 16 * 2 ^ 16
  else if off = 0x13010 then s.resetCause
  else if off = 0x13014 then s.power.tamperCause % 16 + s.chip.tamperCount % 256 * 2 ^ 8
  else 0

/-- What a register at a 4-byte boundary reads as, for a function with access to it (R461, R469). -/
def State.readReg (s : State) (fn off : Nat) : Nat :=
  match rowOf off with
  | some r =>
    let i := s.instOf fn r
    let v := (s.regs.shadowOf s.chip off i).toNat
    if off = 0x700C then setBit v 2 ((s.net.trigs[i]?).any fun g => g.cfgErr)
    else if off = 0x8004 then setBit (setBit v 7 s.fabric.leaving) 8 false
    else v
  | none =>
    if off < 0x1000 then s.readDevice fn off
    else if off < 0x2000 then s.readRings fn off
    else if off < 0x3000 then s.readDoorbell fn off
    else if off < 0x5000 then s.readTiers fn off
    else if off < 0x8000 then s.readTime fn off
    else if off < 0x9000 then s.readFabric fn off
    else if off < 0xE000 then s.readUnits off
    else if off < 0xF000 then s.readMatrix fn off
    else if off < 0x10000 then s.readUnits off
    else if off < 0x11000 then s.readPower fn off
    else if off < 0x12000 then s.readTally fn off
    else s.readPower fn off

/-- The word at a 4-byte boundary below 0x40000 (R458, R467): headers, then registers of blocks that are present; a guarded one reads 0 without
access. -/
def State.readWord (s : State) (fn off : Nat) : Nat :=
  match s.blockOf off with
  | none => if 0x100 ≤ off ∧ off < 0x270 then s.headerWord off else 0
  | some _ => if isGuarded off && !s.privileged fn then 0 else s.readReg fn off

/-- The word of a function's MSI-X table or pending bits (R96, R458). -/
def State.readMsix (s : State) (fn off : Nat) : Nat :=
  if off < 0x400000 + 16 * vectors fn then (Store.get msixDefault (fn * 65536 + (off - 0x400000)) s.host.msixTable).toNat
  else if 0x410000 ≤ off ∧ off < 0x410100 then
    ofBits ((List.range 32).map fun i => s.host.msixPending.contains (fn, (off - 0x410000) * 8 + i))
  else 0

/-- The word at a 4-byte boundary of BAR0: direct, MSI-X, or one bit through the alias (R458, R477, R478). -/
def State.readBar (s : State) (fn off : Nat) : Nat :=
  if off < 0x40000 then s.readWord fn off
  else if 0x400000 ≤ off ∧ off < 0x800000 then s.readMsix fn off
  else if 0x800000 ≤ off ∧ off < 0x1000000 then
    let k := (off - 0x800000) / 4
    b2n (bit (s.readWord fn (k / 32 * 4)) (k % 32))
  else 0

/-- What a read of 1, 2, 4 or 8 bytes of BAR0 answers (R459): 8 bytes are two words, and bytes that cross a register read 0. -/
def State.busValue (s : State) (fn off size : Nat) : Nat :=
  if size = 8 then (if off % 4 = 0 then s.readBar fn off + s.readBar fn (off + 4) * 2 ^ 32 else 0)
  else if 4 < off % 4 + size then 0
  else s.readBar fn (off / 4 * 4) / 256 ^ (off % 4) % 256 ^ size

end Sys2Proof.Machine
end

