-- ==== Sys2Proof/Machine/BusOps.lean ====
section
/-! DEFINITION. Register accesses of a function over its BAR0 (R459 to R478): the shared write, the commands that are writes of one register, the
reads with side effects, the boundaries LINK (R469), the spring bridge (R474) and configuration parity (R479). -/

namespace Sys2Proof.Machine

/-! ## LINK fields (R469) -/

/-- The port that a bit of a LINK register belongs to, none where it concerns every port of its block (R377, R397, R469). -/
def linkPort (off idx i : Nat) : Option Nat :=
  if off = 0x5000 then (if i ≤ 5 then some (i % 2) else none)
  else if off = 0x5010 ∨ off = 0x5014 then some idx
  else if off = 0x8004 then some i
  else none

/-- The bits of a row with boundary LINK. -/
def Row.linkBits (r : Row) : List Nat :=
  (r.fields.filter fun f => f.at_ = .link && f.acc = .rw).flatMap fun f => (List.range (f.hi + 1)).filter fun i => f.lo ≤ i

/-- The ports that are up in the block of a LINK register. -/
def State.upPorts (s : State) (off : Nat) : List Nat :=
  if off < 0x8000 then (List.range 2).filter fun p => s.portUp p else (List.range 6).filter fun p => (s.fzPort p).up

/-- The ports that the shadow of a LINK register would change and that are up (R469). -/
def State.linkHits (s : State) (off idx : Nat) (r : Row) : List Nat :=
  let old := (s.regs.appliedOf s.chip off idx).toNat
  let new := (s.regs.shadowOf s.chip off idx).toNat
  let ports := s.upPorts off
  let hit (i : Nat) : List Nat :=
    if bit old i = bit new i then [] else match linkPort off idx i with
      | some p => ports.filter fun q => q = p
      | none => ports
  ports.filter fun p => (r.linkBits.flatMap hit).contains p

/-- The applied value once the LINK bits that concern no port that is up are taken from the shadow (R469). -/
def State.linkNow (s : State) (off idx : Nat) (r : Row) : Nat :=
  let new := (s.regs.shadowOf s.chip off idx).toNat
  let ports := s.upPorts off
  let free (i : Nat) : Bool := match linkPort off idx i with
    | some p => !ports.contains p
    | none => ports.isEmpty
  r.linkBits.foldl (fun v i => if free i then setBit v i (bit new i) else v) (s.regs.appliedOf s.chip off idx).toNat

/-- Enabling a port wakes its power domain: NET in 80 µs, a fabric port's in 200 µs (R430, R431). -/
def State.wakePorts (s : State) : State :=
  let wake (s : State) (d t : Nat) : State :=
    s.setDomain d fun x => if x.state = .off && x.wakeEnds.isNone then { x with wakeEnds := some (s.clock.now + t), wakes := (x.wakes + 1) % 65536 } else x
  let s := if s.hasNet && s.regF 0x5000 0 1 0 ≠ 0 then wake s 4 80000 else s
  ((List.range s.fzPorts).filter fun p => bit (s.reg 0x8004 0) p && !s.single).foldl (fun (s : State) p => wake s (5 + p) 200000) s

/-! ## Rows of the register table (R461, R468 to R470) -/

/-- What else follows from a register's new value in force: the power domains of enabled ports. -/
def State.applied (s : State) (off : Nat) : State := if off = 0x5000 ∨ off = 0x8004 then s.wakePorts else s

/-- A word written to a row's register (R461, R468 to R470): the shadow takes it, IMMEDIATE fields apply, LINK bits of ports that are down apply,
and the rest waits for its boundary. Reserved bits hold what was written (DESIGN CHOICE). -/
def State.writeRow (s : State) (fn : Nat) (r : Row) (val : Nat) : State :=
  let i := s.instOf fn r
  let new := BitVec.ofNat 32 (r.newShadow (s.regs.shadowOf s.chip r.off i).toNat val)
  let s := { s with regs := s.regs.setShadow s.chip r.off i new }
  let now := r.apply (fun b => b = .imm) (s.regs.appliedOf s.chip r.off i).toNat new.toNat
  let link := !r.linkBits.isEmpty
  let late := r.fields.any fun f => f.acc = .rw && f.at_ != .imm && f.at_ != .link
  let s := if late && !(r.fields.any fun f => f.at_ = .imm) then s else { s with regs := s.regs.setApplied s.chip r.off i (BitVec.ofNat 32 now) }
  let s := if link then { s with regs := s.regs.setApplied s.chip r.off i (BitVec.ofNat 32 (s.linkNow r.off i r)) } else s
  let wait := late || (link && !(s.linkHits r.off i r).isEmpty)
  let s := if wait then { s with regs := { s.regs with waiting := (s.regs.waiting.filter fun w => w ≠ (r.off, i)) ++ [(r.off, i)] } } else s
  s.applied r.off

/-- SHADOW_APPLY_LINK (R377, R397, R469, R470): the ports that a waiting LINK field concerns have stopped carrying traffic; they are taken down,
and the values are applied together. -/
def execShadowApplyLink (fabric : Bool) (s : State) : Result :=
  let mine (w : Nat × Nat) : Bool := decide (0x8000 ≤ w.1 ∧ w.1 < 0x9000) = fabric && (rowOf w.1).any fun r => !r.linkBits.isEmpty
  let hits := (s.regs.waiting.filter mine).flatMap fun w => ((rowOf w.1).map fun r => s.linkHits w.1 w.2 r).getD []
  if !(s.regs.waiting.any mine) then .next s
  else
    let down (s : State) (p : Nat) : State :=
      if fabric then s.portDown p
      else { s with net := { s.net with ports := updAt p (fun (q : NetPort) => { q with up := false, at10g := false, fec := false }) s.net.ports } }
    let s := hits.eraseDups.foldl down s
    .next ({ s with regs := s.regs.applyAt s.chip (fun b => b = Bnd.link) fun off => decide (0x8000 ≤ off ∧ off < 0x9000) = fabric }.wakePorts)

/-! ## Ring contexts (R63, R90, R105 to R107) -/

/-- Whether a context is valid apart from its completion ring (R107). -/
def contextOk (cfg hi : Word) (n grant : Nat) : Bool :=
  decide (4 ≤ bits cfg.toNat 4 0 ∧ bits cfg.toNat 4 0 ≤ 16) && !bit hi.toNat 31 && decide (n < grant)

/-- A word of RING_CFG with ENABLE set or cleared. -/
def withEnable (w : Word) (e : Bool) : Word := BitVec.ofNat 32 (setBit w.toNat 15 e)

/-- The fields of RING_CFG other than ENABLE. -/
def lockedCfg (w : Word) : Nat := setBit (setBit w.toNat 15 false) 31 false

/-- A write to RING_CFG of a submission ring (R90, R105, R107): a class 0 or 1 from another function than PF0 is a guarded access. -/
def State.writeSqCfg (s : State) (fn n : Nat) (val : Word) : State :=
  let c := s.sq fn n
  if fn ≠ 0 ∧ bits val.toNat 7 5 < 2 then s.guardedAccess fn 0x1004
  else
    let c' := { c with cfgErr := false, parityErr := c.parityErr && c.dead }
    if cfgEnable c.cfg then
      let s := if lockedCfg val = lockedCfg c.cfg then s else s.lockViolation fn 0x1004
      if cfgEnable val then s.putSq fn n c'
      else (s.endStall fn n false false).putSq fn n { c' with cfg := withEnable c.cfg false, stalledTags := false, stalledCq := false, wantsTag := false }
    else if !cfgEnable val then s.putSq fn n { c' with cfg := val }
    else
      let m := cfgCq val
      let ok := contextOk val c.baseHi n (s.fncNow fn).sqCount && decide (m < (s.fncNow fn).cqCount) && cfgEnable (s.cq fn m).cfg
      if ok then (s.setSq fn n { c' with cfg := val, head := 0, tail := 0, stalledTags := false, stalledCq := false, wantsTag := false }).writeBack fn n
      else s.putSq fn n { c' with cfg := withEnable val false, cfgErr := true }

/-- Whether a completion ring is held enabled (R105, R107): a submission ring that names it is enabled or has operations in flight, or an operation
in flight posts to it. -/
def State.cqInUse (s : State) (fn m : Nat) : Bool :=
  (s.rings.sq.any fun e => decide (e.1 / 32768 = fn) && decide (cfgCq e.2.cfg = m) &&
      (cfgEnable e.2.cfg || s.ops.list.any fun o => o.fn = fn && o.sq = e.1 % 32768)) ||
    s.ops.list.any fun o => o.fn = fn && (o.cq = m || (o.sq < 32768 && decide (cfgCq (s.sq fn o.sq).cfg = m)))

/-- A write to RING_CFG of a completion ring (R90, R107). -/
def State.writeCqCfg (s : State) (fn m : Nat) (val : Word) : State :=
  let c := s.cq fn m
  let c' := { c with cfgErr := false, parityErr := c.parityErr && c.dead }
  if cfgEnable c.cfg then
    let s := if lockedCfg val = lockedCfg c.cfg then s else s.lockViolation fn 0x1004
    if cfgEnable val then s.setCq fn m c'
    else if s.cqInUse fn m then s.lockViolation fn 0x1004
    else s.setCq fn m { c' with cfg := withEnable c.cfg false }
  else if !cfgEnable val then s.setCq fn m { c' with cfg := val }
  else if contextOk val c.baseHi m (s.fncNow fn).cqCount then
    s.setCq fn m { c' with cfg := val, hostHead := 0, post := 0, phase := true, reserved := 0, unsignalled := 0 }
  else s.setCq fn m { c' with cfg := withEnable val false, cfgErr := true }

/-- A write to a ring context register (R106, R107). RING_INT is for completion rings: with a submission ring selected a write of it is ignored, and it
reads 0 (DESIGN CHOICE, log entry 138). -/
def State.writeRing (s : State) (fn off : Nat) (val : Word) : State :=
  let r := s.ringSel fn
  let q := s.sq fn r.1
  let c := s.cq fn r.1
  let q' := { q with parityErr := q.parityErr && q.dead }
  let c' := { c with parityErr := c.parityErr && c.dead }
  let locked := cfgEnable (if r.2 then c.cfg else q.cfg)
  let lo := BitVec.ofNat 32 (val.toNat / 4096 * 4096)
  if off = 0x1004 then (if r.2 then s.writeCqCfg fn r.1 val else s.writeSqCfg fn r.1 val)
  else if (off = 0x1008 ∨ off = 0x100C) ∧ locked then s.lockViolation fn off
  else if off = 0x1008 then (if r.2 then s.setCq fn r.1 { c' with baseLo := lo } else s.setSq fn r.1 { q' with baseLo := lo })
  else if off = 0x100C then (if r.2 then s.setCq fn r.1 { c' with baseHi := val } else s.setSq fn r.1 { q' with baseHi := val })
  else if off = 0x1010 then (if r.2 then s.setCq fn r.1 { c' with deadline := val } else s.setSq fn r.1 { q' with deadline := val })
  else if off = 0x1014 ∧ r.2 then s.setCq fn r.1 { c' with int := val }
  else s

/-- Whether a ring of a function is active: enabled, or with operations in flight (R107). -/
def State.fnActive (s : State) (f : Nat) : Bool :=
  (s.rings.sq.any fun e => decide (e.1 / 32768 = f) && cfgEnable e.2.cfg) || (s.rings.cq.any fun e => decide (e.1 / 32768 = f) && cfgEnable e.2.cfg) ||
    s.ops.list.any fun o => o.fn = f

/-- A register rewritten holds no parity fault (R479). -/
def State.mend (s : State) (off idx : Nat) : State := { s with regs := { s.regs with faults := s.regs.faults.filter fun f => f ≠ (off, idx) } }

/-- FN_RINGS (R63, R107): the grant of the function that FN_SEL names. It is refused while a ring of that function is active, and ignored where the
grants would exceed 32,768 of a kind. -/
def State.writeGrant (s : State) (fn : Nat) (val : Word) : State :=
  let f := s.regF 0x1020 fn 5 0
  let sq := bits val.toNat 15 0
  let cq := bits val.toNat 31 16
  let others := (List.range 64).filter fun g => g ≠ f
  let total (k : FnCtx → Nat) : Nat := (others.map fun g => k (s.fnc g)).sum
  if s.fnActive f then s.lockViolation fn 0x1024
  else if 32768 < total FnCtx.sqCount + sq ∨ 32768 < total FnCtx.cqCount + cq then s
  else (s.setFnc f { s.fnc f with sqCount := sq, cqCount := cq }).mend 0x1024 f

/-- A write to the DOORBELL block's registers outside the register table (R73, R108). -/
def State.writeDoorbell (s : State) (fn off : Nat) (val : Word) : State :=
  let f := s.fnc fn
  let lo := BitVec.ofNat 32 (val.toNat / 4096 * 4096)
  if off = 0x2010 then s.nudgeWrite fn
  else if off = 0x2014 then
    if bit val.toNat 0 && !bit f.sweep.toNat 0 then
      (s.setFnc fn { f with sweep := val, sweepAt := (List.range 16).map fun g => s.clock.now + s.sweepInterval fn g }).mend off fn
    else (s.setFnc fn { f with sweep := val }).mend off fn
  else if off = 0x2000 ∨ off = 0x2004 ∨ off = 0x2008 ∨ off = 0x200C then
    if bit f.sweep.toNat 0 then s.lockViolation fn off
    else (s.setFnc fn (if off = 0x2000 then { f with dbLo := lo } else if off = 0x2004 then { f with dbHi := val }
      else if off = 0x2008 then { f with wbLo := lo } else { f with wbHi := val })).mend off fn
  else s

/-- A write to REACH_BASE or REACH_SIZE of the extent that REACH_SEL names (R325, R354); one that is applied ends a parity fault (R479). -/
def State.writeReach (s : State) (fn off : Nat) (val : Word) : State :=
  let k := s.extentSel fn
  let taken := off = 0x3014 || !bit (s.extent k).size.toNat 31
  let s := if taken then s.mend off k else s
  if off = 0x3010 then s.writeReachBase fn k val else s.writeReachSize fn k val

/-! ## Keys and modes (R444, R451, R465, R466) -/

/-- PRIV_KEY (R466): the key arms one PRIV_CTRL write for 1 ms; another value arms none (DEDUCED). -/
def State.writePrivKey (s : State) (fn : Nat) (val : Word) : State :=
  if fn ≠ 0 then s.guardedAccess fn 0x11C
  else { s with host := { s.host with privKeyAt := if val.toNat = 0x5A17 then some s.clock.now else none } }

/-- Whether a key written at a time is not older than 1 ms (R444, R466). -/
def State.keyFresh (s : State) (k : Option Nat) : Bool := k.any fun t => decide (s.clock.now ≤ t + 1000000)

/-- PRIV_CTRL (R466): any write uses the key up. -/
def State.writePrivCtrl (s : State) (fn : Nat) (val : Word) : State :=
  if fn ≠ 0 then s.guardedAccess fn 0x120
  else
    let fresh := s.keyFresh s.host.privKeyAt
    let s := { s with host := { s.host with privKeyAt := none } }
    if val = 1 then (if fresh then { s with host := { s.host with privileged := true } } else s.lockViolation fn 0x120)
    else if val = 2 then { s with host := { s.host with privileged := false } }
    else s

/-- HOST_TAG, a WRITE-ONCE register (R465, R471). -/
def State.writeHostTag (s : State) (fn : Nat) (val : Word) : State :=
  if s.host.hostTagSet then s.lockViolation fn 0x12C else { s with host := { s.host with hostTag := val, hostTagSet := true } }

/-- RESET_KEY (R444): another value arms nothing (DEDUCED). -/
def State.writeResetKey (s : State) (val : Word) : State :=
  { s with host := { s.host with resetKeyAt := if bits val.toNat 15 0 = 0xA55A then some s.clock.now else none } }

/-- RESET_CTRL (R439, R444): the first write after the key uses it up; a reset has the register cause. -/
def State.writeResetCtrl (s : State) (fn : Nat) (val : Word) : State :=
  let fresh := s.keyFresh s.host.resetKeyAt
  let s := { s with host := { s.host with resetKeyAt := none } }
  if !fresh then s.lockViolation fn 0x1301C
  else if bits val.toNat 1 0 = 1 then s.warmReset 4
  else if bits val.toNat 1 0 = 2 then s.coldReset 4
  else s

/-- The life-cycle state that a code names (R451). -/
def lifeCycleOf (n : Nat) : Option LifeCycle :=
  if n = 0 then some .blank else if n = 1 then some .provisioned else if n = 2 then some .field else if n = 3 then some .returned
  else if n = 4 then some .scrapped else none

/-- Whether a life-cycle move is allowed: one forward, or to SCRAPPED; into RETURN with the active firmware's authorisation (R451). -/
def State.mayMove (s : State) (t : LifeCycle) : Bool :=
  let a := s.chip.lifeCycle.code
  let b := t.code
  a < b && (b = a + 1 || b = 4) && (b != 3 || (s.chip.slot s.fault.activeSlot).returnAuth)

/-- LC_REQUEST (R451, R457). -/
def State.writeLcRequest (s : State) (fn : Nat) (val : Word) : State :=
  if bits val.toNat 15 8 ≠ 0x6C then s
  else match lifeCycleOf (bits val.toNat 2 0) with
    | some t => if s.mayMove t then s.lifeCycleMove t else s.lockViolation fn 0x12004
    | none => s.lockViolation fn 0x12004

/-- TIME_CMD (R376): 1 SET, 2 STEP. -/
def State.writeTimeCmd (s : State) (fn : Nat) (val : Word) : State :=
  let c := bits val.toNat 1 0
  if c = 1 then s.timeSet fn else if c = 2 then s.timeStep fn else s

/-- The members that a route of the fabric reaches. -/
def State.reachable (s : State) : Nat := s.others.foldl (fun v i => setBit v i (s.route i).isSome) 0

/-- LEAVE (R392, R397): a graceful leave starts; a device alone in its view has left at once. -/
def State.startLeave (s : State) : State := { s with fabric := { s.fabric with leaving := s.fabric.leaving || !s.others.isEmpty } }

/-- FZL_CTRL (R397): the RW fields, then LEAVE and FORCE_VIEW. -/
def State.writeFzlCtrl (s : State) (fn val reachable : Nat) : State :=
  let s := match rowOf 0x8004 with
    | some r => s.writeRow fn r val
    | none => s
  let s := if bit val 7 then s.startLeave else s
  if bit val 8 then s.forceView reachable else s

/-! ## The spring bridge (R474) -/

/-- A spring write takes effect: ALERT_MASK or a function's TALLY_SEL, whole or one bit of it (R427, R477). An alias write carries its bit
number above the offset. -/
def State.springEffect (s : State) (w : Nat × Nat × Word) : State :=
  let off := w.2.1 % 0x100000
  let k := w.2.1 / 0x100000
  let with_ (old : Nat) : Nat := if k = 0 then w.2.2.toNat else setBit old (k - 1) (bit w.2.2.toNat 0)
  if off = 0x11010 then { s with tally := { s.tally with alertMask := BitVec.ofNat 32 (with_ s.tally.alertMask.toNat) } }
  else
    let old := Store.get (fun _ => 0) w.1 s.tally.sel
    { s with tally := { s.tally with sel := Store.set (fun _ => 0) w.1 (with_ old) s.tally.sel } }

/-- The oldest pending spring write arrives, and one that waited at the bridge takes its place (R474). -/
def State.springArrive (s : State) : State :=
  match s.regs.springQueue with
  | [] => s
  | w :: rest =>
    { s with regs := { s.regs with springQueue := rest ++ s.regs.springStalled.take 1, springStalled := s.regs.springStalled.drop 1 } }.springEffect w

/-- A spring write is queued, or waits at the bridge behind 16 pending ones (R474). -/
def State.springWrite (s : State) (w : Nat × Nat × Word) : State :=
  if s.regs.springQueue.length < 16 then { s with regs := { s.regs with springQueue := s.regs.springQueue ++ [w] } }
  else { s with regs := { s.regs with springStalled := s.regs.springStalled ++ [w] } }

/-- An access waits while a spring write of the same function waits at the bridge: so many arrivals pass first (R474). -/
def State.springReady (s : State) (fn : Nat) : Nat → State
  | 0 => s
  | n + 1 => if s.regs.springStalled.any fun w => w.1 = fn then s.springArrive.springReady fn n else s

/-- SPRING_WRITE_ARRIVAL (R474). -/
def execSpringWriteArrival (s : State) : Result := .next s.springArrive

/-! ## The shared register write (R458, R459, R461, R467, R477) -/

/-- The offset of a BAR0 address within the MSI-X table (R458). -/
def msixOffset (off : Nat) : Nat := off - 0x400000

/-- The end of a function's MSI-X table (R458). -/
def msixEnd (fn : Nat) : Nat := 0x400000 + 16 * vectors fn

/-- A word of a function's MSI-X table takes a value (R96, R458). -/
def State.setMsix (s : State) (fn a : Nat) (val : Word) : State :=
  { s with host := { s.host with msixTable := Store.set msixDefault (fn * 65536 + a) val s.host.msixTable } }

/-- A vector that is pending and is not masked sends its message (R96). -/
def State.sendPending (s : State) (fn v : Nat) : State :=
  if s.host.msixPending.contains (fn, v) && !s.vectorMasked fn v then
    { s with host := { s.host with msixPending := s.host.msixPending.filter fun p => p ≠ (fn, v) } }.sendVector fn v
  else s

/-- A word to an MSI-X table (R96, R458): a vector that is unmasked sends its pending message. -/
def State.writeMsix (s : State) (fn off : Nat) (val : Word) : State :=
  if off < msixEnd fn then (s.setMsix fn (msixOffset off) val).sendPending fn (msixOffset off / 16) else s

/-- A word to a register at a 4-byte boundary by a function that has access to it. -/
def State.writeReg (s : State) (fn off : Nat) (val : Word) : State :=
  if off = 0x11C then s.writePrivKey fn val
  else if off = 0x120 then s.writePrivCtrl fn val
  else if off = 0x12C then s.writeHostTag fn val
  else if 0x1004 ≤ off ∧ off < 0x1018 then s.writeRing fn off val
  else if off = 0x1024 then s.writeGrant fn val
  else if 0x2000 ≤ off ∧ off < 0x2018 then s.writeDoorbell fn off val
  else if off = 0x3010 ∨ off = 0x3014 then s.writeReach fn off val
  else if off = 0x6020 then s.writeTimeCmd fn val
  else if off = 0x6028 then (if s.timeLocked then s else s.mend off 0).timeRate fn val.toNat
  else if off = 0x8004 then s.writeFzlCtrl fn val.toNat s.reachable
  else if off = 0x11010 ∨ off = 0x11014 then s.springWrite (fn, off, val)
  else if off = 0x12004 then s.writeLcRequest fn val
  else if off = 0x13018 then s.writeResetKey val
  else if off = 0x1301C then s.writeResetCtrl fn val
  else match rowOf off with
    | some r => s.writeRow fn r val.toNat
    | none => s

/-- Whether a function may write the register at an offset: it lies in a block that is present, and is not guarded from the function. PRIV_KEY
and PRIV_CTRL judge for themselves (R466, R467). -/
def State.writeWord (s : State) (fn off : Nat) (f : State → State) : State :=
  match s.blockOf off with
  | none => s
  | some _ => if isGuarded off && !s.privileged fn then s.guardedAccess fn off else f s

/-- The RW bits of the registers outside the register table (R107, R108, R354, R376, R427). -/
def rwMask (off : Nat) : Nat :=
  if off = 0x1004 then 0x7FFFFFFF
  else if off = 0x1008 ∨ off = 0x2000 ∨ off = 0x2008 then 0xFFFFF000
  else if off = 0x1014 then 0xFFFFF7FF
  else if off = 0x2014 then 1
  else if off = 0x3014 then 0x80FFFFFF
  else if off = 0x11010 then 0x1F
  else if [0x100C, 0x1010, 0x1024, 0x2004, 0x200C, 0x3010, 0x6028, 0x11014].contains off then 0xFFFFFFFF
  else 0

/-- Whether an alias write reaches a bit as RW, or as W1S (R461, R477). -/
def aliasKind (off i : Nat) : Bool × Bool :=
  match rowOf off with
  | some r =>
    match r.fields.find? fun f => f.lo ≤ i && i ≤ f.hi with
    | some f => (f.acc = .rw && !f.reserved, f.acc = .w1s)
    | none => (false, false)
  | none => (bit (rwMask off) i, false)

/-- One bit written through the alias region (R477, R478): the other bits stay, and W1S bits beside it read 0. -/
def State.writeAlias (s : State) (fn off : Nat) (val : Word) : State :=
  let k := (off - 0x800000) / 4
  let a := k / 32 * 4
  let i := k % 32
  let kind := aliasKind a i
  if val ≠ 0 ∧ val ≠ 1 then s
  else s.writeWord fn a fun s =>
    if kind.2 && val = 1 then s.writeReg fn a (BitVec.ofNat 32 (setBit (setBit (setBit (s.readReg fn a) 7 false) 8 false) i true))
    else if !kind.1 then s
    else if a = 0x11010 ∨ a = 0x11014 then s.springWrite (fn, a + 0x100000 * (i + 1), val)
    else s.writeReg fn a (BitVec.ofNat 32 (setBit (if a = 0x8004 then setBit (s.readReg fn a) 7 false else s.readReg fn a) i (val = 1)))

/-- A 4-byte aligned write anywhere in BAR0 (R458). -/
def State.write4 (s : State) (fn off : Nat) (val : Word) : State :=
  if off < 0x40000 then s.writeWord fn off fun s => s.writeReg fn off val
  else if 0x400000 ≤ off ∧ off < 0x800000 then s.writeMsix fn off val
  else if 0x800000 ≤ off ∧ off < 0x1000000 then s.writeAlias fn off val
  else s

/-- A write of a function to its BAR0 (R459): aligned words, one or two; any other write is ignored and counted. It reaches the device while the
link is up (R460), after the function's waiting spring writes (R474). -/
def State.busWrite (s : State) (fn off size val : Nat) : State :=
  if !s.hostUp fn then s
  else
    let s := s.springReady fn s.regs.springStalled.length
    if size = 8 ∧ off % 4 = 0 then
      let s := s.write4 fn off (BitVec.ofNat 32 val)
      if s.hostUp fn then s.write4 fn (off + 4) (BitVec.ofNat 32 (val / 2 ^ 32)) else s
    else if size = 4 ∧ off % 4 = 0 then s.write4 fn off (BitVec.ofNat 32 val)
    else s.lockViolation fn (off / 4 * 4)

/-! ## Commands that write -/

/-- REGISTER_WRITE (R459, R469). -/
def execRegisterWrite (fn off size val : Nat) (s : State) : Result := .next (s.busWrite fn off size val)

/-- BIT_ALIAS_WRITE (R477, R478). -/
def execBitAliasWrite (fn off : Nat) (val : Word) (s : State) : Result :=
  if 0x800000 ≤ off ∧ off < 0x1000000 then .next (s.busWrite fn off 4 val.toNat) else .next s

/-- RING_ENABLE (R90, R107): a write to RING_CFG with ENABLE set. -/
def execRingEnable (fn : Nat) (val : Word) (s : State) : Result := if cfgEnable val then .next (s.busWrite fn 0x1004 4 val.toNat) else .next s

/-- RING_DISABLE (R105, R107): a write to RING_CFG with ENABLE clear. -/
def execRingDisable (fn : Nat) (val : Word) (s : State) : Result := if cfgEnable val then .next s else .next (s.busWrite fn 0x1004 4 val.toNat)

/-- FN_RINGS_WRITE (R63, R107). -/
def execFnRingsWrite (fn : Nat) (val : Word) (s : State) : Result := .next (s.busWrite fn 0x1024 4 val.toNat)

/-- PRIV_KEY_WRITE (R466). -/
def execPrivKeyWrite (fn : Nat) (val : Word) (s : State) : Result := .next (s.busWrite fn 0x11C 4 val.toNat)

/-- PRIV_ENTER (R466). -/
def execPrivEnter (fn : Nat) (s : State) : Result := .next (s.busWrite fn 0x120 4 1)

/-- PRIV_LEAVE (R466). -/
def execPrivLeave (fn : Nat) (s : State) : Result := .next (s.busWrite fn 0x120 4 2)

/-- HOST_TAG_WRITE (R465, R471). -/
def execHostTagWrite (fn : Nat) (val : Word) (s : State) : Result := .next (s.busWrite fn 0x12C 4 val.toNat)

/-- RESET_KEY_WRITE (R444). -/
def execResetKeyWrite (fn : Nat) (val : Word) (s : State) : Result := .next (s.busWrite fn 0x13018 4 val.toNat)

/-- RESET_CTRL_WARM (R444). -/
def execResetCtrlWarm (fn : Nat) (s : State) : Result := .next (s.busWrite fn 0x1301C 4 1)

/-- RESET_CTRL_COLD (R444). -/
def execResetCtrlCold (fn : Nat) (s : State) : Result := .next (s.busWrite fn 0x1301C 4 2)

/-- TIME_CMD_SET (R358, R360, R376). -/
def execTimeCmdSet (fn : Nat) (s : State) : Result := .next (s.busWrite fn 0x6020 4 1)

/-- TIME_CMD_STEP (R360, R376). -/
def execTimeCmdStep (fn : Nat) (s : State) : Result := .next (s.busWrite fn 0x6020 4 2)

/-- TIME_RATE_WRITE (R376). -/
def execTimeRateWrite (fn : Nat) (val : Word) (s : State) : Result := .next (s.busWrite fn 0x6028 4 val.toNat)

/-- SPRING_REGISTER_WRITE (R427, R474): ALERT_MASK or TALLY_SEL. -/
def execSpringRegisterWrite (fn off : Nat) (val : Word) (s : State) : Result :=
  if off = 0x11010 ∨ off = 0x11014 then .next (s.busWrite fn off 4 val.toNat) else .next s

/-- LC_REQUEST_WRITE (R348, R451, R457). -/
def execLcRequestWrite (fn : Nat) (val : Word) (s : State) : Result := .next (s.busWrite fn 0x12004 4 val.toNat)

/-- FZL_LEAVE (R392, R397): LEAVE set, and no other bit of FZL_CTRL changed. -/
def execFzlLeave (fn : Nat) (s : State) : Result := .next (s.busWrite fn (0x800000 + (0x8004 * 8 + 7) * 4) 4 1)

/-- FORCE_VIEW (R391, R397): the members that the device can reach come from outside. -/
def execForceView (fn reachable : Nat) (s : State) : Result :=
  if !s.hostUp fn then .next s
  else .next ((s.springReady fn s.regs.springStalled.length).writeWord fn 0x8004 fun s => s.forceView reachable)

/-- EXTENT_ENABLE (R325, R354): a write to REACH_SIZE with ENABLE set. -/
def execExtentEnable (fn : Nat) (val : Word) (s : State) : Result := if bit val.toNat 31 then .next (s.busWrite fn 0x3014 4 val.toNat) else .next s

/-- EXTENT_DISABLE (R325, R354): a write to REACH_SIZE with ENABLE clear. -/
def execExtentDisable (fn : Nat) (val : Word) (s : State) : Result := if bit val.toNat 31 then .next s else .next (s.busWrite fn 0x3014 4 val.toNat)

/-! ## Reads with an effect (R376, R475) -/

/-- A read of BAR0: the value is the last one read; a guarded register without access is counted (R459, R467). f is what the read clears or
latches, for a direct read of the whole register by a function with access (R475). -/
def State.busRead (s : State) (fn off size : Nat) (f : State → State) : State :=
  if !s.hostUp fn then s
  else
    let s := s.springReady fn s.regs.springStalled.length
    let v := BitVec.ofNat 64 (s.busValue fn off size)
    let s := { s with regs := { s.regs with lastRead := v } }
    match s.blockOf (off / 4 * 4) with
    | none => s
    | some _ =>
      if isGuarded (off / 4 * 4) && !s.privileged fn then
        let s := s.guardedAccess fn (off / 4 * 4)
        if size = 8 && off % 4 = 0 && isGuarded (off + 4) && (s.blockOf (off + 4)).isSome then s.guardedAccess fn (off + 4) else s
      else if 4 ≤ size ∧ off % 4 = 0 then f s else s

/-- TIME_NS_READ (R376): the seconds of the same instant are latched. -/
def execTimeNsRead (fn : Nat) (s : State) : Result := .next (s.busRead fn 0x6008 4 State.latchSeconds)

/-- TALLY_HEAD_ACK_READ (R475): the entries before the HEAD that it returns are marked as read; only a read of the whole register does so. -/
def execTallyHeadAckRead (fn size : Nat) (s : State) : Result :=
  .next (s.busRead fn 0x11004 size fun s => { s with tally := { s.tally with ackedTo := s.tally.head } })

/-- EVENT_SUMMARY_READ (R475): the class bits that it returns are cleared; only by a read of the whole register. -/
def execEventSummaryRead (fn size : Nat) (s : State) : Result :=
  .next (s.busRead fn 0x1100C size fun s => { s with tally := { s.tally with summary := 0 } })

/-! ## Parity (R479) -/

/-- The safe state of a faulted register of the table: a trigger goes inactive, device time into HOLDOVER (R358, R479). -/
def State.paritySafe (s : State) (off idx : Nat) : State :=
  if 0x7004 ≤ off ∧ off ≤ 0x700C then
    { s with net := { s.net with trigs := updAt idx (fun (g : Trig) => { g with running := false, level := false }) s.net.trigs } }
  else if off = 0x6000 ∧ s.clock.state ≠ .unset then { s with clock := { s.clock with state := .holdover, holdoverSince := s.clock.now } }
  else s

/-- A register holds a parity fault (R479). -/
def State.faultMark (s : State) (off idx : Nat) : State :=
  { s with regs := { s.regs with faults := (s.regs.faults.filter fun f => f ≠ (off, idx)) ++ [(off, idx)] } }

/-- CONFIG_PARITY_FAULT (R106, R479): counted and logged; the register reads back the bits it holds, which the fault may have changed, so they are
free. A ring context, an extent and the registers outside the register table keep their bits and are marked; TIME_RATE acts as its reset value 0, the rate
in use. -/
def execConfigParityFault (off idx : Nat) (s : State) : Result :=
  let note (s : State) : State := (s.bump Ctr.configParity).log (dieUnit 0) 0x0010 1 255 0 off
  if (s.blockOf off).isNone then .next s
  else if 0x1004 ≤ off ∧ off < 0x1018 then
    let fn := idx / 65536
    let n := idx % 32768
    if 64 ≤ fn then .next s
    else if bit idx 15 then .next (note (s.setCq fn n { s.cq fn n with parityErr := true }))
    else .next (note (s.setSq fn n { s.sq fn n with parityErr := true }))
  else if off = 0x3010 ∨ off = 0x3014 then
    if 512 ≤ idx then .next s else .next (note (s.faultMark off idx))
  else if [0x1024, 0x2000, 0x2004, 0x2008, 0x200C, 0x2014].contains off then
    if 64 ≤ idx then .next s else .next (note (s.faultMark off idx))
  else if off = 0x12C then (if idx = 0 then .next (note (s.faultMark off 0)) else .next s)
  else if off = 0x6028 then
    if idx = 0 then .next (note { s.faultMark off 0 with clock := { s.clock with rate := 0 } }) else .next s
  else match rowOf off with
    | none => .next s
    | some r =>
      if r.inst.count ≤ idx then .next s
      else
        let regs := s.regs.setShadow s.chip off idx (BitVec.ofNat 32 (Config.freeNat s.free))
        let s := { s with regs := { regs with faults := (regs.faults.filter fun f => f ≠ (off, idx)) ++ [(off, idx)] } }.spend 1
        .next (note (s.paritySafe off idx))

end Sys2Proof.Machine
end

