-- ==== Sys2Proof/Machine/Fetch.lean ====
section
/-! DEFINITION. The life of an operation outside its opcode: fetch (R57 to R60, R66, R67, R80, R93, R100), the posting of its completion
entry (R58, R88, R89, R92, R96, R98, R325) and its deadline point (R85, R94, R402). -/

namespace Sys2Proof.Machine

/-! ## Fetch -/

/-- The spans of an operation's result buffers, whose contents R92 may leave undefined. -/
def State.resultBufs (s : State) (o : Op) : List (Nat × Nat) :=
  let at_ (off : Nat) : List (Nat × Nat) := ((s.spans o).filter fun p => p.1 = off).map fun p => (o.u64 p.1, p.2)
  match o.opcode with
  | 0x0B => if o.u8 16 = 0x10 then at_ 24 else []
  | 0x10 => at_ 40
  | 0x11 => at_ 24
  | 0x18 => at_ 32
  | 0x20 => at_ 24
  | 0x21 => at_ 32
  | 0x22 => at_ 32
  | 0x24 => at_ 48
  | 0x28 => at_ 32
  | 0x30 =>
    match s.prog o.handle with
    | none => []
    | some p => ((progIo p.image).zip (List.range (progIo p.image).length)).drop (progHead p.image).inputs |>.map fun r =>
        (s.ioPointer o r.2, fld r.1 4 4)
  | 0x38 => at_ 24
  | 0x41 => at_ 16
  | 0x48 => at_ 24
  | 0x49 => at_ 24
  | _ => []

/-- The deadline of a descriptor in µs: its own, else the ring's, where 0 acts as 1,000,000 (R93, R107). -/
def deadlineOf (own ring : Nat) : Nat := if own ≠ 0 then own else if ring ≠ 0 then ring else 1000000

/-- The operation that a descriptor makes at fetch, with the register values taken into it (R93, R242, R270). -/
def State.fetched (s : State) (fn sq pool : Nat) : Op :=
  let c := s.sq fn sq
  let desc := s.readMem (ringBase c.baseLo c.baseHi + 64 * c.head) 64
  let us := deadlineOf (fld desc 8 4) c.deadline.toNat
  { id := s.ops.nextId, fn := fn, sq := sq, cq := cfgCq c.cfg, ringClass := cfgClass c.cfg, pool := pool, desc := desc,
    fetchedAt := s.clock.now, fetchedDev := s.devNs, deadlineAt := s.clock.now + us * 1000, deadlineUs := us,
    epochAtFetch := s.map.published, lateDefault := bits c.cfg.toNat 14 13,
    snap := [s.reg 0xC000 0, s.reg 0xC004 0, s.reg 0xC00C 0, s.reg 0xD000 0, s.reg 0xD004 0] }

/-- A tag and a completion entry are taken, and the head moves on (R66, R67, R71). -/
def State.charge (s : State) (fn sq pool : Nat) : State :=
  let s := s.endStall fn sq false false
  let c := s.sq fn sq
  let q := s.cq fn (cfgCq c.cfg)
  let s := { s with ops := { s.ops.take pool with nextId := s.ops.nextId + 1 } }
  let s := s.setCq fn (cfgCq c.cfg) { q with reserved := q.reserved + 1 }
  s.putSq fn sq { c with head := (c.head + 1) % cfgSize c.cfg, stalledTags := false, stalledCq := false, wantsTag := false }

/-- A checked operation is accepted: its fence stands, and it starts or is held (R78, R100, R265). -/
def State.accept (s : State) (o : Op) : State :=
  let f : Fence := { id := o.id, fn := o.fn, sq := o.sq, handle := o.handle, scope := o.scope }
  let waits := (s.ops.list.filter fun p => f.covers p && p.phase != .final).length
  let o := { o with waitedFor := waits, bufs := s.resultBufs o, readyAt := s.clock.now }
  let fences := if o.scope = 0 then s.ops.fences else s.ops.fences ++ [f]
  let s := { s with ops := { s.ops with list := s.ops.list ++ [o], fences := fences } }
  let s := if s.fenced o || s.orderHeld o then s.updOp o.id fun o => { o with phase := .held } else s
  if o.opcode = 0x28 && s.workspaceBusy o then s.bump Ctr.workspaceWait else s

/-- DESCRIPTOR_FETCH (R57 to R60, R66, R67, R80, R93): with a new tail, a tag and completion space, the next descriptor is copied
whole, charged and checked; otherwise the ring's wait is noted. -/
def execDescriptorFetch (fn sq : Nat) (s : State) : Result :=
  let c := s.sq fn sq
  if !s.running || !s.hostUp fn || !c.ready then .next s
  else
    match s.pool (cfgClass c.cfg) with
    | none => .next (s.noteStall fn sq)
    | some pool =>
      if !(s.cq fn (cfgCq c.cfg)).space then .next (s.noteStall fn sq)
      else if s.outranked (cfgClass c.cfg) pool then .next (s.noteStall fn sq)
      else
        let o := s.fetched fn sq pool
        let s := s.settleBufs.charge fn sq pool
        match s.descCheck o with
        | some r =>
          let s := { s with ops := { s.ops with list := s.ops.list ++ [o] } }
          .next (s.finish o.id r)
        | none => .next (s.accept o)

/-! ## Completion -/

/-- Parcels that an operation used were last accessed now, by its end at the latest (R337); one whose checks failed used none (R5, R80). -/
def State.touchHeld (s : State) (o : Op) : State :=
  if o.status = St.noCapability || o.status = St.badDescriptor || o.status = St.accessDenied then s
  else
  let spans := (s.held o).filter fun p => p.2 ≠ 0
  let hit (n : Nat) : Bool := spans.any fun p => decide (p.1 % 2 ^ 48 / 65536 ≤ n ∧ n ≤ (p.1 % 2 ^ 48 + p.2 - 1) / 65536)
  let now := s.devNs / 1000000
  { s with tiers := { s.tiers with parcels := s.tiers.parcels.map fun (q : Parcel) => if hit q.num then { q with lastAccess := now } else q } }

/-- An operation leaves: its tag goes back to its pool, its reservation to its ring, and fences with nothing left to wait for fall (R58,
R67, R95, R100, R103). -/
def State.retireOp (s : State) (o : Op) : State :=
  let c := s.cq o.fn o.cq
  let s := { s with ops := { s.ops.give o.pool with list := s.ops.list.filter fun p => p.id ≠ o.id } }
  let s := { s with ops := { s.ops with fences := s.ops.fences.filter fun f => s.fencePending f } }
  s.setCq o.fn o.cq { c with reserved := c.reserved - 1 }

/-- The completion entry is written at the next place of its ring, whose phase turns at the wrap (R88 to R90). -/
def State.postEntry (s : State) (o : Op) : State :=
  let c := s.cq o.fn o.cq
  let s := s.writeEntry (ringBase c.baseLo c.baseHi + 32 * c.post) (o.entry c.phase)
  let next := (c.post + 1) % cfgSize c.cfg
  s.setCq o.fn o.cq { c with post := next, phase := if next = 0 then !c.phase else c.phase }

/-- COMPLETION_POST (R58, R88, R89, R91, R96, R98, R99, R403): once the outcome is final and every earlier entry of its ring is posted. -/
def execCompletionPost (op : Nat) (s : State) : Result :=
  match s.findOp op with
  | none => .next s
  | some o =>
    let earlier := s.ops.list.any fun p => p.fn = o.fn && p.sq = o.sq && decide (p.id < o.id)
    if o.phase ≠ .final || earlier || !s.hostUp o.fn then .next s
    else
      let s := ((s.blurBufs o).touchHeld o).postEntry o
      .next ((((s.retireOp o).restall).postSignal o.fn o.cq o.cls).freeParcels)

/-! ## Deadlines -/

/-- A RESIDENCY_HINT with WAIT at its deadline point: the parcels covered, and how many are in the wished state (R353). -/
def State.hintLate (s : State) (o : Op) : State :=
  match s.tiers.hintOps.find? fun h => h.1 = o.id with
  | none => s
  | some h =>
    let met := (h.2.filter fun n => (s.parcel n).all fun q => s.wishMet q).length
    (s.dropWork o.id).finish o.id { status := St.okPartial, count := h.2.length, detail := met }

/-- TIMED_OUT, with a retry or replay cancelled counted (R402). -/
def State.timeOut (s : State) (o : Op) : State :=
  let r := o.timedOut
  let s := if bit r.detail 1 then s.bump Ctr.retryCancelled else s
  let s := s.withdrawChange o.id
  let s := if o.opcode = 0x4A then s.undrain o.id else s
  (s.dropWork o.id).finish o.id r

/-- An operation that has not finished at its deadline point ends (R85, R94): SEARCH with what has answered (R230), VEC_INSERT and
VEC_DELETE past their commit point with the codes of R237, MOVE with the bytes written (R350), a hint as R353 says, any other
operation past its commit point runs on, and the rest time out. -/
def State.expire (s : State) (o : Op) : State :=
  if o.opcode = 0x20 ∧ (s.searchOf o.id).isSome then
    match s.searchOf o.id with
    | none => s
    | some st => (s.commit o.id).mergeSearch st
  else if (o.opcode = 0x21 ∨ o.opcode = 0x22) ∧ (o.committed ∨ (s.requestsOf o.id).any fun r => r.answered) then ((s.commit o.id).vecDone o).dropWork o.id
  else if o.opcode = 0x38 ∧ o.committed then s.finish o.id { status := St.okPartial, count := o.count }
  else if o.opcode = 0x39 ∧ o.committed then s.hintLate o
  else if o.committed then s
  else s.timeOut o

/-- DEADLINE_EXPIRY (R85, R93, R94, R402). -/
def execDeadlineExpiry (op : Nat) (s : State) : Result :=
  match s.findOp op with
  | none => .next s
  | some o => if o.phase = .final then .next s else .next ((s.toTime o.deadlineAt).expire o)

end Sys2Proof.Machine
end

