-- ==== Sys2Proof/Machine/MgmtOps.lean ====
section
/-! DEFINITION. The management port (R443, R481 to R484). -/

namespace Sys2Proof.Machine

/-- The status bytes of the management port (R484). -/
def Mgmt.ok : Nat := 0
/-- BAD_ARGUMENT (R484). -/
def Mgmt.badArgument : Nat := 2
/-- NOT_HELD (R484). -/
def Mgmt.notHeld : Nat := 3
/-- REFUSED (R484). -/
def Mgmt.refused : Nat := 4

/-- The response to a command: status, data and the CRC-8 over command, arguments, status and data (R482). -/
def mgmtResponse (code : Nat) (args : List Byte) (status : Nat) (data : List Byte) : List Byte :=
  let body := leBytes status 1 ++ data
  body ++ leBytes (crc8 0 (leBytes code 1 ++ args ++ body)) 1

/-- The port answers a command; its answer replaces an earlier one (R482). -/
def State.respond (s : State) (code : Nat) (args : List Byte) (status : Nat) (data : List Byte) : State :=
  { s with mgmt := { s.mgmt with response := mgmtResponse code args status data } }

/-- Run a command, whose arguments must be n bytes long, while the port is powered: from power-on release onwards (R481, R484). -/
def State.mgmtRun (s : State) (code n : Nat) (args : List Byte) (f : State) : Result :=
  if s.power.boot = .phaseA then .next s
  else if args.length ≠ n then .next (s.respond code args Mgmt.badArgument [])
  else .next f

/-- The 15 bytes of STATUS (R483). -/
def State.statusBytes (s : State) : List Byte :=
  let runs := decide (s.power.boot = .running)
  leBytes s.chip.lifeCycle.code 1 ++
    leBytes (b2n s.fault.safeHold + 2 * b2n s.power.bootFail + 4 * b2n runs + 8 * b2n s.power.optFromOtp + 16 * s.clock.state.code) 1 ++
    leBytes s.resetCause 2 ++ leBytes s.host.hostTag.toNat 4 ++ leBytes s.tally.head 4 ++ leBytes s.power.options.arrayId 1 ++
    leBytes (if runs then s.power.version else 0) 2

/-- MGMT_STATUS (R483). -/
def execMgmtStatus (args : List Byte) (s : State) : Result := s.mgmtRun 0x01 0 args (s.respond 0x01 args Mgmt.ok s.statusBytes)

/-- MGMT_TEMPERATURE (R483): TJ_MAX, or the spring's own sensor, whose reading comes from outside, when no other domain is on. -/
def execMgmtTemperature (args : List Byte) (s : State) : Result :=
  let other := (s.power.domains.drop 1).any fun d => d.state = .on
  let tj := if other then s.power.tjMax else Config.freeNat s.free
  s.mgmtRun 0x02 0 args ((s.respond 0x02 args Mgmt.ok (leBytes tj 2 ++ leBytes (s.power.powerMw / 10) 2)).spend 1)

/-- MGMT_RESERVOIR_LEVEL (R410, R483). -/
def execMgmtReservoirLevel (args : List Byte) (s : State) : Result :=
  let k := leNat args
  s.mgmtRun 0x03 1 args
    (if k < 9 then s.respond 0x03 args Mgmt.ok (leBytes (s.sparesLeft k) 2 ++ leBytes (s.sparesFitted k) 2 ++ leBytes (s.fault.exhausted % 512) 2)
     else s.respond 0x03 args Mgmt.badArgument [])

/-- MGMT_TALLY_READ (R483, R484). -/
def execMgmtTallyRead (args : List Byte) (s : State) : Result :=
  s.mgmtRun 0x04 4 args
    (match s.tally.entries.find? fun e => e.seq = leNat args with
      | some e => s.respond 0x04 args Mgmt.ok e.bytes
      | none => s.respond 0x04 args Mgmt.notHeld [])

/-- The port armed, or disarmed. -/
def State.arm (s : State) (t : Option Nat) : State := { s with mgmt := { s.mgmt with armedAt := t } }

/-- RESET_ARM (R443, R484): the key 0x4B arms the port for 1 s, from now; any other disarms it. -/
def execResetArm (args : List Byte) (s : State) : Result :=
  s.mgmtRun 0x10 1 args
    (if leNat args = 0x4B then (s.arm (some s.clock.now)).respond 0x10 args Mgmt.ok [] else (s.arm none).respond 0x10 args Mgmt.refused [])

/-- Whether the port is armed (R443). -/
def State.armed (s : State) : Bool := s.mgmt.armedAt.any fun t => decide (s.clock.now < t + 1000000000)

/-- RESET_GO (R443, R484): it disarms the port whatever its outcome; an accepted one is taken later. -/
def execResetGo (args : List Byte) (s : State) : Result :=
  if s.power.boot = .phaseA then .next s
  else
    let d := s.arm none
    let l := leNat args
    if args.length ≠ 1 ∨ (l ≠ 1 ∧ l ≠ 2) then .next (d.respond 0x11 args Mgmt.badArgument [])
    else if !s.armed then .next (d.respond 0x11 args Mgmt.refused [])
    else
      .next ({ d with mgmt := { d.mgmt with pendingReset := some (if l = 1 then .warm else .cold), pendingAt := s.clock.now } }.respond 0x11 args Mgmt.ok [])

/-- MGMT_ARM_EXPIRY (R443). -/
def execMgmtArmExpiry (s : State) : Result :=
  match s.mgmt.armedAt with
  | some t => .next ((s.toTime (t + 1000000000)).arm none)
  | none => .next s

/-- MGMT_RESET_TAKEN (R439, R484): at the STOP of the response read, or 10 ms after RESET_GO; it has the management port's cause. -/
def execMgmtResetTaken (s : State) : Result :=
  let d := { s with mgmt := { s.mgmt with pendingReset := none } }
  match s.mgmt.pendingReset with
  | some .warm => .next (d.warmReset 3)
  | some .cold => .next (d.coldReset 3)
  | none => .next s

/-- MGMT_DYNAMIC_ADDRESS (R481): a 7-bit address assigned by SETDASA or ENTDAA. -/
def execMgmtDynamicAddress (addr : Nat) (s : State) : Result :=
  if s.power.boot = .phaseA ∨ 128 ≤ addr then .next s else .next { s with mgmt := { s.mgmt with dynAddr := some addr } }

end Sys2Proof.Machine
end

