-- ==== Sys2Proof/Machine/Dispatch.lean ====
section
/-! DEFINITION. One arm per command: a direct call of its meaning. -/

namespace Sys2Proof.Machine

/-- The meaning of a command: its effect on everything but the queue. -/
def exec (i : Instr) (s : State) : Host.Outcome State Fault Refusal :=
  match i with
  | .doorbellSweep fn group => Sys2Proof.Machine.execDoorbellSweep fn group s
  | .nudge fn => Sys2Proof.Machine.execNudge fn s
  | .descriptorFetch fn sq => Sys2Proof.Machine.execDescriptorFetch fn sq s
  | .operationStart op => Sys2Proof.Machine.execOperationStart op s
  | .completionPost op => Sys2Proof.Machine.execCompletionPost op s
  | .interruptTimer fn cq => Sys2Proof.Machine.execInterruptTimer fn cq s
  | .deadlineExpiry op => Sys2Proof.Machine.execDeadlineExpiry op s
  | .ringEnable fn val => Sys2Proof.Machine.execRingEnable fn val s
  | .ringDisable fn val => Sys2Proof.Machine.execRingDisable fn val s
  | .fnRingsWrite fn val => Sys2Proof.Machine.execFnRingsWrite fn val s
  | .registerWrite fn off size val => Sys2Proof.Machine.execRegisterWrite fn off size val s
  | .bitAliasWrite fn off val => Sys2Proof.Machine.execBitAliasWrite fn off val s
  | .shadowApplyLink fabric => Sys2Proof.Machine.execShadowApplyLink fabric s
  | .configParityFault off idx => Sys2Proof.Machine.execConfigParityFault off idx s
  | .privKeyWrite fn val => Sys2Proof.Machine.execPrivKeyWrite fn val s
  | .privEnter fn => Sys2Proof.Machine.execPrivEnter fn s
  | .privLeave fn => Sys2Proof.Machine.execPrivLeave fn s
  | .hostTagWrite fn val => Sys2Proof.Machine.execHostTagWrite fn val s
  | .resetKeyWrite fn val => Sys2Proof.Machine.execResetKeyWrite fn val s
  | .resetCtrlWarm fn => Sys2Proof.Machine.execResetCtrlWarm fn s
  | .resetCtrlCold fn => Sys2Proof.Machine.execResetCtrlCold fn s
  | .timeCmdSet fn => Sys2Proof.Machine.execTimeCmdSet fn s
  | .timeCmdStep fn => Sys2Proof.Machine.execTimeCmdStep fn s
  | .timeRateWrite fn val => Sys2Proof.Machine.execTimeRateWrite fn val s
  | .timeNsRead fn => Sys2Proof.Machine.execTimeNsRead fn s
  | .tallyHeadAckRead fn size => Sys2Proof.Machine.execTallyHeadAckRead fn size s
  | .eventSummaryRead fn size => Sys2Proof.Machine.execEventSummaryRead fn size s
  | .springRegisterWrite fn off val => Sys2Proof.Machine.execSpringRegisterWrite fn off val s
  | .springWriteArrival => Sys2Proof.Machine.execSpringWriteArrival s
  | .lcRequestWrite fn val => Sys2Proof.Machine.execLcRequestWrite fn val s
  | .fzlLeave fn => Sys2Proof.Machine.execFzlLeave fn s
  | .forceView fn reachable => Sys2Proof.Machine.execForceView fn reachable s
  | .extentEnable fn val => Sys2Proof.Machine.execExtentEnable fn val s
  | .extentDisable fn val => Sys2Proof.Machine.execExtentDisable fn val s
  | .bar2Access fn write off len data => Sys2Proof.Machine.execBar2Access fn write off len data s
  | .nop op => Sys2Proof.Machine.execNop op s
  | .fence op => Sys2Proof.Machine.execFence op s
  | .sessionOpen op => Sys2Proof.Machine.execSessionOpen op s
  | .sessionClose op => Sys2Proof.Machine.execSessionClose op s
  | .sessionKey op => Sys2Proof.Machine.execSessionKey op s
  | .setFilter op => Sys2Proof.Machine.execSetFilter op s
  | .setThresholds op => Sys2Proof.Machine.execSetThresholds op s
  | .setTimers op => Sys2Proof.Machine.execSetTimers op s
  | .setMaxLoad op => Sys2Proof.Machine.execSetMaxLoad op s
  | .setHostRate op => Sys2Proof.Machine.execSetHostRate op s
  | .setLimits op => Sys2Proof.Machine.execSetLimits op s
  | .eventWait op => Sys2Proof.Machine.execEventWait op s
  | .setGates op => Sys2Proof.Machine.execSetGates op s
  | .setPrecedence op => Sys2Proof.Machine.execSetPrecedence op s
  | .setReply op => Sys2Proof.Machine.execSetReply op s
  | .setTime op => Sys2Proof.Machine.execSetTime op s
  | .setPose op => Sys2Proof.Machine.execSetPose op s
  | .setCalibRefine op => Sys2Proof.Machine.execSetCalibRefine op s
  | .setCalibration op => Sys2Proof.Machine.execSetCalibration op s
  | .setRefine op => Sys2Proof.Machine.execSetRefine op s
  | .setSearch op => Sys2Proof.Machine.execSetSearch op s
  | .setFeatures op => Sys2Proof.Machine.execSetFeatures op s
  | .setStereo op => Sys2Proof.Machine.execSetStereo op s
  | .setRetain op => Sys2Proof.Machine.execSetRetain op s
  | .frameSubmit op => Sys2Proof.Machine.execFrameSubmit op s
  | .trackQueryFeatures op => Sys2Proof.Machine.execTrackQueryFeatures op s
  | .trackQueryTracks op => Sys2Proof.Machine.execTrackQueryTracks op s
  | .trackQueryDisparity op => Sys2Proof.Machine.execTrackQueryDisparity op s
  | .trackQueryProject op => Sys2Proof.Machine.execTrackQueryProject op s
  | .mapReadTileImage op => Sys2Proof.Machine.execMapReadTileImage op s
  | .mapReadKeyframes op => Sys2Proof.Machine.execMapReadKeyframes op s
  | .mapReadLinks op => Sys2Proof.Machine.execMapReadLinks op s
  | .mapReadPoints op => Sys2Proof.Machine.execMapReadPoints op s
  | .mapReadObservations op => Sys2Proof.Machine.execMapReadObservations op s
  | .tileRestore op => Sys2Proof.Machine.execTileRestore op s
  | .keyframeDelete op => Sys2Proof.Machine.execKeyframeDelete op s
  | .keyframePose op => Sys2Proof.Machine.execKeyframePose op s
  | .linkAdd op => Sys2Proof.Machine.execLinkAdd op s
  | .linkDelete op => Sys2Proof.Machine.execLinkDelete op s
  | .quarantine op => Sys2Proof.Machine.execQuarantine op s
  | .release op => Sys2Proof.Machine.execRelease op s
  | .indexCreate op => Sys2Proof.Machine.execIndexCreate op s
  | .indexDrop op => Sys2Proof.Machine.execIndexDrop op s
  | .tileAffinity op => Sys2Proof.Machine.execTileAffinity op s
  | .epochWait op => Sys2Proof.Machine.execEpochWait op s
  | .search op => Sys2Proof.Machine.execSearch op s
  | .vecInsert op => Sys2Proof.Machine.execVecInsert op s
  | .vecDelete op => Sys2Proof.Machine.execVecDelete op s
  | .settle op => Sys2Proof.Machine.execSettle op s
  | .recallProbe op => Sys2Proof.Machine.execRecallProbe op s
  | .solve op => Sys2Proof.Machine.execSolve op s
  | .scheduleLoad op => Sys2Proof.Machine.execScheduleLoad op s
  | .scheduleDrop op => Sys2Proof.Machine.execScheduleDrop op s
  | .infer op cluster => Sys2Proof.Machine.execInfer op cluster s
  | .programLoad op => Sys2Proof.Machine.execProgramLoad op s
  | .programDrop op => Sys2Proof.Machine.execProgramDrop op s
  | .weightsBind op => Sys2Proof.Machine.execWeightsBind op s
  | .weightsUnbind op => Sys2Proof.Machine.execWeightsUnbind op s
  | .move op => Sys2Proof.Machine.execMove op s
  | .moveFill op => Sys2Proof.Machine.execMoveFill op s
  | .residencyHint op => Sys2Proof.Machine.execResidencyHint op s
  | .netSend op => Sys2Proof.Machine.execNetSend op s
  | .netRecvPost op => Sys2Proof.Machine.execNetRecvPost op s
  | .logRead op => Sys2Proof.Machine.execLogRead op s
  | .diagSessions op => Sys2Proof.Machine.execDiagSessions op s
  | .diagClusters op => Sys2Proof.Machine.execDiagClusters op s
  | .diagTiles op => Sys2Proof.Machine.execDiagTiles op s
  | .diagCounters op => Sys2Proof.Machine.execDiagCounters op s
  | .retire op => Sys2Proof.Machine.execRetire op s
  | .safeHoldAction op => Sys2Proof.Machine.execSafeHoldAction op s
  | .prepare op pass => Sys2Proof.Machine.execPrepare op pass s
  | .stage op signed version secVersion => Sys2Proof.Machine.execStage op signed version secVersion s
  | .activate op => Sys2Proof.Machine.execActivate op s
  | .revert op => Sys2Proof.Machine.execRevert op s
  | .netFrameReceive f => Sys2Proof.Machine.execNetFrameReceive f s
  | .reassemblyTimeout sid frameNo => Sys2Proof.Machine.execReassemblyTimeout sid frameNo s
  | .silentTimeout sid => Sys2Proof.Machine.execSilentTimeout sid s
  | .lingerExpiry sid => Sys2Proof.Machine.execLingerExpiry sid s
  | .visionFrame sid frameNo => Sys2Proof.Machine.execVisionFrame sid frameNo s
  | .fusionFrame sid frameNo => Sys2Proof.Machine.execFusionFrame sid frameNo s
  | .motionShort sid frameNo => Sys2Proof.Machine.execMotionShort sid frameNo s
  | .fusionIntervalClose sid => Sys2Proof.Machine.execFusionIntervalClose sid s
  | .loopClosure sid keyA keyB => Sys2Proof.Machine.execLoopClosure sid keyA keyB s
  | .calibSolveQueue sid => Sys2Proof.Machine.execCalibSolveQueue sid s
  | .calibSolveResult sid => Sys2Proof.Machine.execCalibSolveResult sid s
  | .replyLaunch sid => Sys2Proof.Machine.execReplyLaunch sid s
  | .frameLaunch port => Sys2Proof.Machine.execFrameLaunch port s
  | .sessionMove sid cluster => Sys2Proof.Machine.execSessionMove sid cluster s
  | .settlingPass index => Sys2Proof.Machine.execSettlingPass index s
  | .settlingPassDone index => Sys2Proof.Machine.execSettlingPassDone index s
  | .peerDeadline op => Sys2Proof.Machine.execPeerDeadline op s
  | .query m => Sys2Proof.Machine.execQuery m s
  | .answer m => Sys2Proof.Machine.execAnswer m s
  | .remoteReq m => Sys2Proof.Machine.execRemoteReq m s
  | .remoteResp m => Sys2Proof.Machine.execRemoteResp m s
  | .mirrorItem m => Sys2Proof.Machine.execMirrorItem m s
  | .mirrorAck src seq => Sys2Proof.Machine.execMirrorAck src seq s
  | .mirrorAckTimer src => Sys2Proof.Machine.execMirrorAckTimer src s
  | .mirrorSyncComplete ix iy => Sys2Proof.Machine.execMirrorSyncComplete ix iy s
  | .handoverPropose src ix iy epoch => Sys2Proof.Machine.execHandoverPropose src ix iy epoch s
  | .handoverReply src ix iy code => Sys2Proof.Machine.execHandoverReply src ix iy code s
  | .snapshot src ix iy offset last data => Sys2Proof.Machine.execSnapshot src ix iy offset last data s
  | .synced src ix iy seq => Sys2Proof.Machine.execSynced src ix iy seq s
  | .handoverAbort src ix iy reason => Sys2Proof.Machine.execHandoverAbort src ix iy reason s
  | .handoverCopyTimeout ix iy => Sys2Proof.Machine.execHandoverCopyTimeout ix iy s
  | .tick => Sys2Proof.Machine.execTick s
  | .epochBoundary => Sys2Proof.Machine.execEpochBoundary s
  | .epochReadySend => Sys2Proof.Machine.execEpochReadySend s
  | .barrierReady src epoch viewNo tiles => Sys2Proof.Machine.execBarrierReady src epoch viewNo tiles s
  | .barrierPublish epoch viewNo recs => Sys2Proof.Machine.execBarrierPublish epoch viewNo recs s
  | .hello port h => Sys2Proof.Machine.execHello port h s
  | .helloTimer port => Sys2Proof.Machine.execHelloTimer port s
  | .join src h => Sys2Proof.Machine.execJoin src h s
  | .joinReply code => Sys2Proof.Machine.execJoinReply code s
  | .view viewNo leader members => Sys2Proof.Machine.execView viewNo leader members s
  | .viewAck src viewNo => Sys2Proof.Machine.execViewAck src viewNo s
  | .heartbeat src viewNo leaving => Sys2Proof.Machine.execHeartbeat src viewNo leaving s
  | .heartbeatTimer => Sys2Proof.Machine.execHeartbeatTimer s
  | .memberTimeout id => Sys2Proof.Machine.execMemberTimeout id s
  | .leave src reason => Sys2Proof.Machine.execLeave src reason s
  | .gracefulLeaveComplete => Sys2Proof.Machine.execGracefulLeaveComplete s
  | .timeSync port stamp hops master => Sys2Proof.Machine.execTimeSync port stamp hops master s
  | .timeSyncTimer => Sys2Proof.Machine.execTimeSyncTimer s
  | .timeSyncTimeout => Sys2Proof.Machine.execTimeSyncTimeout s
  | .delayReq port stamp => Sys2Proof.Machine.execDelayReq port stamp s
  | .delayReqTimer => Sys2Proof.Machine.execDelayReqTimer s
  | .delayResp port stamp => Sys2Proof.Machine.execDelayResp port stamp s
  | .fzlLinkUp port => Sys2Proof.Machine.execFzlLinkUp port s
  | .flitNak port ack => Sys2Proof.Machine.execFlitNak port ack s
  | .flitReplayTimeout port => Sys2Proof.Machine.execFlitReplayTimeout port s
  | .portRetrainTimeout port => Sys2Proof.Machine.execPortRetrainTimeout port s
  | .laneFailure port lane => Sys2Proof.Machine.execLaneFailure port lane s
  | .ptpMessage m => Sys2Proof.Machine.execPtpMessage m s
  | .ptpAnnounceTimeout => Sys2Proof.Machine.execPtpAnnounceTimeout s
  | .ppsInEdge => Sys2Proof.Machine.execPpsInEdge s
  | .ppsSeenTimeout => Sys2Proof.Machine.execPpsSeenTimeout s
  | .holdoverLimit => Sys2Proof.Machine.execHoldoverLimit s
  | .ppsOutRise => Sys2Proof.Machine.execPpsOutRise s
  | .ppsOutFall => Sys2Proof.Machine.execPpsOutFall s
  | .triggerEdge t => Sys2Proof.Machine.execTriggerEdge t s
  | .triggerPulseEnd t => Sys2Proof.Machine.execTriggerPulseEnd t s
  | .netLinkChange port up => Sys2Proof.Machine.execNetLinkChange port up s
  | .parcelPromote parcel tier => Sys2Proof.Machine.execParcelPromote parcel tier s
  | .promotionCopyEnd parcel => Sys2Proof.Machine.execPromotionCopyEnd parcel s
  | .parcelDemote parcel => Sys2Proof.Machine.execParcelDemote parcel s
  | .demotionWriteBackEnd parcel => Sys2Proof.Machine.execDemotionWriteBackEnd parcel s
  | .tierAccessLate tier repair => Sys2Proof.Machine.execTierAccessLate tier repair s
  | .scrubPass lake frame corrected uncorrectable => Sys2Proof.Machine.execScrubPass lake frame corrected uncorrectable s
  | .pondTestStep cluster bank fails => Sys2Proof.Machine.execPondTestStep cluster bank fails s
  | .laneRepairWalk pc lane => Sys2Proof.Machine.execLaneRepairWalk pc lane s
  | .laneRepairSwitch pc => Sys2Proof.Machine.execLaneRepairSwitch pc s
  | .inferLayerStart op layer => Sys2Proof.Machine.execInferLayerStart op layer s
  | .pieceFailure op piece core recurs => Sys2Proof.Machine.execPieceFailure op piece core recurs s
  | .retryBudgetExpiry op => Sys2Proof.Machine.execRetryBudgetExpiry op s
  | .unitRetired u => Sys2Proof.Machine.execUnitRetired u s
  | .wearDetected u => Sys2Proof.Machine.execWearDetected u s
  | .drainComplete core => Sys2Proof.Machine.execDrainComplete core s
  | .spareInService core => Sys2Proof.Machine.execSpareInService core s
  | .reservoirClusterReady => Sys2Proof.Machine.execReservoirClusterReady s
  | .reservoirDailyTest pass => Sys2Proof.Machine.execReservoirDailyTest pass s
  | .clockLoss gen => Sys2Proof.Machine.execClockLoss gen s
  | .sparePllLocked gen => Sys2Proof.Machine.execSparePllLocked gen s
  | .safeHold code => Sys2Proof.Machine.execSafeHold code s
  | .thermalLimit => Sys2Proof.Machine.execThermalLimit s
  | .hostPathFailure => Sys2Proof.Machine.execHostPathFailure s
  | .clusterRetention c => Sys2Proof.Machine.execClusterRetention c s
  | .clusterOff c => Sys2Proof.Machine.execClusterOff c s
  | .matrixDomainOff c => Sys2Proof.Machine.execMatrixDomainOff c s
  | .clusterWake c mx => Sys2Proof.Machine.execClusterWake c mx s
  | .clusterWakeComplete c => Sys2Proof.Machine.execClusterWakeComplete c s
  | .powerOn => Sys2Proof.Machine.execPowerOn s
  | .railExcursion rail mV us => Sys2Proof.Machine.execRailExcursion rail mV us s
  | .tamper cause => Sys2Proof.Machine.execTamper cause s
  | .resetNAssert => Sys2Proof.Machine.execResetNAssert s
  | .resetNRelease => Sys2Proof.Machine.execResetNRelease s
  | .parked => Sys2Proof.Machine.execParked s
  | .perstNAssert => Sys2Proof.Machine.execPerstNAssert s
  | .perstNRelease => Sys2Proof.Machine.execPerstNRelease s
  | .functionLevelReset fn => Sys2Proof.Machine.execFunctionLevelReset fn s
  | .watchdogExpiry => Sys2Proof.Machine.execWatchdogExpiry s
  | .bringUp => Sys2Proof.Machine.execBringUp s
  | .domainRelease domain => Sys2Proof.Machine.execDomainRelease domain s
  | .firmwareVerified => Sys2Proof.Machine.execFirmwareVerified s
  | .tidyFirmwareStart => Sys2Proof.Machine.execTidyFirmwareStart s
  | .mgmtStatus args => Sys2Proof.Machine.execMgmtStatus args s
  | .mgmtTemperature args => Sys2Proof.Machine.execMgmtTemperature args s
  | .mgmtReservoirLevel args => Sys2Proof.Machine.execMgmtReservoirLevel args s
  | .mgmtTallyRead args => Sys2Proof.Machine.execMgmtTallyRead args s
  | .resetArm args => Sys2Proof.Machine.execResetArm args s
  | .resetGo args => Sys2Proof.Machine.execResetGo args s
  | .mgmtArmExpiry => Sys2Proof.Machine.execMgmtArmExpiry s
  | .mgmtResetTaken => Sys2Proof.Machine.execMgmtResetTaken s
  | .mgmtDynamicAddress addr => Sys2Proof.Machine.execMgmtDynamicAddress addr s
  | .ptpMessageInterval => Sys2Proof.Machine.execPtpMessageInterval s
  | .flitReceiveError port expected => Sys2Proof.Machine.execFlitReceiveError port expected s
  | .messageForward port h => Sys2Proof.Machine.execMessageForward port h s
  | .keyframeMaskComplete key masked => Sys2Proof.Machine.execKeyframeMaskComplete key masked s
  | .securityCoreRequest => Sys2Proof.Machine.execSecurityCoreRequest s
  | .hbmRefreshRate stack hot => Sys2Proof.Machine.execHbmRefreshRate stack hot s

end Sys2Proof.Machine
end

