-- ==== Sys2Proof/Safety.lean ====
section
/-! DEFINITION. What counts as a sound state, and the terms the statements use: an operation that may run, its final outcome, what a
command leaves as it was, and a function whose accesses reach the device at once. -/

namespace Sys2Proof.Machine

/-- A sound state: memory is in canonical form (R323), and each pool's tags in use are within the pool (R57). -/
abbrev State.Sound (s : State) : Prop :=
  s.mem.wf = true ∧ s.ops.used0 ≤ 512 ∧ s.ops.used1 ≤ 1024 ∧ s.ops.usedShared ≤ 6656

/-- Operation id is o: it is in flight, may run, carries an opcode, and its deadline point has not come before its commit (R77, R94, R100). -/
abbrev State.Runs (s : State) (id code : Nat) (o : Op) : Prop := s.findOp id = some o ∧ o.phase = .started ∧ o.opcode = code ∧ s.overdue o = false

/-- The same, with the SUBOP, EDIT, KIND or REPORT in byte 16. -/
abbrev State.RunsSub (s : State) (id code sub : Nat) (o : Op) : Prop := s.Runs id code o ∧ o.u8 16 = sub

/-- The outcome of operation id is final: its status, result length or count, and detail word (R84, R88). -/
def State.Ended (t : State) (id status count detail : Nat) : Prop :=
  ∃ o, t.findOp id = some o ∧ o.phase = .final ∧ o.status = status ∧ o.count = count ∧ o.detail = detail

/-- From s to t no other operation changed, and neither a tag nor a fence. -/
def OthersKept (s t : State) (id : Nat) : Prop :=
  t.ops = { s.ops with list := t.ops.list } ∧ ∀ i, i ≠ id → t.findOp i = s.findOp i

/-- Function fn's accesses reach the device at once: the link is up (R455, R460), and none of its spring writes waits at the bridge (R474). -/
abbrev State.Reaches (s : State) (fn : Nat) : Prop := s.hostUp fn = true ∧ s.regs.springStalled = []

/-- From s to t a COLD or WARM reset was taken with a cause (R439, R441): bring-up starts again, what lies outside the spring is cleared, and the
log and counters survive a WARM reset alone. -/
def WasReset (s t : State) (cause : Nat) (l : Level) : Prop :=
  t.power.cause = 2 ^ cause ∧ t.power.level = l ∧ t.power.boot = .start ∧ t.rings = {} ∧ t.ops = {} ∧ t.sess = {} ∧ t.regs = {} ∧ t.map = {} ∧ t.matrix = {} ∧
    t.abacus = {} ∧ t.tiers.extents = [] ∧ t.tiers.parcels = [] ∧ t.host.privileged = false ∧ t.tally = (if l = .warm then s.tally else {}) ∧
    (l = .cold → t.clock.state = .unset) ∧ (l = .warm → t.clock.state = .unset ∨ t.clock.state = .holdover) ∧ t.pending = s.pending

/-- From s to t, operation id completed OK, the next settings of session sid became c (R117), and no other session changed. -/
def Tuned (s t : State) (id sid : Nat) (c : SessCfg) : Prop :=
  t.Ended id St.ok 0 0 ∧ OthersKept s t id ∧ t = { s with ops := t.ops, sess := { s.sess with list := t.sess.list } } ∧
    (∃ y, t.session sid = some y ∧ y.nextCfg = c) ∧ ∀ j, j ≠ sid → t.session j = s.session j

/-- Operation o is a SESSION_TUNE subop of the function that owns the live session sid (R109, R115, R117). -/
abbrev State.Tunes (s : State) (id sub sid : Nat) (o : Op) (x : Session) : Prop :=
  s.RunsSub id 0x0B sub o ∧ s.session sid = some x ∧ o.handle = sid ∧ x.fn = o.fn ∧ x.state ≠ .closed

/-- Operation o's function owns the live session x that it names (R109, R115). -/
abbrev State.Uses (s : State) (o : Op) (x : Session) : Prop := s.session o.handle = some x ∧ x.fn = o.fn ∧ x.state ≠ .closed

/-- The device is the only member of its view: it may commit, and streams to nobody (R16, R391, R395). -/
abbrev State.Alone (s : State) : Prop := s.others = [] ∧ s.fabric.isolated = false ∧ s.fabric.outStreams = []

/-- From s to t, operation id ended with an outcome and nothing but its record changed. -/
def JustEnded (s t : State) (id : Nat) (r : Res) : Prop := t.Ended id r.status r.count r.detail ∧ OthersKept s t id ∧ t = { s with ops := t.ops }

/-- From s to t, operation id wrote bytes at a pointer and ended with an outcome; no other byte of memory changed. -/
def WroteAndEnded (s t : State) (id p : Nat) (b : List Byte) (r : Res) : Prop :=
  t.Ended id r.status r.count r.detail ∧ t.readMem p b.length = b ∧ (∀ a, (a < p ∨ p + b.length ≤ a) → t.mem.byte a = s.mem.byte a)

/-- The device serves the fabric and has a way to a member (R386). -/
abbrev State.Sends (s : State) (dst : Nat) : Prop := s.running = true ∧ s.fabricUp = true ∧ (s.route dst).isSome = true

end Sys2Proof.Machine

/-- Commands that write no register, ring, host or management state, publish no epoch and change no view: the work of the engines, the fabric, the
tiles and time. -/
def Sys2Proof.Instr.leavesRegisters : Instr → Bool
  | .doorbellSweep _ _ => false
  | .nudge _ => false
  | .descriptorFetch _ _ => false
  | .operationStart _ => false
  | .completionPost _ => false
  | .interruptTimer _ _ => false
  | .deadlineExpiry _ => false
  | .ringEnable _ _ => false
  | .ringDisable _ _ => false
  | .fnRingsWrite _ _ => false
  | .registerWrite _ _ _ _ => false
  | .bitAliasWrite _ _ _ => false
  | .shadowApplyLink _ => false
  | .configParityFault _ _ => false
  | .privKeyWrite _ _ => false
  | .privEnter _ => false
  | .privLeave _ => false
  | .hostTagWrite _ _ => false
  | .resetKeyWrite _ _ => false
  | .resetCtrlWarm _ => false
  | .resetCtrlCold _ => false
  | .timeCmdSet _ => false
  | .timeCmdStep _ => false
  | .timeRateWrite _ _ => false
  | .timeNsRead _ => false
  | .tallyHeadAckRead _ _ => false
  | .eventSummaryRead _ _ => false
  | .springRegisterWrite _ _ _ => false
  | .springWriteArrival => false
  | .lcRequestWrite _ _ => false
  | .fzlLeave _ => false
  | .forceView _ _ => false
  | .extentEnable _ _ => false
  | .extentDisable _ _ => false
  | .bar2Access _ _ _ _ _ => false
  | .nop _ => false
  | .fence _ => false
  | .sessionOpen _ => true
  | .sessionClose _ => true
  | .sessionKey _ => true
  | .setFilter _ => true
  | .setThresholds _ => true
  | .setTimers _ => true
  | .setMaxLoad _ => true
  | .setHostRate _ => true
  | .setLimits _ => true
  | .eventWait _ => true
  | .setGates _ => true
  | .setPrecedence _ => true
  | .setReply _ => true
  | .setTime _ => true
  | .setPose _ => true
  | .setCalibRefine _ => true
  | .setCalibration _ => true
  | .setRefine _ => true
  | .setSearch _ => true
  | .setFeatures _ => true
  | .setStereo _ => true
  | .setRetain _ => true
  | .frameSubmit _ => true
  | .trackQueryFeatures _ => true
  | .trackQueryTracks _ => true
  | .trackQueryDisparity _ => true
  | .trackQueryProject _ => true
  | .mapReadTileImage _ => true
  | .mapReadKeyframes _ => true
  | .mapReadLinks _ => true
  | .mapReadPoints _ => true
  | .mapReadObservations _ => true
  | .tileRestore _ => true
  | .keyframeDelete _ => true
  | .keyframePose _ => true
  | .linkAdd _ => true
  | .linkDelete _ => true
  | .quarantine _ => true
  | .release _ => true
  | .indexCreate _ => true
  | .indexDrop _ => true
  | .tileAffinity _ => true
  | .epochWait _ => true
  | .search _ => true
  | .vecInsert _ => true
  | .vecDelete _ => true
  | .settle _ => true
  | .recallProbe _ => true
  | .solve _ => true
  | .scheduleLoad _ => true
  | .scheduleDrop _ => true
  | .infer _ _ => true
  | .programLoad _ => true
  | .programDrop _ => true
  | .weightsBind _ => true
  | .weightsUnbind _ => true
  | .move _ => true
  | .moveFill _ => true
  | .residencyHint _ => true
  | .netSend _ => true
  | .netRecvPost _ => true
  | .logRead _ => true
  | .diagSessions _ => true
  | .diagClusters _ => true
  | .diagTiles _ => true
  | .diagCounters _ => true
  | .retire _ => true
  | .safeHoldAction _ => true
  | .prepare _ _ => true
  | .stage _ _ _ _ => false
  | .activate _ => true
  | .revert _ => true
  | .netFrameReceive _ => true
  | .reassemblyTimeout _ _ => true
  | .silentTimeout _ => true
  | .lingerExpiry _ => true
  | .visionFrame _ _ => true
  | .fusionFrame _ _ => true
  | .motionShort _ _ => true
  | .fusionIntervalClose _ => true
  | .loopClosure _ _ _ => true
  | .calibSolveQueue _ => true
  | .calibSolveResult _ => true
  | .replyLaunch _ => true
  | .frameLaunch _ => true
  | .sessionMove _ _ => true
  | .settlingPass _ => true
  | .settlingPassDone _ => true
  | .peerDeadline _ => true
  | .query _ => true
  | .answer _ => true
  | .remoteReq _ => true
  | .remoteResp _ => true
  | .mirrorItem _ => true
  | .mirrorAck _ _ => true
  | .mirrorAckTimer _ => true
  | .mirrorSyncComplete _ _ => true
  | .handoverPropose _ _ _ _ => true
  | .handoverReply _ _ _ _ => true
  | .snapshot _ _ _ _ _ _ => true
  | .synced _ _ _ _ => true
  | .handoverAbort _ _ _ _ => true
  | .handoverCopyTimeout _ _ => true
  | .tick => false
  | .epochBoundary => false
  | .epochReadySend => false
  | .barrierReady _ _ _ _ => false
  | .barrierPublish _ _ _ => false
  | .hello _ _ => true
  | .helloTimer _ => true
  | .join _ _ => false
  | .joinReply _ => true
  | .view _ _ _ => false
  | .viewAck _ _ => true
  | .heartbeat _ _ _ => true
  | .heartbeatTimer => true
  | .memberTimeout _ => false
  | .leave _ _ => false
  | .gracefulLeaveComplete => false
  | .timeSync _ _ _ _ => true
  | .timeSyncTimer => true
  | .timeSyncTimeout => true
  | .delayReq _ _ => true
  | .delayReqTimer => true
  | .delayResp _ _ => true
  | .fzlLinkUp _ => true
  | .flitNak _ _ => true
  | .flitReplayTimeout _ => true
  | .portRetrainTimeout _ => true
  | .laneFailure _ _ => true
  | .ptpMessage _ => true
  | .ptpAnnounceTimeout => true
  | .ppsInEdge => true
  | .ppsSeenTimeout => true
  | .holdoverLimit => true
  | .ppsOutRise => true
  | .ppsOutFall => true
  | .triggerEdge _ => true
  | .triggerPulseEnd _ => true
  | .netLinkChange _ _ => true
  | .parcelPromote _ _ => true
  | .promotionCopyEnd _ => true
  | .parcelDemote _ => true
  | .demotionWriteBackEnd _ => true
  | .tierAccessLate _ _ => true
  | .scrubPass _ _ _ _ => true
  | .pondTestStep _ _ _ => true
  | .laneRepairWalk _ _ => true
  | .laneRepairSwitch _ => true
  | .inferLayerStart _ _ => true
  | .pieceFailure _ _ _ _ => false
  | .retryBudgetExpiry _ => true
  | .unitRetired _ => false
  | .wearDetected _ => true
  | .drainComplete _ => true
  | .spareInService _ => true
  | .reservoirClusterReady => true
  | .reservoirDailyTest _ => true
  | .clockLoss _ => true
  | .sparePllLocked _ => true
  | .safeHold _ => true
  | .thermalLimit => true
  | .hostPathFailure => false
  | .clusterRetention _ => false
  | .clusterOff _ => false
  | .matrixDomainOff _ => false
  | .clusterWake _ _ => false
  | .clusterWakeComplete _ => false
  | .powerOn => false
  | .railExcursion _ _ _ => false
  | .tamper _ => false
  | .resetNAssert => false
  | .resetNRelease => false
  | .parked => false
  | .perstNAssert => false
  | .perstNRelease => false
  | .functionLevelReset _ => false
  | .watchdogExpiry => false
  | .bringUp => false
  | .domainRelease _ => false
  | .firmwareVerified => false
  | .tidyFirmwareStart => false
  | .mgmtStatus _ => false
  | .mgmtTemperature _ => false
  | .mgmtReservoirLevel _ => false
  | .mgmtTallyRead _ => false
  | .resetArm _ => false
  | .resetGo _ => false
  | .mgmtArmExpiry => false
  | .mgmtResetTaken => false
  | .mgmtDynamicAddress _ => false
  | .ptpMessageInterval => true
  | .flitReceiveError _ _ => true
  | .messageForward _ _ => true
  | .keyframeMaskComplete _ _ => true
  | .securityCoreRequest => false
  | .hbmRefreshRate _ _ => false

/-- Commands that store to no memory and take or free no tag (R57). -/
def Sys2Proof.Instr.storesNothing : Instr → Bool
  | .doorbellSweep _ _ => false
  | .nudge _ => true
  | .descriptorFetch _ _ => false
  | .operationStart _ => false
  | .completionPost _ => false
  | .interruptTimer _ _ => true
  | .deadlineExpiry _ => false
  | .ringEnable _ _ => false
  | .ringDisable _ _ => false
  | .fnRingsWrite _ _ => false
  | .registerWrite _ _ _ _ => false
  | .bitAliasWrite _ _ _ => false
  | .shadowApplyLink _ => true
  | .configParityFault _ _ => true
  | .privKeyWrite _ _ => false
  | .privEnter _ => false
  | .privLeave _ => false
  | .hostTagWrite _ _ => false
  | .resetKeyWrite _ _ => false
  | .resetCtrlWarm _ => false
  | .resetCtrlCold _ => false
  | .timeCmdSet _ => false
  | .timeCmdStep _ => false
  | .timeRateWrite _ _ => false
  | .timeNsRead _ => true
  | .tallyHeadAckRead _ _ => true
  | .eventSummaryRead _ _ => true
  | .springRegisterWrite _ _ _ => false
  | .springWriteArrival => true
  | .lcRequestWrite _ _ => false
  | .fzlLeave _ => false
  | .forceView _ _ => false
  | .extentEnable _ _ => false
  | .extentDisable _ _ => false
  | .bar2Access _ _ _ _ _ => false
  | .nop _ => true
  | .fence _ => true
  | .sessionOpen _ => false
  | .sessionClose _ => false
  | .sessionKey _ => true
  | .setFilter _ => true
  | .setThresholds _ => true
  | .setTimers _ => true
  | .setMaxLoad _ => true
  | .setHostRate _ => true
  | .setLimits _ => true
  | .eventWait _ => false
  | .setGates _ => true
  | .setPrecedence _ => true
  | .setReply _ => true
  | .setTime _ => true
  | .setPose _ => true
  | .setCalibRefine _ => true
  | .setCalibration _ => true
  | .setRefine _ => true
  | .setSearch _ => true
  | .setFeatures _ => true
  | .setStereo _ => true
  | .setRetain _ => true
  | .frameSubmit _ => false
  | .trackQueryFeatures _ => false
  | .trackQueryTracks _ => false
  | .trackQueryDisparity _ => false
  | .trackQueryProject _ => false
  | .mapReadTileImage _ => false
  | .mapReadKeyframes _ => false
  | .mapReadLinks _ => false
  | .mapReadPoints _ => false
  | .mapReadObservations _ => false
  | .tileRestore _ => true
  | .keyframeDelete _ => true
  | .keyframePose _ => true
  | .linkAdd _ => true
  | .linkDelete _ => true
  | .quarantine _ => true
  | .release _ => true
  | .indexCreate _ => true
  | .indexDrop _ => true
  | .tileAffinity _ => true
  | .epochWait _ => true
  | .search _ => false
  | .vecInsert _ => false
  | .vecDelete _ => false
  | .settle _ => true
  | .recallProbe _ => false
  | .solve _ => false
  | .scheduleLoad _ => true
  | .scheduleDrop _ => true
  | .infer _ _ => true
  | .programLoad _ => true
  | .programDrop _ => true
  | .weightsBind _ => true
  | .weightsUnbind _ => true
  | .move _ => false
  | .moveFill _ => false
  | .residencyHint _ => true
  | .netSend _ => true
  | .netRecvPost _ => true
  | .logRead _ => false
  | .diagSessions _ => false
  | .diagClusters _ => false
  | .diagTiles _ => false
  | .diagCounters _ => false
  | .retire _ => true
  | .safeHoldAction _ => false
  | .prepare _ _ => true
  | .stage _ _ _ _ => true
  | .activate _ => true
  | .revert _ => true
  | .netFrameReceive _ => false
  | .reassemblyTimeout _ _ => false
  | .silentTimeout _ => false
  | .lingerExpiry _ => false
  | .visionFrame _ _ => false
  | .fusionFrame _ _ => false
  | .motionShort _ _ => true
  | .fusionIntervalClose _ => false
  | .loopClosure _ _ _ => true
  | .calibSolveQueue _ => true
  | .calibSolveResult _ => false
  | .replyLaunch _ => true
  | .frameLaunch _ => true
  | .sessionMove _ _ => true
  | .settlingPass _ => true
  | .settlingPassDone _ => true
  | .peerDeadline _ => false
  | .query _ => true
  | .answer _ => false
  | .remoteReq _ => true
  | .remoteResp _ => false
  | .mirrorItem _ => true
  | .mirrorAck _ _ => false
  | .mirrorAckTimer _ => true
  | .mirrorSyncComplete _ _ => true
  | .handoverPropose _ _ _ _ => true
  | .handoverReply _ _ _ _ => true
  | .snapshot _ _ _ _ _ _ => true
  | .synced _ _ _ _ => true
  | .handoverAbort _ _ _ _ => true
  | .handoverCopyTimeout _ _ => true
  | .tick => true
  | .epochBoundary => true
  | .epochReadySend => true
  | .barrierReady _ _ _ _ => true
  | .barrierPublish _ _ _ => true
  | .hello _ _ => true
  | .helloTimer _ => true
  | .join _ _ => false
  | .joinReply _ => true
  | .view _ _ _ => false
  | .viewAck _ _ => true
  | .heartbeat _ _ _ => true
  | .heartbeatTimer => true
  | .memberTimeout _ => false
  | .leave _ _ => false
  | .gracefulLeaveComplete => false
  | .timeSync _ _ _ _ => true
  | .timeSyncTimer => true
  | .timeSyncTimeout => true
  | .delayReq _ _ => true
  | .delayReqTimer => true
  | .delayResp _ _ => true
  | .fzlLinkUp _ => true
  | .flitNak _ _ => true
  | .flitReplayTimeout _ => true
  | .portRetrainTimeout _ => true
  | .laneFailure _ _ => true
  | .ptpMessage _ => true
  | .ptpAnnounceTimeout => true
  | .ppsInEdge => true
  | .ppsSeenTimeout => true
  | .holdoverLimit => true
  | .ppsOutRise => true
  | .ppsOutFall => true
  | .triggerEdge _ => true
  | .triggerPulseEnd _ => true
  | .netLinkChange _ _ => true
  | .parcelPromote _ _ => true
  | .promotionCopyEnd _ => true
  | .parcelDemote _ => true
  | .demotionWriteBackEnd _ => true
  | .tierAccessLate _ _ => true
  | .scrubPass _ _ _ _ => true
  | .pondTestStep _ _ _ => true
  | .laneRepairWalk _ _ => true
  | .laneRepairSwitch _ => true
  | .inferLayerStart _ _ => false
  | .pieceFailure _ _ _ _ => false
  | .retryBudgetExpiry _ => true
  | .unitRetired _ => false
  | .wearDetected _ => true
  | .drainComplete _ => true
  | .spareInService _ => true
  | .reservoirClusterReady => true
  | .reservoirDailyTest _ => true
  | .clockLoss _ => false
  | .sparePllLocked _ => true
  | .safeHold _ => false
  | .thermalLimit => false
  | .hostPathFailure => false
  | .clusterRetention _ => true
  | .clusterOff _ => true
  | .matrixDomainOff _ => true
  | .clusterWake _ _ => true
  | .clusterWakeComplete _ => true
  | .powerOn => false
  | .railExcursion _ _ _ => false
  | .tamper _ => false
  | .resetNAssert => false
  | .resetNRelease => true
  | .parked => true
  | .perstNAssert => false
  | .perstNRelease => true
  | .functionLevelReset _ => false
  | .watchdogExpiry => false
  | .bringUp => true
  | .domainRelease _ => true
  | .firmwareVerified => true
  | .tidyFirmwareStart => true
  | .mgmtStatus _ => true
  | .mgmtTemperature _ => true
  | .mgmtReservoirLevel _ => true
  | .mgmtTallyRead _ => true
  | .resetArm _ => true
  | .resetGo _ => true
  | .mgmtArmExpiry => true
  | .mgmtResetTaken => false
  | .mgmtDynamicAddress _ => true
  | .ptpMessageInterval => true
  | .flitReceiveError _ _ => true
  | .messageForward _ _ => true
  | .keyframeMaskComplete _ _ => true
  | .securityCoreRequest => false
  | .hbmRefreshRate _ _ => true
end

