-- ==== Sys2Proof/Certificates/Slice0/Obligations.lean ====
section
/-! DEFINITION. The statements about the block, each a proposition over its commands and states. Where a clause rests on a choice of the
model, its docstring names the log entry. -/

open Sys2Proof Sys2Proof.Machine

/-- A step runs the command at the front of the queue (R1, R101). -/
def Obligations.StepRunsFrontCommand : Prop :=
  ∀ (c : Instr) (rest : List Instr) (s : State), s.pending = c :: rest → step s = exec c { s with pending := rest }

/-- On an empty queue a step lets one nanosecond pass: the clock moves, and only the spine, the fabric ports and what they sent may change with it
(DESIGN CHOICE, log entry 8) (R53, R357, R376, R383). -/
def Obligations.IdleStepLetsTimePass : Prop :=
  ∀ s : State, s.pending = [] → ∃ t, step s = .next t ∧ t.clock.now = s.clock.now + 1 ∧ s.clock.dev ≤ t.clock.dev ∧
    t = { s with clock := t.clock, mesh := t.mesh, fabric := { s.fabric with ports := t.fabric.ports }, out := { s.out with flits := t.out.flits } }

/-- The state after reset is sound and its queue is empty (R57, R323). -/
def Obligations.ResetIsSound : Prop :=
State.reset.Sound ∧ State.reset.pending = []

/-- Every step keeps memory canonical and the tags in use within their pools (R57, R323). -/
def Obligations.StepKeepsSound : Prop :=
∀ s t : State, s.Sound → step s = .next t → t.Sound

/-- Every command answers a next state, and from a sound state none changes the queue (R1, R101). -/
def Obligations.CommandsAnswerAndKeepTheQueue : Prop :=
  (∀ (c : Instr) (s : State), ∃ t, exec c s = .next t) ∧
  (∀ (c : Instr) (s t : State), s.Sound → exec c s = .next t → t.pending = s.pending)

/-- NOP completes with OK; FENCE completes once earlier work in its scope is final (R100, R101). -/
def Obligations.NopAndFenceComplete : Prop :=
  (∀ (s : State) (id : Nat) (o : Op), s.Runs id 0x00 o →
    ∃ t, exec (.nop id) s = .next t ∧ t.Ended id St.ok 0 0 ∧ OthersKept s t id ∧ t = { s with ops := t.ops }) ∧
  (∀ (s : State) (id : Nat) (o : Op), s.Runs id 0x01 o →
    (s.fencePending { id := o.id, fn := o.fn, sq := o.sq, handle := o.handle, scope := o.scope } = false →
      ∃ t, exec (.fence id) s = .next t ∧ t.Ended id St.ok 0 o.waitedFor ∧ OthersKept s t id ∧ t = { s with ops := t.ops }) ∧
    (s.fencePending { id := o.id, fn := o.fn, sq := o.sq, handle := o.handle, scope := o.scope } = true →
      ∃ t, exec (.fence id) s = .next t ∧ (∃ p, t.findOp id = some p ∧ p.phase = .started ∧ p.began = true) ∧ OthersKept s t id ∧ t = { s with ops := t.ops }))

/-- An invalid doorbell slot keeps the ring's last value and is counted (R70). -/
def Obligations.InvalidDoorbellSlotIsIgnored : Prop :=
  ∀ (s : State) (fn n : Nat),
    (∀ v, v = leNat (s.readMem ((s.fncNow fn).sqSlot n) 4) → (65536 ≤ v ∨ cfgSize (s.sq fn n).cfg ≤ v) →
      (s.readTail fn n).rings = s.rings ∧ (s.readTail fn n).counter 0x102 0 = (s.counter 0x102 0 + 1) % 2 ^ 64) ∧
    (∀ v, v = leNat (s.readMem ((s.fncNow fn).cqSlot n) 4) → (65536 ≤ v ∨ cfgSize (s.cq fn n).cfg ≤ v) →
      (s.readHead fn n).rings = s.rings ∧ (s.readHead fn n).counter 0x102 0 = (s.counter 0x102 0 + 1) % 2 ^ 64)

/-- WAKE_WHEN is HEAD when all is fetched and enabled, else HEAD - 1 modulo size (R74). -/
def Obligations.WakeWhenFollowsHead : Prop :=
  ∀ c : SqCtx,
    (bit c.cfg.toNat 12 = true → c.head = c.tail → c.wakeWhen = c.head) ∧
    ((bit c.cfg.toNat 12 = false ∨ c.head ≠ c.tail) → c.wakeWhen = (c.head + 2 ^ bits c.cfg.toNat 4 0 - 1) % 2 ^ bits c.cfg.toNat 4 0)

/-- NUDGE asks for one further sweep; a group sweep and the sweep that NUDGE asked for take the valid indices of the enabled rings and move no head
(R66, R67, R68, R69, R71, R72). -/
def Obligations.SweepsSeeNewIndices : Prop :=
  (∀ (s : State) (fn : Nat), s.hostUp fn = true →
    ∃ t, exec (.nudge fn) s = .next t ∧ t = { s with rings := { s.rings with fns := t.rings.fns } } ∧
      (t.fnc fn).nudge = (if (s.fnc fn).nudge = .idle then .pending else .further) ∧ ∀ g, g ≠ fn → t.fnc g = s.fnc g) ∧
  (∀ (s : State) (fn : Nat), s.hostUp fn = true → bit (s.fncNow fn).sweep.toNat 0 = true → s.fault.safeHold = false →
    (∀ g, g < 16 → exec (.doorbellSweep fn (some g)) s = .next ((s.nextSweep fn g).sweep fn (some g))) ∧
    ((s.fnc fn).nudge = .pending → exec (.doorbellSweep fn none) s = .next ((s.setFnc fn { s.fnc fn with nudge := .idle }).sweep fn none)) ∧
    ((s.fnc fn).nudge = .further → exec (.doorbellSweep fn none) s = .next ((s.setFnc fn { s.fnc fn with nudge := .pending }).sweep fn none))) ∧
  (∀ (s : State) (fn : Nat) (group : Option Nat),
    (∀ m ∈ s.cqsOf fn group, leNat (s.readMem ((s.fncNow fn).cqSlot m) 4) < min 65536 (cfgSize (s.cq fn m).cfg) →
      ((s.sweep fn group).cq fn m).hostHead = leNat (s.readMem ((s.fncNow fn).cqSlot m) 4)) ∧
    (∀ n ∈ s.sqsOf fn group, leNat (s.readMem ((s.fncNow fn).sqSlot n) 4) < min 65536 (cfgSize (s.sq fn n).cfg) →
      (∀ e ∈ s.rings.sq, e.2.stalledTags = false ∧ e.2.stalledCq = false) →
      ((s.fncNow fn).sqSlot n + 4 ≤ ringBase (s.fncNow fn).wbLo (s.fncNow fn).wbHi ∨
        ringBase (s.fncNow fn).wbLo (s.fncNow fn).wbHi + 8 * (s.fncNow fn).sqCount ≤ (s.fncNow fn).sqSlot n) →
      ((s.sweep fn group).sq fn n).tail = leNat (s.readMem ((s.fncNow fn).sqSlot n) 4)) ∧
    (∀ g n, ((s.sweep fn group).sq g n).head = (s.sq g n).head) ∧
    s.sweep fn group = { s with rings := { s.rings with sq := (s.sweep fn group).rings.sq, cq := (s.sweep fn group).rings.cq },
                                mem := (s.sweep fn group).mem, tiers := (s.sweep fn group).tiers, tally := (s.sweep fn group).tally })

/-- A fetch takes the next descriptor as a new operation, which starts or waits where its checks pass, and ends with their result where they fail
(R57, R59, R65, R77, R83, R94). -/
def Obligations.DescriptorFetchAcceptsNext : Prop :=
  ∀ (s : State) (fn sq pool : Nat) (o : Op), s.running = true → s.hostUp fn = true → (s.sq fn sq).ready = true →
    s.pool (cfgClass (s.sq fn sq).cfg) = some pool → (s.cq fn (cfgCq (s.sq fn sq).cfg)).space = true →
    s.outranked (cfgClass (s.sq fn sq).cfg) pool = false → s.findOp s.ops.nextId = none → o = s.fetched fn sq pool →
    ∃ t p, exec (.descriptorFetch fn sq) s = .next t ∧ t.ops.list = s.settleBufs.ops.list ++ [p] ∧ p.id = s.ops.nextId ∧ p.fn = fn ∧ p.sq = sq ∧ p.cq = cfgCq (s.sq fn sq).cfg ∧
      p.desc = s.readMem (ringBase (s.sq fn sq).baseLo (s.sq fn sq).baseHi + 64 * (s.sq fn sq).head) 64 ∧
      p.fetchedAt = s.clock.now ∧ p.deadlineAt = s.clock.now + 1000 * (if o.u32 8 ≠ 0 then o.u32 8 else if (s.sq fn sq).deadline.toNat ≠ 0 then (s.sq fn sq).deadline.toNat else 1000000) ∧
      ((s.settleBufs.charge fn sq pool).descCheck o = none → (p.phase = .started ∨ p.phase = .held) ∧ p.began = false) ∧
      (∀ r, (s.settleBufs.charge fn sq pool).descCheck o = some r → p.phase = .final ∧ p.status = r.status ∧ p.count = r.count ∧ p.detail = r.detail) ∧
      t.ops.nextId = s.ops.nextId + 1 ∧
      t.ops.used0 + t.ops.used1 + t.ops.usedShared = s.ops.used0 + s.ops.used1 + s.ops.usedShared + 1 ∧
      (t.sq fn sq).head = ((s.sq fn sq).head + 1) % cfgSize (s.sq fn sq).cfg ∧
      t = { s with rings := t.rings, ops := t.ops, mem := t.mem, tiers := t.tiers, tally := t.tally, free := t.free }

/-- A held operation starts when no fence and no ORDERED predecessor holds it (R78, R100). -/
def Obligations.HeldOperationStarts : Prop :=
  ∀ (s : State) (id : Nat) (o : Op), s.findOp id = some o → o.phase = .held →
    (s.fenced o = false → s.orderHeld o = false →
      ∃ t p, exec (.operationStart id) s = .next t ∧ t.findOp id = some p ∧ p = { o with phase := .started, readyAt := s.clock.now, blurred := p.blurred } ∧
        (∀ i, i ≠ id → (t.findOp i).map (·.phase) = (s.findOp i).map (·.phase)) ∧
        t = { s with ops := { s.ops with list := t.ops.list }, mem := t.mem, tiers := t.tiers, free := t.free }) ∧
    (s.fenced o = true ∨ s.orderHeld o = true → exec (.operationStart id) s = .next s)

/-- The interrupt timer sends the completion ring's MSI-X vector where MSI-X is on and the vector is not masked, and notes it as pending where it is
masked (R96, R97). -/
def Obligations.InterruptTimerSignalsVector : Prop :=
  ∀ (s : State) (fn m : Nat), 0 < (s.cq fn m).unsignalled → bit (s.cq fn m).int.toNat 31 = true →
    bits (s.cq fn m).int.toNat 10 0 < (if fn = 0 then 256 else 28) → s.host.msixOff.contains fn = false →
    ∃ t, exec (.interruptTimer fn m) s = .next t ∧ (t.cq fn m).unsignalled = 0 ∧
      (s.cq fn m).firstUnsignalled + min 1000 (bits (s.cq fn m).int.toNat 29 20) * 1000 ≤ t.clock.now ∧
      (s.vectorMasked fn (bits (s.cq fn m).int.toNat 10 0) = false → t.out.msix = (fn, bits (s.cq fn m).int.toNat 10 0) :: s.out.msix ∧ t.host = s.host) ∧
      (s.vectorMasked fn (bits (s.cq fn m).int.toNat 10 0) = true → t.out = s.out ∧ (fn, bits (s.cq fn m).int.toNat 10 0) ∈ t.host.msixPending) ∧
      t = { s with clock := t.clock, rings := { s.rings with cq := t.rings.cq }, host := { s.host with msixPending := t.host.msixPending }, out := { s.out with msix := t.out.msix } }

/-- An operation not committed ends with TIMED_OUT at its deadline (R86, R94, R402). -/
def Obligations.UnfinishedOperationTimesOut : Prop :=
  ∀ (s : State) (id : Nat) (o : Op), s.findOp id = some o → o.phase ≠ .final → o.committed = false → ¬ ([0x20, 0x21, 0x22].contains o.opcode) → o.deadlineUs < 2 ^ 32 →
    ∃ t d, exec (.deadlineExpiry id) s = .next t ∧ t.Ended id St.timedOut 0 d ∧ bit d 0 = o.began ∧ bit d 2 = decide (o.phase = .held) ∧
      bits d 63 32 = o.deadlineUs ∧ o.deadlineAt ≤ t.clock.now ∧ OthersKept s t id ∧
      t.mem = s.mem ∧ t.rings = s.rings ∧ t.sess = s.sess ∧ t.regs = s.regs ∧ t.host = s.host ∧ (o.opcode ≠ 0x4A → t.place = s.place)

/-- A final outcome is posted as the next entry of its completion ring (R83, R88, R89, R90). -/
def Obligations.CompletionEntryIsPosted : Prop :=
  ∀ (s : State) (id : Nat) (o : Op),  s.findOp id = some o → o.phase = .final →
    (s.ops.list.any fun p => p.fn = o.fn && p.sq = o.sq && decide (p.id < o.id)) = false → s.hostUp o.fn = true →
    ∃ t, exec (.completionPost id) s = .next t ∧
      ((∀ e ∈ s.rings.sq, e.2.stalledTags = false ∧ e.2.stalledCq = false) →
        ringBase (s.cq o.fn o.cq).baseLo (s.cq o.fn o.cq).baseHi + 32 * (s.cq o.fn o.cq).post + 32 ≤ 2 ^ 63 →
        t.readMem (ringBase (s.cq o.fn o.cq).baseLo (s.cq o.fn o.cq).baseHi + 32 * (s.cq o.fn o.cq).post) 32 = o.entry (s.cq o.fn o.cq).phase) ∧
      t.ops.list.map (·.id) = (s.ops.list.map (·.id)).filter (fun i => i ≠ id) ∧
      (t.cq o.fn o.cq).post = ((s.cq o.fn o.cq).post + 1) % cfgSize (s.cq o.fn o.cq).cfg ∧
      (t.cq o.fn o.cq).phase = (if ((s.cq o.fn o.cq).post + 1) % cfgSize (s.cq o.fn o.cq).cfg = 0 then !(s.cq o.fn o.cq).phase else (s.cq o.fn o.cq).phase) ∧
      (t.cq o.fn o.cq).reserved = (s.cq o.fn o.cq).reserved - 1 ∧
      t = { s with rings := t.rings, ops := t.ops, mem := t.mem, tiers := t.tiers, host := t.host, tally := t.tally, out := t.out, free := t.free }

/-- Privileged mode is entered by key and ENTER within 1 ms and left as R466 says (R466). -/
def Obligations.PrivilegedModeNeedsKey : Prop :=
  ∀ s : State,
    (s.Reaches 0 →
      (∃ t, exec (.privKeyWrite 0 0x5A17) s = .next t ∧ t = { s with host := { s.host with privKeyAt := some s.clock.now } }) ∧
      (s.keyFresh s.host.privKeyAt = true → ∃ t, exec (.privEnter 0) s = .next t ∧ t = { s with host := { s.host with privileged := true, privKeyAt := none } }) ∧
      (s.keyFresh s.host.privKeyAt = false → ∃ t, exec (.privEnter 0) s = .next t ∧ t.host = { s.host with privKeyAt := none } ∧
        t.counter 0x104 0 = (s.counter 0x104 0 + 1) % 2 ^ 64 ∧ t = { s with host := t.host, tally := t.tally }) ∧
      (∃ t, exec (.privLeave 0) s = .next t ∧ t = { s with host := { s.host with privileged := false, privKeyAt := none } }) ∧
      (∀ v : Word, v ≠ 1 → v ≠ 2 → ∃ t, exec (.registerWrite 0 0x120 4 v.toNat) s = .next t ∧ t = { s with host := { s.host with privKeyAt := none } })) ∧
    (∀ t, s.keyFresh (some t) = decide (s.clock.now ≤ t + 1000000)) ∧ s.keyFresh none = false ∧
    (∀ fn, fn ≠ 0 → s.Reaches fn → ∀ v,
      (∃ t, exec (.privKeyWrite fn v) s = .next t ∧ t.counter 0x105 0 = (s.counter 0x105 0 + 1) % 2 ^ 64 ∧ t = { s with tally := t.tally }) ∧
      (∃ t, exec (.privEnter fn) s = .next t ∧ t.counter 0x105 0 = (s.counter 0x105 0 + 1) % 2 ^ 64 ∧ t = { s with tally := t.tally }) ∧
      (∃ t, exec (.privLeave fn) s = .next t ∧ t.counter 0x105 0 = (s.counter 0x105 0 + 1) % 2 ^ 64 ∧ t = { s with tally := t.tally })) ∧
    (s.functionReset 0).host.privileged = false ∧ (∀ c, (s.warmReset c).host.privileged = false ∧ (s.coldReset c).host.privileged = false) ∧
    (∀ h o, State.rightCheck { s with host := h } o = s.rightCheck o)

/-- Guarded writes without privileged mode are counted and change nothing; HOST_TAG is written once (R465, R467, R471). -/
def Obligations.GuardedRegistersRefuse : Prop :=
  (∀ (s : State) (v : Word), s.Reaches 0 → s.host.privileged = true →
    (s.host.hostTagSet = false → ∃ t, exec (.hostTagWrite 0 v) s = .next t ∧ t = { s with host := { s.host with hostTag := v, hostTagSet := true } }) ∧
    (s.host.hostTagSet = true → ∃ t, exec (.hostTagWrite 0 v) s = .next t ∧ t.counter 0x104 0 = (s.counter 0x104 0 + 1) % 2 ^ 64 ∧ t = { s with tally := t.tally })) ∧
  (∀ (s : State) (fn off v : Nat) (cap : Cap), s.Reaches fn → off % 4 = 0 → off < 0x40000 → s.blockOf off = some cap → isGuarded off = true → s.privileged fn = false →
    ∃ t, exec (.registerWrite fn off 4 v) s = .next t ∧ t.counter 0x105 0 = (s.counter 0x105 0 + 1) % 2 ^ 64 ∧ t = { s with tally := t.tally })

/-- A device reset needs its key within 1 ms, and each key permits one write (R444). -/
def Obligations.ResetNeedsKey : Prop :=
  ∀ s : State, s.Reaches 0 → s.host.privileged = true →
    (∃ t, exec (.resetKeyWrite 0 0xA55A) s = .next t ∧ t = { s with host := { s.host with resetKeyAt := some s.clock.now } }) ∧
    (s.keyFresh s.host.resetKeyAt = true →
      (∃ t, exec (.resetCtrlWarm 0) s = .next t ∧ t.power.cause = 16 ∧ t.power.boot ≠ .running ∧ (s.power.boot ≠ .heldInReset → t.power.level = .warm)) ∧
      (∃ t, exec (.resetCtrlCold 0) s = .next t ∧ t.power.cause = 16 ∧ t.power.boot ≠ .running ∧ t.power.level = .cold) ∧
      (∀ v : Word, bits v.toNat 1 0 ≠ 1 → bits v.toNat 1 0 ≠ 2 → ∃ t, exec (.registerWrite 0 0x1301C 4 v.toNat) s = .next t ∧ t = { s with host := { s.host with resetKeyAt := none } })) ∧
    (s.keyFresh s.host.resetKeyAt = false → ∀ c, (c = .resetCtrlWarm 0 ∨ c = .resetCtrlCold 0) →
      ∃ t, exec c s = .next t ∧ t.counter 0x104 0 = (s.counter 0x104 0 + 1) % 2 ^ 64 ∧ t.power = s.power ∧ t.host = { s.host with resetKeyAt := none } ∧ t = { s with host := t.host, tally := t.tally })

/-- A register write changes exactly the writable fields; an alias write exactly one bit (R461, R463, R468, R469, R470). -/
def Obligations.RegisterWritesTakeTheirFields : Prop :=
  (∀ (s : State) (fn off v : Nat) (cap : Cap) (r : Row), s.Reaches fn → rowOf off = some r → (∀ f ∈ r.fields, f.at_ = .imm) →
    s.blockOf off = some cap → (isGuarded off = true → s.privileged fn = true) → s.instOf fn r < 64 →
    ∃ t, exec (.registerWrite fn off 4 v) s = .next t ∧ t = { s with regs := t.regs } ∧
      (∀ i, i < 32 → bit (t.regs.shadowOf s.chip off (s.instOf fn r)).toNat i =
        if r.fields.any (fun f => f.acc = .rw && decide (f.lo ≤ i ∧ i ≤ f.hi)) then bit v i else bit (s.regs.shadowOf s.chip off (s.instOf fn r)).toNat i) ∧
      (∀ i, i < 32 → bit (t.regs.appliedOf s.chip off (s.instOf fn r)).toNat i =
        if r.fields.any (fun f => f.acc = .rw && decide (f.lo ≤ i ∧ i ≤ f.hi)) then bit v i else bit (s.regs.appliedOf s.chip off (s.instOf fn r)).toNat i) ∧
      (∀ o j, j < 64 → (o ≠ off ∨ j ≠ s.instOf fn r) → t.regs.shadowOf s.chip o j = s.regs.shadowOf s.chip o j ∧ t.regs.appliedOf s.chip o j = s.regs.appliedOf s.chip o j)) ∧
  (∀ (s : State) (fn off i : Nat) (b : Bool) (cap : Cap) (r : Row) (f : Field), s.Reaches fn → rowOf off = some r → (∀ f ∈ r.fields, f.at_ = .imm) → off ≠ 0x700C → off ≠ 0x8004 →
    s.blockOf off = some cap → (isGuarded off = true → s.privileged fn = true) → i < 32 → off % 4 = 0 → off < 0x40000 →
    r.fields.find? (fun f => f.lo ≤ i && i ≤ f.hi) = some f → f.acc = .rw → f.reserved = false →
    ∃ t, exec (.bitAliasWrite fn (0x800000 + (off * 8 + i) * 4) (if b then 1 else 0)) s = .next t ∧ t = { s with regs := t.regs } ∧
      ∀ j, j < 32 → bit (t.regs.shadowOf s.chip off (s.instOf fn r)).toNat j = if j = i then b else bit (s.regs.shadowOf s.chip off (s.instOf fn r)).toNat j)

/-- A spring write waits at the bridge and takes effect at its arrival (R472, R473, R474). -/
def Obligations.SpringWriteArrivesLater : Prop :=
  ∀ (s : State) (fn : Nat) (v : Word),
    (s.Reaches 0 → s.host.privileged = true → s.regs.springQueue.length < 16 →
      ∃ t, exec (.springRegisterWrite 0 0x11010 v) s = .next t ∧ t = { s with regs := { s.regs with springQueue := s.regs.springQueue ++ [(0, 0x11010, v)] } }) ∧
    (s.regs.springQueue = [(fn, 0x11010, v)] → s.regs.springStalled = [] →
      ∃ t, exec .springWriteArrival s = .next t ∧ t.tally.alertMask = v ∧ t.regs.springQueue = [] ∧
        t = { s with regs := { s.regs with springQueue := [] }, tally := { s.tally with alertMask := v } })

/-- Reads with side effects acknowledge, clear or latch; TIME commands step device time (R376, R377, R421, R424, R465). -/
def Obligations.ReadsAndTimeCommandsTakeEffect : Prop :=
  (∀ (s : State) (size : Nat),
    (s.Reaches 0 → s.host.privileged = true → (size = 4 ∨ size = 8) →
      (∃ t, exec (.tallyHeadAckRead 0 size) s = .next t ∧ t.tally = { s.tally with ackedTo := s.tally.head } ∧ t.regs.lastRead.toNat % 2 ^ 32 = s.tally.head % 2 ^ 32 ∧
        t = { s with regs := { s.regs with lastRead := t.regs.lastRead }, tally := t.tally }) ∧
      (∃ t, exec (.eventSummaryRead 0 size) s = .next t ∧ t.tally = { s.tally with summary := 0 } ∧ t.regs.lastRead.toNat % 2 ^ 32 = s.tally.summary % 32 ∧
        t = { s with regs := { s.regs with lastRead := t.regs.lastRead }, tally := t.tally })) ∧
    (∀ fn, s.Reaches fn → ∃ t, exec (.timeNsRead fn) s = .next t ∧ t.regs.lastRead.toNat = s.devNs % 1000000000 ∧ t.clock = { s.clock with latchSec := s.devNs / 1000000000 } ∧
        t = { s with regs := { s.regs with lastRead := t.regs.lastRead }, clock := t.clock })) ∧
  (∀ s : State, s.Reaches 0 → s.host.privileged = true → s.timeLocked = false →
    (s.timeSource ≠ .pps → ∃ t, exec (.timeCmdSet 0) s = .next t ∧ t.clock.state = .free ∧
      (t.clock.dev : Int) = s.clock.dev + ((s.timeSetNs (s.regF 0x6014 0 29 0) : Int) - s.devNs) * (1024000000000 : Int) ∧ t.counter 0x600 0 = (s.counter 0x600 0 + 1) % 2 ^ 64) ∧
    (s.timeSource = .pps → ∃ t, exec (.timeCmdSet 0) s = .next t ∧ t = { s with clock := { s.clock with ppsSetPending := true } }) ∧
    (0 ≤ (s.clock.dev : Int) + sext 32 (s.reg 0x6024 0) * 1024000000000 → ∃ t, exec (.timeCmdStep 0) s = .next t ∧
      (t.clock.dev : Int) = s.clock.dev + sext 32 (s.reg 0x6024 0) * 1024000000000 ∧ t.clock.state = (if s.clock.state = .locked then .free else s.clock.state) ∧
      t.counter 0x600 0 = (s.counter 0x600 0 + 1) % 2 ^ 64) ∧
    (∀ v : Word, ∃ t, exec (.timeRateWrite 0 v) s = .next t ∧ t.regs.faulted 0x6028 0 = false ∧
      t = { s with clock := { s.clock with rate := max (-512000000) (min 512000000 v.toInt) }, regs := { s.regs with faults := t.regs.faults } }))

/-- A valid RING_CFG enables a ring that was disabled and starts it afresh, an invalid one sets CFG_ERR; a disable clears ENABLE alone, and a completion
ring in use stays enabled; FN_RINGS grants rings within the total and refuses what does not fit (R62, R63, R64, R103, R104, R471). -/
def Obligations.RingsEnableAndDisable : Prop :=
  (∀ (s : State) (fn n : Nat) (v : Word), s.Reaches fn → cfgEnable v = true →
    (s.ringSel fn = (n, false) → fn ≠ 0 → bits v.toNat 7 5 < 2 → ∃ t, exec (.ringEnable fn v) s = .next t ∧ t.counter 0x105 0 = (s.counter 0x105 0 + 1) % 2 ^ 64 ∧ t = { s with tally := t.tally }) ∧
    (s.ringSel fn = (n, false) → cfgEnable (s.sq fn n).cfg = false → (fn = 0 ∨ 2 ≤ bits v.toNat 7 5) →
      (contextOk v (s.sq fn n).baseHi n (s.fncNow fn).sqCount = true → cfgCq v < (s.fncNow fn).cqCount → cfgEnable (s.cq fn (cfgCq v)).cfg = true →
        ∃ t, exec (.ringEnable fn v) s = .next t ∧ (t.sq fn n).cfg = v ∧ (t.sq fn n).head = 0 ∧ (t.sq fn n).cfgErr = false ∧ (bit v.toNat 12 = false → (t.sq fn n).tail = 0) ∧
          leNat (t.readMem (ringBase (s.fncNow fn).wbLo (s.fncNow fn).wbHi + 8 * n) 2) = 0 ∧
          t = { s with rings := { s.rings with sq := t.rings.sq }, mem := t.mem, tiers := t.tiers, tally := t.tally }) ∧
      ((contextOk v (s.sq fn n).baseHi n (s.fncNow fn).sqCount = false ∨ (s.fncNow fn).cqCount ≤ cfgCq v ∨ cfgEnable (s.cq fn (cfgCq v)).cfg = false) →
        ∃ t, exec (.ringEnable fn v) s = .next t ∧ (t.sq fn n).cfg = withEnable v false ∧ (t.sq fn n).cfgErr = true ∧
          t = { s with rings := { s.rings with sq := t.rings.sq }, mem := t.mem, tiers := t.tiers, tally := t.tally })) ∧
    (s.ringSel fn = (n, true) → cfgEnable (s.cq fn n).cfg = false →
      (contextOk v (s.cq fn n).baseHi n (s.fncNow fn).cqCount = true → ∃ t, exec (.ringEnable fn v) s = .next t ∧ (t.cq fn n).cfg = v ∧ (t.cq fn n).post = 0 ∧ (t.cq fn n).hostHead = 0 ∧
        (t.cq fn n).phase = true ∧ (t.cq fn n).cfgErr = false ∧ t = { s with rings := { s.rings with cq := t.rings.cq } }) ∧
      (contextOk v (s.cq fn n).baseHi n (s.fncNow fn).cqCount = false → ∃ t, exec (.ringEnable fn v) s = .next t ∧ (t.cq fn n).cfg = withEnable v false ∧ (t.cq fn n).cfgErr = true ∧
        t = { s with rings := { s.rings with cq := t.rings.cq } }))) ∧
  (∀ (s : State) (fn n : Nat) (v : Word), s.Reaches fn → cfgEnable v = false →
    (s.ringSel fn = (n, false) → cfgEnable (s.sq fn n).cfg = true → (fn = 0 ∨ 2 ≤ bits v.toNat 7 5) →
      ∃ t, exec (.ringDisable fn v) s = .next t ∧ (t.sq fn n).cfg = withEnable (s.sq fn n).cfg false ∧ (t.sq fn n).head = (s.sq fn n).head ∧
        (lockedCfg v ≠ lockedCfg (s.sq fn n).cfg → t.counter 0x104 0 = (s.counter 0x104 0 + 1) % 2 ^ 64) ∧
        t = { s with rings := { s.rings with sq := t.rings.sq }, mem := t.mem, tiers := t.tiers, tally := t.tally }) ∧
    (s.ringSel fn = (n, true) → cfgEnable (s.cq fn n).cfg = true → lockedCfg v = lockedCfg (s.cq fn n).cfg →
      (s.cqInUse fn n = false → ∃ t, exec (.ringDisable fn v) s = .next t ∧ (t.cq fn n).cfg = withEnable (s.cq fn n).cfg false ∧ t = { s with rings := { s.rings with cq := t.rings.cq } }) ∧
      (s.cqInUse fn n = true → ∃ t, exec (.ringDisable fn v) s = .next t ∧ t.cq fn n = s.cq fn n ∧ t.counter 0x104 0 = (s.counter 0x104 0 + 1) % 2 ^ 64 ∧ t = { s with tally := t.tally }))) ∧
  (∀ (s : State) (v : Word) (f : Nat), s.Reaches 0 → s.host.privileged = true → s.regF 0x1020 0 5 0 = f →
      (s.fnActive f = false → (((List.range 64).filter fun g => g ≠ f).map fun g => (s.fnc g).sqCount).sum + bits v.toNat 15 0 ≤ 32768 →
        (((List.range 64).filter fun g => g ≠ f).map fun g => (s.fnc g).cqCount).sum + bits v.toNat 31 16 ≤ 32768 →
        ∃ t, exec (.fnRingsWrite 0 v) s = .next t ∧ t.fnc f = { s.fnc f with sqCount := bits v.toNat 15 0, cqCount := bits v.toNat 31 16 } ∧
          (∀ g, g ≠ f → t.fnc g = s.fnc g) ∧ t.regs.faulted 0x1024 f = false ∧
          t = { s with rings := { s.rings with fns := t.rings.fns }, regs := { s.regs with faults := t.regs.faults } }) ∧
      (s.fnActive f = false → (32768 < (((List.range 64).filter fun g => g ≠ f).map fun g => (s.fnc g).sqCount).sum + bits v.toNat 15 0 ∨
        32768 < (((List.range 64).filter fun g => g ≠ f).map fun g => (s.fnc g).cqCount).sum + bits v.toNat 31 16) → exec (.fnRingsWrite 0 v) s = .next s) ∧
      (s.fnActive f = true → ∃ t, exec (.fnRingsWrite 0 v) s = .next t ∧ t.counter 0x104 0 = (s.counter 0x104 0 + 1) % 2 ^ 64 ∧ t = { s with tally := t.tally }))

/-- A route along the spine goes along the row, then along the column, and has at most 14 hops; each router output grants the lowest class that asks, and
within it goes round its inputs; what one class asks does not depend on another's packets (R47, R49, R50, R51, R53). Which stop stands at which router, and how many packets a channel holds, are the model's choice
(log entry 175). -/
def Obligations.SpineRoutesAndGrantsByClass : Prop :=
  (∀ a b, a < 20 → b < 20 → routeHops a b ≤ 14 ∧ (meshPath a b).head? = some a ∧ (meshPath a b).getLast? = some b ∧
    ∀ p ∈ (meshPath a b).zip (meshPath a b).tail, p.1 / 5 = p.2 / 5 ∨ p.1 % 5 = b % 5 ∧ p.2 % 5 = b % 5) ∧
  (∃ a b, clusterStop a = true ∧ clusterStop b = true ∧ routeHops a b = 14) ∧
  (∀ (m : Mesh) (r out : Nat), (∀ w ∈ m.waiting, w.input < 5 ∧ w.pkt.cls ≤ 4) →
    (m.asking r out = [] → m.output r out = m) ∧
    (m.asking r out ≠ [] → ∃ w ∈ m.asking r out, (∀ x ∈ m.asking r out, w.pkt.cls ≤ x.pkt.cls) ∧
      Store.get (fun _ => 0) (turnKey r out w.pkt.cls) (m.output r out).turn = (w.input + 1) % 5 ∧
      (out = 0 → (m.output r out).arrived = (w.pkt, w.hops + 1) :: m.arrived ∧ (m.output r out).waiting = dropFirst (fun x => x = w) m.waiting) ∧
      (out ≠ 0 → (m.output r out).arrived = m.arrived ∧
        (m.output r out).waiting = dropFirst (fun x => x = w) m.waiting ++ [{ pkt := w.pkt, router := routerNext r out, input := inputOf out, hops := w.hops + 1 }]))) ∧
  (∀ (m n : Mesh) (c : Nat), (m.waiting.filter fun w => w.pkt.cls = c) = (n.waiting.filter fun w => w.pkt.cls = c) →
    ∀ r out, ((m.asking r out).filter fun w => w.pkt.cls = c) = (n.asking r out).filter fun w => w.pkt.cls = c)

/-- Extents allocate and free parcels, and BAR2 reaches only allocated parcels (R324, R325, R328, R354). -/
def Obligations.ExtentsGrantFreeAndMapParcels : Prop :=
  (∀ (s : State) (v : Word) (k : Nat), s.Reaches 0 → s.host.privileged = true → s.extentSel 0 = k → bit v.toNat 24 = false →
    (bit v.toNat 31 = true → bit (s.extent k).size.toNat 31 = false → s.extentFits (s.extent k).base.toNat (bits v.toNat 23 0) = true →
      ∃ t, exec (.extentEnable 0 v) s = .next t ∧ t.extent k = { base := (s.extent k).base, size := v, err := false } ∧
        t.tiers.parcels.map (·.num) = s.tiers.parcels.map (·.num) ++ s.newParcels (s.extent k).base.toNat (bits v.toNat 23 0) ∧ t.mem = s.mem ∧
        (∀ j, j ≠ k → t.extent j = s.extent j)) ∧
    (bit v.toNat 31 = true → bit (s.extent k).size.toNat 31 = false → s.extentFits (s.extent k).base.toNat (bits v.toNat 23 0) = false →
      ∃ t, exec (.extentEnable 0 v) s = .next t ∧ bit (t.extent k).size.toNat 31 = false ∧ (t.extent k).err = true ∧ t.tiers.parcels = s.tiers.parcels ∧ t.mem = s.mem) ∧
    (bit v.toNat 31 = false → bit (s.extent k).size.toNat 31 = true →
      ∃ t, exec (.extentDisable 0 v) s = .next t ∧ bit (t.extent k).size.toNat 31 = false ∧ (∀ j, j ≠ k → t.extent j = s.extent j) ∧
        (∀ a, a < 2 ^ 63 → t.mem.byte a = s.mem.byte a))) ∧
  (∀ (s : State) (off len : Nat) (data : List Byte), 0 < len → off + len ≤ 2 ^ 36 → s.power.options.bar2En = true → s.host.linkUp = true → s.power.boot = .running →
    (s.bar2Reach (s.bar2Addr off) len = true → s.regs.faulted 0x3018 0 = false → data.length = len →
      (∃ t, exec (.bar2Access 0 true off len data) s = .next t ∧ t.readMem (2 ^ 63 + s.bar2Addr off) len = data ∧
        (∀ a, (a < 2 ^ 63 + s.bar2Addr off ∨ 2 ^ 63 + s.bar2Addr off + len ≤ a) → t.mem.byte a = s.mem.byte a) ∧ t = { s with mem := t.mem, tiers := t.tiers }) ∧
      (∃ t, exec (.bar2Access 0 false off len data) s = .next t ∧ t = { s with regs := { s.regs with lastRead := BitVec.ofNat 64 (leNat (s.readMem (2 ^ 63 + s.bar2Addr off) len)) } })) ∧
    (s.bar2Reach (s.bar2Addr off) len = false → ∀ w, ∃ t, exec (.bar2Access 0 w off len data) s = .next t ∧ t.mem = s.mem ∧
      t.counter 0x107 0 = (s.counter 0x107 0 + 1) % 2 ^ 64 ∧ (w = false → t.regs.lastRead = 0)))

/-- A parity fault is counted, and the register, grant, ring context or extent that holds it acts as at reset, a register until it is written (R401, R479). -/
def Obligations.ParityFaultReturnsRegisterToReset : Prop :=
  (∀ (s : State) (off idx : Nat) (cap : Cap), s.blockOf off = some cap →
    (∀ r, rowOf off = some r → idx < r.inst.count →
      ∃ t, exec (.configParityFault off idx) s = .next t ∧ t.regs.faulted off idx = true ∧ t.counter 0x106 0 = (s.counter 0x106 0 + 1) % 2 ^ 64 ∧
        (off ≠ 0x5000 → off ≠ 0x8004 → t.reg off idx = (regDefault s.chip (regKey off idx)).toNat) ∧
        (∀ o j, (o, j) ≠ (off, idx) → t.regs.faulted o j = s.regs.faulted o j) ∧ t.mem = s.mem ∧ t.ops = s.ops ∧ t.rings = s.rings) ∧
    (∀ fn n, 0x1004 ≤ off → off < 0x1018 → fn < 64 → n < 32768 →
      (idx = fn * 65536 + n → ∃ t, exec (.configParityFault off idx) s = .next t ∧ (t.sq fn n).ready = false ∧ t.counter 0x106 0 = (s.counter 0x106 0 + 1) % 2 ^ 64 ∧
        t = { s with rings := { s.rings with sq := t.rings.sq }, tally := t.tally }) ∧
      (idx = fn * 65536 + 32768 + n → ∃ t, exec (.configParityFault off idx) s = .next t ∧ t.cq fn n = { s.cq fn n with parityErr := true } ∧
        t.counter 0x106 0 = (s.counter 0x106 0 + 1) % 2 ^ 64 ∧ t = { s with rings := { s.rings with cq := t.rings.cq }, tally := t.tally })) ∧
    (((off = 0x3010 ∨ off = 0x3014) ∧ idx < 512) ∨ ([0x1024, 0x2000, 0x2004, 0x2008, 0x200C, 0x2014].contains off = true ∧ idx < 64) ∨ (off = 0x12C ∧ idx = 0) →
      ∃ t, exec (.configParityFault off idx) s = .next t ∧ t.regs.faulted off idx = true ∧ t.counter 0x106 0 = (s.counter 0x106 0 + 1) % 2 ^ 64 ∧
        t = { s with regs := { s.regs with faults := t.regs.faults }, tally := t.tally } ∧
        (off = 0x2014 → (t.fncNow idx).sweep = 0) ∧ (off = 0x1024 → (t.fncNow idx).sqCount = (fnDefault idx).sqCount ∧ (t.fncNow idx).cqCount = (fnDefault idx).cqCount)) ∧
    (off = 0x6028 → idx = 0 → ∃ t, exec (.configParityFault off idx) s = .next t ∧ t.regs.faulted off idx = true ∧ t.clock = { s.clock with rate := 0 } ∧
      t.counter 0x106 0 = (s.counter 0x106 0 + 1) % 2 ^ 64)) ∧
  (∀ (s : State) (fn off v : Nat) (cap : Cap) (r : Row), s.Reaches fn → rowOf off = some r → (∀ f ∈ r.fields, f.at_ = .imm) → s.blockOf off = some cap →
    (isGuarded off = true → s.privileged fn = true) → ∃ t, exec (.registerWrite fn off 4 v) s = .next t ∧ t.regs.faulted off (s.instOf fn r) = false)

/-- Resets asked for by RESET_CTRL, LC_REQUEST and the management port are taken (R439, R441, R444, R450, R496). -/
def Obligations.CommandedResetsAreTaken : Prop :=
  ∀ s : State, s.power.boot ≠ .heldInReset →
    (s.Reaches 0 → s.host.privileged = true → s.keyFresh s.host.resetKeyAt = true →
      (∃ t, exec (.resetCtrlWarm 0) s = .next t ∧ WasReset s t 4 .warm) ∧ (∃ t, exec (.resetCtrlCold 0) s = .next t ∧ WasReset s t 4 .cold)) ∧
    (s.Reaches 0 → s.host.privileged = true → ∀ v l, bits v 15 8 = 0x6C → v < 2 ^ 32 → lifeCycleOf (bits v 2 0) = some l → s.mayMove l = true →
      ∃ t, exec (.lcRequestWrite 0 (BitVec.ofNat 32 v)) s = .next t ∧ WasReset s t 8 .cold ∧ t.chip = { s.chip with lifeCycle := l }) ∧
    (∀ l, s.mgmt.pendingReset = some l → ∃ t, exec .mgmtResetTaken s = .next t ∧ WasReset s t 3 l)

/-- Power-on, watchdog, tamper, rail and security core resets are taken (R439, R441, R447, R448, R451). -/
def Obligations.EventResetsAreTaken : Prop :=
  ∀ s : State,
    (∃ t, exec .powerOn s = .next t ∧ WasReset s t 0 .cold ∧ t.clock.now = 0 ∧ t.power.tamperCause = 0) ∧
    (s.power.boot = .running → ∃ t, exec .watchdogExpiry s = .next t ∧ WasReset s t 5 .warm) ∧
    (s.power.boot ≠ .heldInReset → s.domOn 1 = true → ∃ t, exec .securityCoreRequest s = .next t ∧ WasReset s t 7 .warm) ∧
    (∀ c, s.chip.lifeCycle ≠ .scrapped → s.power.boot ≠ .heldInReset → s.power.boot ≠ .phaseA →
      ∃ t, exec (.tamper c) s = .next t ∧ WasReset s t 6 .cold ∧ t.chip.tamperCount = min 255 (s.chip.tamperCount + 1) ∧ t.power.tamperCause ≠ 0) ∧
    (∀ mV us, s.power.boot ≠ .phaseA → s.power.boot ≠ .heldInReset → (mV < 730 ∨ 770 < mV) → 660 ≤ mV → mV ≤ 840 → 10 ≤ us →
      ∃ t, exec (.railExcursion 0 mV us) s = .next t ∧ WasReset s t 0 .cold) ∧
    (∀ mV us, s.power.boot ≠ .phaseA → s.power.boot ≠ .heldInReset → s.chip.lifeCycle ≠ .scrapped → (mV < 660 ∨ 840 < mV) →
      ∃ t, exec (.railExcursion 0 mV us) s = .next t ∧ WasReset s t 6 .cold)

/-- RESET_N holds and releases the device; PERST_N and host path failures move the link (R431, R439, R455, R460, R487). -/
def Obligations.ResetPinsHoldAndRelease : Prop :=
  ∀ s : State,
    (s.power.boot ≠ .heldInReset → s.power.boot ≠ .phaseA →
      ∃ t, exec .resetNAssert s = .next t ∧ t.power.boot = .heldInReset ∧ t.power.cause = 2 ∧ t.power.level = .warm ∧ t.ops = {} ∧ t.rings = {} ∧ t.sess = {} ∧
        t.tally = s.tally ∧ t.power.brought = decide (s.power.boot = .running)) ∧
    (s.power.boot = .heldInReset → ∃ t, exec .resetNRelease s = .next t ∧ t.power.boot = .start ∧ t.power.parked = false) ∧
    (s.power.boot = .heldInReset → s.power.level = .warm → s.power.brought = true → s.power.options.parkOnResetN = true → s.power.parked = false →
      ∃ t, exec .parked s = .next t ∧ t.power.parked = true ∧ t.power.domains = coldDomains s.chip ∧ s.power.resetAt + 1000000 ≤ t.clock.now) ∧
    (s.host.perstLow = false → ∃ t, exec .perstNAssert s = .next t ∧ t.host.linkUp = false ∧ t.host.perstLow = true) ∧
    (s.host.perstLow = true → s.domOn 3 = true → ∃ t, exec .perstNRelease s = .next t ∧ t.host.perstLow = false ∧ t.host.detect = true ∧
      t.host.linkUp = decide (s.power.boot = .running) ∧ t = { s with host := t.host }) ∧
    (s.host.linkUp = true → ∃ t, exec .hostPathFailure s = .next t ∧ t.host.linkUp = false)

/-- A FUNCTION reset clears the function's own state and no other function's (R104, R105, R106, R442, R443). -/
def Obligations.FunctionResetIsolatesOthers : Prop :=
  ∀ (s : State) (fn : Nat), s.host.linkUp = true → fn ≤ s.power.options.totalVfs →
    ∃ t, exec (.functionLevelReset fn) s = .next t ∧ t.ops.list = s.ops.list.filter (fun o => o.fn ≠ fn) ∧
      t.sess.list = s.sess.list.filter (fun x => x.fn ≠ fn) ∧ t.sess.keys = s.sess.keys.filter (fun k => k.fn ≠ fn) ∧
      t.matrix.progs = s.matrix.progs.filter (fun p => p.fn ≠ fn) ∧ t.abacus.scheds = s.abacus.scheds.filter (fun x => x.fn ≠ fn) ∧
      (∀ n, n < 32768 → t.sq fn n = {} ∧ t.cq fn n = {}) ∧ (∀ g n, g ≠ fn → n < 32768 → t.sq g n = s.sq g n ∧ t.cq g n = s.cq g n) ∧
      (t.fnc fn).sqCount = (s.fnc fn).sqCount ∧ (t.fnc fn).cqCount = (s.fnc fn).cqCount ∧ t.tiers.extents = s.tiers.extents ∧
      t.clock = s.clock ∧ t.tally = s.tally ∧ t.power = s.power ∧ t.fault.safeHold = s.fault.safeHold

/-- Bring-up powers, releases, verifies and starts in order (R445, R448, R449, R451, R452, R454). -/
def Obligations.BringUpStepsInOrder : Prop :=
  ∀ s : State,
    (s.power.boot = .start → s.chip.fuseProgrammed = true → s.chip.lifeCycle ≠ .scrapped →
      ∃ t, exec .bringUp s = .next t ∧ t.power.boot = .powered ∧ t.power.options = s.chip.optionsNow.1 ∧ t.power.optFromOtp = s.chip.optionsNow.2 ∧
        s.power.resetAt + 800000 ≤ t.clock.now ∧ t.chip = s.chip ∧ t.tally = s.tally) ∧
    (∀ d x, s.power.domains[d]? = some x → x.state = .on → x.released = false → x.wakeEnds = none → s.earlierReleased d = true → s.clockless d = false →
      ∃ t, exec (.domainRelease d) s = .next t ∧ t.power.domains[d]? = some { x with released := true } ∧ (∀ e, e ≠ d → t.power.domains[e]? = s.power.domains[e]?)) ∧
    (s.power.boot = .released → s.chip.slotBoots (s.chip.slot (s.chip.slotRecord % 2)) = true →
      ∃ t, exec .firmwareVerified s = .next t ∧ t.power.boot = .verified ∧ t.power.bootSlot = s.chip.slotRecord % 2 ∧ t.fault.activeSlot = s.chip.slotRecord % 2) ∧
    (s.power.boot = .released → s.chip.slotBoots s.chip.slotA = false → s.chip.slotBoots s.chip.slotB = false →
      ∃ t, exec .firmwareVerified s = .next t ∧ t.power.boot = .failed ∧ t.power.bootFail = true) ∧
    (s.power.boot = .verified → (s.serving.all fun c => s.settled (15 + c) && s.settled (28 + c)) = true → (s.chip.lifeCycle = .provisioned ∨ s.chip.lifeCycle = .field) →
      ∃ t, exec .tidyFirmwareStart s = .next t ∧ t.power.boot = .running ∧ t.host.linkUp = s.host.detect ∧ s.power.resetAt + 46500000 ≤ t.clock.now)

/-- Idle clusters sleep and wake as R433 says, and refresh follows each stack (R348, R430, R432, R433). -/
def Obligations.PowerFollowsWorkAndHeat : Prop :=
  (∀ (s : State) (c : Nat) (k m : Domain), s.power.domains[15 + c]? = some k → s.power.domains[28 + c]? = some m →
    (s.maySleep c = true → k.state = .on → k.released = true → bit (s.reg 0x13008 0) 10 = true →
      ∃ t, exec (.clusterRetention c) s = .next t ∧ t.power.domains[15 + c]? = some { k with state := .retention, released := false } ∧
        s.clock.now + 20000 ≤ t.clock.now ∧ t.place = s.place ∧ t.sess = s.sess ∧ t.mem = s.mem) ∧
    (s.maySleep c = true → s.clusterBusy c = false → Store.get (fun _ => 0) c s.power.idleSince + max 1 (s.regF 0x13008 0 23 16) ≤ s.map.published →
      k.state = .on → k.wakeEnds = none → bit (s.reg 0x13008 0) 11 = true → s.otherAwake c = true →
      ∃ t d, exec (.clusterOff c) s = .next t ∧ t.power.domains[15 + c]? = some d ∧ d.state = .off ∧ t.mem = s.mem ∧ t.place = s.place) ∧
    (s.running = true → s.serving.contains c = true → m.state = .on → m.released = true → (s.matrix.infers.any fun i => i.cluster = c) = false →
      ∃ t d, exec (.matrixDomainOff c) s = .next t ∧ t.power.domains[28 + c]? = some d ∧ d.state = .off ∧ t.power.domains[15 + c]? = some k) ∧
    (s.running = true → s.serving.contains c = true → k.state = .off → k.wakeEnds = none →
      ∃ t d, exec (.clusterWake c false) s = .next t ∧ t.power.domains[15 + c]? = some d ∧ d.wakeEnds = some (t.clock.now + 50000) ∧ d.wakes = (k.wakes + 1) % 65536) ∧
    (∀ e, c < 13 → k.wakeEnds = some e → k.state ≠ .fused →
      ∃ t d, exec (.clusterWakeComplete c) s = .next t ∧ t.power.domains[15 + c]? = some d ∧ d.state = .on ∧ d.released = true ∧ d.wakeEnds = none ∧ e ≤ t.clock.now)) ∧
  (∀ (s : State) (stack : Nat) (hot : Bool), stack < s.chip.part.basinGb / 16 →
    ∃ t, exec (.hbmRefreshRate stack hot) s = .next t ∧ t.tiers.hotStacks.contains stack = hot ∧
      (∀ i, i ≠ stack → t.tiers.hotStacks.contains i = s.tiers.hotStacks.contains i) ∧ t = { s with tiers := { s.tiers with hotStacks := t.tiers.hotStacks } })

/-- The management port answers its commands and refuses a wrong length (R428, R434, R453, R488, R489, R490, R491). -/
def Obligations.ManagementPortAnswers : Prop :=
  (∀ s : State, s.power.boot ≠ .phaseA →
    (∃ t, exec (.mgmtStatus []) s = .next t ∧ t.mgmt.response = mgmtResponse 0x01 [] 0 s.statusBytes ∧ t = { s with mgmt := { s.mgmt with response := t.mgmt.response } }) ∧
    ((s.power.domains.drop 1).any (fun d => d.state = .on) = true → ∃ t, exec (.mgmtTemperature []) s = .next t ∧
      t.mgmt.response = mgmtResponse 0x02 [] 0 (leBytes s.power.tjMax 2 ++ leBytes (s.power.powerMw / 10) 2) ∧
      t = { s with mgmt := { s.mgmt with response := t.mgmt.response }, free := t.free }) ∧
    (∀ k : Byte, ∃ t, exec (.mgmtReservoirLevel [k]) s = .next t ∧ t = { s with mgmt := { s.mgmt with response := t.mgmt.response } } ∧
      (k.toNat < 9 → t.mgmt.response = mgmtResponse 0x03 [k] 0 (leBytes (s.sparesLeft k.toNat) 2 ++ leBytes (s.sparesFitted k.toNat) 2 ++ leBytes (s.fault.exhausted % 512) 2)) ∧
      (9 ≤ k.toNat → t.mgmt.response = mgmtResponse 0x03 [k] 2 [])) ∧
    (∀ args : List Byte, args.length = 4 →
      (∀ e, s.tally.entries.find? (fun e => e.seq = leNat args) = some e → ∃ t, exec (.mgmtTallyRead args) s = .next t ∧
        t.mgmt.response = mgmtResponse 0x04 args 0 e.bytes ∧ t = { s with mgmt := { s.mgmt with response := t.mgmt.response } }) ∧
      (s.tally.entries.find? (fun e => e.seq = leNat args) = none → ∃ t, exec (.mgmtTallyRead args) s = .next t ∧
        t.mgmt.response = mgmtResponse 0x04 args 3 [] ∧ t = { s with mgmt := { s.mgmt with response := t.mgmt.response } })) ∧
    (∃ t, exec (.resetArm [0x4B]) s = .next t ∧ t = { s with mgmt := { s.mgmt with armedAt := some s.clock.now, response := mgmtResponse 0x10 [0x4B] 0 [] } }) ∧
    (∀ k : Byte, k ≠ 0x4B → ∃ t, exec (.resetArm [k]) s = .next t ∧ t = { s with mgmt := { s.mgmt with armedAt := none, response := mgmtResponse 0x10 [k] 4 [] } }) ∧
    (∀ a, s.mgmt.armedAt = some a →
      (s.clock.now < a + 1000000000 → ∀ k : Byte, (k = 1 ∨ k = 2) → ∃ t, exec (.resetGo [k]) s = .next t ∧
        t = { s with mgmt := { s.mgmt with armedAt := none, pendingReset := some (if k = 1 then .warm else .cold), pendingAt := s.clock.now, response := mgmtResponse 0x11 [k] 0 [] } }) ∧
      (∃ t, exec .mgmtArmExpiry s = .next t ∧ t = { s with clock := t.clock, mgmt := { s.mgmt with armedAt := none } } ∧ a + 1000000000 ≤ t.clock.now)) ∧
    (∀ a < 128, ∃ t, exec (.mgmtDynamicAddress a) s = .next t ∧ t = { s with mgmt := { s.mgmt with dynAddr := some a } })) ∧
  (∀ (s : State) (c : List Byte → Instr) (code n : Nat),
    ((c = Instr.mgmtStatus ∧ code = 0x01 ∧ n = 0) ∨ (c = Instr.mgmtTemperature ∧ code = 0x02 ∧ n = 0) ∨ (c = Instr.mgmtReservoirLevel ∧ code = 0x03 ∧ n = 1) ∨
      (c = Instr.mgmtTallyRead ∧ code = 0x04 ∧ n = 4) ∨ (c = Instr.resetArm ∧ code = 0x10 ∧ n = 1)) →
    (s.power.boot = .phaseA → ∀ args, exec (c args) s = .next s) ∧
    (s.power.boot ≠ .phaseA → ∀ args, args.length ≠ n → exec (c args) s = .next { s with mgmt := { s.mgmt with response := mgmtResponse code args 2 [] } }))

/-- A Farzako port trains, replays, retrains and uses its spare lane (R381, R384, R409). -/
def Obligations.FabricPortTrainsAndReplays : Prop :=
  ∀ (s : State) (p : Nat) (q : FzPort), s.fabric.ports[p]? = some q →
    (s.portUsable p = true → s.domOn (5 + p) = true →
      ∃ t, exec (.fzlLinkUp p) s = .next t ∧ t.fabric.ports[p]? = some { q with up := true, retraining := false, agreed := false, isolated := false, lanes := if q.lanes = 0 then 31 else q.lanes } ∧
        t = { s with fabric := { s.fabric with ports := t.fabric.ports } }) ∧
    (q.up = true → q.retraining = false →
      (∀ a, ∃ t, exec (.flitNak p a) s = .next t ∧ t.out.replays = (p, (a + 1) % 4096) :: s.out.replays ∧
        t.out.flits = ((q.flits.kept.dropWhile fun k => k.1 ≠ (a + 1) % 4096).map fun k => (p, k.2)).reverse ++ s.out.flits ∧
        t = { s with fabric := { s.fabric with ports := t.fabric.ports }, tally := t.tally, out := { s.out with replays := t.out.replays, flits := t.out.flits } }) ∧
      (q.txSeq ≠ (q.ackSeq + 1) % 4096 → ∃ t, exec (.flitReplayTimeout p) s = .next t ∧ t.out.replays = (p, (q.ackSeq + 1) % 4096) :: s.out.replays ∧
        t.counter 0x605 p = (s.counter 0x605 p + 1) % 2 ^ 64 ∧
        (∃ r, t.fabric.ports[p]? = some r ∧ r.retraining = (decide (q.nacked = some ((q.ackSeq + 1) % 4096)) && decide (15 ≤ q.replayed))))) ∧
    (q.up = true → ∀ x, ∃ t, exec (.flitReceiveError p x) s = .next t ∧ t.out.naks = (p, (x + 4095) % 4096) :: s.out.naks ∧
        t.fabric.ports[p]? = some { q with rxNext := x % 4096 }) ∧
    (q.retraining = true → ∃ t r, exec (.portRetrainTimeout p) s = .next t ∧ t.fabric.ports[p]? = some r ∧ r.up = false ∧ q.retrainAt + 100000000 ≤ t.clock.now) ∧
    (∀ lane, lane < 5 → q.up = true → bit q.lanes lane = true → q.spareUsed = false →
      (lane = 4 → ∃ t, exec (.laneFailure p lane) s = .next t ∧ t.fabric.ports[p]? = some { q with lanes := setBit q.lanes lane false } ∧ t.tally = s.tally) ∧
      (lane ≠ 4 → bit q.lanes 4 = true → ∃ t, exec (.laneFailure p lane) s = .next t ∧
        t.fabric.ports[p]? = some { q with lanes := setBit q.lanes lane false, spareUsed := true } ∧ t.sparesLeft 6 = s.sparesLeft 6 - 1))

/-- HELLO isolates or agrees, and messages for others are forwarded by the route (R379, R380, R385, R386, R387, R389). -/
def Obligations.HelloAgreesCoordinates : Prop :=
  ∀ (s : State) (p : Nat) (q : FzPort), s.fabric.ports[p]? = some q → s.running = true → s.fabricUp = true → q.up = true →
    (∀ h c, s.helloCause p h = some c → ∃ t r, exec (.hello p h) s = .next t ∧ t.fabric.ports[p]? = some r ∧ r.isolated = true ∧ r.agreed = false ∧
      r.neighbour = h.arrayId ∧ r.neighbourKnown = true ∧ t = { s with fabric := { s.fabric with ports := t.fabric.ports }, tally := t.tally }) ∧
    (∀ h, s.helloCause p h = none → ∃ t r, exec (.hello p h) s = .next t ∧ t.fabric.ports[p]? = some r ∧ r.isolated = false ∧ r.neighbour = h.arrayId ∧
      (s.fabric.coordValid = true → t.fabric.coord = s.fabric.coord ∧ r.agreed = h.coordValid) ∧
      (s.fabric.coordValid = false → h.coordValid = true → t.fabric.coord = s.coordFrom p h.coord ∧ t.fabric.coordValid = true ∧ r.agreed = true) ∧
      (s.fabric.coordValid = false → h.coordValid = false → t.fabric.coordValid = s.lowestSeen h ∧ r.agreed = false)) ∧
    (q.retraining = false → q.agreed = false → ∃ t m, exec (.helloTimer p) s = .next t ∧ t.out.fzl = m :: s.out.fzl ∧ m.hdr.type = 0x50 ∧ m.port = p ∧ m.body = s.helloBody p) ∧
    (q.isolated = false → q.retraining = false → ∀ h : FzlHeader, h.dst ≠ s.self → fzType h.type = true → fzLenOk h.type h.bodyLen = true →
      h.type ∉ [0x40, 0x41, 0x42, 0x50] →
      (h.hops ≤ 1 → p < 64 → ∃ t, exec (.messageForward p h) s = .next t ∧ t.counter 0x607 p = (s.counter 0x607 p + 1) % 2 ^ 64 ∧
        t = { s.taken p h.cls h.bodyLen with tally := t.tally }) ∧
      (∀ r, 1 < h.hops → s.route h.dst = some r → ∃ t, exec (.messageForward p h) s = .next t ∧
        t = { s with fabric := { s.fabric with ports := t.fabric.ports }
                     out := { s.out with fzl := { hdr := { h with hops := h.hops - 1 }, port := r, body := [] } :: s.out.fzl } }))

/-- Views, heartbeats, joins and leaves follow R390 to R392 (R390, R391, R392). -/
def Obligations.ViewsFollowMembership : Prop :=
  ∀ s : State, s.running = true → s.fabricUp = true →
    (∀ n m leader, n < 65536 → bit m s.self = true → n ≠ s.fabric.viewNo → validView s.fabric.members m = true →
      ∃ t, exec (.view n leader m) s = .next t ∧ t.fabric.viewNo = n ∧ t.fabric.members = m ∧ t.fabric.leader = (lowestBit m 64).getD s.self) ∧
    (∀ m leader, bit m s.self = false → s.others ≠ [] →
      ∃ t, exec (.view ((s.fabric.viewNo + 1) % 65536) leader m) s = .next t ∧ t = (s.taken (s.portOf leader) 0 12).isolate) ∧
    (∀ src ∈ s.others,
      (∃ t, exec (.viewAck src s.fabric.viewNo) s = .next t ∧ src ∈ t.fabric.acks ∧ (∀ i, i ≠ src → (i ∈ t.fabric.acks ↔ i ∈ s.fabric.acks)) ∧
        t = { s with fabric := { s.fabric with ports := (s.taken (s.portOf src) 0 2).fabric.ports, acks := t.fabric.acks } }) ∧
      (∀ leaving, ∃ t, exec (.heartbeat src s.fabric.viewNo leaving) s = .next t ∧ Store.get (fun _ => 0) src t.fabric.lastBeat = s.clock.now ∧
        (src ∈ t.fabric.leavers ↔ leaving = true) ∧
          t = { s with fabric := { s.fabric with ports := (s.taken (s.portOf src) 0 3).fabric.ports, lastBeat := t.fabric.lastBeat, leavers := t.fabric.leavers } })) ∧
    (s.fabric.isolated = false → s.fabric.leader ≠ s.self → ∀ p, s.route s.fabric.leader = some p → ∃ t m, exec .heartbeatTimer s = .next t ∧ t.out.fzl = m :: s.out.fzl ∧
      m.hdr.type = 0x55 ∧ m.hdr.dst = s.fabric.leader ∧ m.port = p ∧ m.body = beBytes s.fabric.viewNo 2 ++ beBytes (b2n s.fabric.leaving) 1) ∧
    (s.fabric.isolated = false → s.fabric.leader = s.self → ∀ src ∈ s.others,
      (validView s.fabric.members (setBit s.fabric.members src false) = true →
        (∃ t, exec (.memberTimeout src) s = .next t ∧ t.fabric.viewNo = (s.fabric.viewNo + 1) % 65536 ∧ t.fabric.members = setBit s.fabric.members src false) ∧
        (∀ reason, ∃ t, exec (.leave src reason) s = .next t ∧ t.fabric.viewNo = (s.fabric.viewNo + 1) % 65536 ∧ t.fabric.members = setBit s.fabric.members src false)) ∧
      (validView s.fabric.members (setBit s.fabric.members src false) = false →
        (∃ t, exec (.memberTimeout src) s = .next t ∧ t.fabric = { s.fabric with isolated := true } ∧
          Store.get (fun _ => 0) src s.fabric.lastBeat + s.memberTimeout * 1000000 ≤ t.clock.now) ∧
        (∀ reason, ∃ t, exec (.leave src reason) s = .next t ∧ t = (s.taken (s.portOf src) 0 1).isolate))) ∧
    (s.fabric.leader = s.self → ∀ src h, s.helloCode h = 0 → bit s.fabric.members src = false → s.fabric.isolated = false →
      validView s.fabric.members (setBit s.fabric.members src true) = true →
      ∃ t, exec (.join src h) s = .next t ∧ t.fabric.viewNo = (s.fabric.viewNo + 1) % 65536 ∧ t.fabric.members = setBit s.fabric.members src true) ∧
    (s.fabric.leader = s.self → ∀ src h, s.helloCode h ≠ 0 → ∃ t, exec (.join src h) s = .next t ∧ t.fabric.viewNo = s.fabric.viewNo ∧ t.fabric.members = s.fabric.members) ∧
    (s.fabric.joinSeen = true → ∀ code, code ≠ 0 → ∃ t, exec (.joinReply code) s = .next t ∧
      t = { s with fabric := { s.fabric with ports := (s.taken (s.portOf s.fabric.leader) 0 1).fabric.ports, joinSeen := false } }) ∧
    (s.fabric.leaving = true → (∀ t ∈ s.map.cur.tiles ++ s.map.latest.tiles, t.owner ≠ s.self ∧ t.mirror ≠ some s.self) →
      ∃ t, exec .gracefulLeaveComplete s = .next t ∧ t.fabric.leaving = false ∧ t.fabric.isolated = true ∧ t.fabric.members = setBit 0 s.self true ∧ t.fabric.leader = s.self)

/-- FORCE_VIEW, LEAVE and LINK fields take effect (R367, R368, R389, R391, R392, R469). -/
def Obligations.FabricControlAndLinksTakeEffect : Prop :=
  (∀ s : State, s.Reaches 0 → s.host.privileged = true →
    (∀ r, ∃ t, exec (.forceView 0 r) s = .next t ∧ t.fabric.viewNo = (s.fabric.viewNo + 1) % 65536 ∧ bit t.fabric.members s.self = true ∧
      ∀ i, i < 64 → i ≠ s.self → bit t.fabric.members i = (bit s.fabric.members i && bit r i)) ∧
    (∃ t, exec (.fzlLeave 0) s = .next t ∧ t.fabric = { s.fabric with leaving := s.fabric.leaving || !s.others.isEmpty } ∧
      t.regs.shadowOf s.chip 0x8004 0 = s.regs.shadowOf s.chip 0x8004 0)) ∧
  (∀ s : State,
    (∀ fabric off r, off = (if fabric then 0x8004 else 0x5000) → rowOf off = some r → s.regs.waiting = [(off, 0)] →
      ∃ t, exec (.shadowApplyLink fabric) s = .next t ∧ t.regs.waiting = [] ∧
        t.regs.appliedOf s.chip off 0 = BitVec.ofNat 32 (r.apply (fun b => b = .link) (s.regs.appliedOf s.chip off 0).toNat (s.regs.shadowOf s.chip off 0).toNat) ∧
        (∀ p ∈ s.linkHits off 0 r, (if fabric then (t.fzPort p).up else t.portUp p) = false) ∧ t.ops = s.ops ∧ t.rings = s.rings) ∧
    (∀ p q, s.net.ports[p]? = some q →
      (∃ t, exec (.netLinkChange p false) s = .next t ∧ t.net.ports[p]? = some { q with up := false, at10g := false, fec := false } ∧ t = { s with net := { s.net with ports := t.net.ports } }) ∧
      (s.netUp = true → bit (s.reg 0x5000 0) p = true → s.domOn 4 = true →
        ∃ t r, exec (.netLinkChange p true) s = .next t ∧ t.net.ports[p]? = some r ∧ r.up = true ∧ r.at10g = bit (s.reg 0x5000 0) (2 + p) ∧
          r.fec = (!bit (s.reg 0x5000 0) (2 + p) && bit (s.reg 0x5000 0) (4 + p)) ∧ r.queue = q.queue ∧ t = { s with net := { s.net with ports := t.net.ports } })))

/-- PPS edges, triggers, holdover and the tick follow device time (R357, R358, R359, R363, R364, R365, R366). -/
def Obligations.PpsAndTriggersFollowDeviceTime : Prop :=
  ∀ s : State,
    (s.hasNet = true → s.power.boot = .running → s.timeSource = .pps → s.clock.ppsSetPending = false → s.clock.state ≠ .unset → ∀ off, off = s.secondOffset →
      ∃ t, exec .ppsInEdge s = .next t ∧ t.clock.lastOffset = off ∧ t.clock.ppsSeen = true ∧
        (s.stepLimit < off.natAbs → (t.clock.dev : Int) = s.clock.dev - off * 1024000000000 ∧ t.counter 0x600 0 = (s.counter 0x600 0 + 1) % 2 ^ 64) ∧
        (off.natAbs ≤ s.stepLimit → t.clock.dev = s.clock.dev ∧ t.clock.rate.natAbs ≤ 512000000) ∧
        t.clock.state = (if off.natAbs ≤ 1000 ∧ 15 ≤ s.clock.goodRun then .locked else if s.clock.state = .locked ∧ 1000 < off.natAbs then .free else s.clock.state)) ∧
    (s.clock.ppsSeen = true → ∃ t, exec .ppsSeenTimeout s = .next t ∧ t.clock.ppsSeen = false ∧ s.clock.lastPps + 1500000000 ≤ t.clock.now ∧
      t.clock.state = (if s.timeSource = .pps ∧ s.clock.state = .locked then .holdover else s.clock.state) ∧ t = { s with clock := t.clock }) ∧
    (s.hasNet = true → s.running = true → bit (s.reg 0x6000 0) 4 = true → s.clock.state ≠ .unset → s.net.ppsOut = false →
      ∃ t, exec .ppsOutRise s = .next t ∧ t = { s with clock := t.clock, net := { s.net with ppsOut := true, ppsRoseAt := t.clock.now } } ∧
        (0 < s.clock.speed → (s.devNs + 999999999) / 1000000000 * 1000000000 ≤ t.devNs)) ∧
    (s.net.ppsOut = true → ∃ t, exec .ppsOutFall s = .next t ∧ t = { s with clock := t.clock, net := { s.net with ppsOut := false } } ∧ s.net.ppsRoseAt + 10000000 ≤ t.clock.now) ∧
    (∀ n g, s.net.trigs[n]? = some g →
      (g.running = true → g.level = false → s.clock.state ≠ .unset → s.hasNet = true → s.running = true →
        ∃ t, exec (.triggerEdge n) s = .next t ∧ t = { s with clock := t.clock, net := { s.net with trigs := t.net.trigs } } ∧
          t.net.trigs[n]? = some (if t.clock.now < g.idleUntil then { g with lastEdge := some (s.nextEdge g) }
            else { g with level := true, endsAt := t.clock.now + g.width, lastEdge := some (s.nextEdge g) })) ∧
      (g.level = true → ∃ t, exec (.triggerPulseEnd n) s = .next t ∧ t = { s with clock := t.clock, net := { s.net with trigs := t.net.trigs } } ∧
        t.net.trigs[n]? = some { g with level := false } ∧ g.endsAt ≤ t.clock.now)) ∧
    (s.clock.state = .holdover → ∃ t, exec .holdoverLimit s = .next t ∧ t.clock.state = .free ∧ s.clock.holdoverSince + 600000000000 ≤ t.clock.now ∧ t = { s with clock := t.clock }) ∧
    (∃ t, exec .tick s = .next t ∧ t.clock.lastTick = max ((s.devNs + 999999) / 1000000) (s.clock.lastTick + 1) ∧ t.clock.state = s.clock.state ∧
      (∀ w ∈ t.regs.waiting, ∀ r, rowOf w.1 = some r → ∀ f ∈ r.fields, f.at_ ≠ .tick) ∧ t.ops = s.ops ∧ t.rings = s.rings ∧ t.mem = s.mem)

/-- Array time and PTP messages set, answer and lead time (R358, R360, R361, R362, R387, R396). -/
def Obligations.TimeMessagesAreAnswered : Prop :=
  ∀ s : State, s.running = true →
    (s.fabricUp = true → ∀ p q, s.fabric.ports[p]? = some q → q.carries = true →
      (∀ stamp hops master, master ≠ s.self → s.timeSource = .fabric → s.clock.state = .unset →
        (s.updPort p fun q => { q with masterSeen := some (hops, master), lastSync := some (stamp, s.devNs) }).bestParent = some (p, hops, master) → 0 ≤ (stamp : Int) + q.delay →
        ∃ t, exec (.timeSync p stamp hops master) s = .next t ∧ t.clock.state = .free ∧
          (t.clock.dev : Int) = s.clock.dev - (s.devNs - (stamp + q.delay)) * 1024000000000 ∧
          t.fabric.parentPort = some p ∧ t.fabric.timeHops = hops + 1 ∧ t.fabric.timeMaster = master ∧ t.fabric.lastParentSync = s.clock.now) ∧
      (∀ stamp, ∃ t m, exec (.delayReq p stamp) s = .next t ∧ t.out.fzl = m :: s.out.fzl ∧ m.hdr.type = 0x42 ∧ m.port = p ∧ m.body = beBytes (packTime s.devNs) 8) ∧
      (s.fabric.parentPort = some p → ∃ t m r, exec .delayReqTimer s = .next t ∧ t.out.fzl = m :: s.out.fzl ∧ m.hdr.type = 0x41 ∧ m.port = p ∧
        m.body = beBytes (packTime s.devNs) 8 ∧ t.fabric.ports[p]? = some r ∧ r.reqTx = some s.devNs)) ∧
    (∀ (p : Nat) (q : FzPort) (t1 t2 t3 stamp : Nat), s.fabric.ports[p]? = some q → q.reqTx = some t3 → q.lastSync = some (t1, t2) →
      ∃ t r, exec (.delayResp p stamp) s = .next t ∧ t.fabric.ports[p]? = some r ∧ r.reqTx = none ∧ r.delay = (((t2 : Int) - t1) + ((stamp : Int) - t3)) / 2 ∧ t = { s with fabric := { s.fabric with ports := t.fabric.ports } }) ∧
    (s.fabricUp = true → s.sendsTime = true → s.fabric.parentPort = none → ∃ t l, exec .timeSyncTimer s = .next t ∧ t.out.fzl = l ++ s.out.fzl ∧
      (∀ m ∈ l, m.hdr.type = 0x40 ∧ m.body = beBytes (packTime s.devNs) 8 ++ beBytes 0 1 ++ beBytes s.self 1) ∧
      ∀ p, p < 6 → ((s.fzPort p).carries = true ↔ ∃ m ∈ l, m.port = p)) ∧
    (∀ p, s.fabric.parentPort = some p → s.timeSource = .fabric → s.fabric.ports.length = 6 → p < 6 → s.clock.state = .locked → ∃ t, exec .timeSyncTimeout s = .next t ∧ t.clock.state = .holdover ∧
      t.fabric.parentPort ≠ some p ∧ s.fabric.lastParentSync + s.memberTimeout * 1000000 ≤ t.clock.now) ∧
    (s.ptpOn = true →
      (∀ p1 cc p2 id, id ≠ s.clockIdentity → s.clock.ptpParent = none → datasetBetter [p1, cc, p2, id] s.ownDataset = true →
        ∃ t, exec (.ptpMessage (.announce p1 cc p2 id)) s = .next t ∧ t.clock.ptpParent = some id ∧ t.clock.ptpSet = [p1, cc, p2, id] ∧ t.clock.ptpMaster = false ∧ t = { s with clock := t.clock }) ∧
      (∃ t, exec .ptpAnnounceTimeout s = .next t ∧ t.clock.ptpParent = none ∧ t.clock.ptpMaster = !bit (s.reg 0x5000 0) 13 ∧
        t.clock.state = (if s.clock.ptpParent.isSome ∧ s.timeSource = .ptp ∧ s.clock.state = .locked then .holdover else s.clock.state) ∧ t = { s with clock := t.clock }) ∧
      (s.clock.ptpMaster = true → s.ptpPeer = false → s.clock.ptpParent = none → ∃ t, exec .ptpMessageInterval s = .next t ∧
        (bit (s.reg 0x5000 0) 9 = true → t.out.ptp = [{ port := s.ptpPort, msg := .sync s.clockIdentity (s.txStamp s.ptpPort) false },
          { port := s.ptpPort, msg := .announce (s.regF 0x5004 0 15 8) (s.regF 0x5004 0 31 24) (s.regF 0x5004 0 23 16) s.clockIdentity }] ++ s.out.ptp) ∧
        t = { s with out := { s.out with ptp := t.out.ptp } }))

/-- SESSION_KEY stores its key; sessions open and close with their outcomes (R109, R110, R111, R112, R113, R115, R116, R138). -/
def Obligations.SessionsOpenAndClose : Prop :=
  (∀ (s : State) (id : Nat) (o : Op), s.Runs id 0x0A o →
    (∀ r, keyCheck s o = some r → ∃ t, exec (.sessionKey id) s = .next t ∧ t.Ended id r.status r.count r.detail ∧ OthersKept s t id ∧ t = { s with ops := t.ops }) ∧
    (keyCheck s o = none → ∃ t k, exec (.sessionKey id) s = .next t ∧ t.Ended id St.ok 0 0 ∧ OthersKept s t id ∧ t.keySlot o.handle = some k ∧
      ((s.session o.handle).isSome = true ∧ (s.keySlot o.handle).isSome = true → k.next = some (BitVec.ofNat 256 (fld o.desc 16 32), o.u8 48)) ∧
      ((s.session o.handle).isSome = false ∨ (s.keySlot o.handle).isSome = false → k.cur = some (BitVec.ofNat 256 (fld o.desc 16 32), o.u8 48) ∧ k.net.txSeq = 0) ∧
      (∀ j, j ≠ o.handle → t.keySlot j = s.keySlot j) ∧ t = { s with ops := t.ops, sess := { s.sess with keys := t.sess.keys } })) ∧
  (∀ (s : State) (id : Nat) (o : Op),
    (s.Runs id 0x08 o →
      (∀ r, openCheck s o = some r → ∃ t, exec (.sessionOpen id) s = .next t ∧ t.Ended id r.status r.count r.detail ∧ OthersKept s t id ∧ t = { s with ops := t.ops }) ∧
      (openCheck s o = none → ∃ t x, exec (.sessionOpen id) s = .next t ∧ t.Ended id St.ok 0 0 ∧ t.session o.handle = some x ∧ x.fn = o.fn ∧ x.kind = kindOf (o.u8 16) ∧
        x.state = (if o.u8 17 = 1 then .opened else .admitted) ∧ x.declLoad = (if o.u8 17 = 1 then o.u16 24 * loadDen else 0) ∧ x.cfg = x.nextCfg ∧
        t.regs = s.regs ∧ t.rings = s.rings ∧ t.host = s.host)) ∧
    (s.Runs id 0x09 o → o.u8 16 ≤ 1 → ∀ x, s.session o.handle = some x →
      (x.fn ≠ o.fn → ∃ t, exec (.sessionClose id) s = .next t ∧ t.Ended id St.accessDenied 0 3 ∧ OthersKept s t id ∧ t = { s with ops := t.ops }) ∧
      (x.fn = o.fn → ∃ t, exec (.sessionClose id) s = .next t ∧
        t.Ended id St.ok 0 (b2n (decide (x.state = .closed)) + x.replies.length % 256 * 256 + x.reasm.length % 65536 * 65536) ∧
        t.session o.handle = none ∧ t.keySlot o.handle = none ∧ t.regs = s.regs ∧ t.rings = s.rings ∧ t.host = s.host)))

/-- SESSION_TUNE subops 1 to 8 set the stream settings they name and nothing else (R117, R118, R128, R130, R141, R143, R148). -/
def Obligations.TuneSetsStreamSettings : Prop :=
  ∀ (s : State) (id sid : Nat) (o : Op) (x : Session),
    (s.Tunes id 0x01 sid o x → o.u8 17 ≤ 2 → o.u8 18 ≤ 1 → ∃ t, exec (.setFilter id) s = .next t ∧
      Tuned s t id sid { x.nextCfg with base := { x.nextCfg.base with preset := o.u8 17, mode := o.u8 18 } } ∧ ∃ y, t.session sid = some y ∧ y.restartAtFrame = true) ∧
    (s.Tunes id 0x02 sid o x → thresholdOk (o.f32 20) = true → thresholdOk (o.f32 24) = true → ∃ t, exec (.setThresholds id) s = .next t ∧
      Tuned s t id sid { x.nextCfg with base := { x.nextCfg.base with shockLimit := if F32.isZero (o.f32 20) then 0x421CCCCD else o.f32 20,
                                                                      tipRate := if F32.isZero (o.f32 24) then 0x3FC00000 else o.f32 24 } }) ∧
    (s.Tunes id 0x03 sid o x → zeroOr 1000 1000000 (o.u32 20) = true → zeroOr 100 10000 (o.u16 26) = true → zeroOr 1 3600 (o.u16 28) = true → zeroOr 5 200 (o.u8 30) = true →
      ∃ t, exec (.setTimers id) s = .next t ∧
        Tuned s t id sid { x.nextCfg with base := { x.nextCfg.base with replyOffset := keep0 (o.u32 20) x.nextCfg.base.replyOffset, keepalive := keep0 (o.u16 26) x.nextCfg.base.keepalive,
                                                                        linger := keep0 (o.u16 28) x.nextCfg.base.linger, window := keep0 (o.u8 30) x.nextCfg.base.window } }) ∧
    (s.Tunes id 0x04 sid o x → (if x.hostPath then loadOf x.decl.width x.decl.height x.decl.images x.nextCfg.base.hostRate else x.declLoad) ≤ o.u16 24 * loadDen →
      (x.hostPath = true → x.declLoad < o.u16 24 * loadDen → s.loadFits (s.totalLoad - x.declLoad + o.u16 24 * loadDen) = true) →
      ∃ t, exec (.setMaxLoad id) s = .next t ∧ Tuned s t id sid { x.nextCfg with base := { x.nextCfg.base with maxLoad := o.u16 24 } }) ∧
    (s.Tunes id 0x05 sid o x → x.hostPath = true → 1 ≤ o.u32 20 → o.u32 20 ≤ 60000 → loadOf x.decl.width x.decl.height x.decl.images (o.u32 20) ≤ x.nextCfg.base.maxLoad * loadDen →
      ∃ t, exec (.setHostRate id) s = .next t ∧ Tuned s t id sid { x.nextCfg with base := { x.nextCfg.base with hostRate := o.u32 20 } }) ∧
    (s.RunsSub id 0x0B 0x08 o → o.fn = 0 → o.handle = 0xFFFFFFFF → o.u16 20 ≤ 4096 → fld o.desc 22 2 ≤ 81920 → ∃ t, exec (.setLimits id) s = .next t ∧ t.Ended id St.ok 0 0 ∧ OthersKept s t id ∧
      t = { s with ops := t.ops, sess := { s.sess with openLimit := o.u16 20, streamLimit := o.u16 22 } })

/-- SESSION_TUNE subops 0x20 to 0x35 set fusion and tracking settings and nothing else (R117, R154, R156, R162, R166, R172, R191,
R193, R197, R200, R201, R204). -/
def Obligations.TuneSetsFusionAndTracking : Prop :=
  (∀ (s : State) (id sid : Nat) (o : Op) (x : Session),
    (s.Tunes id 0x20 sid o x → o.u8 17 ≤ 15 → o.u8 18 ≤ 127 → zeroOrF 0x3F800000 0x447A0000 (o.f32 20) = true → ∃ t, exec (.setGates id) s = .next t ∧
      Tuned s t id sid { x.nextCfg with fusion := { x.nextCfg.fusion with contraLimit := keep0 (o.u8 17) x.nextCfg.fusion.contraLimit, recover := keep0 (o.u8 18) x.nextCfg.fusion.recover,
                                                                          gate := if o.f32 20 = 0 then x.nextCfg.fusion.gate else o.f32 20 } }) ∧
    (s.Tunes id 0x21 sid o x → o.u8 17 ≤ 6 → ∃ t, exec (.setPrecedence id) s = .next t ∧
      Tuned s t id sid { x.nextCfg with fusion := { x.nextCfg.fusion with precedence := keep0 (o.u8 17) x.nextCfg.fusion.precedence } }) ∧
    (s.Tunes id 0x22 sid o x → o.u8 17 ≤ 2 → zeroOrF 0x3D4CCCCD 0x41200000 (o.f32 20) = true → ∃ t, exec (.setReply id) s = .next t ∧
      Tuned s t id sid { x.nextCfg with fusion := { x.nextCfg.fusion with lateDrop := if o.u8 17 = 0 then x.nextCfg.fusion.lateDrop else decide (o.u8 17 = 2),
                                                                          holdLimit := if o.f32 20 = 0 then x.nextCfg.fusion.holdLimit else o.f32 20 } }) ∧
    (s.Tunes id 0x23 sid o x → zeroOr 2 15 (o.u8 17) = true → ∃ t, exec (.setTime id) s = .next t ∧
      Tuned s t id sid { x.nextCfg with fusion := { x.nextCfg.fusion with unlockSearch := keep0 (o.u8 17) x.nextCfg.fusion.unlockSearch } }) ∧
    (s.Tunes id 0x24 sid o x → o.u64 24 ≠ 0 → poseOk (s.readMem (o.u64 24) 36) = true → ∃ t, exec (.setPose id) s = .next t ∧ Tuned s t id sid x.nextCfg ∧
      ∃ y, t.session sid = some y ∧ y.pendingPose = some (readPose (s.readMem (o.u64 24) 36))) ∧
    (s.Tunes id 0x25 sid o x → o.u8 17 ≤ 2 → zeroOr 60 65535 (o.u16 20) = true → ∃ t, exec (.setCalibRefine id) s = .next t ∧
      Tuned s t id sid { x.nextCfg with fusion := { x.nextCfg.fusion with calibEnable := if o.u8 17 = 0 then x.nextCfg.fusion.calibEnable else decide (o.u8 17 = 2),
                                                                          calibPeriod := keep0 (o.u16 20) x.nextCfg.fusion.calibPeriod } })) ∧
  (∀ (s : State) (id sid : Nat) (o : Op) (x : Session),
    (s.Tunes id 0x30 sid o x → o.u64 24 ≠ 0 → calibOk (s.readMem (o.u64 24) 136) = true → ∃ t, exec (.setCalibration id) s = .next t ∧
      Tuned s t id sid { x.nextCfg with track := { x.nextCfg.track with calib := s.readMem (o.u64 24) 136, calibVersion := (x.nextCfg.track.calibVersion + 1) % 2 ^ 32 } }) ∧
    (s.Tunes id 0x30 sid o x → o.u64 24 ≠ 0 → calibOk (s.readMem (o.u64 24) 136) = false → ∃ t, exec (.setCalibration id) s = .next t ∧ t.Ended id St.badDescriptor 0 0x518 ∧
      OthersKept s t id ∧ t = { s with ops := t.ops }) ∧
    (s.Tunes id 0x31 sid o x → zeroOr 2 255 (o.u8 17) = true → zeroOr 1 100 (o.u8 18) = true → ∃ t, exec (.setRefine id) s = .next t ∧
      Tuned s t id sid { x.nextCfg with track := { x.nextCfg.track with confThreshold := keep0 (o.u8 17) x.nextCfg.track.confThreshold, refineLimit := keep0 (o.u8 18) x.nextCfg.track.refineLimit } }) ∧
    (s.Tunes id 0x32 sid o x → o.u8 17 ≤ 2 → zeroOr 8 64 (o.u16 20) = true → zeroOr 8 255 (o.u16 22) = true → ∃ t, exec (.setSearch id) s = .next t ∧
      Tuned s t id sid { x.nextCfg with track := { x.nextCfg.track with forcePyramid := if o.u8 17 = 0 then x.nextCfg.track.forcePyramid else decide (o.u8 17 = 2),
                                                                        window := keep0 (o.u16 20) x.nextCfg.track.window, minMatches := keep0 (o.u16 22) x.nextCfg.track.minMatches } }) ∧
    (s.Tunes id 0x33 sid o x → o.u8 17 ≤ 127 → o.u8 18 ≤ 15 → zeroOr 64 4096 (o.u16 20) = true → ∃ t, exec (.setFeatures id) s = .next t ∧
      Tuned s t id sid { x.nextCfg with track := { x.nextCfg.track with segThreshold := keep0 (o.u8 17) x.nextCfg.track.segThreshold, cellLimit := keep0 (o.u8 18) x.nextCfg.track.cellLimit,
                                                                        maxCorners := keep0 (o.u16 20) x.nextCfg.track.maxCorners } }) ∧
    (s.Tunes id 0x34 sid o x → (o.u8 17 = 0 ∨ o.u8 17 = 64 ∨ o.u8 17 = 128) → ∃ t, exec (.setStereo id) s = .next t ∧
      Tuned s t id sid { x.nextCfg with track := { x.nextCfg.track with disp64 := if o.u8 17 = 0 then x.nextCfg.track.disp64 else decide (o.u8 17 = 64),
                                                                        flatLimit := keep0 (o.u8 18) x.nextCfg.track.flatLimit } }) ∧
    (s.Tunes id 0x35 sid o x → o.u8 17 < 8 → o.u8 18 < 8 → ∃ t, exec (.setRetain id) s = .next t ∧
      Tuned s t id sid { x.nextCfg with track := { x.nextCfg.track with retain := (x.nextCfg.track.retain &&& (7 - o.u8 17)) + (o.u8 18 &&& o.u8 17) } }))

/-- A frame is submitted, is seen by the vision core and fused, and its reply is launched, dropped as stale, or sent at once
(R141, R152, R177, R184, R186, R200). -/
def Obligations.FramesPassVisionAndFusion : Prop :=
  ∀ s : State,
    (∀ id o x, s.Runs id 0x10 o → s.Uses o x → submitCheck s o x = none → ∃ t p y f, exec (.frameSubmit id) s = .next t ∧ t.findOp id = some p ∧ p.phase = .waiting ∧
      p.committed = true ∧ t.session o.handle = some y ∧ f ∈ y.frames ∧ f.frameNo = o.u32 60 ∧ f.op = some id ∧ f.capture = fld o.desc 48 6 * 1000000000 + o.u32 54 ∧
      y.cfg = x.nextCfg ∧ y.lastAccepted = some f.capture) ∧
    (∀ id o x r, s.Runs id 0x10 o → s.Uses o x → submitCheck s o x = some r → ∃ t, exec (.frameSubmit id) s = .next t ∧ JustEnded s t id r) ∧
    (∀ sid x f, s.session sid = some x → x.kind ≠ .station → x.unseen = some f → s.running = true → s.domOn (15 + x.cluster) = true → s.nextSeen x f = true →
      ∃ t y g r, exec (.visionFrame sid f.frameNo) s = .next t ∧ t.session sid = some y ∧ g ∈ y.frames ∧ g.seq = f.seq ∧ g.vision = some r ∧
        r.frameNo = f.frameNo ∧ r.capture = f.capture) ∧
    (∀ sid no x f r, s.session sid = some x → x.fusable no = some (f, r) → s.running = true → x.motionReady f = true →
      ∃ t y, exec (.fusionFrame sid no) s = .next t ∧ t.session sid = some y ∧ y.results.head? = some r ∧ (∀ g ∈ y.frames, g.seq ≠ f.seq) ∧
        (f.op = none → ∃ p, y.replies = x.replies ++ [p] ∧ p.frameNo = no ∧ p.capture = f.capture ∧ p.launch = f.launch ∧ p.eligible = s.devNs) ∧
        (∀ id o, f.op = some id → s.findOp id = some o → o.phase ≠ .final → o.opcode = 0x10 → o.committed = true → (∀ c ∈ x.copies, c.1 ≠ id) →
          ∃ st d, t.Ended id st 148 d ∧ (st = St.ok ∨ st = St.okDegraded))) ∧
    (∀ sid no x f r, s.session sid = some x → x.fusable no = some (f, r) → x.motionReady f = false →
      ∃ t y g, exec (.motionShort sid no) s = .next t ∧ t.session sid = some y ∧ g ∈ y.frames ∧ g.frameNo = no ∧ g.motionShort = true ∧
        t.counter 0x304 0 = (s.counter 0x304 0 + 1) % 2 ^ 64 ∧ (0 < s.clock.speed → f.launch - 1000000 ≤ t.devNs)) ∧
    (∀ sid x, s.session sid = some x → x.kind ≠ .station → s.running = true → x.frames = [] → x.decl.period ≠ 0 → (x.state = .opened ∨ x.state = .silent) →
      ∃ t y, exec (.fusionIntervalClose sid) s = .next t ∧ t.session sid = some y ∧ y.fusion.intervalEnd = max x.fusion.intervalEnd x.openedAt + x.decl.period ∧
        (0 < s.clock.speed → y.fusion.intervalEnd ≤ t.devNs)) ∧
    (∀ sid x r rest, s.session sid = some x → x.replies = r :: rest → ∃ t y, exec (.replyLaunch sid) s = .next t ∧ t.session sid = some y ∧ y.replies = rest ∧
      (bit r.record.flags 3 = false → r.launch < r.eligible → pastPeriods r.rate 1 1 (r.eligible - r.launch) = true →
        t.out.usp = s.out.usp ∧ t.counter 0x30C 0 = (s.counter 0x30C 0 + 1) % 2 ^ 64) ∧
      (∀ k key p, s.keySlot sid = some k → k.cur = some key → k.net.haveSrc = true → s.net.stopped = false → s.exitPort k.net.src = some p →
        (bit r.record.flags 3 = true ∨
          (r.eligible ≤ r.launch ∧ s.clock.rate = 0 ∧ s.devNs ≤ r.launch ∧ ((s.net.ports[p]?).all fun q => decide (q.busyUntil ≤ s.clock.now * 100)) = true)) →
        ∃ m, t.out.usp = m :: s.out.usp ∧ m.kind = 7 ∧ m.session = sid ∧ m.port = p ∧ m.body = (x.leaving r).body false))

/-- EVENT_WAIT delivers the events it covers, and TRACK_QUERY copies the result it names, waits for it, or says that there is none
(R119, R171, R175, R176, R177, R178). -/
def Obligations.EventsAndResultsAreRead : Prop :=
  ∀ (s : State) (id : Nat) (o : Op) (x : Session),
    (s.RunsSub id 0x0B 0x10 o → within 1 4096 (o.u16 32) = true → (o.handle = 0xFFFFFFFF ∨ s.Uses o x) → (∀ p ∈ s.ops.list, p.phase = .waiting → p.opcode ≠ 0x0B) →
      ∀ r, r = takeEvents o.coversEvents (o.u16 32) s.sess.list →
        (r.2 = [] → ∃ t, exec (.eventWait id) s = .next t ∧ t.findOp id = some { o with phase := .waiting, began := true } ∧ OthersKept s t id ∧ t = { s with ops := t.ops }) ∧
        (r.2 ≠ [] → ∃ t, exec (.eventWait id) s = .next t ∧ WroteAndEnded s t id (o.u64 24) r.2.flatten (Res.ok r.2.length 0) ∧ t.sess = { s.sess with list := r.1 } ∧
          t = { s with ops := t.ops, sess := t.sess, mem := t.mem, tiers := t.tiers })) ∧
    (let Q : Nat → Instr → Prop := fun q c => s.RunsSub id 0x11 q o → s.Uses o x → x.copies.find? (fun c => c.1 = id) = none →
      (if q = 1 then o.u8 17 ≤ 2 else o.u8 17 = 0) → o.u8 18 = 0 → o.u8 19 = 0 → 32 ≤ o.u32 32 → o.u32 36 = 0 → o.u64 40 = 0 →
      (∀ r, (if o.u32 20 = 0 then x.results.head? else x.results.find? fun r => r.frameNo = o.u32 20) = some r →
        (x.frames = [] → bit r.retain (q - 1) = true → ∀ n, n = min (queryItems o r).1 ((o.u32 32 - 32) / itemSize o r) → ∃ t, exec c s = .next t ∧
          WroteAndEnded s t id (o.u64 24) (r.header (queryItems o r).1 ++ (queryItems o r).2 n)
            { status := if n < (queryItems o r).1 then St.okPartial else St.ok, count := n, detail := (queryItems o r).1 + r.mode * 2 ^ 32 + r.flags * 2 ^ 40 } ∧
          t = { s with ops := t.ops, mem := t.mem, tiers := t.tiers }) ∧
        (x.frames = [] → bit r.retain (q - 1) = false → ∃ t, exec c s = .next t ∧ JustEnded s t id (Res.bound 0x11)) ∧
        (x.frames ≠ [] → ∃ t y, exec c s = .next t ∧ t.findOp id = some { o with began := true } ∧ t.session o.handle = some y ∧ y.copies = x.copies ++ [(id, r.frameNo)])) ∧
      (o.u32 20 ≠ 0 → (x.results.any fun r => r.frameNo = o.u32 20) = false →
        ((x.frames.any fun f => f.frameNo = o.u32 20) = true → ∃ t, exec c s = .next t ∧ t.findOp id = some { o with began := true } ∧ OthersKept s t id ∧ t = { s with ops := t.ops }) ∧
        ((x.frames.any fun f => f.frameNo = o.u32 20) = false →
          ∃ t, exec c s = .next t ∧ JustEnded s t id (Res.bound (if x.acceptedNos.contains (o.u32 20) then 0x10 else 0x12))))
     Q 1 (.trackQueryFeatures id) ∧ Q 2 (.trackQueryTracks id) ∧ Q 3 (.trackQueryDisparity id)) ∧
    (s.RunsSub id 0x11 4 o → s.hasNet = true → s.Uses o x → o.u8 17 = 0 → o.u8 18 ≤ 1 → o.u8 19 ≤ 1 → o.u32 20 = 0 → ∀ n pts, n = o.u32 36 → within 1 1048576 n = true →
      pts = cut 16 n (s.readMem (o.u64 40) (16 * n)) → (pts.all fun p => fld p 12 4 = 0) = true →
      ∀ out, out = pts.map (projectPoint x.cfg.track.calib x.decl.width x.decl.height (o.u8 18 = 1) (o.u8 19 = 0)) →
      ∃ t, exec (.trackQueryProject id) s = .next t ∧ WroteAndEnded s t id (o.u64 24) ((out.take (min n (o.u32 32 / 12))).flatMap (·.1))
        { status := if o.u32 32 / 12 < n then St.okPartial else St.ok, count := min n (o.u32 32 / 12), detail := (out.filter (·.2)).length } ∧
        t = { s with ops := t.ops, mem := t.mem, tiers := t.tiers })

/-- Session timers expire, calibration refines, and sessions move between clusters (R113, R114, R115, R134, R200, R305, R306,
R307). -/
def Obligations.SessionTimersAct : Prop :=
  ∀ (s : State) (sid : Nat) (x : Session), s.session sid = some x →
    (∀ no r, x.reasm.find? (fun r => r.frameNo = no) = some r → ∃ t y, exec (.reassemblyTimeout sid no) s = .next t ∧ t.session sid = some y ∧ (∀ q ∈ y.reasm, q.frameNo ≠ no) ∧
      y.lastDone = some (max (x.lastDone.getD 0) no) ∧ (0 < s.clock.speed → r.capture + x.cfg.base.window * 1000000 ≤ t.devNs)) ∧
    (∀ k, s.keySlot sid = some k → x.state = .opened → x.hostPath = false → ∃ t y, exec (.silentTimeout sid) s = .next t ∧ t.session sid = some y ∧ y.state = .silent ∧
      k.net.lastValid + 3 * x.cfg.base.keepalive * 1000000 ≤ t.clock.now) ∧
    (∀ k, s.keySlot sid = some k → x.state = .silent → ∃ t y l, exec (.lingerExpiry sid) s = .next t ∧ t.session sid = some y ∧ y.state = .closed ∧ y.declLoad = 0 ∧ y.replies = [] ∧ y.reasm = [] ∧
      t.keySlot sid = some l ∧ l.cur = none ∧ l.next = none ∧ k.net.lastValid + x.cfg.base.linger * 1000000000 ≤ t.clock.now) ∧
    (x.calibQueued = false → s.running = true → x.cfg.fusion.calibEnable = true → x.state = .opened → x.cfg.track.calib ≠ [] → x.kind ≠ .station →
      x.cfg.fusion.calibPeriod * 1000000000 ≤ x.calibDue → ∃ t y, exec (.calibSolveQueue sid) s = .next t ∧ t.session sid = some y ∧ y.calibQueued = true ∧
        y.calibDue = x.calibDue - x.cfg.fusion.calibPeriod * 1000000000 ∧ t = { s with sess := { s.sess with list := t.sess.list } }) ∧
    (x.calibQueued = true → s.running = true → s.freeAbacus.isSome = true →
      (∀ p ∈ s.ops.list, p.opcode = 0x28 → p.phase = .started → p.began = false → p.cls < 2 → s.workspaceBusy p = true) → ∃ t y, exec (.calibSolveResult sid) s = .next t ∧ t.session sid = some y ∧ y.calibQueued = false ∧
      (y.cfg.track.calibVersion = (x.cfg.track.calibVersion + 1) % 2 ^ 32 ∨ (y.cfg = x.cfg ∧ t.counter 0x30D 0 = (s.counter 0x30D 0 + 1) % 2 ^ 64))) ∧
    (∀ c a b, s.cluster c = some b → s.cluster x.cluster = some a → x.frames = [] → b.role = .inService → c ≠ x.cluster → s.running = true →
      (x.moving = none → (s.moveReason a b).isSome = true → ∃ t y, exec (.sessionMove sid c) s = .next t ∧ t.session sid = some y ∧ y.moving = some c ∧ y.cluster = x.cluster) ∧
      (x.moving = some c → ∃ t y, exec (.sessionMove sid c) s = .next t ∧ t.session sid = some y ∧ y.cluster = c ∧ y.moving = none ∧ y.moves = min 65535 (x.moves + 1) ∧
        t.place.movesDone = s.place.movesDone + 1 ∧ t.counter 0x500 0 = (s.counter 0x500 0 + 1) % 2 ^ 64))

/-- NET_SEND and NET_RECV_POST queue, launch and deliver frames (R131, R132, R135, R367, R370, R371, R373, R375). -/
def Obligations.NetPortsSendAndReceive : Prop :=
  ∀ s : State,
    (∀ id o, s.Runs id 0x40 o →
      (∀ r, s.netSendCheck o = some r → ∃ t, exec (.netSend id) s = .next t ∧ JustEnded s t id r) ∧
      (s.netSendCheck o = none → (bit (o.u8 27) 0 = true → o.lateDrop = true → s.txStamp (o.u8 26) ≤ o.launchNs) → ∃ t p q f, exec (.netSend id) s = .next t ∧
        t.findOp id = some { o with phase := .waiting, began := true } ∧ s.net.ports[o.u8 26]? = some q ∧ t.net.ports[o.u8 26]? = some p ∧ p.queue = q.queue ++ [f] ∧ f.op = some id ∧
        f.bytes = s.readMem (o.u64 16) (o.u16 24) ∧ f.launch = (if bit (o.u8 27) 0 then some o.launchNs else none) ∧ f.cls = o.cls ∧ t = { s with ops := t.ops, net := t.net })) ∧
    (∀ id o, s.Runs id 0x41 o →
      (o.fn ≠ s.passFn → ∃ t, exec (.netRecvPost id) s = .next t ∧ JustEnded s t id (Res.denied 3)) ∧
      (o.fn = s.passFn → 80 ≤ o.u32 24 → ∃ t, exec (.netRecvPost id) s = .next t ∧ t.findOp id = some { o with phase := .waiting, began := true } ∧ OthersKept s t id ∧ t = { s with ops := t.ops })) ∧
    (∀ port q g, s.net.ports[port]? = some q → s.netUp = true → q.up = true → q.queue = [g] → s.replyLaunchAt port = none → (∀ o, g.op.bind s.findOp = some o → o.late = false) →
      (g.launch = none → ∃ t stamp r, exec (.frameLaunch port) s = .next t ∧ t.out.eth = (port, stamp, g.bytes) :: s.out.eth ∧ t.net.ports[port]? = some r ∧ r.queue = [] ∧
        r.busyUntil = s.portFree port + q.wire g.len ∧ (∀ id o, g.op = some id → s.findOp id = some o → o.phase ≠ .final → ∃ d, t.Ended id St.ok g.len d)) ∧
      (∀ l, g.launch = some l → s.devAt (s.portFree port) < s.launchPoint port l → ∃ t, exec (.frameLaunch port) s = .next t ∧ t.out.eth = (port, l, g.bytes) :: s.out.eth)) ∧
    (∀ f, s.netUp = true → s.portUp f.port = true → f.port < 2 →
      ((f.fcsOk = false ∨ f.bytes.length < 60 ∨ 9212 < f.bytes.length) →
        ∃ t, exec (.netFrameReceive f) s = .next t ∧ t.counter 0x601 f.port = (s.counter 0x601 f.port + 1) % 2 ^ 64 ∧ t = { s with tally := t.tally }) ∧
      (f.fcsOk = true → 60 ≤ f.bytes.length → f.bytes.length ≤ 9212 →
        (f.proto = .pause → ∃ t, exec (.netFrameReceive f) s = .next t ∧ t.counter 0x60A f.port = (s.counter 0x60A f.port + 1) % 2 ^ 64 ∧ t = { s with tally := t.tally }) ∧
        (f.proto = .other → (∀ o ∈ s.ops.list, o.phase = .waiting → o.postCovers f.port = false) →
          ∃ t, exec (.netFrameReceive f) s = .next t ∧ t.counter 0x603 f.port = (s.counter 0x603 f.port + 1) % 2 ^ 64 ∧ t = { s with tally := t.tally }) ∧
        (∀ o, f.proto = .other → s.ops.list.find? (fun o => o.phase = .waiting && o.postCovers f.port) = some o → s.findOp o.id = some o → f.bytes.length + 16 ≤ o.u32 24 → s.clock.state ≠ .unset →
          ∃ t, exec (.netFrameReceive f) s = .next t ∧ WroteAndEnded s t o.id (o.u64 16)
            (leBytes (packTime (s.rxStamp f.port)) 8 ++ leBytes f.port 1 ++ zeros 3 ++ leBytes f.bytes.length 4 ++ f.bytes) (Res.ok f.bytes.length f.bytes.length)) ∧
        (∀ mac ip udp v6 src (p : List Byte) k key body, f.proto = .udp mac ip udp v6 false false src p → s.isSession f.port mac ip udp v6 = true → uspFormOk p = true →
          s.keySlot (bfld p 4 4) = some k → k.find (bfld p 2 1) = some (key, false) → openUsp key p = some body → k.net.replay.fresh (bfld p 8 8) = false →
          ∃ t, exec (.netFrameReceive f) s = .next t ∧ t.counter 0x204 0 = (s.counter 0x204 0 + 1) % 2 ^ 64 ∧ t = { s with tally := t.tally })))

/-- MAP_READ answers from the epoch it names and EPOCH_WAIT waits for its epoch (R18, R22, R23, R27, R225). -/
def Obligations.MapReadsAnswerFromEpoch : Prop :=
  ∀ (s : State) (id : Nat) (o : Op),
    (let F : Nat → Instr → Prop := fun w c => s.RunsSub id 0x18 w o →
      (∀ r, mapReadCheck o = some r → ∃ t, exec c s = .next t ∧ JustEnded s t id r) ∧
      (∀ r, mapReadCheck o = none → s.viewFor o 40 = .error r → ∃ t, exec c s = .next t ∧ JustEnded s t id r) ∧
      (∀ v, mapReadCheck o = none → s.viewFor o 40 = .ok v → s.requestsOf id = [] → s.peersOf v o.rect = [] →
        (w = 1 → (s.readData o v).length ≤ o.u32 28 → ∃ t, exec c s = .next t ∧ WroteAndEnded s t id (o.u64 32) (s.readData o v) (Res.ok (s.readData o v).length (s.readData o v).length)) ∧
        (w = 1 → o.u32 28 < (s.readData o v).length → ∃ t, exec c s = .next t ∧ t.Ended id St.boundReached 0 (0x80 + (s.readData o v).length * 2 ^ 32) ∧ t.mem = s.mem) ∧
        (w ≠ 1 → ∀ r, r = listResult (o.epoch 40) w (o.u32 28) (unpackTiles (recordSize w) (rectArea o.rect) (s.readData o v)) → ∃ t, exec c s = .next t ∧
          WroteAndEnded s t id (o.u64 32) r.1 { status := if r.2.1 < r.2.2 then St.okPartial else St.ok, count := r.1.length, detail := r.2.1 }))
     F 1 (.mapReadTileImage id) ∧ F 2 (.mapReadKeyframes id) ∧ F 3 (.mapReadLinks id) ∧ F 4 (.mapReadPoints id) ∧ F 5 (.mapReadObservations id)) ∧
    (s.Runs id 0x1A o →
      (o.waitTarget ≤ s.map.published → ∃ t, exec (.epochWait id) s = .next t ∧ JustEnded s t id (Res.ok 0 s.map.published)) ∧
      (s.map.published < o.waitTarget → ∃ t, exec (.epochWait id) s = .next t ∧ t.findOp id = some { o with phase := .waiting, began := true } ∧ OthersKept s t id ∧ t = { s with ops := t.ops }))

/-- Each MAP_EDIT changes its tile as R25, R26 and R206 say (R19, R24, R25, R26, R205, R206). -/
def Obligations.MapEditsChangeTheirTile : Prop :=
  ∀ (s : State) (id : Nat) (o : Op) (T : Tile), s.Alone → s.map.cur.tiles = [T] → T.owner = s.self → T.mirror = none → T.handover = none → o.fn = 0 →
    (o.i16 20 = T.ix → o.i16 22 = T.iy →
      (s.RunsSub id 0x19 0x01 o → bits (o.u8 17) 7 1 = 0 → T.keyframes = [] → T.links = [] → T.points = [] → T.obs = [] →
        ∀ img secs, parseImage (s.readMem (o.u64 24) (o.u64 32)) (o.u32 32) s.tileSize T.ix T.iy = some (img, secs) → (∀ x ∈ secs, ((s.map.cur.index x.1).any fun y => y.m = x.2.1) = true) →
        s.map.cur.inletUsed + (secs.map fun x => x.2.2.length).sum ≤ 4194304 → ∃ t U, exec (.tileRestore id) s = .next t ∧ t.map.cur.tile T.ix T.iy = some U ∧
          U.keyframes = (img.keyframes.map fun k => { k with version := (k.version + 1) % 2 ^ 32 }).foldl (fun l k => putKeyframe k l) [] ∧
          U.links = img.links.foldl (fun l k => putLink k l) [] ∧ U.points = img.points.mergeSort (fun a b => decide (a.number ≤ b.number)) ∧ U.obs = img.obs.foldl (fun l b => putObs b l) [] ∧
          t.Ended id St.ok (img.keyframes.length + img.links.length + img.points.length + img.obs.length + (secs.map fun x => x.2.2.length).sum) s.nextEpoch) ∧
      (s.RunsSub id 0x19 0x02 o → o.u64 32 = 0 → s.editBar T.ix T.iy (o.u64 24) = none → ∃ t U n, exec (.keyframeDelete id) s = .next t ∧ t.map.cur.tile T.ix T.iy = some U ∧
        U.keyframes = T.keyframes.filter (fun k => k.key ≠ o.u64 24) ∧ U.links = T.links.filter (fun l => l.keyA ≠ o.u64 24 ∧ l.keyB ≠ o.u64 24) ∧
        U.obs = T.obs.filter (fun b => b.key ≠ o.u64 24) ∧ t.Ended id St.ok n s.nextEpoch) ∧
      (s.RunsSub id 0x19 0x03 o → poseOk (s.readMem (o.u64 32) 36) = true → s.editBar T.ix T.iy (o.u64 24) = none → ∃ t U, exec (.keyframePose id) s = .next t ∧
        t.map.cur.tile T.ix T.iy = some U ∧ U.keyframes = updFirst (fun k => k.key = o.u64 24) (fun k => s.moved k (poseOfBytes (s.readMem (o.u64 32) 36))) T.keyframes ∧
        U.links = T.links ∧ t.Ended id St.ok (b2n (T.keyframe (o.u64 24)).isSome) s.nextEpoch) ∧
      (∀ b, s.RunsSub id 0x19 0x04 o → b = s.readMem (o.u64 32) 144 → fld b 16 1 = 1 → fld b 0 8 = o.u64 24 → F32.unitQuat (wflds b 40 4) = true → s.editBar T.ix T.iy (o.u64 24) = none →
        (T.keyframe (o.u64 24)).isSome = true → ∃ t U, exec (.linkAdd id) s = .next t ∧ t.map.cur.tile T.ix T.iy = some U ∧ U.links = putLink (linkOf b) T.links ∧ U.keyframes = T.keyframes ∧ t.Ended id St.ok 1 s.nextEpoch) ∧
      (∀ l p, s.RunsSub id 0x19 0x05 o → p = (fun (l : Link) => decide (l.keyA = o.u64 24 ∧ l.keyB = o.u64 32)) → l ∈ T.links → p l = true →
        (s.map.latest.tile T.ix T.iy).any (fun u => u.links.any p) = true → ∃ t U, exec (.linkDelete id) s = .next t ∧ t.map.cur.tile T.ix T.iy = some U ∧
          U.links = T.links.filter (fun l => !p l) ∧ U.keyframes = T.keyframes ∧ t.Ended id St.ok 1 s.nextEpoch)) ∧
    (let F : Bool → Instr → Nat → Prop := fun on c sub => s.RunsSub id 0x19 sub o → o.u64 20 ≤ o.u64 28 →
      ∃ t U n, exec c s = .next t ∧ t.map.cur.tile T.ix T.iy = some U ∧ U.keyframes.map (·.key) = T.keyframes.map (·.key) ∧
        (∀ k ∈ U.keyframes, k.key / 2 ^ 32 = o.handle → o.u64 20 ≤ k.capture → k.capture ≤ o.u64 28 → k.quarantined = on) ∧ t.Ended id St.ok n s.nextEpoch
     F true (.quarantine id) 0x10 ∧ F false (.release id) 0x11)

/-- INDEX_CREATE, INDEX_DROP and TILE_AFFINITY set what they name (R212, R213, R316). -/
def Obligations.IndexesAndAffinityAreSet : Prop :=
  ∀ (s : State) (id : Nat) (o : Op), s.Alone → o.fn = 0 →
    (s.RunsSub id 0x19 0x20 o → createFields o = none → s.map.cur.index o.handle = none → ∀ b, b = s.readMem (o.u64 24) ((o.u16 22 + 256) * o.u16 20 * 4) →
      (wflds b 0 (b.length / 4)).all F32.finite = true → ∃ t x, exec (.indexCreate id) s = .next t ∧ t.map.cur.index o.handle = some x ∧ x.metric = o.u8 17 ∧ x.m = o.u8 18 ∧ x.degree = o.u8 19 ∧
        x.dim = o.u16 20 ∧ x.cells = o.u16 22 ∧ x.codebook = wflds b 0 (b.length / 4) ∧ x.mask = o.u64 32 ∧ x.entries = [] ∧ t.map.cur.tiles = s.map.cur.tiles ∧ t.Ended id St.ok 0 s.nextEpoch) ∧
    (s.RunsSub id 0x19 0x20 o → createFields o = none → (s.map.cur.index o.handle).isSome = true → ∀ b, b = s.readMem (o.u64 24) ((o.u16 22 + 256) * o.u16 20 * 4) →
      (wflds b 0 (b.length / 4)).all F32.finite = true → ∃ t, exec (.indexCreate id) s = .next t ∧ JustEnded s t id (Res.bound 0x20)) ∧
    (s.RunsSub id 0x19 0x21 o → (s.map.cur.index o.handle).isSome = true →
      (∀ x, s.map.cur.index o.handle = some x → id ∉ x.settling.ops ∧ id ∉ x.settling.nextOps ∧ ∀ f ∈ x.settling.finished, id ∉ f.1) → ∃ t, exec (.indexDrop id) s = .next t ∧ t.map.cur.index o.handle = none ∧
      (∀ h, h ≠ o.handle → t.map.cur.index h = s.map.cur.index h) ∧ t.map.cur.tiles = s.map.cur.tiles ∧ t.Ended id St.ok 0 s.nextEpoch) ∧
    (s.RunsSub id 0x19 0x30 o → within 64 254 (o.u8 17) = false → bits (o.u8 18) 7 1 = 0 → rectOk o.rect = true → ∃ t, exec (.tileAffinity id) s = .next t ∧
      (∀ ix iy, inRects [o.rect] ix iy = true → (o.u8 17 ≠ 255 ∨ bit (o.u8 18) 0 = true) → ∃ U, t.map.cur.tile ix iy = some U ∧
        U.prefer = (if o.u8 17 = 255 then none else some (o.u8 17)) ∧ U.hold = bit (o.u8 18) 0) ∧ t.Ended id St.ok (rectArea o.rect) s.nextEpoch)

/-- SEARCH writes the merge of its shards, and peers' queries are answered (R218, R219, R221, R228, R229, R230, R231, R232). -/
def Obligations.SearchesMergeTheirShards : Prop :=
  ∀ s : State,
    (∀ id o x v, s.Runs id 0x20 o → (∃ y, useIndex o s.map.latest = .ok y ∧ y.dim = x.dim) → searchFields o = none → (o.u32 56 = 0 ∨ within 64 1048575 (o.u32 56) = true) →
      s.contextFree o = true → blockCheck s o = none → s.viewFor o 48 = .ok v → useIndex o v = .ok x → s.searchOf id = none → ∀ q, q = wflds (s.readMem (o.u64 16) (4 * x.dim)) 0 x.dim → q.all F32.finite = true →
      (s.shardsOf o v (o.block s) = [s.self] → ∀ par w best r, par = o.searchPar (o.u32 56) →
        w = x.searchShard v.gens (fun e => s.ownsIn v e.ix e.iy) q par (filtersOf (o.u8 38) (o.u8 39) (o.block s)) (x.table q).1 →
        best = ((w.result.map fun y => (s.self, Scored.rec_ y)).mergeSort recBefore).take par.k →
        r = leBytes (o.epoch 48) 8 ++ leBytes best.length 4 ++ leBytes w.visits 4 ++ leBytes (x.table q).2.toNat 4 ++
          leBytes (2 * b2n (decide (par.maxVisits ≤ w.visits)) + 4 * b2n (decide (best.length < par.k))) 1 ++ zeros 3 ++ leBytes (bitmap [s.self]) 8 ++ best.flatMap (fun y => searchRecBytes y.2) →
        ∃ t, exec (.search id) s = .next t ∧ WroteAndEnded s t id (o.u64 24) r
          { status := if best.length < par.k then St.okPartial else St.ok, count := best.length, detail := bitmap [s.self] } ∧ t.sound.searches = s.sound.searches) ∧
      (∀ p ∈ s.shardsOf o v (o.block s), p ≠ s.self → p ∈ s.others → ∃ t a st, exec (.search id) s = .next t ∧ t.findOp id = some a ∧ a.phase = .waiting ∧ t.searchOf id = some st ∧
        st.queried = s.shardsOf o v (o.block s) ∧ st.epoch = o.epoch 48 ∧ st.k = o.u16 32)) ∧
    (∀ id o st, s.searchOf id = some st → s.findOp id = some o → o.phase ≠ .final → (o.committed = true ∨ (s.clock.now < o.deadlineAt ∧ st.peerDeadline < o.deadlineAt)) → ∃ t status n, exec (.peerDeadline id) s = .next t ∧
      t.Ended id status n (bitmap (st.answers.map (·.src)).eraseDups) ∧ (status = St.ok ∨ status = St.okPartial) ∧
      ((st.answers.map (·.src)).eraseDups.length < st.queried.length → status = St.okPartial) ∧ t.searchOf id = none ∧ st.peerDeadline ≤ t.clock.now) ∧
    (∀ m : QueryMsg, s.Sends m.src → s.devNs ≤ unpackTime m.peerDeadline →
      (s.map.at m.epoch = none → ∃ t f, exec (.query m) s = .next t ∧ t.out.fzl = f :: s.out.fzl ∧ f.hdr.type = 0x02 ∧ f.hdr.dst = m.src ∧ f.hdr.xid = m.xid ∧
        f.body = beBytes 0 4 ++ beBytes 0 4 ++ beBytes 1 1 ++ zeros 7) ∧
      (∀ v x q w, s.map.at m.epoch = some v → m.epoch ≤ s.map.published → v.index m.index = some x → q = (List.range x.dim).map (fun i => BitVec.ofNat 32 (bfld m.vector (4 * i) 4)) →
        w = x.searchShard v.gens (fun e => s.ownsIn v e.ix e.iy) q { k := m.k, beam := m.beam, entry := m.entry, probes := m.probes, maxVisits := m.maxVisits }
          (filtersOf m.filters m.kindMask (blockOfBe m.filterBlock)) (x.table q).1 →
        ∃ t f, exec (.query m) s = .next t ∧ t.out.fzl = f :: s.out.fzl ∧ f.hdr.type = 0x02 ∧ f.hdr.dst = m.src ∧ f.hdr.xid = m.xid ∧
          f.body = beBytes w.result.length 4 ++ beBytes w.visits 4 ++ beBytes 0 1 ++ zeros 7 ++ (w.result.map Scored.rec_).flatMap searchRecBytesBe)) ∧
    (∀ m : AnswerMsg,
      (s.sound.searches = [] → ∃ t, exec (.answer m) s = .next t ∧ t.counter 0x402 0 = (s.counter 0x402 0 + 1) % 2 ^ 64 ∧
        t = { s with tally := t.tally, fabric := { s.fabric with ports := t.fabric.ports } }) ∧
      (∀ st o, s.sound.searches = [st] → st.xid = m.xid → m.src ∈ st.queried → (∀ a ∈ st.answers, a.src ≠ m.src) → m.result = 0 → s.findOp st.op = some o → o.phase ≠ .final →
        ((∃ p ∈ st.queried, p ≠ m.src ∧ p ∉ st.gone ∧ ∀ a ∈ st.answers, a.src ≠ p) → ∃ t u, exec (.answer m) s = .next t ∧ t.searchOf st.op = some u ∧ u.answers = st.answers ++ [m] ∧
          t.findOp st.op = some o) ∧
        ((∀ p ∈ st.queried, p = m.src ∨ p ∈ st.gone ∨ ∃ a ∈ st.answers, a.src = p) → s.overdue o = false → ∃ t status n, exec (.answer m) s = .next t ∧ t.searchOf st.op = none ∧
          t.Ended st.op status n (bitmap ((st.answers ++ [m]).map (·.src)).eraseDups) ∧ (status = St.ok ∨ status = St.okPartial))))

/-- VEC_INSERT, VEC_DELETE, SETTLE, settling passes and RECALL_PROBE (R214, R220, R223, R224, R235, R236, R237, R240, R241). -/
def Obligations.VectorsEnterAndLeaveTheirShard : Prop :=
  ∀ (s : State) (id : Nat) (o : Op) (x : Index), useIndex o s.map.latest = .ok x →
    (let F : Bool → Instr → Nat → Prop := fun ins c code => ∀ n recs codes, s.Runs id code o → s.Alone → n = o.u32 24 →
      within 1 4096 n = true → recs = cut (vecSize ins x.dim) n (s.readMem (o.u64 16) (n * vecSize ins x.dim)) → (∀ r ∈ recs, s.ownsIn s.map.cur (vecTile ins r).1 (vecTile ins r).2 = true) →
      (o.u64 16 + n * vecSize ins x.dim ≤ o.u64 32 ∨ o.u64 32 + n ≤ o.u64 16) → s.requestsOf id = [] → codes = (s.vecApply ins o.handle x recs s.self).2 →
      ∃ t, exec c s = .next t ∧ WroteAndEnded s t id (o.u64 32) (codes.map (BitVec.ofNat 8)) (vecRes codes) ∧
        (codes = [0] → ∀ r, recs = [r] → ∃ y, t.map.cur.index o.handle = some y ∧
          (ins = true → ∃ e ∈ y.entries, e.key = fld r 0 8 ∧ e.time = fld r 8 8 ∧ e.code = x.encode (wflds r 24 x.dim) ∧ e.inlet = true ∧ e.tomb = false) ∧
          (ins = false → ∀ e ∈ y.entries, e.key = fld r 0 8 → t.ownsIn t.map.cur e.ix e.iy = true → e.tomb = true))
     F true (.vecInsert id) 0x21 ∧ F false (.vecDelete id) 0x22) ∧
    (∀ y, s.Runs id 0x23 o → s.map.cur.index o.handle = some y →
      (y.settling.running = false → (∀ e ∈ s.shard y, e.inlet = false ∧ e.tomb = false) → ∃ t, exec (.settle id) s = .next t ∧ JustEnded s t id (Res.ok 0 s.map.published)) ∧
      ((∃ e ∈ s.shard y, e.inlet = true ∨ e.tomb = true) → ∃ t z, exec (.settle id) s = .next t ∧ t.findOp id = some { o with phase := .waiting, began := true } ∧
        t.map.cur.index o.handle = some z ∧ z.settling.nextOps = y.settling.nextOps ++ [id] ∧ z.entries = y.entries)) ∧
    (∀ h y, s.map.cur.index h = some y → s.running = true → s.settleDue y = true → y.settling.running = false → ∃ t z, exec (.settlingPass h) s = .next t ∧ t.map.cur.index h = some z ∧
      z.settling.running = true ∧ z.settling.ops = y.settling.nextOps ∧ z.settling.nextOps = [] ∧ z.settling.takenInlet = ((s.shard y).filter (·.inlet)).map (·.slot) ∧
      z.settling.takenTomb = ((s.shard y).filter (·.tomb)).map (·.slot) ∧ z.entries = y.entries) ∧
    (∀ h y, s.map.cur.index h = some y → y.settling.running = true → ∃ t z, exec (.settlingPassDone h) s = .next t ∧ t.map.cur.index h = some z ∧ z.settling.running = false ∧
      z.settling.finished = y.settling.finished ++ [(y.settling.ops, y.settling.takenInlet.length, y.settling.takenTomb.length, s.nextEpoch)] ∧
      (∀ e ∈ z.entries, e.slot ∉ y.settling.takenTomb) ∧ (∀ e ∈ z.entries, e.slot ∈ y.settling.takenInlet → e.inlet = false) ∧
      (∀ e ∈ y.entries, e.slot ∉ y.settling.takenTomb → ∃ f ∈ z.entries, f.key = e.key ∧ f.code = e.code ∧ f.slot = e.slot)) ∧
    (∀ v y, s.Runs id 0x24 o → within 1 4096 (o.u32 24) = true → searchFields o = none → s.contextFree o = true → blockCheck s o = none → s.map.at o.epochAtFetch = some v → useIndex o v = .ok y →
      (o.u64 16 = 0 → ∀ e ∈ y.entries, (y.decode e.code).all F32.finite = true) →
      (o.u64 16 ≠ 0 → ∀ b ∈ cut (4 * y.dim) (o.u32 24) (s.readMem (o.u64 16) (4 * y.dim * o.u32 24)), (wflds b 0 y.dim).all F32.finite = true) →
      ∃ t, exec (.recallProbe id) s = .next t ∧ t.Ended id St.ok (o.u32 24) 0 ∧ fld (t.readMem (o.u64 48) 16) 12 4 = o.u32 24 ∧
        (∀ a, (a < o.u64 48 ∨ o.u64 48 + 16 + 4 * o.u32 24 ≤ a) → t.mem.byte a = s.mem.byte a))

/-- Requests of other members are served and answers complete their operations (R29, R387, R388). -/
def Obligations.RemoteRequestsAreServed : Prop :=
  ∀ s : State,
    (∀ m : RemoteReqMsg, s.running = true → m.src ∈ s.others → (∀ r ∈ s.sound.responses, r.peer ≠ m.src) →
      (m.offset % 65448 ≠ 0 → ∃ t, exec (.remoteReq m) s = .next t ∧ t.counter 0x608 (s.portOf m.src) = (s.counter 0x608 (s.portOf m.src) + 1) % 2 ^ 64 ∧ t.out = s.out ∧ t.map = s.map) ∧
      (∀ o v, m.offset = 0 → m.total = 8 → m.data.length = 8 → o.desc = m.desc → o.opcode = 0x18 → o.epochAtFetch = fld m.data 0 8 → o.epochAtFetch ≤ s.map.published →
        s.viewFor o 40 = .ok v → s.Sends m.src →
        ∃ t l, exec (.remoteReq m) s = .next t ∧ t.out.fzl = l ++ s.out.fzl ∧ l ≠ [] ∧ (∀ f ∈ l, f.hdr.type = 0x04 ∧ f.hdr.dst = m.src ∧ f.hdr.xid = m.xid) ∧
          (l.reverse.map fun f => f.body.drop 32).flatten = s.readData o v)) ∧
    (∀ m : RemoteRespMsg,
      ((∀ r ∈ s.sound.requests, r.xid ≠ m.xid) → exec (.remoteResp m) s = .next (s.taken (s.portOf m.src) 2 (32 + m.data.length))) ∧
      (∀ r o, s.sound.requests = [r] → r.xid = m.xid → r.answered = false → r.segs = [] → r.bad = false → s.running = true → m.src ∈ s.others → m.offset = 0 →
        m.total = m.data.length → m.data.length ≤ 65488 → s.findOp r.op = some o → o.phase ≠ .final → o.opcode = 0x19 → o.u8 16 ∈ [1, 3, 4, 5] → o.committed = false → s.heldOf s.self r.op = none → s.overdue o = false →
        ∃ t, exec (.remoteResp m) s = .next t ∧ t.Ended r.op m.status m.count m.detail ∧ t.sound.requests = [] ∧ t.map = s.map ∧ t.mem = s.mem))

/-- Schedules load and drop; SOLVE, loop closures and masks do their work (R247, R248, R249, R250, R251, R262, R263, R264, R267,
R268, R300). -/
def Obligations.SolvesRunOnSchedules : Prop :=
  ∀ (s : State) (id : Nat) (o : Op) (x : Sched),
    (∀ c, s.Runs id 0x28 o → s.solveOf id = none → s.sched o.handle = some x → x.fn = o.fn → solveFields o = none → s.reach o.fn (o.u64 48) 1 = true →
      s.reach o.fn (o.u64 48) x.workBytes = true → s.workspaceBusy o = false → s.solveFirst o = true → s.freeAbacus = some c → ∃ t st, exec (.solve id) s = .next t ∧ t.solveOf id = some st ∧ st.sched = x ∧ st.cluster = c ∧
        ((o.u8 16 = 0 ∨ s.others = []) → st.stage = .run ∧ t.findOp id = some { o with began := true }) ∧
        (o.u8 16 = 1 → s.others ≠ [] → st.stage = .gather ∧ t.findOp id = some { o with began := true, phase := .waiting })) ∧
    (∀ st, s.Runs id 0x28 o → s.solveOf id = some st → st.stage = .run → o.u8 16 = 0 → x = st.sched →
      ∀ p, p = hostProblem x (s.readMem (o.u64 24) (40 * x.vars + 128 * x.slots)) → ∃ t, exec (.solve id) s = .next t ∧ t.solveOf id = none ∧ t.map = s.map ∧ t.sess = s.sess ∧
        (p = none → t.Ended id St.badDescriptor 0 0x518 ∧ t.mem = s.mem) ∧
        (p ≠ none → ∃ status n d, t.Ended id status n d ∧ (status = St.ok ∨ status = St.okRegularised ∨ status = St.okColdStart ∨ status = St.unsolvedPartial))) ∧
    (∀ img, img = s.readMem (o.u64 16) (o.u32 24) → s.Runs id 0x29 o → within 1 4095 o.handle = true → s.sched o.handle = none → s.abacus.scheds.length < 1024 →
      (schedCheck img (o.u32 24) = none → s.poolFits o.cls (parcelsFor (o.u32 24)) = true → ∃ t y, exec (.scheduleLoad id) s = .next t ∧ t.sched o.handle = some y ∧ y.fn = o.fn ∧ y.image = img ∧
        y.fingerprint = fld img 8 8 ∧ y.vars = fld img 16 4 ∧ t.Ended id St.ok (o.u32 24) y.fingerprint ∧ (∀ h, h ≠ o.handle → t.sched h = s.sched h) ∧ t.mem = s.mem) ∧
      (∀ row r, schedCheck img (o.u32 24) = some (row, r) → ∃ t e, exec (.scheduleLoad id) s = .next t ∧ t.Ended id r.status r.count r.detail ∧ t.abacus = s.abacus ∧
        t.tally.entries.getLast? = some e ∧ e.code = 0x0020 ∧ e.fn = o.fn ∧ e.subject = o.handle ∧ e.detail = row)) ∧
    (s.Runs id 0x2A o → s.sched o.handle = some x → x.fn = o.fn → ∃ t n, exec (.scheduleDrop id) s = .next t ∧ t.sched o.handle = none ∧ (∀ h, h ≠ o.handle → t.sched h = s.sched h) ∧
      t.Ended id St.ok 0 n ∧ (∀ i p, s.findOp i = some p → p.opcode = 0x28 → p.fn = o.fn → p.handle = o.handle → p.began = false → p.phase ≠ .final → t.Ended i St.cancelled 0 2)) ∧
    (∀ sid ka kb (T : Tile) (a k : Keyframe) chi gate, (s.session sid).isSome = true → s.running = true → s.canCommit = true → s.others = [] → (s.map.latest.index 1).isSome = true →
      s.map.latest.keyframe ka = some a → s.map.latest.keyframe kb = some k → a.quarantined = false → k.quarantined = false → s.map.latest.quar.contains ka = false →
      s.map.latest.quar.contains kb = false → s.ownSolveMay = true → s.map.cur.tiles = [T] → T.owner = s.self → (T.keyframe ka).isSome = true → (T.keyframe kb).isSome = true →
      chi = Config.chiSquare [] (a.bytes ++ k.bytes) 0 → gate = clampF 0x3F800000 0x447A0000 0x4149999A (BitVec.ofNat 32 (s.reg 0xD004 0)) →
      ∃ t, exec (.loopClosure sid ka kb) s = .next t ∧
        (if !F32.finite chi || !F32.le chi gate then t.counter 0x40A 0 = (s.counter 0x40A 0 + 1) % 2 ^ 64 ∧ t.map = s.map
         else if s.commitFits [{ key := kb, version := k.version }] = false then t.counter 0x408 0 = (s.counter 0x408 0 + 1) % 2 ^ 64 ∧ t.map = s.map
         else ∃ U l, t.map.cur.tiles = [U] ∧ l ∈ U.links ∧ l.keyA = ka ∧ l.keyB = kb ∧ U.keyframes.map (·.key) = T.keyframes.map (·.key) ∧ U.points = T.points ∧ U.obs = T.obs)) ∧
    (∀ key masked T k m fs, s.map.cur.tiles = [T] → T.owner = s.self → T.keyframe key = some k → s.sess.masks.find? (fun m => m.1 = key) = some m →
      fs = (m.2.zipIdx.filter fun f => !masked.contains f.2).map (·.1) →
      (∀ f ∈ fs, (s.newPoint key f).ix = T.ix ∧ (s.newPoint key f).iy = T.iy) → ∃ t U, exec (.keyframeMaskComplete key masked) s = .next t ∧ t.map.cur.tiles = [U] ∧
        U.keyframe key = some { k with maskPending := false } ∧ U.obs.length = T.obs.length + fs.length ∧ U.links = T.links ∧ (∀ m ∈ t.sess.masks, m.1 ≠ key))

/-- Programs load and drop, weights bind and unbind, INFER runs layer by layer (R283, R286, R287, R288, R289, R290, R291, R292,
R293, R296). -/
def Obligations.ProgramsBindAndInfer : Prop :=
  ∀ (s : State) (id : Nat) (o : Op),
    (∀ img, img = s.readMem (o.u64 16) (o.u32 24) → s.Runs id 0x31 o → (o.u64 16 ≠ 0 ∨ o.u32 24 ≠ 0) → within 1 4095 o.handle = true → s.prog o.handle = none → s.matrix.progs.length < 512 →
      (progCheck img (o.u32 24) = none → s.poolFits o.cls (parcelsFor (o.u32 24)) = true → ∃ t, exec (.programLoad id) s = .next t ∧
        t.prog o.handle = some { handle := o.handle, fn := o.fn, image := img } ∧ t.Ended id St.ok (o.u32 24) (fld img 8 8) ∧ (∀ h, h ≠ o.handle → t.prog h = s.prog h) ∧ t.mem = s.mem) ∧
      (∀ row r, progCheck img (o.u32 24) = some (row, r) → ∃ t e, exec (.programLoad id) s = .next t ∧ t.Ended id r.status r.count r.detail ∧ t.matrix = s.matrix ∧
        t.tally.entries.getLast? = some e ∧ e.code = 0x0020 ∧ e.fn = o.fn ∧ e.subject = o.handle ∧ e.detail = row)) ∧
    (∀ p, s.Runs id 0x31 o → o.u64 16 = 0 → o.u32 24 = 0 → s.prog o.handle = some p → p.fn = o.fn →
      ((∀ q ∈ s.ops.list, q.opcode = 0x30 → q.handle = o.handle → q.fn = o.fn → q.phase = .final) → ∃ t, exec (.programDrop id) s = .next t ∧ t.prog o.handle = none ∧
        (∀ h, h ≠ o.handle → t.prog h = s.prog h) ∧ t.Ended id St.ok 0 0) ∧
      ((∃ q ∈ s.ops.list, q.opcode = 0x30 ∧ q.handle = o.handle ∧ q.fn = o.fn ∧ q.phase ≠ .final) → ∃ t, exec (.programDrop id) s = .next t ∧ JustEnded s t id (Res.bound 0x45))) ∧
    (∀ p old sizes, s.Runs id 0x32 o → s.useProg o = .ok p → old = p.weights (o.u8 16) → sizes = p.sizes (o.u32 20) (o.u32 24) →
      (bit (o.u8 17) 0 = false → o.u32 24 ≠ 0 → o.u32 20 + o.u32 24 ≤ (progHead p.image).slots → o.u64 40 = sizes.sum → s.poolFits o.cls (sizes.map parcelsFor).sum = true →
        ∃ t q w, exec (.weightsBind id) s = .next t ∧ t.prog o.handle = some q ∧ q.image = p.image ∧ w = q.weights (o.u8 16) ∧ w.version = old.version + 1 ∧
          w.slots = bindSlots (old.version + 1) (o.u32 20) (cutBy sizes (s.readMem (o.u64 32) (o.u64 40))) old.slots ∧ t.Ended id St.ok w.parcels w.version ∧
          (∀ k, k ≠ o.u8 16 → q.weights k = p.weights k) ∧ (∀ h, h ≠ o.handle → t.prog h = s.prog h)) ∧
      (bit (o.u8 17) 0 = true → ∃ t q w, exec (.weightsUnbind id) s = .next t ∧ t.prog o.handle = some q ∧ q.image = p.image ∧ w = q.weights (o.u8 16) ∧ w.version = old.version + 1 ∧
        w.slots = old.slots.map (fun _ => none) ∧ t.Ended id St.ok 0 w.version ∧ (∀ k, k ≠ o.u8 16 → q.weights k = p.weights k) ∧ (∀ h, h ≠ o.handle → t.prog h = s.prog h))) ∧
    (∀ c p h io, s.Runs id 0x30 o → s.inferOf id = none → s.useProg o = .ok p → h = progHead p.image → io = progIo p.image → s.reach o.fn (o.u64 24) (8 * io.length) = true → s.ioReach o io = true →
      (h.work = 0 → o.u64 32 = 0) → (h.work ≠ 0 → isDev (o.u64 32) = true ∧ s.reach o.fn (o.u64 32) 1 = true ∧ s.reach o.fn (o.u64 32) h.work = true) → s.inferFits id c h = true → s.inferFirst o = true →
      ((p.weights (o.u8 16)).complete = true → ∃ t i, exec (.infer id c) s = .next t ∧ t.inferOf id = some i ∧ i.handle = o.handle ∧ i.cluster = c ∧ i.layer = 0 ∧ i.weights = p.weights (o.u8 16) ∧
        t.findOp id = some { o with began := true }) ∧
      ((p.weights (o.u8 16)).complete = false → ∃ t, exec (.infer id c) s = .next t ∧ JustEnded s t id (Res.bound 0x40))) ∧
    (∀ c i p, s.Runs id 0x30 o → s.inferOf id = some i → s.prog i.handle = some p → s.inferFits id c (progHead p.image) = true → ∃ t, exec (.infer id c) s = .next t ∧
      t.inferOf id = some { i with cluster := c } ∧ t.ops = s.ops) ∧
    (∀ i p w, s.Runs id 0x30 o → s.inferOf id = some i → s.prog i.handle = some p → w = (if i.layer = 0 ∧ ¬ o.replayed then p.weights (o.u8 16) else i.weights) → w.complete = true →
      ∃ t, exec (.inferLayerStart id i.layer) s = .next t ∧
        match runLayer p.image w i.layer i.harts (s.loadWork o p.image i.bufs) with
        | .error none => t = s
        | .error (some cause) => t.Ended id St.boundReached 0 (0x44 + cause % 256 * 256 + i.layer % 65536 * 65536) ∧ t.inferOf id = none ∧ t.mem = s.mem
        | .ok (harts, bufs) =>
          if i.layer + 1 < (progHead p.image).layers then ∃ j, t.inferOf id = some j ∧ j.layer = i.layer + 1 ∧ j.bufs = bufs ∧ j.harts = harts ∧ j.weights = w ∧ t.findOp id = some o
          else ∃ d, t.Ended id St.ok (((progIo p.image).drop (progHead p.image).inputs).map fun r => fld r 4 4).sum d ∧ t.inferOf id = none)

/-- Parcels are promoted and demoted, and hints record the wishes that steer them (R335, R336, R337, R338, R351, R352, R353). -/
def Obligations.ParcelsMoveBetweenTiers : Prop :=
  ∀ (s : State) (n : Nat),
    (∀ tier u q, u = s.syncPool → u.parcel n = some q → s.running = true → (q.state = .home ∨ (q.state = .up ∧ q.upper ≠ some tier)) → u.tierFor q tier = true →
      (0 < u.tierFree tier → ∃ t, exec (.parcelPromote n tier) s = .next t ∧ t.parcel n = some { q with state := .promoting, newUpper := some tier } ∧ ∀ m, m ≠ n → t.parcel m = u.parcel m) ∧
      (∀ v rest, u.tierFree tier = 0 → (u.victims tier).filter (fun v => v.num ≠ n) = v :: rest → u.parcel v.num = some v → v.state = .up → v.dirty = true →
        ∃ t, exec (.parcelPromote n tier) s = .next t ∧ t.parcel v.num = some { v with state := .demoting } ∧ t.parcel n = some q)) ∧
    (∀ q, s.parcel n = some q → q.state = .promoting → ∃ t, exec (.promotionCopyEnd n) s = .next t ∧
      (∀ p, p = { q with state := .up, upper := q.newUpper, newUpper := none, deferred := false } →
        t.parcel n = some (if q.deferred = true ∧ q.wish = some .cold then p.leave else p)) ∧
      (∀ id o, s.tiers.hintOps = [(id, [n])] → s.findOp id = some o → o.phase ≠ .final → s.overdue o = false → (q.wish = some .holdBasin ∨ q.wish = some .preferBasin) → q.newUpper = some .basin → t.Ended id St.ok 1 1)) ∧
    (∀ q, s.parcel n = some q → q.state = .up → s.running = true → ((q.wish = some .holdBasin ∨ q.wish = some .preferBasin) → q.upper ≠ some .basin) →
      ∃ t, exec (.parcelDemote n) s = .next t ∧ t.parcel n = some (if q.dirty then { q with state := .demoting } else { q with state := .home, upper := none })) ∧
    (∀ q, s.parcel n = some q → q.state = .demoting → ∃ t, exec (.demotionWriteBackEnd n) s = .next t ∧ t.parcel n = some { q with state := .home, upper := none, dirty := false }) ∧
    (∀ id o u ps w T, s.Runs id 0x39 o → s.hintCheckFields o = none → u = s.syncPool → ps = u.hintParcels o → w = wishOf (o.u8 17) →
      T = { u.tiers with parcels := u.tiers.parcels.map fun q => if ps.contains q.num then q.setWish o.fn w else q } →
      (w = some .holdBasin → u.holdTooMany T = true → ∃ t, exec (.residencyHint id) s = .next t ∧ t.Ended id St.boundReached 0 0x50 ∧ t.tiers = u.tiers) ∧
      ((w = some .holdBasin → u.holdTooMany T = false) → ∃ t p, exec (.residencyHint id) s = .next t ∧
        (∀ q ∈ u.tiers.parcels, q.num ∈ ps → ∃ r ∈ t.tiers.parcels, r.num = q.num ∧ r.wishes = (q.setWish o.fn w).wishes ∧ r.state = q.state) ∧
        t.findOp id = some p ∧ p.committed = true ∧ (p.phase = .final → p.status = St.ok ∧ p.count = ps.length ∧ p.detail ≤ ps.length) ∧
        (p.phase ≠ .final → p.phase = .waiting ∧ bit (o.u8 18) 0 = true ∧ (id, ps) ∈ t.tiers.hintOps)))

/-- MOVE copies or fills chunk by chunk, and tiers are scrubbed, tested and repaired (R334, R339, R340, R345, R349, R350). -/
def Obligations.MovesAndTierUpkeep : Prop :=
  ∀ s : State,
    (∀ id o, let F : Bool → Instr → List Byte → Prop := fun fill c data => s.Runs id 0x38 o → bit (o.u8 40) 0 = fill → moveCheck o fill = none →
      ∃ t, exec c s = .next t ∧ t.readMem (o.u64 24 + o.count) data.length = data ∧
        (∀ a, (a < o.u64 24 + o.count ∨ o.u64 24 + o.count + data.length ≤ a) → t.mem.byte a = s.mem.byte a) ∧
        (o.u64 32 ≤ o.count + data.length → t.Ended id St.ok (o.u64 32) 0) ∧
        (o.count + data.length < o.u64 32 → t.findOp id = some { o with count := o.count + data.length, committed := true, began := true }) ∧
        t = { s with ops := t.ops, mem := t.mem, tiers := t.tiers }
      F false (.move id) (s.readMem (o.u64 16 + o.count) (min 4096 (o.u64 32 - o.count))) ∧
      F true (.moveFill id) (patternBytes (o.u64 16) o.count (min 4096 (o.u64 32 - o.count)))) ∧
    (s.running = true →
      (∃ t, exec (.tierAccessLate .lake false) s = .next t ∧ t.counter Ctr.lakeLate 0 = (s.counter Ctr.lakeLate 0 + 1) % 2 ^ 64 ∧ t = { s with tally := t.tally }) ∧
      (s.hasBasin = true → ∃ t, exec (.tierAccessLate .basin false) s = .next t ∧ t.counter Ctr.basinLate 0 = (s.counter Ctr.basinLate 0 + 1) % 2 ^ 64 ∧ t = { s with tally := t.tally }) ∧
      (∀ lake frame total retired, total = (if lake then s.lakeFrames else s.chip.part.basinParcels) → retired = (if lake then s.tiers.retiredLake else s.tiers.retiredBasin) →
        bit (s.reg 0x3024 0) 8 = true → frame < total → retired.contains frame = false →
        (∀ corrected, ∃ t, exec (.scrubPass lake frame corrected true) s = .next t ∧ (if lake then t.tiers.retiredLake else t.tiers.retiredBasin) = retired ++ [frame] ∧
          t.counter Ctr.frameRetired 0 = (s.counter Ctr.frameRetired 0 + 1) % 2 ^ 64) ∧
        (∃ t, exec (.scrubPass lake frame true false) s = .next t ∧ t.counter Ctr.correctedError 0 = (s.counter Ctr.correctedError 0 + 1) % 2 ^ 64 ∧
          (if lake then t.tiers.retiredLake else t.tiers.retiredBasin) =
            retired ++ (if 3 ≤ Store.get (fun _ => 0) (2 * frame + b2n lake) s.tiers.scrubCounts then [frame] else [])) ∧
        exec (.scrubPass lake frame false false) s = .next s) ∧
      (∀ cluster bank, bit (s.reg 0x3020 0) 1 = true → ((s.place.clusters.any fun c => c.idx = cluster) = true ∨ 13 ≤ cluster ∧ cluster ≤ 15) → bank < 28 →
        ∃ t, exec (.pondTestStep cluster bank true) s = .next t ∧ t.tiers = { s.tiers with pondFails := s.tiers.pondFails ++ [(cluster, bank)] } ∧
          t.counter Ctr.pondTestFail 0 = (s.counter Ctr.pondTestFail 0 + 1) % 2 ^ 64) ∧
      (∀ pc lane, pc < s.chip.part.pcs → s.tiers.spareUsed.contains pc = false → (∀ r ∈ s.tiers.repairing, r.1 ≠ pc) → ∃ t, exec (.laneRepairWalk pc lane) s = .next t ∧
        t.tiers = { s.tiers with repairing := s.tiers.repairing ++ [(pc, lane)] } ∧ t = { s with tiers := t.tiers })) ∧
    (∀ pc lane, (pc, lane) ∈ s.tiers.repairing → ∃ t, exec (.laneRepairSwitch pc) s = .next t ∧ t.tiers.spareUsed = s.tiers.spareUsed ++ [pc] ∧ (∀ r ∈ t.tiers.repairing, r.1 ≠ pc) ∧
      t.counter Ctr.unitRetired 0 = (s.counter Ctr.unitRetired 0 + 1) % 2 ^ 64)

/-- Mirror streams and handovers follow their protocol (R309, R310, R311, R313, R314, R387, R395, R411). -/
def Obligations.TilesAreMirroredAndHandedOver : Prop :=
  ∀ (s : State) (src : Nat) (ix iy : Int) (T : Tile), s.running = true → T = s.curTile ix iy →
    (∀ (m : MirrorItemMsg) (x : Stream), m.src = src → m.ix = ix → m.iy = iy → x = s.streamFrom src → src ∈ s.others →
      (m.seq ≠ (x.seq + 1) % 2 ^ 32 → exec (.mirrorItem m) s = .next (s.taken (s.portOf src) 3 (16 + itemLen m.change))) ∧
      (m.seq = (x.seq + 1) % 2 ^ 32 → T.mirror = some s.self → ∃ t, exec (.mirrorItem m) s = .next t ∧ (t.streamFrom src).seq = m.seq ∧
        (t.streamFrom src).acked = (if 64 ≤ (m.seq + 2 ^ 32 - x.acked) % 2 ^ 32 then m.seq else x.acked) ∧
        (m.change = .copyEnd → t.curTile ix iy = { T with syncing := false }) ∧
        (∀ img n secs, m.change = .objects img → parseImage (img.take (fld img 44 4)) (fld img 44 4) s.tileSize ix iy = some (n, secs) → ∃ U, U = t.curTile ix iy ∧ U.keyframes = n.keyframes ∧ U.links = n.links ∧
          U.points = n.points ∧ U.obs = n.obs ∧ U.owner = T.owner ∧ U.mirror = T.mirror))) ∧
    (∀ seq, (∃ i ∈ (s.streamTo src).items, i.1 = seq) →
      (s.fabric.ackWaits = [] → ∃ t, exec (.mirrorAck src seq) s = .next t ∧ (t.streamTo src).acked = seq ∧
        (t.streamTo src).items = ((s.streamTo src).items.dropWhile fun i => i.1 ≠ seq).drop 1 ∧ t.ops = s.ops) ∧
      (∀ w id o, s.fabric.ackWaits = [w] → w.needs = [(src, seq)] → (s.streamTo src).items.length = 1 → w.op = some id → s.findOp id = some o → o.phase ≠ .final → s.solveOf id = none → s.requestsOf id = [] → s.overdue o = false →
        ∃ t, exec (.mirrorAck src seq) s = .next t ∧ t.Ended id w.status w.count w.detail ∧ t.fabric.ackWaits = [])) ∧
    ((s.streamFrom src).seq ≠ (s.streamFrom src).acked → ∃ t, exec (.mirrorAckTimer src) s = .next t ∧ (t.streamFrom src).acked = (s.streamFrom src).seq ∧
      (s.Sends src → ∃ f, t.out.fzl = f :: s.out.fzl ∧ f.hdr.type = 0x11 ∧ f.hdr.dst = src ∧ f.body = beBytes (s.streamFrom src).seq 4)) ∧
    (T.syncing = true → (T.mirror = some s.self ∨ (T.owner = s.self ∧ ∃ m, T.mirror = some m ∧ ∀ i ∈ (s.streamTo m).items, (i.2.1, i.2.2.1) ≠ (ix, iy))) →
      ∃ t, exec (.mirrorSyncComplete ix iy) s = .next t ∧ t.curTile ix iy = { T with syncing := false }) ∧
    (∀ epoch code, s.fabric.isolated = false → src ∈ s.others →
      code = (if s.fabric.leaving then 3 else if T.handover.isSome ∨ T.owner = s.self then 2 else if s.tileCap ≤ s.owned.length then 1 else 0) →
      ∃ t, exec (.handoverPropose src ix iy epoch) s = .next t ∧ (s.Sends src → ∃ f, t.out.fzl = f :: s.out.fzl ∧ f.hdr.type = 0x21 ∧ f.hdr.dst = src ∧ f.body = tileBe ix iy ++ beBytes code 1) ∧
        (code = 0 → ∃ h, (t.curTile ix iy) = { T with handover := some h } ∧ h.peer = src ∧ h.outgoing = false ∧ h.state = (if T.mirror = some s.self then .synced else .copying)) ∧
        (code ≠ 0 → t.map = s.map) ∧ t.counter 0x502 0 = (if code = 1 then (s.counter 0x502 0 + 1) % 2 ^ 64 else s.counter 0x502 0)) ∧
    (∀ h, T.owner = s.self → T.handover = some h → h.outgoing = true → h.peer = src →
      (h.state = .proposed → ∃ t u, exec (.handoverReply src ix iy 0) s = .next t ∧ t.curTile ix iy = { T with handover := some u } ∧ u.peer = src ∧ u.outgoing = true ∧
        u.state = (if T.mirror = some src then .synced else .copying) ∧ u.copyEpoch = s.map.published) ∧
      (h.state = .proposed → ∃ t, exec (.handoverReply src ix iy 1) s = .next t ∧ (t.curTile ix iy).handover = none ∧ (src, s.map.published + s.holdEpochs) ∈ (t.curTile ix iy).refusedBy) ∧
      (h.state = .copying → ∃ t, exec (.synced src ix iy (s.streamTo src).seq) s = .next t ∧ t.curTile ix iy = { T with handover := some { h with state := .synced } }) ∧
      (h.state = .copying → h.copyEpoch + 4 ≤ s.map.published → ∃ t, exec (.handoverCopyTimeout ix iy) s = .next t ∧ (t.curTile ix iy).handover = none ∧
        (t.curTile ix iy).noProposalUntil = s.map.published + s.holdEpochs ∧ t.counter 0x503 0 = (s.counter 0x503 0 + 1) % 2 ^ 64 ∧
        (s.Sends src → ∃ f, t.out.fzl = f :: s.out.fzl ∧ f.hdr.type = 0x24 ∧ f.hdr.dst = src ∧ f.body = tileBe ix iy ++ beBytes 3 1))) ∧
    (∀ h data, T.handover = some h → h.outgoing = false → h.peer = src → h.state = .copying →
      (∃ t, exec (.snapshot src ix iy h.received.length false data) s = .next t ∧ t.curTile ix iy = { T with handover := some { h with received := h.received ++ data } }) ∧
      (∃ t u, exec (.snapshot src ix iy h.received.length true data) s = .next t ∧ (t.curTile ix iy).handover = some u ∧ u.peer = src ∧ u.state = .synced ∧
        (h.streamed = true → t.curTile ix iy = { T with handover := some u }) ∧
        (∀ img n secs, h.streamed = false → img = h.received ++ data → parseImage (img.take (fld img 44 4)) (fld img 44 4) s.tileSize ix iy = some (n, secs) →
          (t.curTile ix iy).keyframes = n.keyframes ∧ (t.curTile ix iy).links = n.links ∧ (t.curTile ix iy).points = n.points ∧ (t.curTile ix iy).obs = n.obs))) ∧
    (∀ h reason, T.handover = some h → h.peer = src → ∃ t, exec (.handoverAbort src ix iy reason) s = .next t ∧ (t.curTile ix iy).handover = none ∧
      (t.curTile ix iy).noProposalUntil = s.map.published + s.holdEpochs ∧ t.counter 0x503 0 = (s.counter 0x503 0 + 1) % 2 ^ 64 ∧
      (T.owner = s.self ∨ T.mirror = some s.self → (t.curTile ix iy).keyframes = T.keyframes) ∧ (T.owner ≠ s.self → T.mirror ≠ some s.self → (t.curTile ix iy).keyframes = []))

/-- Epochs are sealed, declared ready and published (R18, R27, R225, R393, R394). -/
def Obligations.EpochsArePublished : Prop :=
  ∀ s : State, s.running = true →
    (s.fabric.isolated = true → ∃ t, exec .epochBoundary s = .next t ∧ t.map = s.map ∧ t.fabric = s.fabric) ∧
    (s.fabric.isolated = false →
      (∀ e, s.fabric.barrier = some e → ∃ t, exec .epochBoundary s = .next t ∧ t.map = s.map ∧ t.fabric = s.fabric ∧ t.counter 0x609 0 = (s.counter 0x609 0 + 1) % 2 ^ 64) ∧
      (s.fabric.barrier = none → s.others ≠ [] → (∀ h ∈ s.map.commits, h.epoch = none) → ∃ t, exec .epochBoundary s = .next t ∧ t.map = { s.map with sealedView := some s.map.cur } ∧
        t.fabric = { s.fabric with barrier := some (s.map.published + 1), readySent := false }) ∧
      (s.fabric.barrier = none → s.others = [] → ∃ t h, exec .epochBoundary s = .next t ∧ t.map.published = s.map.published + 1 ∧ t.map.sealedView = none ∧ t.fabric.barrier = none ∧
        t.map.held = (s.map.published + 1, h) :: s.map.held.take 3) ∧
      (∀ e, s.fabric.barrier = some e → s.fabric.readySent = false → s.changeOpen e = false → s.sealedAcked e = true →
        (s.fabric.leader ≠ s.self → ∃ t, exec .epochReadySend s = .next t ∧ t.fabric.readySent = true ∧ t.map = s.map ∧
          (s.Sends s.fabric.leader → ∃ f, t.out.fzl = f :: s.out.fzl ∧ f.hdr.type = 0x30 ∧ f.hdr.dst = s.fabric.leader ∧
            f.body = beBytes e 8 ++ beBytes s.fabric.viewNo 2 ++ beBytes s.declared.1.length 2 ++ s.declared.1.flatMap fun t => tileBe t.1 t.2)) ∧
        (s.fabric.leader = s.self → (∃ m ∈ s.others, ∀ r ∈ s.fabric.readys, r.1 ≠ m) → ∃ t, exec .epochReadySend s = .next t ∧ t.fabric.readySent = true ∧ t.map = s.map ∧
          (s.self, s.declared.1) ∈ t.fabric.readys) ∧
        (s.fabric.leader = s.self → (∀ m ∈ s.others, ∃ r ∈ s.fabric.readys, r.1 = m) → ∃ t, exec .epochReadySend s = .next t ∧ t.map.published = s.map.published + 1 ∧
          t.fabric.barrier = none)) ∧
      (∀ src tiles, s.fabric.leader = s.self → src ∈ s.others →
        ((∃ m ∈ bitList s.fabric.members 64, m ≠ src ∧ ∀ r ∈ s.fabric.readys, r.1 ≠ m) → ∃ t, exec (.barrierReady src (s.map.published + 1) s.fabric.viewNo tiles) s = .next t ∧
          t = { s with fabric := { s.fabric with ports := t.fabric.ports, readys := (s.fabric.readys.filter fun r => r.1 ≠ src) ++ [(src, tiles)] } }) ∧
        (∀ e, s.fabric.barrier = some e → (∀ m ∈ bitList s.fabric.members 64, m = src ∨ ∃ r ∈ s.fabric.readys, r.1 = m) →
          ∃ t, exec (.barrierReady src (s.map.published + 1) s.fabric.viewNo tiles) s = .next t ∧ t.map.published = s.map.published + 1 ∧ t.fabric.barrier = none)) ∧
      (∀ recs, s.fabric.leader ≠ s.self → ∃ t h, exec (.barrierPublish (s.map.published + 1) s.fabric.viewNo recs) s = .next t ∧ t.map.published = s.map.published + 1 ∧
        t.map.sealedView = none ∧ t.fabric.barrier = none ∧ t.map.held = (s.map.published + 1, h) :: s.map.held.take 3 ∧
        (recs = [] → h = { s.map.sealedView.getD s.map.cur with leader := s.fabric.leader }) ∧ (∀ r, recs = [r] → ∃ U, h.tile r.ix r.iy = some U ∧ U.owner = r.owner ∧ U.mirror = recMirror r) ∧
        (∀ id o, s.findOp id = some o → o.opcode = 0x1A → o.phase = .waiting → s.overdue o = false → o.waitTarget ≤ s.map.published + 1 → t.Ended id St.ok 0 (s.map.published + 1))))

/-- DIAG reports and LOG_READ write their records (R318, R419, R422, R423). -/
def Obligations.ReportsListTheirRecords : Prop :=
  ∀ (s : State) (id : Nat) (o : Op),
    (let F : Nat → Instr → Nat → List (List Byte) → Prop := fun sub c size recs => s.RunsSub id 0x49 sub o →
      (o.u32 32 < 16 → ∃ t, exec c s = .next t ∧ JustEnded s t id (Res.field 32)) ∧
      (16 ≤ o.u32 32 → ∀ n, n = min recs.length ((o.u32 32 - 16) / size) → ∃ t, exec c s = .next t ∧
        WroteAndEnded s t id (o.u64 24) (leBytes s.map.published 8 ++ leBytes recs.length 4 ++ leBytes n 4 ++ (recs.take n).flatten)
          { status := if n < recs.length then St.okPartial else St.ok, count := n, detail := recs.length } ∧ t = { s with ops := t.ops, mem := t.mem, tiers := t.tiers })
     F 0x10 (.diagSessions id) 16 (((s.sess.list.filter fun x => x.fn = o.fn).mergeSort fun a b => decide (a.id ≤ b.id)).map s.sessionRec) ∧
     F 0x11 (.diagClusters id) 32 ((s.place.clusters.mergeSort fun a b => decide (a.idx ≤ b.idx)).map s.clusterRec) ∧
     F 0x12 (.diagTiles id) 16 (s.map.latest.tiles.filterMap s.tileRec) ∧ F 0x20 (.diagCounters id) 16 (s.counterRecs o.fn)) ∧
    (s.Runs id 0x48 o →
      ((o.u32 32 < 32 ∨ o.u32 32 % 32 ≠ 0) → ∃ t, exec (.logRead id) s = .next t ∧ JustEnded s t id (Res.field 32)) ∧
      (o.fn = 0 → 32 ≤ o.u32 32 → o.u32 32 % 32 = 0 → o.u32 16 = s.tally.oldest → (s.tally.entries ≠ [] → seqDist s.tally.oldest s.tally.head ≠ 0) →
        ((s.tally.entries ≠ [] ∨ bit (o.u8 20) 0 = false) → ∀ n, n = min s.tally.entries.length (o.u32 32 / 32) → ∃ t, exec (.logRead id) s = .next t ∧
          WroteAndEnded s t id (o.u64 24) ((s.tally.entries.take n).flatMap TallyEntry.bytes)
            { status := if n < s.tally.entries.length then St.okPartial else St.ok, count := n, detail := s.tally.oldest } ∧ t = { s with ops := t.ops, mem := t.mem, tiers := t.tiers }) ∧
        (s.tally.entries = [] → bit (o.u8 20) 0 = true → ∃ t, exec (.logRead id) s = .next t ∧ t.findOp id = some { o with began := true } ∧ OthersKept s t id ∧ t = { s with ops := t.ops })))

/-- Pieces are retried, and worn or failed units are replaced (R39, R40, R399, R400, R401, R406, R407, R408, R409, R416, R446). -/
def Obligations.FailedPiecesAreRetriedAndUnitsReplaced : Prop :=
  ∀ s : State, s.running = true →
    (∀ id o piece core n, s.findOp id = some o → o.phase ≠ .final → o.phase ≠ .held → s.clock.now < o.deadlineAt → n = min (s.retryLimit * 1000) ((o.deadlineAt - s.clock.now) / 2) →
      (o.attempts < pieceAttempts piece → 1000 ≤ n → ∃ t p, exec (.pieceFailure id piece core false) s = .next t ∧ t.findOp id = some p ∧ p.attempts = o.attempts + 1 ∧ p.retrying = true ∧
        p.retried = true ∧ p.attemptEnds = s.clock.now + n ∧ p.phase = o.phase ∧ t.counter 0x700 0 = (s.counter 0x700 0 + 1) % 2 ^ 64 ∧ t = { s with ops := t.ops, tally := t.tally }) ∧
      ((pieceAttempts piece ≤ o.attempts ∨ n < 1000) → ∃ t d, exec (.pieceFailure id piece core false) s = .next t ∧ t.Ended id St.dataError 0 d) ∧
      (pieceOnCore piece = true → o.retrying = true → s.coreIn core = true →
        exec (.pieceFailure id piece core true) s = exec (.unitRetired (.core core)) (s.updOp id fun o => { o with retrying := false, attempts := 0 }))) ∧
    (∀ id o u n, s.findOp id = some o → o.phase ≠ .final → o.retrying = true → o.attemptEnds < o.deadlineAt → u = s.toTime o.attemptEnds →
      n = min (u.retryLimit * 1000) ((o.deadlineAt - u.clock.now) / 2) →
      (o.attempts < o.attemptsMax → 1000 ≤ n → ∃ t p, exec (.retryBudgetExpiry id) s = .next t ∧ t.findOp id = some p ∧ p.attempts = o.attempts + 1 ∧ p.attemptEnds = u.clock.now + n) ∧
      ((o.attemptsMax ≤ o.attempts ∨ n < 1000) → ∃ t d, exec (.retryBudgetExpiry id) s = .next t ∧ t.Ended id St.dataError 0 d)) ∧
    (∀ id c kind n k j, c = id / 4096 → kind = id / 256 % 16 → n = id % 256 → kind ≤ 1 → s.cluster c = some k → bit (k.bitsOf kind).1 n = true → s.reserveCore k kind = some j →
      (c ≠ 15 → n < coresOf kind → (k.role = .inService ∨ k.role = .draining) → ∃ t K, exec (.unitRetired (.core id)) s = .next t ∧ t.cluster c = some K ∧ K.role = k.role ∧
        K.bitsOf kind = (setBit (k.bitsOf kind).1 n false, setBit (k.bitsOf kind).2 n true) ∧ t.fault.powering = s.fault.powering ++ [(coreId c kind j, s.clock.now + serviceTime kind)] ∧
        t.counter 0x704 0 = (s.counter 0x704 0 + 1) % 2 ^ 64) ∧
      (k.role ≠ .draining → id ∈ k.draining → ∃ t K, exec (.drainComplete id) s = .next t ∧ t.cluster c = some K ∧
        K.bitsOf kind = (setBit (k.bitsOf kind).1 n false, setBit (k.bitsOf kind).2 n true) ∧ id ∉ K.draining ∧
        (∀ r o, s.fault.retireOps = [(r, id)] → s.findOp r = some o → o.phase ≠ .final → s.overdue o = false → t.Ended r St.ok 0 (coreId c kind j) ∧ t.fault.retireOps = []))) ∧
    (∀ id, id / 4096 = 15 → ∃ t, exec (.unitRetired (.core id)) s = .next t ∧ t.fault.safeHold = true) ∧
    (∀ w : WearUnit, bit (s.reg 0x10000 0) 16 = false → ∃ t e, exec (.wearDetected w) s = .next t ∧ t.tally.entries.getLast? = some e ∧ e.code = 0x0030 ∧ e.source = (wearRow w).2 ∧
      e.detail = (wearRow w).1 ∧ t = { s with tally := t.tally }) ∧
    (∀ id k, bit (s.reg 0x10000 0) 16 = true → s.coreIn id = true → s.cluster (id / 4096) = some k → id / 256 % 16 ≤ 1 → (s.reserveCore k (id / 256 % 16)).isSome = true →
      ∃ t K, exec (.wearDetected (.coreMargin id)) s = .next t ∧ t.cluster (id / 4096) = some K ∧ id ∈ K.draining ∧ K.role = k.role) ∧
    (∀ core p k, s.fault.powering.find? (fun p => p.1 = core) = some p → s.cluster (core / 4096) = some k → ∃ t K, exec (.spareInService core) s = .next t ∧ t.cluster (core / 4096) = some K ∧
      bit (K.bitsOf (core / 256 % 16)).1 (core % 256) = true ∧ (∀ q ∈ t.fault.powering, q.1 ≠ core) ∧ p.2 ≤ t.clock.now) ∧
    (∀ r, s.place.clusters.find? (fun c => c.role = .preparing) = some r → s.cluster r.idx = some r → ∃ t, exec .reservoirClusterReady s = .next t ∧
      t.cluster r.idx = some { r with role := .inService } ∧ t.sparesLeft 2 = s.sparesLeft 2 - 1) ∧
    (∀ r, s.reserveCluster = some r → s.cluster r.idx = some r →
      (exec (.reservoirDailyTest true) s = .next s) ∧
      (∃ t, exec (.reservoirDailyTest false) s = .next t ∧ t.cluster r.idx = some { r with role := .retired } ∧ bit t.fault.exhausted 2 = true) ∧
      (∀ id o, s.RunsSub id 0x4A 3 o → (∃ t, exec (.prepare id true) s = .next t ∧ JustEnded s t id (Res.ok 0 0)) ∧
        (∃ t, exec (.prepare id false) s = .next t ∧ t.Ended id St.ok 0 1 ∧ t.cluster r.idx = some { r with role := .retired }))) ∧
    (∀ id o k, s.RunsSub id 0x4A 1 o → s.cluster (o.u16 20 / 4096) = some k →
      (o.u8 18 = 1 → k.role = .inService → (s.spareFor (o.u16 20) true ≠ 0xFFFF ∨ bit (o.u8 17) 0 = true) → ∃ t, exec (.retire id) s = .next t ∧
        t.findOp id = some { o with phase := .waiting, began := true } ∧ t.cluster (o.u16 20 / 4096) = some { k with role := .draining } ∧ t.fault.retireOps = s.fault.retireOps ++ [(id, o.u16 20)]) ∧
      (o.u8 18 = 1 → k.role = .inService → s.spareFor (o.u16 20) true = 0xFFFF → bit (o.u8 17) 0 = false → ∃ t, exec (.retire id) s = .next t ∧ JustEnded s t id (Res.bound 0x70)) ∧
      (o.u8 18 = 0 → s.coreIn (o.u16 20) = true → o.u16 20 / 256 % 16 ≤ 1 → (s.reserveCore k (o.u16 20 / 256 % 16)).isSome = true → s.spareFor (o.u16 20) false ≠ 0xFFFF → ∃ t K, exec (.retire id) s = .next t ∧
        t.findOp id = some { o with phase := .waiting, began := true } ∧ t.cluster (o.u16 20 / 4096) = some K ∧ o.u16 20 ∈ K.draining ∧ K.role = k.role ∧
        t.fault.retireOps = s.fault.retireOps ++ [(id, o.u16 20)])) ∧
    (∀ g, g < 20 → (g < 13 → (s.cluster g).isSome = true) → (∀ c ∈ s.power.clockLost, c.1 ≠ g) →
      (g ∉ s.power.pllUsed → ∃ t, exec (.clockLoss g) s = .next t ∧ t.power.clockLost = s.power.clockLost ++ [(g, s.clock.now)] ∧ t.power.pllUsed = s.power.pllUsed ++ [g] ∧
        t.counter Ctr.clockLoss 0 = (s.counter Ctr.clockLoss 0 + 1) % 2 ^ 64 ∧ (∀ d ∈ genDomains g, t.domOn d = false)) ∧
      (g ∈ s.power.pllUsed → ∃ t, exec (.clockLoss g) s = .next t ∧ t.fault.safeHold = true)) ∧
    (∀ c, c ∈ s.power.clockLost → s.power.clockLost.find? (fun x => x.1 = c.1) = some c → ∃ t, exec (.sparePllLocked c.1) s = .next t ∧ (∀ x ∈ t.power.clockLost, x.1 ≠ c.1) ∧
      c.2 + 12000 + genCycles c.1 ≤ t.clock.now ∧ (∀ d ∈ genDomains c.1, ∀ x, s.power.domains[d]? = some x → x.state = .on → t.domOn d = true))

/-- Safe hold ends all work; firmware is staged and switched at an epoch boundary (R412, R413, R414, R416, R417, R418, R496). -/
def Obligations.SafeHoldStopsAndFirmwareSwitches : Prop :=
  ∀ s : State, s.running = true →
    (let H : State → Prop := fun t => ∃ e, t.fault.safeHold = true ∧
      t.net.stopped = true ∧ t.fabric.stopped = true ∧ (∀ i o, t.findOp i = some o → o.phase = .final) ∧ (∀ i x, t.session i = some x → x.state ≠ .opened ∧ x.state ≠ .silent) ∧
      e ∈ t.tally.entries ∧ e.code = 0x00F0 ∧
      (s.sess.list = [] → (∀ q ∈ s.net.ports, q.queue = []) → ∀ i o, s.findOp i = some o → o.phase ≠ .final → t.Ended i St.safeHold 0 (s.tally.head % 65536))
     (∀ code, ∃ t, exec (.safeHold code) s = .next t ∧ H t) ∧ (∃ t, exec .thermalLimit s = .next t ∧ H t) ∧
     (∀ id o, s.RunsSub id 0x4A 2 o → ∃ t, exec (.safeHoldAction id) s = .next t ∧ H t)) ∧
    (∀ id o signed version sec, s.RunsSub id 0x4B 1 o → 4096 ≤ o.u32 32 → o.u32 32 ≤ 16777216 →
      (signed = false → ∃ t, exec (.stage id signed version sec) s = .next t ∧ JustEnded s t id (Res.field 24)) ∧
      (signed = true → sec < s.chip.minSecVersion → ∃ t, exec (.stage id signed version sec) s = .next t ∧ JustEnded s t id (Res.bound 0x71)) ∧
      (signed = true → s.chip.minSecVersion ≤ sec → s.fault.switchOp = none → ∃ t x, exec (.stage id signed version sec) s = .next t ∧
        x = (if s.fault.activeSlot = 0 then t.chip.slotB else t.chip.slotA) ∧ x.signed = true ∧ x.version = version ∧ x.secVersion = sec ∧
        (if s.fault.activeSlot = 0 then t.chip.slotA = s.chip.slotA else t.chip.slotB = s.chip.slotB) ∧ t.fault.stagedValid = true ∧ t.Ended id St.ok 0 version ∧ t.power = s.power)) ∧
    (∀ id o, let F : Instr → Nat → Bool → Prop := fun c sub ready => s.RunsSub id 0x4B sub o →
      (o.u64 40 ≠ 0 → o.u64 40 ≤ s.map.published → ∃ t, exec c s = .next t ∧ JustEnded s t id (Res.field 40)) ∧
      (o.u64 40 = 0 → ready = false → ∃ t, exec c s = .next t ∧ JustEnded s t id (Res.bound 0x72)) ∧
      (o.u64 40 = 0 ∨ s.map.published < o.u64 40 → ready = true → s.fault.switchOp = none → ∃ t, exec c s = .next t ∧ t.findOp id = some { o with phase := .waiting, began := true } ∧
        t.fault.switchOp = some (id, if o.u64 40 = 0 then s.nextEpoch else o.u64 40) ∧ t = { s with ops := t.ops, fault := t.fault })
      F (.activate id) 2 s.fault.stagedValid ∧ F (.revert id) 3 (if s.fault.activeSlot = 0 then s.chip.slotB.signed else s.chip.slotA.signed)) ∧
    (∀ id e o, s.fault.switchOp = some (id, e) → e ≤ s.map.published + 1 → s.fabric.isolated = false → s.fabric.barrier = none → s.others ≠ [] → s.findOp id = some o → o.phase ≠ .final →
      (s.toDev (s.nextBoundary * 1000000)).overdue o = false → ∃ t, exec .epochBoundary s = .next t ∧ t.fault.activeSlot = 1 - s.fault.activeSlot ∧ t.fault.switchOp = none ∧
        t.Ended id St.ok 0 (if 1 - s.fault.activeSlot = 0 then s.chip.slotA.version else s.chip.slotB.version))

/-- The work of the engines leaves registers, rings, host state, view and epoch alone (R16, R101, R323, R390, R393, R462). -/
def Obligations.WorkLeavesOtherStateAlone : Prop :=
  ∀ (c : Instr) (s t : State), exec c s = .next t →
    (c.leavesRegisters = true → t.chip = s.chip ∧ t.regs = s.regs ∧ t.host = s.host ∧ t.rings = s.rings ∧ t.mgmt = s.mgmt ∧ t.map.published = s.map.published ∧
      t.fabric.viewNo = s.fabric.viewNo ∧ t.fabric.members = s.fabric.members ∧ t.fabric.leader = s.fabric.leader ∧ t.ops.list.map (·.id) = s.ops.list.map (·.id)) ∧
    (c.storesNothing = true → (∀ a, t.mem.byte a = s.mem.byte a) ∧ t.ops.used0 = s.ops.used0 ∧ t.ops.used1 = s.ops.used1 ∧ t.ops.usedShared = s.ops.usedShared)
end

