-- ==== Sys2Proof/Laws/Bits.lean ====
section
/-! SUPPORT. Bits after a field of a number is replaced, and after a register row's fields are merged; lengths of byte fields. -/

namespace Sys2Proof.Machine

/-- A bit after a field is replaced: the field's own bits come from x, the others stay. -/
theorem bit_setBits (v hi lo x i : Nat) : bit (setBits v hi lo x) i = if lo ≤ i ∧ i ≤ hi then bit x (i - lo) else bit v i := by
  unfold bit setBits bits
  generalize hw : hi + 1 - lo = w
  have hv : v = 2 ^ lo * (2 ^ w * (v / 2 ^ lo / 2 ^ w) + v / 2 ^ lo % 2 ^ w) + v % 2 ^ lo := by
    rw [Nat.div_add_mod, Nat.div_add_mod]
  have hl : v % 2 ^ lo < 2 ^ lo := Nat.mod_lt _ (by positivity)
  have hm : v / 2 ^ lo % 2 ^ w < 2 ^ w := Nat.mod_lt _ (by positivity)
  have hx : x % 2 ^ w < 2 ^ w := Nat.mod_lt _ (by positivity)
  have e : v - v / 2 ^ lo % 2 ^ w * 2 ^ lo + x % 2 ^ w * 2 ^ lo = 2 ^ lo * (2 ^ w * (v / 2 ^ lo / 2 ^ w) + x % 2 ^ w) + v % 2 ^ lo := by
    generalize v / 2 ^ lo % 2 ^ w = m at hv ⊢
    generalize v / 2 ^ lo / 2 ^ w = a at hv ⊢
    generalize v % 2 ^ lo = l at hv ⊢
    generalize x % 2 ^ w = y
    subst hv
    have h1 : 2 ^ lo * (2 ^ w * a + m) + l - m * 2 ^ lo = 2 ^ lo * (2 ^ w * a) + l := by
      have : 2 ^ lo * (2 ^ w * a + m) = 2 ^ lo * (2 ^ w * a) + m * 2 ^ lo := by ring
      omega
    rw [h1]; ring
  rw [e, Nat.testBit_two_pow_mul_add _ hl]
  conv_rhs => rw [hv]
  rw [Nat.testBit_two_pow_mul_add _ hl, Nat.testBit_two_pow_mul_add _ hx, Nat.testBit_two_pow_mul_add _ hm]
  by_cases h1 : i < lo
  · rw [if_pos h1, if_pos h1, if_neg (by omega)]
  · rw [if_neg h1, if_neg h1]
    by_cases h2 : i - lo < w
    · rw [if_pos h2, if_pos h2, if_pos (by omega), Nat.testBit_mod_two_pow]
      simp [h2]
    · rw [if_neg h2, if_neg h2, if_neg (by omega)]

/-- A bit after one bit is set or cleared. -/
theorem bit_setBit (v i j : Nat) (b : Bool) : bit (setBit v i b) j = if j = i then b else bit v j := by
  unfold setBit
  rw [bit_setBits]
  by_cases h : j = i
  · subst h
    rw [if_pos ⟨le_refl _, le_refl _⟩, if_pos rfl, Nat.sub_self]
    cases b <;> rfl
  · rw [if_neg (by omega), if_neg h]

/-- A bit of a field. -/
theorem bit_bits (v hi lo i : Nat) : bit (bits v hi lo) i = (decide (i < hi + 1 - lo) && bit v (lo + i)) := by
  unfold bit bits
  rw [Nat.testBit_mod_two_pow, Nat.testBit_div_two_pow, Nat.add_comm i lo]

/-- A bit after fields are merged: from sh where a chosen field covers it, else from old. -/
theorem bit_mergeFields (fs : List Field) (p : Field → Bool) (old sh i : Nat) :
    bit (mergeFields fs p old sh) i = if fs.any (fun f => p f && decide (f.lo ≤ i ∧ i ≤ f.hi)) then bit sh i else bit old i := by
  unfold mergeFields
  induction fs generalizing old with
  | nil => simp
  | cons f t ih =>
    rw [List.foldl_cons, ih, List.any_cons]
    by_cases hp : p f = true
    · rw [if_pos hp, bit_setBits, bit_bits]
      by_cases hc : f.lo ≤ i ∧ i ≤ f.hi
      · have h1 : i - f.lo < f.hi + 1 - f.lo := by omega
        have h2 : f.lo + (i - f.lo) = i := by omega
        simp [hp, hc, h1, h2]
      · simp [hp, hc]
    · simp [hp]

theorem leBytes_length (v n : Nat) : (leBytes v n).length = n := by
  induction n generalizing v with
  | zero => rfl
  | succ n ih => simp [leBytes, ih]

/-- Bytes of a number give it back, modulo what they hold. -/
theorem leNat_leBytes (v n : Nat) : leNat (leBytes v n) = v % 256 ^ n := by
  induction n generalizing v with
  | zero => simp [leBytes, leNat, Nat.mod_one]
  | succ n ih =>
    rw [leBytes, leNat, ih, BitVec.toNat_ofNat, show 256 ^ (n + 1) = 256 * 256 ^ n from pow_succ' 256 n, Nat.mod_mul]

end Sys2Proof.Machine
end

