-- ==== Sys2Proof/Laws/Kept.lean ====
section
/-! SUPPORT. What leaves the queue, the completion tags in use and the bytes of memory as they were: one lemma for each operation and
each meaning that writes none of them. Each is cited by its name, or through simp. -/

namespace Sys2Proof.Machine

set_option linter.unusedTactic false
set_option linter.unreachableTactic false
set_option linter.unusedSimpArgs false
set_option linter.unusedVariables false

/-- The waiting commands, the tags in use of each pool (R57), and memory. -/
def State.kept (s : State) : List Instr × Nat × Nat × Nat × Memory := (s.pending, s.ops.used0, s.ops.used1, s.ops.usedShared, s.mem)

@[simp] theorem kept_mk (a b c d e f g o h i j k l m n p q r t u v w x y) : (State.mk a b c d e f g o h i j k l m n p q r t u v w x y).kept = (a, o.used0, o.used1, o.usedShared, d) := by simp only [State.kept]
@[simp] theorem kept_fold (s : State) : (s.pending, s.ops.used0, s.ops.used1, s.ops.usedShared, s.mem) = s.kept := by simp only [State.kept]
@[simp] theorem foldl_kept {α : Type} (f : State → α → State) (l : List α) (s : State) (h : ∀ s a, (f s a).kept = s.kept) : (l.foldl f s).kept = s.kept := by
  induction l generalizing s with
  | nil => rfl
  | cons x t ih => rw [List.foldl_cons, ih, h]
@[simp] theorem foldl_kept1 {α β : Type} (f : State × β → α → State × β) (l : List α) (s : State × β) (h : ∀ s a, (f s a).1.kept = s.1.kept) : (l.foldl f s).1.kept = s.1.kept := by
  induction l generalizing s with
  | nil => rfl
  | cons x t ih => rw [List.foldl_cons, ih, h]
@[simp] theorem kept_ite (c : Prop) [Decidable c] (a b : State) : (if c then a else b).kept = if c then a.kept else b.kept := by split <;> rfl

/-- A meaning's next state has the queue, the tags and the memory of s. -/
def KeepsKept (s : State) (r : Result) : Prop := match r with
  | .next s' => s'.kept = s.kept
  | _ => True
@[simp] theorem keeps_next (s s' : State) : KeepsKept s (.next s') = (s'.kept = s.kept) := by simp only [KeepsKept]

@[simp] theorem State.spend_kept (s : State) (n : Nat) : (State.spend s n).kept = s.kept := by
  simp [State.spend]
@[simp] theorem State.toTime_kept (s : State) (t : Nat) : (State.toTime s t).kept = s.kept := by
  simp [State.toTime]
@[simp] theorem State.toDev_kept (s : State) (t : Nat) : (State.toDev s t).kept = s.kept := by
  simp [State.toDev]
@[simp] theorem State.bumpBy_kept (s : State) (id : Nat) (inst : Nat) (n : Nat) : (State.bumpBy s id inst n).kept = s.kept := by
  simp [State.bumpBy]
@[simp] theorem State.noTamper_kept (s : State) : (State.noTamper s).kept = s.kept := by
  rfl
@[simp] theorem State.bump_kept (s : State) (id : Nat) : (State.bump s id).kept = s.kept := by
  simp [State.bump]
@[simp] theorem State.log_kept (s : State) (source : Nat) (code : Nat) (cls : Nat) (fn : Nat) (subject : Nat) (detail : Nat) : (State.log s source code cls fn subject detail).kept = s.kept := by
  simp [State.log]
@[simp] theorem State.logLimited_kept (s : State) (key : Nat) (source : Nat) (code : Nat) (cls : Nat) (fn : Nat) (subject : Nat) (detail : Nat) : (State.logLimited s key source code cls fn subject detail).kept = s.kept := by
  simp [State.logLimited]
@[simp] theorem State.lockViolation_kept (s : State) (fn : Nat) (off : Nat) : (State.lockViolation s fn off).kept = s.kept := by
  simp [State.lockViolation]
@[simp] theorem State.guardedAccess_kept (s : State) (fn : Nat) (off : Nat) : (State.guardedAccess s fn off).kept = s.kept := by
  simp [State.guardedAccess]
@[simp] theorem State.eccCorrected_kept (s : State) (source : Nat) (addr : Nat) : (State.eccCorrected s source addr).kept = s.kept := by
  simp [State.eccCorrected]
@[simp] theorem State.updOp_kept (s : State) (id : Nat) (f : Op → Op) : (State.updOp s id f).kept = s.kept := by
  simp [State.updOp]
@[simp] theorem State.finish_kept (s : State) (id : Nat) (r : Res) : (State.finish s id r).kept = s.kept := by
  simp [State.finish]
@[simp] theorem State.complete_kept (s : State) (id : Nat) (r : Res) : (State.complete s id r).kept = s.kept := by
  unfold State.complete; (repeat' (first | (simp; done) | split))
@[simp] theorem State.commit_kept (s : State) (id : Nat) : (State.commit s id).kept = s.kept := by
  simp [State.commit]
@[simp] theorem State.await_kept (s : State) (id : Nat) : (State.await s id).kept = s.kept := by
  simp [State.await]
@[simp] theorem State.begin_kept (s : State) (id : Nat) : (State.begin s id).kept = s.kept := by
  simp [State.begin]
@[simp] theorem State.runOp_kept (s : State) (id : Nat) (code : Nat) (f : Op → State) (h : ∀ o, (f o).kept = s.kept) : KeepsKept s (State.runOp s id code f) := by
  unfold State.runOp; repeat' (first | (simp [h]; done) | split)
@[simp] theorem State.runSub_kept (s : State) (id : Nat) (code : Nat) (sub : Nat) (f : Op → State) (h : ∀ o, (f o).kept = s.kept) : KeepsKept s (State.runSub s id code sub f) := by
  unfold State.runSub; repeat' (first | (simp [h]; done) | split)
@[simp] theorem State.waited_kept (s : State) (c : Nat) (cls : Nat) (ns : Nat) : (State.waited s c cls ns).kept = s.kept := by
  simp [State.waited]
@[simp] theorem State.useSpare_kept (s : State) (kind : Nat) : (State.useSpare s kind).kept = s.kept := by
  simp [State.useSpare]
@[simp] theorem State.unitGone_kept (s : State) (source : Nat) (kind : Nat) (spare : Nat) (subject : Nat) : (State.unitGone s source kind spare subject).kept = s.kept := by
  simp [State.unitGone]
@[simp] theorem State.exhaust_kept (s : State) (source : Nat) (kind : Nat) : (State.exhaust s source kind).kept = s.kept := by
  simp [State.exhaust]
@[simp] theorem State.setDomain_kept (s : State) (d : Nat) (f : Domain → Domain) : (State.setDomain s d f).kept = s.kept := by
  simp [State.setDomain]
@[simp] theorem State.placed_kept (s : State) (c : Nat) : (State.placed s c).kept = s.kept := by
  simp [State.placed]
@[simp] theorem State.dropWork_kept (s : State) (id : Nat) : (State.dropWork s id).kept = s.kept := by
  simp [State.dropWork]
@[simp] theorem State.updSession_kept (s : State) (sid : Nat) (f : Session → Session) : (State.updSession s sid f).kept = s.kept := by
  simp [State.updSession]
@[simp] theorem State.updKeys_kept (s : State) (sid : Nat) (f : KeySlot → KeySlot) : (State.updKeys s sid f).kept = s.kept := by
  simp [State.updKeys]
@[simp] theorem State.queueEvent_kept (s : State) (sid : Nat) (code : Nat) (data : Nat) : (State.queueEvent s sid code data).kept = s.kept := by
  unfold State.queueEvent; simp; (repeat' (first | (simp; done) | split))
@[simp] theorem State.occupy_kept (s : State) (p : Nat) (n : Nat) (at_ : Nat) : (State.occupy s p n at_).kept = s.kept := by
  simp [State.occupy]
@[simp] theorem State.sendUsp_kept (s : State) (sid : Nat) (kind : Nat) (body : List Byte) : (State.sendUsp s sid kind body).kept = s.kept := by
  unfold State.sendUsp; simp; (repeat' (first | (simp; done) | split))
@[simp] theorem State.sendError_kept (s : State) (sid : Nat) (code : Nat) (seq : Nat) : (State.sendError s sid code seq).kept = s.kept := by
  unfold State.sendError; simp; (repeat' (first | (simp; done) | split))
@[simp] theorem State.endUnstarted_kept (s : State) (sid : Nat) (r : Res) : (State.endUnstarted s sid r).kept = s.kept := by
  simp [State.endUnstarted]
@[simp] theorem State.quiesce_kept (s : State) (sid : Nat) : (State.quiesce s sid).kept = s.kept := by
  unfold State.quiesce; simp; (repeat' (first | (simp; done) | split))
@[simp] theorem State.freeSession_kept (s : State) (sid : Nat) : (State.freeSession s sid).kept = s.kept := by
  simp [State.freeSession]
@[simp] theorem State.putFlits_kept (s : State) (port : Nat) (l : List Flit) : (State.putFlits s port l).kept = s.kept := by
  simp [State.putFlits]
@[simp] theorem State.sendOn_kept (s : State) (port : Nat) (type : Nat) (cls : Nat) (dst : Nat) (xid : Nat) (body : List Byte) : (State.sendOn s port type cls dst xid body).kept = s.kept := by
  simp [State.sendOn]
@[simp] theorem State.flitRound_kept (s : State) : (State.flitRound s).kept = s.kept := by
  simp [State.flitRound]
@[simp] theorem State.taken_kept (s : State) (port : Nat) (cls : Nat) (n : Nat) : (State.taken s port cls n).kept = s.kept := by
  simp [State.taken]
@[simp] theorem State.sendFz_kept (s : State) (type : Nat) (cls : Nat) (dst : Nat) (xid : Nat) (body : List Byte) : (State.sendFz s type cls dst xid body).kept = s.kept := by
  unfold State.sendFz; simp; (repeat' (first | (simp; done) | split))
@[simp] theorem State.sendRequest_kept (s : State) (op : Nat) (peer : Nat) (cls : Nat) (desc : List Byte) (data : List Byte) : (State.sendRequest s op peer cls desc data).kept = s.kept := by
  simp [State.sendRequest]
@[simp] theorem State.sendResponse_kept (s : State) (peer : Nat) (cls : Nat) (xid : Nat) (r : Res) (data : List Byte) : (State.sendResponse s peer cls xid r data).kept = s.kept := by
  simp [State.sendResponse]
@[simp] theorem State.dropRequests_kept (s : State) (op : Nat) : (State.dropRequests s op).kept = s.kept := by
  simp [State.dropRequests]
@[simp] theorem State.setCur_kept (s : State) (v : MapView) : (State.setCur s v).kept = s.kept := by
  simp [State.setCur]
@[simp] theorem State.access_kept (s : State) (ix : Int) (iy : Int) (dev : Nat) : (State.access s ix iy dev).kept = s.kept := by
  unfold State.access; simp; (repeat' (first | (simp; done) | split))
@[simp] theorem State.setStream_kept (s : State) (x : Stream) : (State.setStream s x).kept = s.kept := by
  simp [State.setStream]
@[simp] theorem State.sendItem_kept (s : State) (peer : Nat) (seq : Nat) (ix : Int) (iy : Int) (epoch : Nat) : (State.sendItem s peer seq ix iy epoch).kept = s.kept := by
  simp [State.sendItem]
@[simp] theorem State.stream_kept (s : State) (ix : Int) (iy : Int) : (State.stream s ix iy).kept = s.kept := by
  simp [State.stream]
@[simp] theorem State.awaitAcks_kept (s : State) (w : AckWait) : (State.awaitAcks s w).kept = s.kept := by
  simp [State.awaitAcks]
@[simp] theorem State.finishAcked_kept (s : State) (old : State) (op : Nat) (r : Res) : (State.finishAcked s old op r).kept = s.kept := by
  unfold State.finishAcked; dsimp only; split <;> simp
@[simp] theorem State.record_kept (s : State) (t : Tile) : (State.record s t).kept = s.kept := by
  simp [State.record]
@[simp] theorem State.addKeyframe_kept (s : State) (k : Keyframe) (dev : Nat) : (State.addKeyframe s k dev).kept = s.kept := by
  simp [State.addKeyframe]
@[simp] theorem State.tell_kept (s : State) (peer : Nat) (cls : Nat) (desc : List Byte) (data : List Byte) : (State.tell s peer cls desc data).kept = s.kept := by
  simp [State.tell]
@[simp] theorem State.addPoint_kept (s : State) (p : NewPoint) : (State.addPoint s p).kept = s.kept := by
  simp [State.addPoint]
@[simp] theorem State.addObs_kept (s : State) (ix : Int) (iy : Int) (o : Observation) : (State.addObs s ix iy o).kept = s.kept := by
  simp [State.addObs]
@[simp] theorem State.observe_kept (s : State) (ix : Int) (iy : Int) (key : Nat) (f : Nat × Nat × List Byte) : (State.observe s ix iy key f).1.kept = s.kept := by
  unfold State.observe; simp; (repeat' (first | (simp; done) | split))
@[simp] theorem State.addObservations_kept (s : State) (ix : Int) (iy : Int) (key : Nat) (fs : List (Nat × Nat × List Byte)) (dev : Nat) : (State.addObservations s ix iy key fs dev).kept = s.kept := by
  simp [State.addObservations]
@[simp] theorem State.pointAsked_kept (s : State) (peer : Nat) (key : Nat) (b : List Byte) : (State.pointAsked s peer key b).kept = s.kept := by
  simp [State.pointAsked]
@[simp] theorem State.pointGiven_kept (s : State) (ix : Int) (iy : Int) (key : Nat) (b : List Byte) : (State.pointGiven s ix iy key b).kept = s.kept := by
  unfold State.pointGiven; (repeat' (first | (simp; done) | split))
@[simp] theorem State.syncPool_kept (s : State) : (State.syncPool s).kept = s.kept := by
  simp [State.syncPool]
@[simp] theorem State.inletFull_kept (s : State) : (State.inletFull s).kept = s.kept := by
  simp [State.inletFull]
@[simp] theorem State.insertEntry_kept (s : State) (h : Nat) (e : Entry) : (State.insertEntry s h e).1.kept = s.kept := by
  unfold State.insertEntry; simp; (repeat' (first | (simp; done) | split))
@[simp] theorem State.deleteEntry_kept (s : State) (h : Nat) (key : Nat) (ix : Int) (iy : Int) : (State.deleteEntry s h key ix iy).1.kept = s.kept := by
  unfold State.deleteEntry; simp; (repeat' (first | (simp; done) | split))
@[simp] theorem State.insertPlace_kept (s : State) (k : Keyframe) : (State.insertPlace s k).kept = s.kept := by
  unfold State.insertPlace; simp; (repeat' (first | (simp; done) | split))
@[simp] theorem execSessionKey_kept (op : Nat) (s : State) : KeepsKept s (execSessionKey op s) := by
  unfold execSessionKey; refine State.runOp_kept _ _ _ _ fun o => ?_; dsimp only; (repeat' (first | (simp; done) | split))
@[simp] theorem State.tune_kept (s : State) (op : Nat) (sub : Nat) (f : Op → Session → State) (h : ∀ o x, (f o x).kept = s.kept) : KeepsKept s (State.tune s op sub f) := by
  unfold State.tune; refine State.runSub_kept _ _ _ _ _ fun o => ?_; repeat' (first | (simp [h]; done) | split)
@[simp] theorem State.setNext_kept (s : State) (op : Nat) (sid : Nat) (f : SessCfg → SessCfg) : (State.setNext s op sid f).kept = s.kept := by
  simp [State.setNext]
@[simp] theorem State.tuneCfg_kept (s : State) (op : Nat) (sub : Nat) (chk : Op → Session → Option Res) (f : Op → SessCfg → SessCfg) : KeepsKept s (State.tuneCfg s op sub chk f) := by
  unfold State.tuneCfg; refine State.runSub_kept _ _ _ _ _ fun o => ?_; dsimp only; (repeat' (first | (simp; done) | split))
@[simp] theorem execSetFilter_kept (op : Nat) (s : State) : KeepsKept s (execSetFilter op s) := by
  unfold execSetFilter; refine State.runSub_kept _ _ _ _ _ fun o => ?_; dsimp only; (repeat' (first | (simp; done) | split))
@[simp] theorem execSetThresholds_kept (op : Nat) (s : State) : KeepsKept s (execSetThresholds op s) := by
  simp [execSetThresholds]
@[simp] theorem execSetTimers_kept (op : Nat) (s : State) : KeepsKept s (execSetTimers op s) := by
  simp [execSetTimers]
@[simp] theorem execSetMaxLoad_kept (op : Nat) (s : State) : KeepsKept s (execSetMaxLoad op s) := by
  simp [execSetMaxLoad]
@[simp] theorem execSetHostRate_kept (op : Nat) (s : State) : KeepsKept s (execSetHostRate op s) := by
  simp [execSetHostRate]
@[simp] theorem execSetLimits_kept (op : Nat) (s : State) : KeepsKept s (execSetLimits op s) := by
  unfold execSetLimits; refine State.runSub_kept _ _ _ _ _ fun o => ?_; dsimp only; (repeat' (first | (simp; done) | split))
@[simp] theorem execSetGates_kept (op : Nat) (s : State) : KeepsKept s (execSetGates op s) := by
  simp [execSetGates]
@[simp] theorem execSetPrecedence_kept (op : Nat) (s : State) : KeepsKept s (execSetPrecedence op s) := by
  simp [execSetPrecedence]
@[simp] theorem execSetReply_kept (op : Nat) (s : State) : KeepsKept s (execSetReply op s) := by
  simp [execSetReply]
@[simp] theorem execSetTime_kept (op : Nat) (s : State) : KeepsKept s (execSetTime op s) := by
  simp [execSetTime]
@[simp] theorem execSetPose_kept (op : Nat) (s : State) : KeepsKept s (execSetPose op s) := by
  simp [execSetPose]
@[simp] theorem execSetCalibRefine_kept (op : Nat) (s : State) : KeepsKept s (execSetCalibRefine op s) := by
  simp [execSetCalibRefine]
@[simp] theorem execSetCalibration_kept (op : Nat) (s : State) : KeepsKept s (execSetCalibration op s) := by
  simp [execSetCalibration]
@[simp] theorem execSetRefine_kept (op : Nat) (s : State) : KeepsKept s (execSetRefine op s) := by
  simp [execSetRefine]
@[simp] theorem execSetSearch_kept (op : Nat) (s : State) : KeepsKept s (execSetSearch op s) := by
  simp [execSetSearch]
@[simp] theorem execSetFeatures_kept (op : Nat) (s : State) : KeepsKept s (execSetFeatures op s) := by
  simp [execSetFeatures]
@[simp] theorem execSetStereo_kept (op : Nat) (s : State) : KeepsKept s (execSetStereo op s) := by
  simp [execSetStereo]
@[simp] theorem execSetRetain_kept (op : Nat) (s : State) : KeepsKept s (execSetRetain op s) := by
  simp [execSetRetain]
@[simp] theorem State.countReads_kept (s : State) (r : Int × Int × Int × Int) (dev : Nat) : (State.countReads s r dev).kept = s.kept := by
  simp [State.countReads]
@[simp] theorem State.serveRead_kept (s : State) (peer : Nat) (xid : Nat) (o : Op) (data : List Byte) : (State.serveRead s peer xid o data).kept = s.kept := by
  unfold State.serveRead; simp; (repeat' (first | (simp; done) | split))
@[simp] theorem State.applyRestore_kept (s : State) (o : Op) (data : List Byte) : (State.applyRestore s o data).1.kept = s.kept := by
  unfold State.applyRestore; simp; (repeat' (first | (simp; done) | split))
@[simp] theorem State.purge_kept (s : State) (key : Nat) (removed : List Observation) : (State.purge s key removed).1.kept = s.kept := by
  unfold State.purge; apply foldl_kept1 (s := (s, 0)); intro s a; dsimp only; split <;> simp
@[simp] theorem State.applyDelete_kept (s : State) (o : Op) (data : List Byte) : (State.applyDelete s o data).1.kept = s.kept := by
  unfold State.applyDelete; simp; (repeat' (first | (simp; done) | split))
@[simp] theorem State.applyPose_kept (s : State) (o : Op) (data : List Byte) : (State.applyPose s o data).1.kept = s.kept := by
  unfold State.applyPose; simp; (repeat' (first | (simp; done) | split))
@[simp] theorem State.applyLinkAdd_kept (s : State) (o : Op) (data : List Byte) : (State.applyLinkAdd s o data).1.kept = s.kept := by
  unfold State.applyLinkAdd; simp; (repeat' (first | (simp; done) | split))
@[simp] theorem State.applyLinkDelete_kept (s : State) (o : Op) : (State.applyLinkDelete s o).1.kept = s.kept := by
  unfold State.applyLinkDelete; simp; (repeat' (first | (simp; done) | split))
@[simp] theorem State.applyQuarantine_kept (s : State) (o : Op) (data : List Byte) (on : Bool) : (State.applyQuarantine s o data on).1.kept = s.kept := by
  simp [State.applyQuarantine]
@[simp] theorem State.applyCreate_kept (s : State) (o : Op) (data : List Byte) : (State.applyCreate s o data).1.kept = s.kept := by
  unfold State.applyCreate; simp; (repeat' (first | (simp; done) | split))
@[simp] theorem State.applyDrop_kept (s : State) (o : Op) : (State.applyDrop s o).1.kept = s.kept := by
  simp [State.applyDrop]
@[simp] theorem State.applyAffinity_kept (s : State) (o : Op) : (State.applyAffinity s o).1.kept = s.kept := by
  simp [State.applyAffinity]
@[simp] theorem State.applyEdit_kept (s : State) (o : Op) (data : List Byte) : (State.applyEdit s o data).1.kept = s.kept := by
  unfold State.applyEdit; (repeat' (first | (simp; done) | split))
@[simp] theorem State.recordMoves_kept (s : State) (base : MapView) (moves : List PoseMove) (links : List Link) : (State.recordMoves s base moves links).kept = s.kept := by
  unfold State.recordMoves; dsimp only; rw [foldl_kept, foldl_kept]
  all_goals intro s a; split <;> (try split) <;> simp
@[simp] theorem State.correct_kept (s : State) (moves : List PoseMove) (epoch : Nat) : (State.correct s moves epoch).kept = s.kept := by
  simp [State.correct]
@[simp] theorem State.carryOut_kept (s : State) (base : MapView) (o : Op) (data : List Byte) : (State.carryOut s base o data).1.kept = s.kept := by
  unfold State.carryOut; (repeat' (first | (simp; done) | split))
@[simp] theorem State.hold_kept (s : State) (h : HeldCommit) : (State.hold s h).kept = s.kept := by
  simp [State.hold]
@[simp] theorem State.unhold_kept (s : State) (peer : Nat) (id : Nat) : (State.unhold s peer id).kept = s.kept := by
  simp [State.unhold]
@[simp] theorem State.inSealed_kept (s : State) (f : State → State) (h : ∀ s, (f s).kept = s.kept) : (State.inSealed s f).kept = s.kept := by
  unfold State.inSealed; split
  · rfl
  · rename_i v _; exact (h { s with map := { s.map with cur := v, sealedView := none } })
@[simp] theorem State.applyChange_kept (s : State) (epoch : Nat) (o : Op) (data : List Byte) : (State.applyChange s epoch o data).kept = s.kept := by
  simp [State.applyChange]
@[simp] theorem State.settleChange_kept (s : State) (peer : Nat) (id : Nat) (epoch : Nat) (desc : List Byte) (data : List Byte) : (State.settleChange s peer id epoch desc data).kept = s.kept := by
  simp [State.settleChange]
@[simp] theorem State.dueChanges_kept (s : State) : (State.dueChanges s).kept = s.kept := by
  simp [State.dueChanges]
@[simp] theorem State.takeChange_kept (s : State) (peer : Nat) (id : Nat) (o : Op) (data : List Byte) : (State.takeChange s peer id o data).1.kept = s.kept := by
  unfold State.takeChange; simp; (repeat' (first | (simp; done) | split))
@[simp] theorem State.serveChange_kept (s : State) (peer : Nat) (o : Op) (data : List Byte) : (State.serveChange s peer o data).1.kept = s.kept := by
  unfold State.serveChange; simp; (repeat' (first | (simp; done) | split))
@[simp] theorem State.proposeChange_kept (s : State) (id : Nat) (cls : Nat) (desc : List Byte) (data : List Byte) : (State.proposeChange s id cls desc data).kept = s.kept := by
  simp [State.proposeChange]
@[simp] theorem State.withdrawChange_kept (s : State) (id : Nat) : (State.withdrawChange s id).kept = s.kept := by
  unfold State.withdrawChange; (repeat' (first | (simp; done) | split))
@[simp] theorem State.decideChange_kept (s : State) (id : Nat) (cls : Nat) (desc : List Byte) (data : List Byte) (answers : List RemoteSt) : (State.decideChange s id cls desc data answers).1.kept = s.kept := by
  simp [State.decideChange]
@[simp] theorem State.editTile_kept (s : State) (o : Op) (data : List Byte) : (State.editTile s o data).kept = s.kept := by
  simp [State.editTile]
@[simp] theorem State.editAll_kept (s : State) (o : Op) (data : List Byte) : (State.editAll s o data).kept = s.kept := by
  simp [State.editAll]
@[simp] theorem State.editAnswered_kept (s : State) (o : Op) : (State.editAnswered s o).kept = s.kept := by
  unfold State.editAnswered; simp; (repeat' (first | (simp; done) | split))
@[simp] theorem execTileRestore_kept (op : Nat) (s : State) : KeepsKept s (execTileRestore op s) := by
  unfold execTileRestore; refine State.runSub_kept _ _ _ _ _ fun o => ?_; (repeat' (first | (simp; done) | split))
@[simp] theorem execKeyframeDelete_kept (op : Nat) (s : State) : KeepsKept s (execKeyframeDelete op s) := by
  unfold execKeyframeDelete; refine State.runSub_kept _ _ _ _ _ fun o => ?_; (repeat' (first | (simp; done) | split))
@[simp] theorem execKeyframePose_kept (op : Nat) (s : State) : KeepsKept s (execKeyframePose op s) := by
  unfold execKeyframePose; refine State.runSub_kept _ _ _ _ _ fun o => ?_; dsimp only; (repeat' (first | (simp; done) | split))
@[simp] theorem execLinkAdd_kept (op : Nat) (s : State) : KeepsKept s (execLinkAdd op s) := by
  unfold execLinkAdd; refine State.runSub_kept _ _ _ _ _ fun o => ?_; dsimp only; (repeat' (first | (simp; done) | split))
@[simp] theorem execLinkDelete_kept (op : Nat) (s : State) : KeepsKept s (execLinkDelete op s) := by
  unfold execLinkDelete; refine State.runSub_kept _ _ _ _ _ fun o => ?_; (repeat' (first | (simp; done) | split))
@[simp] theorem execQuarantine_kept (op : Nat) (s : State) : KeepsKept s (execQuarantine op s) := by
  unfold execQuarantine; refine State.runSub_kept _ _ _ _ _ fun o => ?_; (repeat' (first | (simp; done) | split))
@[simp] theorem execRelease_kept (op : Nat) (s : State) : KeepsKept s (execRelease op s) := by
  unfold execRelease; refine State.runSub_kept _ _ _ _ _ fun o => ?_; (repeat' (first | (simp; done) | split))
@[simp] theorem execIndexCreate_kept (op : Nat) (s : State) : KeepsKept s (execIndexCreate op s) := by
  unfold execIndexCreate; refine State.runSub_kept _ _ _ _ _ fun o => ?_; dsimp only; (repeat' (first | (simp; done) | split))
@[simp] theorem execIndexDrop_kept (op : Nat) (s : State) : KeepsKept s (execIndexDrop op s) := by
  unfold execIndexDrop; refine State.runSub_kept _ _ _ _ _ fun o => ?_; (repeat' (first | (simp; done) | split))
@[simp] theorem execTileAffinity_kept (op : Nat) (s : State) : KeepsKept s (execTileAffinity op s) := by
  unfold execTileAffinity; refine State.runSub_kept _ _ _ _ _ fun o => ?_; (repeat' (first | (simp; done) | split))
@[simp] theorem execEpochWait_kept (op : Nat) (s : State) : KeepsKept s (execEpochWait op s) := by
  simp [execEpochWait]
@[simp] theorem State.sendPkt_kept (s : State) (p : MeshPkt) : (State.sendPkt s p).kept = s.kept := by
  simp [State.sendPkt]
@[simp] theorem State.meshRound_kept (s : State) : (State.meshRound s).kept = s.kept := by
  simp [State.meshRound]
@[simp] theorem State.dispatch_kept (s : State) (o : Op) (c : Nat) : (State.dispatch s o c).kept = s.kept := by
  simp [State.dispatch]
@[simp] theorem State.pondWork_kept (s : State) (c : Nat) (masters : List Nat) : (State.pondWork s c masters).kept = s.kept := by
  simp [State.pondWork]
@[simp] theorem State.searchOwn_kept (s : State) (v : MapView) (x : Index) (q : List Word) (par : SearchPar) (f : Filters) (table : List (List Nat)) : (State.searchOwn s v x q par f table).1.kept = s.kept := by
  simp [State.searchOwn]
@[simp] theorem State.countSearch_kept (s : State) (f : Filters) (dev : Nat) : (State.countSearch s f dev).kept = s.kept := by
  simp [State.countSearch]
@[simp] theorem State.serveQuery_kept (s : State) (m : QueryMsg) : (State.serveQuery s m).kept = s.kept := by
  unfold State.serveQuery; simp; (repeat' (first | (simp; done) | split))
@[simp] theorem execQuery_kept (m : QueryMsg) (s : State) : KeepsKept s (execQuery m s) := by
  unfold execQuery; simp; (repeat' (first | (simp; done) | split))
@[simp] theorem State.vecRecord_kept (s : State) (insert : Bool) (h : Nat) (x : Index) (r : List Byte) : (State.vecRecord s insert h x r).1.kept = s.kept := by
  unfold State.vecRecord; simp; (repeat' (first | (simp; done) | split))
@[simp] theorem State.vecApply_kept (s : State) (insert : Bool) (h : Nat) (x : Index) (recs : List (List Byte)) (dev : Nat) : (State.vecApply s insert h x recs dev).1.kept = s.kept := by
  unfold State.vecApply; apply foldl_kept1 (s := (s, [])); intro s a; dsimp only; split <;> simp
@[simp] theorem execSettle_kept (op : Nat) (s : State) : KeepsKept s (execSettle op s) := by
  unfold execSettle; refine State.runOp_kept _ _ _ _ fun o => ?_; dsimp only; (repeat' (first | (simp; done) | split))
@[simp] theorem execSettlingPass_kept (index : Nat) (s : State) : KeepsKept s (execSettlingPass index s) := by
  unfold execSettlingPass; simp; (repeat' (first | (simp; done) | split))
@[simp] theorem execSettlingPassDone_kept (index : Nat) (s : State) : KeepsKept s (execSettlingPassDone index s) := by
  unfold execSettlingPassDone; simp; (repeat' (first | (simp; done) | split))
@[simp] theorem State.settlePublished_kept (s : State) (epoch : Nat) : (State.settlePublished s epoch).kept = s.kept := by
  simp [State.settlePublished]
@[simp] theorem State.probe_kept (s : State) (v : MapView) (x : Index) (par : SearchPar) (f : Filters) (q : List Word) : (State.probe s v x par f q).1.kept = s.kept := by
  simp [State.probe]
@[simp] theorem State.probes_kept (v : MapView) (x : Index) (par : SearchPar) (f : Filters) (l : List (List Word)) (s : State) : (State.probes v x par f l s).1.kept = s.kept := by
  induction l generalizing s with
  | nil => rfl
  | cons q r ih => simp [State.probes, ih]
@[simp] theorem State.contribute_kept (s : State) (x : Session) (capture : Nat) (frameNo : Nat) (pose : Pose) (r : VisionResult) : (State.contribute s x capture frameNo pose r).kept = s.kept := by
  simp [State.contribute]
@[simp] theorem execKeyframeMaskComplete_kept (key : Nat) (masked : List Nat) (s : State) : KeepsKept s (execKeyframeMaskComplete key masked s) := by
  unfold execKeyframeMaskComplete; simp; (repeat' (first | (simp; done) | split))
@[simp] theorem State.frameDone_kept (s : State) (sid : Nat) (f : Frame) (r : VisionResult) : (State.frameDone s sid f r).kept = s.kept := by
  unfold State.frameDone; split
  · rfl
  · dsimp only; rw [foldl_kept _ _ _ fun s a => by simp]; simp
@[simp] theorem execMotionShort_kept (sid : Nat) (frameNo : Nat) (s : State) : KeepsKept s (execMotionShort sid frameNo s) := by
  unfold execMotionShort; simp; (repeat' (first | (simp; done) | split))
@[simp] theorem execReplyLaunch_kept (sid : Nat) (s : State) : KeepsKept s (execReplyLaunch sid s) := by
  unfold execReplyLaunch; simp; (repeat' (first | (simp; done) | split))
@[simp] theorem execSessionMove_kept (sid : Nat) (cluster : Nat) (s : State) : KeepsKept s (execSessionMove sid cluster s) := by
  unfold execSessionMove; simp; (repeat' (first | (simp; done) | split))
@[simp] theorem execScheduleLoad_kept (op : Nat) (s : State) : KeepsKept s (execScheduleLoad op s) := by
  unfold execScheduleLoad; refine State.runOp_kept _ _ _ _ fun o => ?_; dsimp only; (repeat' (first | (simp; done) | split))
@[simp] theorem execScheduleDrop_kept (op : Nat) (s : State) : KeepsKept s (execScheduleDrop op s) := by
  unfold execScheduleDrop; refine State.runOp_kept _ _ _ _ fun o => ?_; dsimp only; (repeat' (first | (simp; done) | split))
@[simp] theorem State.startSolve_kept (s : State) (o : Op) (x : Sched) (c : Nat) : (State.startSolve s o x c).kept = s.kept := by
  simp [State.startSolve]
@[simp] theorem State.putSolve_kept (s : State) (st : SolveSt) : (State.putSolve s st).kept = s.kept := by
  simp [State.putSolve]
@[simp] theorem State.endSolve_kept (s : State) (op : Nat) : (State.endSolve s op).kept = s.kept := by
  simp [State.endSolve]
@[simp] theorem State.serveGather_kept (s : State) (peer : Nat) (xid : Nat) (o : Op) (data : List Byte) : (State.serveGather s peer xid o data).kept = s.kept := by
  unfold State.serveGather; simp; (repeat' (first | (simp; done) | split))
@[simp] theorem State.serveLater_kept (s : State) : (State.serveLater s).kept = s.kept := by
  simp [State.serveLater]
@[simp] theorem execCalibSolveQueue_kept (sid : Nat) (s : State) : KeepsKept s (execCalibSolveQueue sid s) := by
  unfold execCalibSolveQueue; simp; (repeat' (first | (simp; done) | split))
@[simp] theorem State.ownAnswered_kept (s : State) (id : Nat) : (State.ownAnswered s id).kept = s.kept := by
  unfold State.ownAnswered; simp; (repeat' (first | (simp; done) | split))
@[simp] theorem execLoopClosure_kept (sid : Nat) (keyA : Nat) (keyB : Nat) (s : State) : KeepsKept s (execLoopClosure sid keyA keyB s) := by
  unfold execLoopClosure; simp; (repeat' (first | (simp; done) | split))
@[simp] theorem State.updProg_kept (s : State) (h : Nat) (f : Prog → Prog) : (State.updProg s h f).kept = s.kept := by
  simp [State.updProg]
@[simp] theorem execProgramLoad_kept (op : Nat) (s : State) : KeepsKept s (execProgramLoad op s) := by
  unfold execProgramLoad; refine State.runOp_kept _ _ _ _ fun o => ?_; dsimp only; (repeat' (first | (simp; done) | split))
@[simp] theorem execProgramDrop_kept (op : Nat) (s : State) : KeepsKept s (execProgramDrop op s) := by
  unfold execProgramDrop; refine State.runOp_kept _ _ _ _ fun o => ?_; dsimp only; (repeat' (first | (simp; done) | split))
@[simp] theorem execWeightsBind_kept (op : Nat) (s : State) : KeepsKept s (execWeightsBind op s) := by
  unfold execWeightsBind; refine State.runOp_kept _ _ _ _ fun o => ?_; dsimp only; (repeat' (first | (simp; done) | split))
@[simp] theorem execWeightsUnbind_kept (op : Nat) (s : State) : KeepsKept s (execWeightsUnbind op s) := by
  unfold execWeightsUnbind; refine State.runOp_kept _ _ _ _ fun o => ?_; dsimp only; (repeat' (first | (simp; done) | split))
@[simp] theorem State.updInfer_kept (s : State) (op : Nat) (f : InferSt → InferSt) : (State.updInfer s op f).kept = s.kept := by
  simp [State.updInfer]
@[simp] theorem State.endInfer_kept (s : State) (op : Nat) : (State.endInfer s op).kept = s.kept := by
  simp [State.endInfer]
@[simp] theorem execInfer_kept (op : Nat) (cluster : Nat) (s : State) : KeepsKept s (execInfer op cluster s) := by
  unfold execInfer; refine State.runOp_kept _ _ _ _ fun o => ?_; dsimp only; (repeat' (first | (simp; done) | split))
@[simp] theorem State.setExtent_kept (s : State) (key : Nat) (e : Extent) : (State.setExtent s key e).kept = s.kept := by
  simp [State.setExtent]
@[simp] theorem State.writeReachBase_kept (s : State) (fn : Nat) (key : Nat) (val : Word) : (State.writeReachBase s fn key val).kept = s.kept := by
  simp [State.writeReachBase]
@[simp] theorem State.updParcel_kept (s : State) (n : Nat) (f : Parcel → Parcel) : (State.updParcel s n f).kept = s.kept := by
  simp [State.updParcel]
@[simp] theorem State.evict_kept (s : State) (l : List Parcel) : (State.evict s l).kept = s.kept := by
  induction l generalizing s with
  | nil => rfl
  | cons q r ih => unfold State.evict; split <;> simp [ih]
@[simp] theorem State.hintCheck_kept (s : State) : (State.hintCheck s).kept = s.kept := by
  simp [State.hintCheck]
@[simp] theorem execParcelPromote_kept (parcel : Nat) (tier : UpperTier) (s : State) : KeepsKept s (execParcelPromote parcel tier s) := by
  unfold execParcelPromote; simp; (repeat' (first | (simp; done) | split))
@[simp] theorem execPromotionCopyEnd_kept (parcel : Nat) (s : State) : KeepsKept s (execPromotionCopyEnd parcel s) := by
  unfold execPromotionCopyEnd; simp; (repeat' (first | (simp; done) | split))
@[simp] theorem execParcelDemote_kept (parcel : Nat) (s : State) : KeepsKept s (execParcelDemote parcel s) := by
  unfold execParcelDemote; simp; (repeat' (first | (simp; done) | split))
@[simp] theorem execDemotionWriteBackEnd_kept (parcel : Nat) (s : State) : KeepsKept s (execDemotionWriteBackEnd parcel s) := by
  unfold execDemotionWriteBackEnd; simp; (repeat' (first | (simp; done) | split))
@[simp] theorem execTierAccessLate_kept (tier : LateTier) (repair : Bool) (s : State) : KeepsKept s (execTierAccessLate tier repair s) := by
  unfold execTierAccessLate; simp; (repeat' (first | (simp; done) | split))
@[simp] theorem State.retireFrame_kept (s : State) (lake : Bool) (frame : Nat) : (State.retireFrame s lake frame).kept = s.kept := by
  simp [State.retireFrame]
@[simp] theorem execScrubPass_kept (lake : Bool) (frame : Nat) (corrected : Bool) (uncorrectable : Bool) (s : State) : KeepsKept s (execScrubPass lake frame corrected uncorrectable s) := by
  unfold execScrubPass; simp; (repeat' (first | (simp; done) | split))
@[simp] theorem execPondTestStep_kept (cluster : Nat) (bank : Nat) (fails : Bool) (s : State) : KeepsKept s (execPondTestStep cluster bank fails s) := by
  unfold execPondTestStep; simp; (repeat' (first | (simp; done) | split))
@[simp] theorem execLaneRepairWalk_kept (pc : Nat) (lane : Nat) (s : State) : KeepsKept s (execLaneRepairWalk pc lane s) := by
  unfold execLaneRepairWalk; simp; (repeat' (first | (simp; done) | split))
@[simp] theorem execLaneRepairSwitch_kept (pc : Nat) (s : State) : KeepsKept s (execLaneRepairSwitch pc s) := by
  unfold execLaneRepairSwitch; simp; (repeat' (first | (simp; done) | split))
@[simp] theorem execResidencyHint_kept (op : Nat) (s : State) : KeepsKept s (execResidencyHint op s) := by
  unfold execResidencyHint; refine State.runOp_kept _ _ _ _ fun o => ?_; dsimp only; (repeat' (first | (simp; done) | split))
@[simp] theorem State.updTile_kept (s : State) (ix : Int) (iy : Int) (f : Tile → Tile) : (State.updTile s ix iy f).kept = s.kept := by
  simp [State.updTile]
@[simp] theorem State.dropHandover_kept (s : State) (t : Tile) : (State.dropHandover s t).kept = s.kept := by
  simp [State.dropHandover]
@[simp] theorem State.abortHandover_kept (s : State) (t : Tile) (reason : Nat) : (State.abortHandover s t reason).kept = s.kept := by
  unfold State.abortHandover; (repeat' (first | (simp; done) | split))
@[simp] theorem State.propose_kept (s : State) (t : Tile) (p : Nat) : (State.propose s t p).kept = s.kept := by
  simp [State.propose]
@[simp] theorem State.endEpochWaits_kept (s : State) : (State.endEpochWaits s).kept = s.kept := by
  simp [State.endEpochWaits]
@[simp] theorem State.evaluate_kept (s : State) : (State.evaluate s).kept = s.kept := by
  simp [State.evaluate]
@[simp] theorem State.affinityAborts_kept (s : State) : (State.affinityAborts s).kept = s.kept := by
  simp [State.affinityAborts]
@[simp] theorem State.startCopies_kept (s : State) (recs : List PublishRec) : (State.startCopies s recs).kept = s.kept := by
  simp [State.startCopies]
@[simp] theorem State.logLost_kept (s : State) (recs : List PublishRec) : (State.logLost s recs).kept = s.kept := by
  simp [State.logLost]
@[simp] theorem State.publish_kept (s : State) (recs : List PublishRec) : (State.publish s recs).kept = s.kept := by
  simp [State.publish]
@[simp] theorem State.tryPublish_kept (s : State) : (State.tryPublish s).kept = s.kept := by
  unfold State.tryPublish; simp; (repeat' (first | (simp; done) | split))
@[simp] theorem State.switchFirmware_kept (s : State) (epoch : Nat) : (State.switchFirmware s epoch).kept = s.kept := by
  unfold State.switchFirmware; simp; (repeat' (first | (simp; done) | split))
@[simp] theorem execEpochBoundary_kept (s : State) : KeepsKept s (execEpochBoundary s) := by
  unfold execEpochBoundary; simp; (repeat' (first | (simp; done) | split))
@[simp] theorem execEpochReadySend_kept (s : State) : KeepsKept s (execEpochReadySend s) := by
  unfold execEpochReadySend; simp; (repeat' (first | (simp; done) | split))
@[simp] theorem execBarrierReady_kept (src : Nat) (epoch : Nat) (viewNo : Nat) (tiles : List (Int × Int)) (s : State) : KeepsKept s (execBarrierReady src epoch viewNo tiles s) := by
  unfold execBarrierReady; simp; (repeat' (first | (simp; done) | split))
@[simp] theorem execBarrierPublish_kept (epoch : Nat) (viewNo : Nat) (recs : List PublishRec) (s : State) : KeepsKept s (execBarrierPublish epoch viewNo recs s) := by
  unfold execBarrierPublish; simp; (repeat' (first | (simp; done) | split))
@[simp] theorem State.setInStream_kept (s : State) (x : Stream) : (State.setInStream s x).kept = s.kept := by
  simp [State.setInStream]
@[simp] theorem State.sendAck_kept (s : State) (x : Stream) : (State.sendAck s x).kept = s.kept := by
  simp [State.sendAck]
@[simp] theorem State.takeItem_kept (s : State) (ix : Int) (iy : Int) (b : List Byte) : (State.takeItem s ix iy b).kept = s.kept := by
  unfold State.takeItem; (repeat' (first | (simp; done) | split))
@[simp] theorem State.sendSynced_kept (s : State) (t : Tile) : (State.sendSynced s t).kept = s.kept := by
  unfold State.sendSynced; simp; (repeat' (first | (simp; done) | split))
@[simp] theorem execMirrorItem_kept (m : MirrorItemMsg) (s : State) : KeepsKept s (execMirrorItem m s) := by
  unfold execMirrorItem; simp; (repeat' (first | (simp; done) | split))
@[simp] theorem execMirrorAckTimer_kept (src : Nat) (s : State) : KeepsKept s (execMirrorAckTimer src s) := by
  unfold execMirrorAckTimer; simp; (repeat' (first | (simp; done) | split))
@[simp] theorem execMirrorSyncComplete_kept (ix : Int) (iy : Int) (s : State) : KeepsKept s (execMirrorSyncComplete ix iy s) := by
  unfold execMirrorSyncComplete; simp; (repeat' (first | (simp; done) | split))
@[simp] theorem execHandoverPropose_kept (src : Nat) (ix : Int) (iy : Int) (_epoch : Nat) (s : State) : KeepsKept s (execHandoverPropose src ix iy _epoch s) := by
  unfold execHandoverPropose; simp; (repeat' (first | (simp; done) | split))
@[simp] theorem State.sendSnapshot_kept (s : State) (t : Tile) (peer : Nat) : (State.sendSnapshot s t peer).kept = s.kept := by
  simp [State.sendSnapshot]
@[simp] theorem execHandoverReply_kept (src : Nat) (ix : Int) (iy : Int) (code : Nat) (s : State) : KeepsKept s (execHandoverReply src ix iy code s) := by
  unfold execHandoverReply; simp; (repeat' (first | (simp; done) | split))
@[simp] theorem execSnapshot_kept (src : Nat) (ix : Int) (iy : Int) (offset : Nat) (last : Bool) (data : List Byte) (s : State) : KeepsKept s (execSnapshot src ix iy offset last data s) := by
  unfold execSnapshot; simp; (repeat' (first | (simp; done) | split))
@[simp] theorem execSynced_kept (src : Nat) (ix : Int) (iy : Int) (seq : Nat) (s : State) : KeepsKept s (execSynced src ix iy seq s) := by
  unfold execSynced; simp; (repeat' (first | (simp; done) | split))
@[simp] theorem execHandoverAbort_kept (src : Nat) (ix : Int) (iy : Int) (_reason : Nat) (s : State) : KeepsKept s (execHandoverAbort src ix iy _reason s) := by
  unfold execHandoverAbort; simp; (repeat' (first | (simp; done) | split))
@[simp] theorem execHandoverCopyTimeout_kept (ix : Int) (iy : Int) (s : State) : KeepsKept s (execHandoverCopyTimeout ix iy s) := by
  unfold execHandoverCopyTimeout; simp; (repeat' (first | (simp; done) | split))
@[simp] theorem State.stepBy_kept (s : State) (d : Int) : (State.stepBy s d).kept = s.kept := by
  simp [State.stepBy]
@[simp] theorem State.stepTo_kept (s : State) (ns : Nat) : (State.stepTo s ns).kept = s.kept := by
  simp [State.stepTo]
@[simp] theorem State.timeIs_kept (s : State) (t : TimeState) : (State.timeIs s t).kept = s.kept := by
  simp [State.timeIs]
@[simp] theorem State.measured_kept (s : State) (off : Int) : (State.measured s off).kept = s.kept := by
  simp [State.measured]
@[simp] theorem State.lostSource_kept (s : State) : (State.lostSource s).kept = s.kept := by
  simp [State.lostSource]
@[simp] theorem State.timeSet_kept (s : State) (fn : Nat) : (State.timeSet s fn).kept = s.kept := by
  simp [State.timeSet]
@[simp] theorem State.timeStep_kept (s : State) (fn : Nat) : (State.timeStep s fn).kept = s.kept := by
  simp [State.timeStep]
@[simp] theorem State.timeRate_kept (s : State) (fn : Nat) (v : Nat) : (State.timeRate s fn v).kept = s.kept := by
  simp [State.timeRate]
@[simp] theorem State.latchSeconds_kept (s : State) : (State.latchSeconds s).kept = s.kept := by
  simp [State.latchSeconds]
@[simp] theorem execHoldoverLimit_kept (s : State) : KeepsKept s (execHoldoverLimit s) := by
  unfold execHoldoverLimit; (repeat' (first | (simp; done) | split))
@[simp] theorem State.takeTrigger_kept (s : State) (t : Nat) : (State.takeTrigger s t).kept = s.kept := by
  simp [State.takeTrigger]
@[simp] theorem execTriggerEdge_kept (t : Nat) (s : State) : KeepsKept s (execTriggerEdge t s) := by
  unfold execTriggerEdge; simp; (repeat' (first | (simp; done) | split))
@[simp] theorem execTriggerPulseEnd_kept (t : Nat) (s : State) : KeepsKept s (execTriggerPulseEnd t s) := by
  unfold execTriggerPulseEnd; simp; (repeat' (first | (simp; done) | split))
@[simp] theorem execTick_kept (s : State) : KeepsKept s (execTick s) := by
  simp [execTick]
@[simp] theorem execPpsInEdge_kept (s : State) : KeepsKept s (execPpsInEdge s) := by
  unfold execPpsInEdge; simp; (repeat' (first | (simp; done) | split))
@[simp] theorem execPpsSeenTimeout_kept (s : State) : KeepsKept s (execPpsSeenTimeout s) := by
  unfold execPpsSeenTimeout; simp; (repeat' (first | (simp; done) | split))
@[simp] theorem execPpsOutRise_kept (s : State) : KeepsKept s (execPpsOutRise s) := by
  unfold execPpsOutRise; simp; (repeat' (first | (simp; done) | split))
@[simp] theorem execPpsOutFall_kept (s : State) : KeepsKept s (execPpsOutFall s) := by
  unfold execPpsOutFall; simp; (repeat' (first | (simp; done) | split))
@[simp] theorem State.sendPtp_kept (s : State) (m : PtpMsg) : (State.sendPtp s m).kept = s.kept := by
  simp [State.sendPtp]
@[simp] theorem State.becomeMaster_kept (s : State) : (State.becomeMaster s).kept = s.kept := by
  simp [State.becomeMaster]
@[simp] theorem State.ptpAnnounce_kept (s : State) (set_ : List Nat) (id : Nat) : (State.ptpAnnounce s set_ id).kept = s.kept := by
  simp [State.ptpAnnounce]
@[simp] theorem State.ptpSynced_kept (s : State) (origin : Nat) (rx : Nat) : (State.ptpSynced s origin rx).kept = s.kept := by
  unfold State.ptpSynced; simp; (repeat' (first | (simp; done) | split))
@[simp] theorem State.ptpDelayIs_kept (s : State) (d : Int) : (State.ptpDelayIs s d).kept = s.kept := by
  simp [State.ptpDelayIs]
@[simp] theorem State.ptpReceive_kept (s : State) (m : PtpMsg) (rx : Nat) : (State.ptpReceive s m rx).kept = s.kept := by
  unfold State.ptpReceive; simp; (repeat' (first | (simp; done) | split))
@[simp] theorem execPtpMessage_kept (m : PtpMsg) (s : State) : KeepsKept s (execPtpMessage m s) := by
  unfold execPtpMessage; (repeat' (first | (simp; done) | split))
@[simp] theorem execPtpAnnounceTimeout_kept (s : State) : KeepsKept s (execPtpAnnounceTimeout s) := by
  unfold execPtpAnnounceTimeout; simp; (repeat' (first | (simp; done) | split))
@[simp] theorem execPtpMessageInterval_kept (s : State) : KeepsKept s (execPtpMessageInterval s) := by
  unfold execPtpMessageInterval; simp; (repeat' (first | (simp; done) | split))
@[simp] theorem State.updPort_kept (s : State) (p : Nat) (f : FzPort → FzPort) : (State.updPort s p f).kept = s.kept := by
  simp [State.updPort]
@[simp] theorem execFzlLinkUp_kept (port : Nat) (s : State) : KeepsKept s (execFzlLinkUp port s) := by
  unfold execFzlLinkUp; (repeat' (first | (simp; done) | split))
@[simp] theorem State.portDown_kept (s : State) (p : Nat) : (State.portDown s p).kept = s.kept := by
  simp [State.portDown]
@[simp] theorem State.replayFrom_kept (s : State) (port : Nat) (flit : Nat) : (State.replayFrom s port flit).kept = s.kept := by
  simp [State.replayFrom]
@[simp] theorem execFlitNak_kept (port : Nat) (ack : Nat) (s : State) : KeepsKept s (execFlitNak port ack s) := by
  unfold execFlitNak; simp; (repeat' (first | (simp; done) | split))
@[simp] theorem execFlitReplayTimeout_kept (port : Nat) (s : State) : KeepsKept s (execFlitReplayTimeout port s) := by
  unfold execFlitReplayTimeout; simp; (repeat' (first | (simp; done) | split))
@[simp] theorem execPortRetrainTimeout_kept (port : Nat) (s : State) : KeepsKept s (execPortRetrainTimeout port s) := by
  unfold execPortRetrainTimeout; simp; (repeat' (first | (simp; done) | split))
@[simp] theorem State.laneSwap_kept (s : State) (port : Nat) : (State.laneSwap s port).kept = s.kept := by
  simp [State.laneSwap]
@[simp] theorem execLaneFailure_kept (port : Nat) (lane : Nat) (s : State) : KeepsKept s (execLaneFailure port lane s) := by
  unfold execLaneFailure; simp; (repeat' (first | (simp; done) | split))
@[simp] theorem execFlitReceiveError_kept (port : Nat) (expected : Nat) (s : State) : KeepsKept s (execFlitReceiveError port expected s) := by
  unfold execFlitReceiveError; simp; (repeat' (first | (simp; done) | split))
@[simp] theorem State.sendJoin_kept (s : State) (port : Nat) (leader : Nat) : (State.sendJoin s port leader).kept = s.kept := by
  simp [State.sendJoin]
@[simp] theorem execHello_kept (port : Nat) (h : Hello) (s : State) : KeepsKept s (execHello port h s) := by
  unfold execHello; simp; (repeat' (first | (simp; done) | split))
@[simp] theorem execHelloTimer_kept (port : Nat) (s : State) : KeepsKept s (execHelloTimer port s) := by
  unfold execHelloTimer; simp; (repeat' (first | (simp; done) | split))
@[simp] theorem State.forwardReq_kept (s : State) (dst : Nat) (src : Nat) (cls : Nat) (xid : Nat) (desc : List Byte) (data : List Byte) : (State.forwardReq s dst src cls xid desc data).kept = s.kept := by
  unfold State.forwardReq; simp; (repeat' (first | (simp; done) | split))
@[simp] theorem State.answerEdit_kept (s : State) (old : State) (peer : Nat) (cls : Nat) (xid : Nat) (r : Res) (data : List Byte) : (State.answerEdit s old peer cls xid r data).kept = s.kept := by
  unfold State.answerEdit; dsimp only; split <;> simp
@[simp] theorem State.serveEdit_kept (s : State) (peer : Nat) (xid : Nat) (o : Op) (data : List Byte) : (State.serveEdit s peer xid o data).kept = s.kept := by
  unfold State.serveEdit; simp; (repeat' (first | (simp; done) | split))
@[simp] theorem State.serveVec_kept (s : State) (peer : Nat) (xid : Nat) (o : Op) (data : List Byte) : (State.serveVec s peer xid o data).kept = s.kept := by
  unfold State.serveVec; simp; (repeat' (first | (simp; done) | split))
@[simp] theorem State.serve_kept (s : State) (peer : Nat) (xid : Nat) (desc : List Byte) (data : List Byte) : (State.serve s peer xid desc data).kept = s.kept := by
  unfold State.serve; simp; (repeat' (first | (simp; done) | split))
@[simp] theorem execRemoteReq_kept (m : RemoteReqMsg) (s : State) : KeepsKept s (execRemoteReq m s) := by
  unfold execRemoteReq; simp; (repeat' (first | (simp; done) | split))
@[simp] theorem State.tellTables_kept (s : State) (peer : Nat) : (State.tellTables s peer).kept = s.kept := by
  simp [State.tellTables]
@[simp] theorem State.resendStreams_kept (s : State) : (State.resendStreams s).kept = s.kept := by
  simp [State.resendStreams]
@[simp] theorem State.isolate_kept (s : State) : (State.isolate s).kept = s.kept := by
  simp [State.isolate]
@[simp] theorem execJoinReply_kept (code : Nat) (s : State) : KeepsKept s (execJoinReply code s) := by
  unfold execJoinReply; simp; (repeat' (first | (simp; done) | split))
@[simp] theorem execViewAck_kept (src : Nat) (viewNo : Nat) (s : State) : KeepsKept s (execViewAck src viewNo s) := by
  unfold execViewAck; simp; (repeat' (first | (simp; done) | split))
@[simp] theorem execHeartbeat_kept (src : Nat) (viewNo : Nat) (leaving : Bool) (s : State) : KeepsKept s (execHeartbeat src viewNo leaving s) := by
  unfold execHeartbeat; simp; (repeat' (first | (simp; done) | split))
@[simp] theorem execHeartbeatTimer_kept (s : State) : KeepsKept s (execHeartbeatTimer s) := by
  unfold execHeartbeatTimer; simp; (repeat' (first | (simp; done) | split))
@[simp] theorem State.sendLeave_kept (s : State) (reason : Nat) : (State.sendLeave s reason).kept = s.kept := by
  simp [State.sendLeave]
@[simp] theorem State.chooseParent_kept (s : State) : (State.chooseParent s).kept = s.kept := by
  unfold State.chooseParent; simp; (repeat' (first | (simp; done) | split))
@[simp] theorem execTimeSync_kept (port : Nat) (stamp : Nat) (hops : Nat) (master : Nat) (s : State) : KeepsKept s (execTimeSync port stamp hops master s) := by
  unfold execTimeSync; simp; (repeat' (first | (simp; done) | split))
@[simp] theorem execTimeSyncTimer_kept (s : State) : KeepsKept s (execTimeSyncTimer s) := by
  unfold execTimeSyncTimer; simp; (repeat' (first | (simp; done) | split))
@[simp] theorem execTimeSyncTimeout_kept (s : State) : KeepsKept s (execTimeSyncTimeout s) := by
  unfold execTimeSyncTimeout; simp; (repeat' (first | (simp; done) | split))
@[simp] theorem execDelayReq_kept (port : Nat) (_stamp : Nat) (s : State) : KeepsKept s (execDelayReq port _stamp s) := by
  unfold execDelayReq; simp; (repeat' (first | (simp; done) | split))
@[simp] theorem execDelayReqTimer_kept (s : State) : KeepsKept s (execDelayReqTimer s) := by
  unfold execDelayReqTimer; simp; (repeat' (first | (simp; done) | split))
@[simp] theorem execDelayResp_kept (port : Nat) (stamp : Nat) (s : State) : KeepsKept s (execDelayResp port stamp s) := by
  unfold execDelayResp; simp; (repeat' (first | (simp; done) | split))
@[simp] theorem execMessageForward_kept (port : Nat) (h : FzlHeader) (s : State) : KeepsKept s (execMessageForward port h s) := by
  unfold execMessageForward; simp; (repeat' (first | (simp; done) | split))
@[simp] theorem State.sendOpenAck_kept (s : State) (sid : Nat) (x : Session) : (State.sendOpenAck s sid x).kept = s.kept := by
  simp [State.sendOpenAck]
@[simp] theorem State.queueFrame_kept (s : State) (port : Nat) (f : TxFrame) : (State.queueFrame s port f).kept = s.kept := by
  simp [State.queueFrame]
@[simp] theorem execNetSend_kept (op : Nat) (s : State) : KeepsKept s (execNetSend op s) := by
  unfold execNetSend; refine State.runOp_kept _ _ _ _ fun o => ?_; dsimp only; (repeat' (first | (simp; done) | split))
@[simp] theorem execNetRecvPost_kept (op : Nat) (s : State) : KeepsKept s (execNetRecvPost op s) := by
  simp [execNetRecvPost]
@[simp] theorem State.dequeue_kept (s : State) (port : Nat) (seq : Nat) : (State.dequeue s port seq).kept = s.kept := by
  simp [State.dequeue]
@[simp] theorem State.sendFrame_kept (s : State) (port : Nat) (f : TxFrame) (at_ : Nat) : (State.sendFrame s port f at_).kept = s.kept := by
  unfold State.sendFrame; simp; (repeat' (first | (simp; done) | split))
@[simp] theorem execFrameLaunch_kept (port : Nat) (s : State) : KeepsKept s (execFrameLaunch port s) := by
  unfold execFrameLaunch; simp; (repeat' (first | (simp; done) | split))
@[simp] theorem execNetLinkChange_kept (port : Nat) (up : Bool) (s : State) : KeepsKept s (execNetLinkChange port up s) := by
  simp [execNetLinkChange]
@[simp] theorem State.setFnc_kept (s : State) (fn : Nat) (c : FnCtx) : (State.setFnc s fn c).kept = s.kept := by
  simp [State.setFnc]
@[simp] theorem State.setCq_kept (s : State) (fn : Nat) (n : Nat) (c : CqCtx) : (State.setCq s fn n c).kept = s.kept := by
  simp [State.setCq]
@[simp] theorem State.setSq_kept (s : State) (fn : Nat) (n : Nat) (c : SqCtx) : (State.setSq s fn n c).kept = s.kept := by
  simp [State.setSq]
@[simp] theorem State.readTail_kept (s : State) (fn : Nat) (n : Nat) : (State.readTail s fn n).kept = s.kept := by
  unfold State.readTail; simp; (repeat' (first | (simp; done) | split))
@[simp] theorem State.endStall_kept (s : State) (fn : Nat) (n : Nat) (tags : Bool) (cq : Bool) : (State.endStall s fn n tags cq).kept = s.kept := by
  simp [State.endStall]
@[simp] theorem State.countStalls_kept (s : State) : (State.countStalls s).kept = s.kept := by
  simp [State.countStalls]
@[simp] theorem State.readHead_kept (s : State) (fn : Nat) (m : Nat) : (State.readHead s fn m).kept = s.kept := by
  unfold State.readHead; simp; (repeat' (first | (simp; done) | split))
@[simp] theorem State.nextSweep_kept (s : State) (fn : Nat) (g : Nat) : (State.nextSweep s fn g).kept = s.kept := by
  simp [State.nextSweep]
@[simp] theorem State.nudgeWrite_kept (s : State) (fn : Nat) : (State.nudgeWrite s fn).kept = s.kept := by
  simp [State.nudgeWrite]
@[simp] theorem execNudge_kept (fn : Nat) (s : State) : KeepsKept s (execNudge fn s) := by
  unfold execNudge; (repeat' (first | (simp; done) | split))
@[simp] theorem State.sendVector_kept (s : State) (fn : Nat) (v : Nat) : (State.sendVector s fn v).kept = s.kept := by
  simp [State.sendVector]
@[simp] theorem State.signal_kept (s : State) (fn : Nat) (m : Nat) : (State.signal s fn m).kept = s.kept := by
  simp [State.signal]
@[simp] theorem State.postSignal_kept (s : State) (fn : Nat) (m : Nat) (cls : Nat) : (State.postSignal s fn m cls).kept = s.kept := by
  simp [State.postSignal]
@[simp] theorem execInterruptTimer_kept (fn : Nat) (cq : Nat) (s : State) : KeepsKept s (execInterruptTimer fn cq s) := by
  unfold execInterruptTimer; simp; (repeat' (first | (simp; done) | split))
@[simp] theorem execNop_kept (op : Nat) (s : State) : KeepsKept s (execNop op s) := by
  simp [execNop]
@[simp] theorem execFence_kept (op : Nat) (s : State) : KeepsKept s (execFence op s) := by
  simp [execFence]
@[simp] theorem State.drainPort_kept (s : State) (p : Nat) : (State.drainPort s p).kept = s.kept := by
  simp [State.drainPort]
@[simp] theorem State.drainFabric_kept (s : State) : (State.drainFabric s).kept = s.kept := by
  simp [State.drainFabric]
@[simp] theorem State.holdOps_kept (s : State) (idx : Nat) : (State.holdOps s idx).kept = s.kept := by
  simp [State.holdOps]
@[simp] theorem State.replayOp_kept (s : State) (id : Nat) : (State.replayOp s id).kept = s.kept := by
  unfold State.replayOp; simp; (repeat' (first | (simp; done) | split))
@[simp] theorem State.replayCluster_kept (s : State) (c : Nat) (move : Bool) : (State.replayCluster s c move).kept = s.kept := by
  simp [State.replayCluster]
@[simp] theorem State.updCluster_kept (s : State) (i : Nat) (f : Cluster → Cluster) : (State.updCluster s i f).kept = s.kept := by
  simp [State.updCluster]
@[simp] theorem State.pondGone_kept (s : State) (c : Nat) : (State.pondGone s c).kept = s.kept := by
  simp [State.pondGone]
@[simp] theorem State.retireCluster_kept (s : State) (c : Nat) (source : Nat) (subject : Nat) : (State.retireCluster s c source subject).kept = s.kept := by
  unfold State.retireCluster; simp; (repeat' (first | (simp; done) | split))
@[simp] theorem State.retireCore_kept (s : State) (id : Nat) : (State.retireCore s id).kept = s.kept := by
  unfold State.retireCore; simp; (repeat' (first | (simp; done) | split))
@[simp] theorem State.replayCore_kept (s : State) (id : Nat) : (State.replayCore s id).kept = s.kept := by
  simp [State.replayCore]
@[simp] theorem State.attempt_kept (s : State) (o : Op) (most : Nat) : (State.attempt s o most).kept = s.kept := by
  simp [State.attempt]
@[simp] theorem execRetryBudgetExpiry_kept (op : Nat) (s : State) : KeepsKept s (execRetryBudgetExpiry op s) := by
  unfold execRetryBudgetExpiry; simp; (repeat' (first | (simp; done) | split))
@[simp] theorem State.drainCore_kept (s : State) (id : Nat) : (State.drainCore s id).kept = s.kept := by
  unfold State.drainCore; simp; (repeat' (first | (simp; done) | split))
@[simp] theorem State.wearDrain_kept (s : State) (id : Nat) : (State.wearDrain s id).kept = s.kept := by
  simp [State.wearDrain]
@[simp] theorem State.undrain_kept (s : State) (op : Nat) : (State.undrain s op).kept = s.kept := by
  simp [State.undrain]
@[simp] theorem State.setBank_kept (s : State) (c : Nat) (bank : Nat) (n : Nat × Nat) : (State.setBank s c bank n).kept = s.kept := by
  simp [State.setBank]
@[simp] theorem State.wornRow_kept (s : State) (c : Nat) (bank : Nat) : (State.wornRow s c bank).kept = s.kept := by
  simp [State.wornRow]
@[simp] theorem execWearDetected_kept (u : WearUnit) (s : State) : KeepsKept s (execWearDetected u s) := by
  unfold execWearDetected; simp; (repeat' (first | (simp; done) | split))
@[simp] theorem execDrainComplete_kept (core : Nat) (s : State) : KeepsKept s (execDrainComplete core s) := by
  unfold execDrainComplete; simp; (repeat' (first | (simp; done) | split))
@[simp] theorem execSpareInService_kept (core : Nat) (s : State) : KeepsKept s (execSpareInService core s) := by
  unfold execSpareInService; simp; (repeat' (first | (simp; done) | split))
@[simp] theorem execReservoirClusterReady_kept (s : State) : KeepsKept s (execReservoirClusterReady s) := by
  unfold execReservoirClusterReady; (repeat' (first | (simp; done) | split))
@[simp] theorem State.reservoirTested_kept (s : State) (r : Cluster) (pass : Bool) : (State.reservoirTested s r pass).kept = s.kept := by
  simp [State.reservoirTested]
@[simp] theorem execReservoirDailyTest_kept (pass : Bool) (s : State) : KeepsKept s (execReservoirDailyTest pass s) := by
  unfold execReservoirDailyTest; (repeat' (first | (simp; done) | split))
@[simp] theorem execPrepare_kept (op : Nat) (pass : Bool) (s : State) : KeepsKept s (execPrepare op pass s) := by
  unfold execPrepare; (repeat' (first | (simp; done) | split))
@[simp] theorem execRetire_kept (op : Nat) (s : State) : KeepsKept s (execRetire op s) := by
  simp [execRetire]
@[simp] theorem State.genPorts_kept (s : State) (g : Nat) : (State.genPorts s g).kept = s.kept := by
  simp [State.genPorts]
@[simp] theorem execSparePllLocked_kept (gen : Nat) (s : State) : KeepsKept s (execSparePllLocked gen s) := by
  unfold execSparePllLocked; simp; (repeat' (first | (simp; done) | split))
@[simp] theorem execStage_kept (op : Nat) (signed : Bool) (version : Nat) (secVersion : Nat) (s : State) : KeepsKept s (execStage op signed version secVersion s) := by
  simp [execStage]
@[simp] theorem State.askSwitch_kept (s : State) (o : Op) (ready : Bool) : (State.askSwitch s o ready).kept = s.kept := by
  simp [State.askSwitch]
@[simp] theorem execActivate_kept (op : Nat) (s : State) : KeepsKept s (execActivate op s) := by
  simp [execActivate]
@[simp] theorem execRevert_kept (op : Nat) (s : State) : KeepsKept s (execRevert op s) := by
  simp [execRevert]
@[simp] theorem State.wipeKeys_kept (s : State) : (State.wipeKeys s).kept = s.kept := by
  simp [State.wipeKeys]
@[simp] theorem execResetNRelease_kept (s : State) : KeepsKept s (execResetNRelease s) := by
  unfold execResetNRelease; simp; (repeat' (first | (simp; done) | split))
@[simp] theorem execParked_kept (s : State) : KeepsKept s (execParked s) := by
  unfold execParked; simp; (repeat' (first | (simp; done) | split))
@[simp] theorem execPerstNRelease_kept (s : State) : KeepsKept s (execPerstNRelease s) := by
  unfold execPerstNRelease; simp; (repeat' (first | (simp; done) | split))
@[simp] theorem execBringUp_kept (s : State) : KeepsKept s (execBringUp s) := by
  unfold execBringUp; simp; (repeat' (first | (simp; done) | split))
@[simp] theorem execDomainRelease_kept (domain : Nat) (s : State) : KeepsKept s (execDomainRelease domain s) := by
  unfold execDomainRelease; simp; (repeat' (first | (simp; done) | split))
@[simp] theorem execFirmwareVerified_kept (s : State) : KeepsKept s (execFirmwareVerified s) := by
  unfold execFirmwareVerified; simp; (repeat' (first | (simp; done) | split))
@[simp] theorem execTidyFirmwareStart_kept (s : State) : KeepsKept s (execTidyFirmwareStart s) := by
  unfold execTidyFirmwareStart; simp; (repeat' (first | (simp; done) | split))
@[simp] theorem execClusterRetention_kept (c : Nat) (s : State) : KeepsKept s (execClusterRetention c s) := by
  unfold execClusterRetention; simp; (repeat' (first | (simp; done) | split))
@[simp] theorem execClusterOff_kept (c : Nat) (s : State) : KeepsKept s (execClusterOff c s) := by
  unfold execClusterOff; simp; (repeat' (first | (simp; done) | split))
@[simp] theorem execMatrixDomainOff_kept (c : Nat) (s : State) : KeepsKept s (execMatrixDomainOff c s) := by
  unfold execMatrixDomainOff; simp; (repeat' (first | (simp; done) | split))
@[simp] theorem State.wakeWindow_kept (s : State) : (State.wakeWindow s).kept = s.kept := by
  simp [State.wakeWindow]
@[simp] theorem execClusterWake_kept (c : Nat) (mx : Bool) (s : State) : KeepsKept s (execClusterWake c mx s) := by
  unfold execClusterWake; simp; (repeat' (first | (simp; done) | split))
@[simp] theorem execClusterWakeComplete_kept (c : Nat) (s : State) : KeepsKept s (execClusterWakeComplete c s) := by
  unfold execClusterWakeComplete; simp; (repeat' (first | (simp; done) | split))
@[simp] theorem execHbmRefreshRate_kept (stack : Nat) (hot : Bool) (s : State) : KeepsKept s (execHbmRefreshRate stack hot s) := by
  unfold execHbmRefreshRate; simp; (repeat' (first | (simp; done) | split))
@[simp] theorem State.idle_kept (s : State) : (State.idle s).kept = s.kept := by
  simp [State.idle]
@[simp] theorem State.wakePorts_kept (s : State) : (State.wakePorts s).kept = s.kept := by
  simp [State.wakePorts]
@[simp] theorem State.applied_kept (s : State) (off : Nat) : (State.applied s off).kept = s.kept := by
  simp [State.applied]
@[simp] theorem State.writeRow_kept (s : State) (fn : Nat) (r : Row) (val : Nat) : (State.writeRow s fn r val).kept = s.kept := by
  simp [State.writeRow]
@[simp] theorem execShadowApplyLink_kept (fabric : Bool) (s : State) : KeepsKept s (execShadowApplyLink fabric s) := by
  unfold execShadowApplyLink; simp; (repeat' (first | (simp; done) | split))
@[simp] theorem State.writeCqCfg_kept (s : State) (fn : Nat) (m : Nat) (val : Word) : (State.writeCqCfg s fn m val).kept = s.kept := by
  simp [State.writeCqCfg]
@[simp] theorem State.mend_kept (s : State) (off : Nat) (idx : Nat) : (State.mend s off idx).kept = s.kept := by
  simp [State.mend]
@[simp] theorem State.writeGrant_kept (s : State) (fn : Nat) (val : Word) : (State.writeGrant s fn val).kept = s.kept := by
  simp [State.writeGrant]
@[simp] theorem State.writeDoorbell_kept (s : State) (fn : Nat) (off : Nat) (val : Word) : (State.writeDoorbell s fn off val).kept = s.kept := by
  simp [State.writeDoorbell]
@[simp] theorem State.writePrivKey_kept (s : State) (fn : Nat) (val : Word) : (State.writePrivKey s fn val).kept = s.kept := by
  simp [State.writePrivKey]
@[simp] theorem State.writePrivCtrl_kept (s : State) (fn : Nat) (val : Word) : (State.writePrivCtrl s fn val).kept = s.kept := by
  simp [State.writePrivCtrl]
@[simp] theorem State.writeHostTag_kept (s : State) (fn : Nat) (val : Word) : (State.writeHostTag s fn val).kept = s.kept := by
  simp [State.writeHostTag]
@[simp] theorem State.writeResetKey_kept (s : State) (val : Word) : (State.writeResetKey s val).kept = s.kept := by
  simp [State.writeResetKey]
@[simp] theorem State.writeTimeCmd_kept (s : State) (fn : Nat) (val : Word) : (State.writeTimeCmd s fn val).kept = s.kept := by
  simp [State.writeTimeCmd]
@[simp] theorem State.startLeave_kept (s : State) : (State.startLeave s).kept = s.kept := by
  simp [State.startLeave]
@[simp] theorem State.springEffect_kept (s : State) (w : Nat × Nat × Word) : (State.springEffect s w).kept = s.kept := by
  simp [State.springEffect]
@[simp] theorem State.springArrive_kept (s : State) : (State.springArrive s).kept = s.kept := by
  unfold State.springArrive; simp; (repeat' (first | (simp; done) | split))
@[simp] theorem State.springWrite_kept (s : State) (w : Nat × Nat × Word) : (State.springWrite s w).kept = s.kept := by
  simp [State.springWrite]
@[simp] theorem State.springReady_kept (s : State) (fn : Nat) (n : Nat) : (State.springReady s fn n).kept = s.kept := by
  induction n generalizing s with
  | zero => rfl
  | succ n ih => unfold State.springReady; split <;> simp [ih]
@[simp] theorem execSpringWriteArrival_kept (s : State) : KeepsKept s (execSpringWriteArrival s) := by
  simp [execSpringWriteArrival]
@[simp] theorem State.setMsix_kept (s : State) (fn a : Nat) (val : Word) : (State.setMsix s fn a val).kept = s.kept := by
  unfold State.setMsix; simp only [State.kept]
@[simp] theorem State.sendPending_kept (s : State) (fn : Nat) (v : Nat) : (State.sendPending s fn v).kept = s.kept := by
  simp [State.sendPending]
@[simp] theorem State.writeMsix_kept (s : State) (fn : Nat) (off : Nat) (val : Word) : (State.writeMsix s fn off val).kept = s.kept := by
  unfold State.writeMsix; split
  · rw [State.sendPending_kept, State.setMsix_kept]
  · rfl
@[simp] theorem State.writeWord_kept (s : State) (fn : Nat) (off : Nat) (f : State → State) (h : ∀ s, (f s).kept = s.kept) : (State.writeWord s fn off f).kept = s.kept := by
  unfold State.writeWord; repeat' (first | (simp [h]; done) | split)
@[simp] theorem State.busRead_kept (s : State) (fn : Nat) (off : Nat) (size : Nat) (f : State → State) (h : ∀ s, (f s).kept = s.kept) : (State.busRead s fn off size f).kept = s.kept := by
  unfold State.busRead; dsimp only; repeat' (first | (simp [h]; done) | split)
@[simp] theorem execTimeNsRead_kept (fn : Nat) (s : State) : KeepsKept s (execTimeNsRead fn s) := by
  simp [execTimeNsRead]
@[simp] theorem execTallyHeadAckRead_kept (fn : Nat) (size : Nat) (s : State) : KeepsKept s (execTallyHeadAckRead fn size s) := by
  simp [execTallyHeadAckRead]
@[simp] theorem execEventSummaryRead_kept (fn : Nat) (size : Nat) (s : State) : KeepsKept s (execEventSummaryRead fn size s) := by
  simp [execEventSummaryRead]
@[simp] theorem State.paritySafe_kept (s : State) (off : Nat) (idx : Nat) : (State.paritySafe s off idx).kept = s.kept := by
  simp [State.paritySafe]
@[simp] theorem State.faultMark_kept (s : State) (off : Nat) (idx : Nat) : (State.faultMark s off idx).kept = s.kept := by
  simp [State.faultMark]
@[simp] theorem execConfigParityFault_kept (off : Nat) (idx : Nat) (s : State) : KeepsKept s (execConfigParityFault off idx s) := by
  unfold execConfigParityFault; simp; (repeat' (first | (simp; done) | split))
@[simp] theorem State.accept_kept (s : State) (o : Op) : (State.accept s o).kept = s.kept := by
  simp [State.accept]
@[simp] theorem State.touchHeld_kept (s : State) (o : Op) : (State.touchHeld s o).kept = s.kept := by
  simp [State.touchHeld]
@[simp] theorem State.hintLate_kept (s : State) (o : Op) : (State.hintLate s o).kept = s.kept := by
  unfold State.hintLate; simp; (repeat' (first | (simp; done) | split))
@[simp] theorem State.timeOut_kept (s : State) (o : Op) : (State.timeOut s o).kept = s.kept := by
  simp [State.timeOut]
@[simp] theorem State.respond_kept (s : State) (code : Nat) (args : List Byte) (status : Nat) (data : List Byte) : (State.respond s code args status data).kept = s.kept := by
  simp [State.respond]
@[simp] theorem State.mgmtRun_kept (s : State) (code : Nat) (n : Nat) (args : List Byte) (f : State) (h : f.kept = s.kept) : KeepsKept s (State.mgmtRun s code n args f) := by
  unfold State.mgmtRun; repeat' (first | (simp [h]; done) | split)
@[simp] theorem execMgmtStatus_kept (args : List Byte) (s : State) : KeepsKept s (execMgmtStatus args s) := by
  simp [execMgmtStatus]
@[simp] theorem execMgmtTemperature_kept (args : List Byte) (s : State) : KeepsKept s (execMgmtTemperature args s) := by
  simp [execMgmtTemperature]
@[simp] theorem execMgmtReservoirLevel_kept (args : List Byte) (s : State) : KeepsKept s (execMgmtReservoirLevel args s) := by
  unfold execMgmtReservoirLevel; simp; (repeat' (first | (simp; done) | split))
@[simp] theorem execMgmtTallyRead_kept (args : List Byte) (s : State) : KeepsKept s (execMgmtTallyRead args s) := by
  unfold execMgmtTallyRead; (repeat' (first | (simp; done) | split))
@[simp] theorem State.arm_kept (s : State) (t : Option Nat) : (State.arm s t).kept = s.kept := by
  simp [State.arm]
@[simp] theorem execResetArm_kept (args : List Byte) (s : State) : KeepsKept s (execResetArm args s) := by
  simp [execResetArm]
@[simp] theorem execResetGo_kept (args : List Byte) (s : State) : KeepsKept s (execResetGo args s) := by
  unfold execResetGo; simp; (repeat' (first | (simp; done) | split))
@[simp] theorem execMgmtArmExpiry_kept (s : State) : KeepsKept s (execMgmtArmExpiry s) := by
  unfold execMgmtArmExpiry; (repeat' (first | (simp; done) | split))
@[simp] theorem execMgmtDynamicAddress_kept (addr : Nat) (s : State) : KeepsKept s (execMgmtDynamicAddress addr s) := by
  unfold execMgmtDynamicAddress; simp; (repeat' (first | (simp; done) | split))
end Sys2Proof.Machine
end

