-- ==== Sys2Proof/Laws/Memory.lean ====
section
/-! SUPPORT. Laws of the sparse tables and of memory: reads after writes, and the canonical form that every operation keeps. -/

namespace Sys2Proof.Machine

variable {β : Type} [DecidableEq β]

/-- A table that is canonical from a key on is canonical from any lower key on. -/
theorem Store.wfFrom_mono (d : Nat → β) {lo lo' : Nat} {l : Store β} (h : Store.wfFrom d lo l = true) (hl : lo' ≤ lo) : Store.wfFrom d lo' l = true := by
  cases l with
  | nil => rfl
  | cons e t =>
    simp only [Store.wfFrom, Bool.and_eq_true, decide_eq_true_eq] at h ⊢
    exact ⟨⟨by omega, h.1.2⟩, h.2⟩

/-- Dropping entries keeps the canonical form. -/
theorem Store.filter_wfFrom (d : Nat → β) (p : Nat × β → Bool) {lo : Nat} {l : Store β} (h : Store.wfFrom d lo l = true) :
    Store.wfFrom d lo (l.filter p) = true := by
  induction l generalizing lo with
  | nil => rfl
  | cons e t ih =>
    simp only [Store.wfFrom, Bool.and_eq_true, decide_eq_true_eq] at h
    rw [List.filter_cons]
    split
    · simp only [Store.wfFrom, Bool.and_eq_true, decide_eq_true_eq]
      exact ⟨h.1, ih h.2⟩
    · exact Store.wfFrom_mono d (ih h.2) (by omega)

/-- Putting a value that is not the default keeps the canonical form. -/
theorem Store.put_wfFrom (d : Nat → β) {lo k : Nat} {v : β} {l : Store β} (h : Store.wfFrom d lo l = true) (hk : lo ≤ k) (hv : v ≠ d k) :
    Store.wfFrom d lo (Store.put k v l) = true := by
  induction l generalizing lo with
  | nil => simp [Store.put, Store.wfFrom, hk, hv]
  | cons e t ih =>
    obtain ⟨j, w⟩ := e
    simp only [Store.wfFrom, Bool.and_eq_true, decide_eq_true_eq] at h
    obtain ⟨⟨h1, h2⟩, h3⟩ := h
    unfold Store.put
    split
    · rename_i hlt
      simp only [Store.wfFrom, Bool.and_eq_true, decide_eq_true_eq]
      exact ⟨⟨hk, hv⟩, ⟨hlt, h2⟩, h3⟩
    · split
      · rename_i heq
        simp only [Store.wfFrom, Bool.and_eq_true, decide_eq_true_eq]
        exact ⟨⟨hk, hv⟩, heq ▸ h3⟩
      · simp only [Store.wfFrom, Bool.and_eq_true, decide_eq_true_eq]
        exact ⟨⟨h1, h2⟩, ih h3 (by omega)⟩

/-- Writing keeps the canonical form of a whole table. -/
theorem Store.set_wf (d : Nat → β) (k : Nat) (v : β) {l : Store β} (h : Store.wf d l = true) : Store.wf d (Store.set d k v l) = true := by
  unfold Store.set Store.wf
  split
  · exact Store.filter_wfFrom d _ h
  · rename_i hv
    exact Store.put_wfFrom d h (Nat.zero_le k) hv

omit [DecidableEq β] in
/-- A read after a value is put. -/
theorem Store.get_put (d : Nat → β) (k j : Nat) (v : β) (l : Store β) : Store.get d k (Store.put j v l) = if k = j then v else Store.get d k l := by
  induction l with
  | nil => simp [Store.put, Store.get]
  | cons e t ih =>
    obtain ⟨i, w⟩ := e
    unfold Store.put
    split
    · simp only [Store.get]
    · split
      · rename_i heq
        subst heq
        simp only [Store.get]
        split <;> rfl
      · rename_i hne
        simp only [Store.get, ih]
        split
        · rename_i hki
          rw [if_neg (by omega)]
        · rfl

omit [DecidableEq β] in
/-- A read after the entries of a key are dropped. -/
theorem Store.get_drop (d : Nat → β) (k j : Nat) (l : Store β) : Store.get d k (l.filter fun e => e.1 ≠ j) = if k = j then d k else Store.get d k l := by
  induction l with
  | nil => simp [Store.get]
  | cons e t ih =>
    obtain ⟨i, w⟩ := e
    rw [List.filter_cons]
    by_cases hij : i = j
    · subst hij
      simp only [ne_eq, not_true_eq_false, decide_false, Bool.false_eq_true, if_false, Store.get]
      simp only [ne_eq] at ih
      rw [ih]
      split <;> rfl
    · simp only [ne_eq, hij, not_false_eq_true, decide_true, if_true, Store.get]
      simp only [ne_eq] at ih
      rw [ih]
      split
      · rename_i hki
        rw [if_neg (by omega)]
      · rfl

/-- A read after a write. -/
theorem Store.get_set (d : Nat → β) (k j : Nat) (v : β) (l : Store β) :
    Store.get d k (Store.set d j v l) = if k = j then v else Store.get d k l := by
  unfold Store.set
  split
  · rename_i hv
    rw [Store.get_drop]
    split
    · rename_i hk
      rw [hk, hv]
    · rfl
  · exact Store.get_put d k j v l

/-- Writing a byte keeps memory canonical (R323). -/
theorem Memory.setByte_wf (m : Memory) (a : Nat) (b : Byte) (h : m.wf = true) : (m.setByte a b).wf = true := Store.set_wf memDefault a b h

/-- Writing bytes keeps memory canonical. -/
theorem Memory.write_wf (m : Memory) (a : Nat) (b : List Byte) (h : m.wf = true) : (m.write a b).wf = true := by
  induction b generalizing m a with
  | nil => exact h
  | cons x t ih => exact ih _ _ (Memory.setByte_wf m a x h)

/-- Clearing a range keeps memory canonical. -/
theorem Memory.clear_wf (m : Memory) (a n : Nat) (h : m.wf = true) : (m.clear a n).wf = true := Store.filter_wfFrom memDefault _ h

/-- Dropping the device range keeps memory canonical. -/
theorem Memory.hostOnly_wf (m : Memory) (h : m.wf = true) : m.hostOnly.wf = true := Store.filter_wfFrom memDefault _ h

/-- A byte read after a byte written. -/
theorem Memory.byte_setByte (m : Memory) (a c : Nat) (b : Byte) : (m.setByte c b).byte a = if a = c then b else m.byte a :=
  Store.get_set memDefault a c b m

/-- A byte read after bytes written: the byte written there, else what was there before. -/
theorem Memory.byte_write (m : Memory) (a c : Nat) (b : List Byte) :
    (m.write c b).byte a = if c ≤ a ∧ a < c + b.length then b.getD (a - c) 0 else m.byte a := by
  induction b generalizing m c with
  | nil => simp [Memory.write]
  | cons x t ih =>
    rw [Memory.write, ih, Memory.byte_setByte]
    by_cases h1 : a = c
    · subst h1
      rw [if_neg (by omega), if_pos rfl, if_pos (by simp)]
      simp
    · by_cases h2 : c + 1 ≤ a ∧ a < c + 1 + t.length
      · rw [if_pos h2, if_pos (by simp; omega)]
        obtain ⟨k, rfl⟩ : ∃ k, a = c + 1 + k := ⟨a - (c + 1), by omega⟩
        rw [show c + 1 + k - (c + 1) = k by omega, show c + 1 + k - c = k + 1 by omega]
        simp
      · rw [if_neg h2, if_neg h1, if_neg (by simp; omega)]

/-- Reading back as many bytes as were written gives them. -/
theorem Memory.read_write (m : Memory) (a : Nat) (b : List Byte) : (m.write a b).read a b.length = b := by
  induction b generalizing m a with
  | nil => rfl
  | cons x t ih =>
    simp only [List.length_cons, Memory.read, Memory.write]
    rw [ih]
    have h := Memory.byte_write (m.setByte a x) a (a + 1) t
    rw [if_neg (by omega), Memory.byte_setByte, if_pos rfl] at h
    rw [h]

/-- Bytes that agree give the same read. -/
theorem Memory.read_congr {m m' : Memory} {a n : Nat} (h : ∀ i, a ≤ i → i < a + n → m'.byte i = m.byte i) : m'.read a n = m.read a n := by
  induction n generalizing a with
  | zero => rfl
  | succ n ih => rw [Memory.read, Memory.read, h a (by omega) (by omega), ih fun i h1 h2 => h i (by omega) (by omega)]

/-- A read outside the bytes written is as before. -/
theorem Memory.read_write_ne (m : Memory) (a c n : Nat) (b : List Byte) (h : a + n ≤ c ∨ c + b.length ≤ a) : (m.write c b).read a n = m.read a n :=
  Memory.read_congr fun i h1 h2 => by rw [Memory.byte_write, if_neg (by omega)]

/-- A byte outside a cleared range is as before; one inside reads 0. -/
theorem Memory.byte_clear (m : Memory) (i a n : Nat) : (m.clear a n).byte i = if a ≤ i ∧ i < a + n then 0 else m.byte i := by
  induction m with
  | nil => simp [Memory.clear, Memory.byte, Store.get, memDefault]
  | cons e t ih =>
    obtain ⟨j, w⟩ := e
    unfold Memory.clear Memory.byte at ih ⊢
    rw [List.filter_cons]
    by_cases hj : j < a ∨ a + n ≤ j
    · simp only [hj, decide_true, if_true, Store.get]
      rw [ih]
      split
      · rename_i hij
        rw [if_neg (by omega)]
      · rfl
    · simp only [hj, decide_false, Bool.false_eq_true, if_false, Store.get]
      rw [ih]
      split
      · rfl
      · rw [if_neg (by omega)]

/-- Memory after reset is canonical. -/
theorem reset_mem_wf : State.reset.mem.wf = true := by decide

end Sys2Proof.Machine
end

