-- ==== Sys2Proof/Laws/State.lean ====
section
/-! SUPPORT. What each update of State leaves and changes: the list of operations after updOp, finish and their like, the fields that
the small updates keep, and the ring contexts and function contexts after a write. -/

namespace Sys2Proof.Machine

/-! ## Lists -/

theorem find_updFirst_same {α : Type} (p : α → Bool) (f : α → α) (l : List α) (h : ∀ x, p x = true → p (f x) = true) :
    (updFirst p f l).find? p = (l.find? p).map f := by
  induction l with
  | nil => rfl
  | cons x t ih =>
    by_cases hx : p x = true
    · simp [updFirst, hx, h x hx]
    · simp [updFirst, hx, ih]

theorem find_updFirst_other {α : Type} (p q : α → Bool) (f : α → α) (l : List α) (h : ∀ x, p x = true → q x = false ∧ q (f x) = false) :
    (updFirst p f l).find? q = l.find? q := by
  induction l with
  | nil => rfl
  | cons x t ih =>
    by_cases hx : p x = true
    · simp [updFirst, hx, (h x hx).1, (h x hx).2]
    · by_cases hq : q x = true
      · simp [updFirst, hx, hq]
      · simp [updFirst, hx, hq, ih]

/-! ## Operations in flight -/

theorem findOp_id {s : State} {id : Nat} {o : Op} (h : s.findOp id = some o) : o.id = id := by
  have := List.find?_some h
  simpa using this

theorem findOp_updOp (s : State) (id : Nat) (f : Op → Op) (h : ∀ o, (f o).id = o.id) : (s.updOp id f).findOp id = (s.findOp id).map f := by
  unfold State.updOp State.findOp
  exact find_updFirst_same _ f _ (by intro x hx; simpa [h x] using hx)

theorem findOp_updOp_ne (s : State) (id i : Nat) (f : Op → Op) (h : ∀ o, (f o).id = o.id) (hi : i ≠ id) :
    (s.updOp id f).findOp i = s.findOp i := by
  unfold State.updOp State.findOp
  refine find_updFirst_other _ _ f _ ?_
  intro x hx
  have hx' : x.id = id := by simpa using hx
  simp [h x, hx', Ne.symm hi]

theorem updOp_frame (s : State) (id : Nat) (f : Op → Op) :
    s.updOp id f = { s with ops := { s.ops with list := (s.updOp id f).ops.list } } := rfl

theorem finish_frame (s : State) (id : Nat) (r : Res) :
    s.finish id r = { s with ops := { s.ops with list := (s.finish id r).ops.list } } := rfl

/-- The operation that finish leaves. -/
def Op.finished (o : Op) (s : State) (r : Res) : Op :=
  { o with phase := .final, status := r.status, count := r.count, detail := r.detail, finalAt := s.stamp, wasHeld := s.behind o }

theorem findOp_finish (s : State) (id : Nat) (r : Res) : (s.finish id r).findOp id = (s.findOp id).map fun o => o.finished s r :=
  findOp_updOp s id (fun o => o.finished s r) (fun _ => rfl)

theorem findOp_finish_ne (s : State) (id i : Nat) (r : Res) (hi : i ≠ id) : (s.finish id r).findOp i = s.findOp i :=
  findOp_updOp_ne s id i (fun o => o.finished s r) (fun _ => rfl) hi

theorem findOp_begin (s : State) (id : Nat) : (s.begin id).findOp id = (s.findOp id).map fun o => { o with began := true } :=
  findOp_updOp s id (fun o => { o with began := true }) (fun _ => rfl)

theorem findOp_await (s : State) (id : Nat) : (s.await id).findOp id = (s.findOp id).map fun o => { o with phase := .waiting, began := true } :=
  findOp_updOp s id (fun o => { o with phase := .waiting, began := true }) (fun _ => rfl)

theorem findOp_commit (s : State) (id : Nat) : (s.commit id).findOp id = (s.findOp id).map fun o => { o with committed := true } :=
  findOp_updOp s id (fun o => { o with committed := true }) (fun _ => rfl)

theorem findOp_of_ops {s s' : State} (h : s'.ops = s.ops) (id : Nat) : s'.findOp id = s.findOp id := by
  unfold State.findOp; rw [h]

theorem ended_finish {s : State} {id : Nat} {o : Op} (h : s.findOp id = some o) (r : Res) :
    (s.finish id r).Ended id r.status r.count r.detail :=
  ⟨o.finished s r, by rw [findOp_finish, h]; rfl, rfl, rfl, rfl, rfl⟩

theorem othersKept_finish (s : State) (id : Nat) (r : Res) : OthersKept s (s.finish id r) id :=
  ⟨rfl, fun i hi => findOp_finish_ne s id i r hi⟩

theorem othersKept_begin (s : State) (id : Nat) : OthersKept s (s.begin id) id :=
  ⟨rfl, fun i hi => findOp_updOp_ne s id i (fun o => { o with began := true }) (fun _ => rfl) hi⟩

theorem othersKept_await (s : State) (id : Nat) : OthersKept s (s.await id) id :=
  ⟨rfl, fun i hi => findOp_updOp_ne s id i (fun o => { o with phase := .waiting, began := true }) (fun _ => rfl) hi⟩

/-- A finish on a state that has the same operations as s. -/
theorem ended_finish_of {s s' : State} {id : Nat} {o : Op} (h : s.findOp id = some o) (r : Res) (ho : s'.ops = s.ops) :
    (s'.finish id r).Ended id r.status r.count r.detail :=
  ended_finish (o := o) ((findOp_of_ops ho id).trans h) r

theorem othersKept_of_ops {s s' t : State} {id : Nat} (ho : s'.ops = s.ops) (h : OthersKept s' t id) : OthersKept s t id := by
  obtain ⟨h1, h2⟩ := h
  refine ⟨by rw [← ho]; exact h1, fun i hi => (h2 i hi).trans (findOp_of_ops ho i)⟩

theorem othersKept_finish_of (s s' : State) (id : Nat) (r : Res) (ho : s'.ops = s.ops) : OthersKept s (s'.finish id r) id :=
  othersKept_of_ops ho (othersKept_finish s' id r)

theorem runOp_of {s : State} {id code : Nat} {o : Op} (h : s.Runs id code o) (f : Op → State) : s.runOp id code f = .next (f o) := by
  obtain ⟨h1, h2, h3, h4⟩ := h
  simp [State.runOp, h1, h2, h3, h4]

theorem runSub_of {s : State} {id code sub : Nat} {o : Op} (h : s.RunsSub id code sub o) (f : Op → State) : s.runSub id code sub f = .next (f o) := by
  obtain ⟨⟨h1, h2, h3, h5⟩, h4⟩ := h
  simp [State.runSub, h1, h2, h3, h4, h5]

/-! ## Fields that an update keeps -/

@[simp] theorem spend_pending (s : State) (n : Nat) : (s.spend n).pending = s.pending := rfl
@[simp] theorem spend_chip (s : State) (n : Nat) : (s.spend n).chip = s.chip := rfl
@[simp] theorem spend_clock (s : State) (n : Nat) : (s.spend n).clock = s.clock := rfl
@[simp] theorem spend_mem (s : State) (n : Nat) : (s.spend n).mem = s.mem := rfl
@[simp] theorem spend_regs (s : State) (n : Nat) : (s.spend n).regs = s.regs := rfl
@[simp] theorem spend_host (s : State) (n : Nat) : (s.spend n).host = s.host := rfl
@[simp] theorem spend_rings (s : State) (n : Nat) : (s.spend n).rings = s.rings := rfl
@[simp] theorem spend_ops (s : State) (n : Nat) : (s.spend n).ops = s.ops := rfl
@[simp] theorem spend_tally (s : State) (n : Nat) : (s.spend n).tally = s.tally := rfl
@[simp] theorem spend_sess (s : State) (n : Nat) : (s.spend n).sess = s.sess := rfl
@[simp] theorem spend_map (s : State) (n : Nat) : (s.spend n).map = s.map := rfl
@[simp] theorem spend_sound (s : State) (n : Nat) : (s.spend n).sound = s.sound := rfl
@[simp] theorem spend_abacus (s : State) (n : Nat) : (s.spend n).abacus = s.abacus := rfl
@[simp] theorem spend_matrix (s : State) (n : Nat) : (s.spend n).matrix = s.matrix := rfl
@[simp] theorem spend_place (s : State) (n : Nat) : (s.spend n).place = s.place := rfl
@[simp] theorem spend_tiers (s : State) (n : Nat) : (s.spend n).tiers = s.tiers := rfl
@[simp] theorem spend_net (s : State) (n : Nat) : (s.spend n).net = s.net := rfl
@[simp] theorem spend_fabric (s : State) (n : Nat) : (s.spend n).fabric = s.fabric := rfl
@[simp] theorem spend_fault (s : State) (n : Nat) : (s.spend n).fault = s.fault := rfl
@[simp] theorem spend_power (s : State) (n : Nat) : (s.spend n).power = s.power := rfl
@[simp] theorem spend_mgmt (s : State) (n : Nat) : (s.spend n).mgmt = s.mgmt := rfl
@[simp] theorem spend_out (s : State) (n : Nat) : (s.spend n).out = s.out := rfl
@[simp] theorem spend_mesh (s : State) (n : Nat) : (s.spend n).mesh = s.mesh := rfl

@[simp] theorem bumpBy_pending (s : State) (i j n : Nat) : (s.bumpBy i j n).pending = s.pending := rfl
@[simp] theorem bumpBy_chip (s : State) (i j n : Nat) : (s.bumpBy i j n).chip = s.chip := rfl
@[simp] theorem bumpBy_clock (s : State) (i j n : Nat) : (s.bumpBy i j n).clock = s.clock := rfl
@[simp] theorem bumpBy_mem (s : State) (i j n : Nat) : (s.bumpBy i j n).mem = s.mem := rfl
@[simp] theorem bumpBy_regs (s : State) (i j n : Nat) : (s.bumpBy i j n).regs = s.regs := rfl
@[simp] theorem bumpBy_host (s : State) (i j n : Nat) : (s.bumpBy i j n).host = s.host := rfl
@[simp] theorem bumpBy_rings (s : State) (i j n : Nat) : (s.bumpBy i j n).rings = s.rings := rfl
@[simp] theorem bumpBy_ops (s : State) (i j n : Nat) : (s.bumpBy i j n).ops = s.ops := rfl
@[simp] theorem bumpBy_sess (s : State) (i j n : Nat) : (s.bumpBy i j n).sess = s.sess := rfl
@[simp] theorem bumpBy_map (s : State) (i j n : Nat) : (s.bumpBy i j n).map = s.map := rfl
@[simp] theorem bumpBy_sound (s : State) (i j n : Nat) : (s.bumpBy i j n).sound = s.sound := rfl
@[simp] theorem bumpBy_abacus (s : State) (i j n : Nat) : (s.bumpBy i j n).abacus = s.abacus := rfl
@[simp] theorem bumpBy_matrix (s : State) (i j n : Nat) : (s.bumpBy i j n).matrix = s.matrix := rfl
@[simp] theorem bumpBy_place (s : State) (i j n : Nat) : (s.bumpBy i j n).place = s.place := rfl
@[simp] theorem bumpBy_tiers (s : State) (i j n : Nat) : (s.bumpBy i j n).tiers = s.tiers := rfl
@[simp] theorem bumpBy_net (s : State) (i j n : Nat) : (s.bumpBy i j n).net = s.net := rfl
@[simp] theorem bumpBy_fabric (s : State) (i j n : Nat) : (s.bumpBy i j n).fabric = s.fabric := rfl
@[simp] theorem bumpBy_fault (s : State) (i j n : Nat) : (s.bumpBy i j n).fault = s.fault := rfl
@[simp] theorem bumpBy_power (s : State) (i j n : Nat) : (s.bumpBy i j n).power = s.power := rfl
@[simp] theorem bumpBy_mgmt (s : State) (i j n : Nat) : (s.bumpBy i j n).mgmt = s.mgmt := rfl
@[simp] theorem bumpBy_out (s : State) (i j n : Nat) : (s.bumpBy i j n).out = s.out := rfl
@[simp] theorem bumpBy_mesh (s : State) (i j n : Nat) : (s.bumpBy i j n).mesh = s.mesh := rfl
@[simp] theorem bumpBy_free (s : State) (i j n : Nat) : (s.bumpBy i j n).free = s.free := rfl

@[simp] theorem updOp_pending (s : State) (i : Nat) (f : Op → Op) : (s.updOp i f).pending = s.pending := rfl
@[simp] theorem updOp_chip (s : State) (i : Nat) (f : Op → Op) : (s.updOp i f).chip = s.chip := rfl
@[simp] theorem updOp_clock (s : State) (i : Nat) (f : Op → Op) : (s.updOp i f).clock = s.clock := rfl
@[simp] theorem updOp_mem (s : State) (i : Nat) (f : Op → Op) : (s.updOp i f).mem = s.mem := rfl
@[simp] theorem updOp_regs (s : State) (i : Nat) (f : Op → Op) : (s.updOp i f).regs = s.regs := rfl
@[simp] theorem updOp_host (s : State) (i : Nat) (f : Op → Op) : (s.updOp i f).host = s.host := rfl
@[simp] theorem updOp_rings (s : State) (i : Nat) (f : Op → Op) : (s.updOp i f).rings = s.rings := rfl
@[simp] theorem updOp_tally (s : State) (i : Nat) (f : Op → Op) : (s.updOp i f).tally = s.tally := rfl
@[simp] theorem updOp_sess (s : State) (i : Nat) (f : Op → Op) : (s.updOp i f).sess = s.sess := rfl
@[simp] theorem updOp_map (s : State) (i : Nat) (f : Op → Op) : (s.updOp i f).map = s.map := rfl
@[simp] theorem updOp_sound (s : State) (i : Nat) (f : Op → Op) : (s.updOp i f).sound = s.sound := rfl
@[simp] theorem updOp_abacus (s : State) (i : Nat) (f : Op → Op) : (s.updOp i f).abacus = s.abacus := rfl
@[simp] theorem updOp_matrix (s : State) (i : Nat) (f : Op → Op) : (s.updOp i f).matrix = s.matrix := rfl
@[simp] theorem updOp_place (s : State) (i : Nat) (f : Op → Op) : (s.updOp i f).place = s.place := rfl
@[simp] theorem updOp_tiers (s : State) (i : Nat) (f : Op → Op) : (s.updOp i f).tiers = s.tiers := rfl
@[simp] theorem updOp_net (s : State) (i : Nat) (f : Op → Op) : (s.updOp i f).net = s.net := rfl
@[simp] theorem updOp_fabric (s : State) (i : Nat) (f : Op → Op) : (s.updOp i f).fabric = s.fabric := rfl
@[simp] theorem updOp_fault (s : State) (i : Nat) (f : Op → Op) : (s.updOp i f).fault = s.fault := rfl
@[simp] theorem updOp_power (s : State) (i : Nat) (f : Op → Op) : (s.updOp i f).power = s.power := rfl
@[simp] theorem updOp_mgmt (s : State) (i : Nat) (f : Op → Op) : (s.updOp i f).mgmt = s.mgmt := rfl
@[simp] theorem updOp_out (s : State) (i : Nat) (f : Op → Op) : (s.updOp i f).out = s.out := rfl
@[simp] theorem updOp_mesh (s : State) (i : Nat) (f : Op → Op) : (s.updOp i f).mesh = s.mesh := rfl
@[simp] theorem updOp_free (s : State) (i : Nat) (f : Op → Op) : (s.updOp i f).free = s.free := rfl

@[simp] theorem finish_pending (s : State) (i : Nat) (r : Res) : (s.finish i r).pending = s.pending := rfl
@[simp] theorem finish_chip (s : State) (i : Nat) (r : Res) : (s.finish i r).chip = s.chip := rfl
@[simp] theorem finish_clock (s : State) (i : Nat) (r : Res) : (s.finish i r).clock = s.clock := rfl
@[simp] theorem finish_mem (s : State) (i : Nat) (r : Res) : (s.finish i r).mem = s.mem := rfl
@[simp] theorem finish_regs (s : State) (i : Nat) (r : Res) : (s.finish i r).regs = s.regs := rfl
@[simp] theorem finish_host (s : State) (i : Nat) (r : Res) : (s.finish i r).host = s.host := rfl
@[simp] theorem finish_rings (s : State) (i : Nat) (r : Res) : (s.finish i r).rings = s.rings := rfl
@[simp] theorem finish_tally (s : State) (i : Nat) (r : Res) : (s.finish i r).tally = s.tally := rfl
@[simp] theorem finish_sess (s : State) (i : Nat) (r : Res) : (s.finish i r).sess = s.sess := rfl
@[simp] theorem finish_map (s : State) (i : Nat) (r : Res) : (s.finish i r).map = s.map := rfl
@[simp] theorem finish_sound (s : State) (i : Nat) (r : Res) : (s.finish i r).sound = s.sound := rfl
@[simp] theorem finish_abacus (s : State) (i : Nat) (r : Res) : (s.finish i r).abacus = s.abacus := rfl
@[simp] theorem finish_matrix (s : State) (i : Nat) (r : Res) : (s.finish i r).matrix = s.matrix := rfl
@[simp] theorem finish_place (s : State) (i : Nat) (r : Res) : (s.finish i r).place = s.place := rfl
@[simp] theorem finish_tiers (s : State) (i : Nat) (r : Res) : (s.finish i r).tiers = s.tiers := rfl
@[simp] theorem finish_net (s : State) (i : Nat) (r : Res) : (s.finish i r).net = s.net := rfl
@[simp] theorem finish_fabric (s : State) (i : Nat) (r : Res) : (s.finish i r).fabric = s.fabric := rfl
@[simp] theorem finish_fault (s : State) (i : Nat) (r : Res) : (s.finish i r).fault = s.fault := rfl
@[simp] theorem finish_power (s : State) (i : Nat) (r : Res) : (s.finish i r).power = s.power := rfl
@[simp] theorem finish_mgmt (s : State) (i : Nat) (r : Res) : (s.finish i r).mgmt = s.mgmt := rfl
@[simp] theorem finish_out (s : State) (i : Nat) (r : Res) : (s.finish i r).out = s.out := rfl
@[simp] theorem finish_mesh (s : State) (i : Nat) (r : Res) : (s.finish i r).mesh = s.mesh := rfl
@[simp] theorem finish_free (s : State) (i : Nat) (r : Res) : (s.finish i r).free = s.free := rfl

@[simp] theorem setFnc_pending (s : State) (g : Nat) (c : FnCtx) : (s.setFnc g c).pending = s.pending := rfl
@[simp] theorem setFnc_chip (s : State) (g : Nat) (c : FnCtx) : (s.setFnc g c).chip = s.chip := rfl
@[simp] theorem setFnc_clock (s : State) (g : Nat) (c : FnCtx) : (s.setFnc g c).clock = s.clock := rfl
@[simp] theorem setFnc_mem (s : State) (g : Nat) (c : FnCtx) : (s.setFnc g c).mem = s.mem := rfl
@[simp] theorem setFnc_regs (s : State) (g : Nat) (c : FnCtx) : (s.setFnc g c).regs = s.regs := rfl
@[simp] theorem setFnc_host (s : State) (g : Nat) (c : FnCtx) : (s.setFnc g c).host = s.host := rfl
@[simp] theorem setFnc_ops (s : State) (g : Nat) (c : FnCtx) : (s.setFnc g c).ops = s.ops := rfl
@[simp] theorem setFnc_tally (s : State) (g : Nat) (c : FnCtx) : (s.setFnc g c).tally = s.tally := rfl
@[simp] theorem setFnc_sess (s : State) (g : Nat) (c : FnCtx) : (s.setFnc g c).sess = s.sess := rfl
@[simp] theorem setFnc_map (s : State) (g : Nat) (c : FnCtx) : (s.setFnc g c).map = s.map := rfl
@[simp] theorem setFnc_sound (s : State) (g : Nat) (c : FnCtx) : (s.setFnc g c).sound = s.sound := rfl
@[simp] theorem setFnc_abacus (s : State) (g : Nat) (c : FnCtx) : (s.setFnc g c).abacus = s.abacus := rfl
@[simp] theorem setFnc_matrix (s : State) (g : Nat) (c : FnCtx) : (s.setFnc g c).matrix = s.matrix := rfl
@[simp] theorem setFnc_place (s : State) (g : Nat) (c : FnCtx) : (s.setFnc g c).place = s.place := rfl
@[simp] theorem setFnc_tiers (s : State) (g : Nat) (c : FnCtx) : (s.setFnc g c).tiers = s.tiers := rfl
@[simp] theorem setFnc_net (s : State) (g : Nat) (c : FnCtx) : (s.setFnc g c).net = s.net := rfl
@[simp] theorem setFnc_fabric (s : State) (g : Nat) (c : FnCtx) : (s.setFnc g c).fabric = s.fabric := rfl
@[simp] theorem setFnc_fault (s : State) (g : Nat) (c : FnCtx) : (s.setFnc g c).fault = s.fault := rfl
@[simp] theorem setFnc_power (s : State) (g : Nat) (c : FnCtx) : (s.setFnc g c).power = s.power := rfl
@[simp] theorem setFnc_mgmt (s : State) (g : Nat) (c : FnCtx) : (s.setFnc g c).mgmt = s.mgmt := rfl
@[simp] theorem setFnc_out (s : State) (g : Nat) (c : FnCtx) : (s.setFnc g c).out = s.out := rfl
@[simp] theorem setFnc_mesh (s : State) (g : Nat) (c : FnCtx) : (s.setFnc g c).mesh = s.mesh := rfl
@[simp] theorem setFnc_free (s : State) (g : Nat) (c : FnCtx) : (s.setFnc g c).free = s.free := rfl

@[simp] theorem setSq_pending (s : State) (g n : Nat) (c : SqCtx) : (s.setSq g n c).pending = s.pending := rfl
@[simp] theorem setSq_chip (s : State) (g n : Nat) (c : SqCtx) : (s.setSq g n c).chip = s.chip := rfl
@[simp] theorem setSq_clock (s : State) (g n : Nat) (c : SqCtx) : (s.setSq g n c).clock = s.clock := rfl
@[simp] theorem setSq_mem (s : State) (g n : Nat) (c : SqCtx) : (s.setSq g n c).mem = s.mem := rfl
@[simp] theorem setSq_regs (s : State) (g n : Nat) (c : SqCtx) : (s.setSq g n c).regs = s.regs := rfl
@[simp] theorem setSq_host (s : State) (g n : Nat) (c : SqCtx) : (s.setSq g n c).host = s.host := rfl
@[simp] theorem setSq_ops (s : State) (g n : Nat) (c : SqCtx) : (s.setSq g n c).ops = s.ops := rfl
@[simp] theorem setSq_tally (s : State) (g n : Nat) (c : SqCtx) : (s.setSq g n c).tally = s.tally := rfl
@[simp] theorem setSq_sess (s : State) (g n : Nat) (c : SqCtx) : (s.setSq g n c).sess = s.sess := rfl
@[simp] theorem setSq_map (s : State) (g n : Nat) (c : SqCtx) : (s.setSq g n c).map = s.map := rfl
@[simp] theorem setSq_sound (s : State) (g n : Nat) (c : SqCtx) : (s.setSq g n c).sound = s.sound := rfl
@[simp] theorem setSq_abacus (s : State) (g n : Nat) (c : SqCtx) : (s.setSq g n c).abacus = s.abacus := rfl
@[simp] theorem setSq_matrix (s : State) (g n : Nat) (c : SqCtx) : (s.setSq g n c).matrix = s.matrix := rfl
@[simp] theorem setSq_place (s : State) (g n : Nat) (c : SqCtx) : (s.setSq g n c).place = s.place := rfl
@[simp] theorem setSq_tiers (s : State) (g n : Nat) (c : SqCtx) : (s.setSq g n c).tiers = s.tiers := rfl
@[simp] theorem setSq_net (s : State) (g n : Nat) (c : SqCtx) : (s.setSq g n c).net = s.net := rfl
@[simp] theorem setSq_fabric (s : State) (g n : Nat) (c : SqCtx) : (s.setSq g n c).fabric = s.fabric := rfl
@[simp] theorem setSq_fault (s : State) (g n : Nat) (c : SqCtx) : (s.setSq g n c).fault = s.fault := rfl
@[simp] theorem setSq_power (s : State) (g n : Nat) (c : SqCtx) : (s.setSq g n c).power = s.power := rfl
@[simp] theorem setSq_mgmt (s : State) (g n : Nat) (c : SqCtx) : (s.setSq g n c).mgmt = s.mgmt := rfl
@[simp] theorem setSq_out (s : State) (g n : Nat) (c : SqCtx) : (s.setSq g n c).out = s.out := rfl
@[simp] theorem setSq_mesh (s : State) (g n : Nat) (c : SqCtx) : (s.setSq g n c).mesh = s.mesh := rfl
@[simp] theorem setSq_free (s : State) (g n : Nat) (c : SqCtx) : (s.setSq g n c).free = s.free := rfl

@[simp] theorem setCq_pending (s : State) (g n : Nat) (c : CqCtx) : (s.setCq g n c).pending = s.pending := rfl
@[simp] theorem setCq_chip (s : State) (g n : Nat) (c : CqCtx) : (s.setCq g n c).chip = s.chip := rfl
@[simp] theorem setCq_clock (s : State) (g n : Nat) (c : CqCtx) : (s.setCq g n c).clock = s.clock := rfl
@[simp] theorem setCq_mem (s : State) (g n : Nat) (c : CqCtx) : (s.setCq g n c).mem = s.mem := rfl
@[simp] theorem setCq_regs (s : State) (g n : Nat) (c : CqCtx) : (s.setCq g n c).regs = s.regs := rfl
@[simp] theorem setCq_host (s : State) (g n : Nat) (c : CqCtx) : (s.setCq g n c).host = s.host := rfl
@[simp] theorem setCq_ops (s : State) (g n : Nat) (c : CqCtx) : (s.setCq g n c).ops = s.ops := rfl
@[simp] theorem setCq_tally (s : State) (g n : Nat) (c : CqCtx) : (s.setCq g n c).tally = s.tally := rfl
@[simp] theorem setCq_sess (s : State) (g n : Nat) (c : CqCtx) : (s.setCq g n c).sess = s.sess := rfl
@[simp] theorem setCq_map (s : State) (g n : Nat) (c : CqCtx) : (s.setCq g n c).map = s.map := rfl
@[simp] theorem setCq_sound (s : State) (g n : Nat) (c : CqCtx) : (s.setCq g n c).sound = s.sound := rfl
@[simp] theorem setCq_abacus (s : State) (g n : Nat) (c : CqCtx) : (s.setCq g n c).abacus = s.abacus := rfl
@[simp] theorem setCq_matrix (s : State) (g n : Nat) (c : CqCtx) : (s.setCq g n c).matrix = s.matrix := rfl
@[simp] theorem setCq_place (s : State) (g n : Nat) (c : CqCtx) : (s.setCq g n c).place = s.place := rfl
@[simp] theorem setCq_tiers (s : State) (g n : Nat) (c : CqCtx) : (s.setCq g n c).tiers = s.tiers := rfl
@[simp] theorem setCq_net (s : State) (g n : Nat) (c : CqCtx) : (s.setCq g n c).net = s.net := rfl
@[simp] theorem setCq_fabric (s : State) (g n : Nat) (c : CqCtx) : (s.setCq g n c).fabric = s.fabric := rfl
@[simp] theorem setCq_fault (s : State) (g n : Nat) (c : CqCtx) : (s.setCq g n c).fault = s.fault := rfl
@[simp] theorem setCq_power (s : State) (g n : Nat) (c : CqCtx) : (s.setCq g n c).power = s.power := rfl
@[simp] theorem setCq_mgmt (s : State) (g n : Nat) (c : CqCtx) : (s.setCq g n c).mgmt = s.mgmt := rfl
@[simp] theorem setCq_out (s : State) (g n : Nat) (c : CqCtx) : (s.setCq g n c).out = s.out := rfl
@[simp] theorem setCq_mesh (s : State) (g n : Nat) (c : CqCtx) : (s.setCq g n c).mesh = s.mesh := rfl
@[simp] theorem setCq_free (s : State) (g n : Nat) (c : CqCtx) : (s.setCq g n c).free = s.free := rfl

@[simp] theorem writeMem_pending (s : State) (p : Nat) (b : List Byte) : (s.writeMem p b).pending = s.pending := rfl
@[simp] theorem writeMem_chip (s : State) (p : Nat) (b : List Byte) : (s.writeMem p b).chip = s.chip := rfl
@[simp] theorem writeMem_clock (s : State) (p : Nat) (b : List Byte) : (s.writeMem p b).clock = s.clock := rfl
@[simp] theorem writeMem_regs (s : State) (p : Nat) (b : List Byte) : (s.writeMem p b).regs = s.regs := rfl
@[simp] theorem writeMem_host (s : State) (p : Nat) (b : List Byte) : (s.writeMem p b).host = s.host := rfl
@[simp] theorem writeMem_rings (s : State) (p : Nat) (b : List Byte) : (s.writeMem p b).rings = s.rings := rfl
@[simp] theorem writeMem_ops (s : State) (p : Nat) (b : List Byte) : (s.writeMem p b).ops = s.ops := rfl
@[simp] theorem writeMem_tally (s : State) (p : Nat) (b : List Byte) : (s.writeMem p b).tally = s.tally := rfl
@[simp] theorem writeMem_sess (s : State) (p : Nat) (b : List Byte) : (s.writeMem p b).sess = s.sess := rfl
@[simp] theorem writeMem_map (s : State) (p : Nat) (b : List Byte) : (s.writeMem p b).map = s.map := rfl
@[simp] theorem writeMem_sound (s : State) (p : Nat) (b : List Byte) : (s.writeMem p b).sound = s.sound := rfl
@[simp] theorem writeMem_abacus (s : State) (p : Nat) (b : List Byte) : (s.writeMem p b).abacus = s.abacus := rfl
@[simp] theorem writeMem_matrix (s : State) (p : Nat) (b : List Byte) : (s.writeMem p b).matrix = s.matrix := rfl
@[simp] theorem writeMem_place (s : State) (p : Nat) (b : List Byte) : (s.writeMem p b).place = s.place := rfl
@[simp] theorem writeMem_net (s : State) (p : Nat) (b : List Byte) : (s.writeMem p b).net = s.net := rfl
@[simp] theorem writeMem_fabric (s : State) (p : Nat) (b : List Byte) : (s.writeMem p b).fabric = s.fabric := rfl
@[simp] theorem writeMem_fault (s : State) (p : Nat) (b : List Byte) : (s.writeMem p b).fault = s.fault := rfl
@[simp] theorem writeMem_power (s : State) (p : Nat) (b : List Byte) : (s.writeMem p b).power = s.power := rfl
@[simp] theorem writeMem_mgmt (s : State) (p : Nat) (b : List Byte) : (s.writeMem p b).mgmt = s.mgmt := rfl
@[simp] theorem writeMem_out (s : State) (p : Nat) (b : List Byte) : (s.writeMem p b).out = s.out := rfl
@[simp] theorem writeMem_mesh (s : State) (p : Nat) (b : List Byte) : (s.writeMem p b).mesh = s.mesh := rfl
@[simp] theorem writeMem_free (s : State) (p : Nat) (b : List Byte) : (s.writeMem p b).free = s.free := rfl

@[simp] theorem setDomain_pending (s : State) (d : Nat) (f : Domain → Domain) : (s.setDomain d f).pending = s.pending := rfl
@[simp] theorem setDomain_chip (s : State) (d : Nat) (f : Domain → Domain) : (s.setDomain d f).chip = s.chip := rfl
@[simp] theorem setDomain_clock (s : State) (d : Nat) (f : Domain → Domain) : (s.setDomain d f).clock = s.clock := rfl
@[simp] theorem setDomain_mem (s : State) (d : Nat) (f : Domain → Domain) : (s.setDomain d f).mem = s.mem := rfl
@[simp] theorem setDomain_regs (s : State) (d : Nat) (f : Domain → Domain) : (s.setDomain d f).regs = s.regs := rfl
@[simp] theorem setDomain_host (s : State) (d : Nat) (f : Domain → Domain) : (s.setDomain d f).host = s.host := rfl
@[simp] theorem setDomain_rings (s : State) (d : Nat) (f : Domain → Domain) : (s.setDomain d f).rings = s.rings := rfl
@[simp] theorem setDomain_ops (s : State) (d : Nat) (f : Domain → Domain) : (s.setDomain d f).ops = s.ops := rfl
@[simp] theorem setDomain_tally (s : State) (d : Nat) (f : Domain → Domain) : (s.setDomain d f).tally = s.tally := rfl
@[simp] theorem setDomain_sess (s : State) (d : Nat) (f : Domain → Domain) : (s.setDomain d f).sess = s.sess := rfl
@[simp] theorem setDomain_map (s : State) (d : Nat) (f : Domain → Domain) : (s.setDomain d f).map = s.map := rfl
@[simp] theorem setDomain_sound (s : State) (d : Nat) (f : Domain → Domain) : (s.setDomain d f).sound = s.sound := rfl
@[simp] theorem setDomain_abacus (s : State) (d : Nat) (f : Domain → Domain) : (s.setDomain d f).abacus = s.abacus := rfl
@[simp] theorem setDomain_matrix (s : State) (d : Nat) (f : Domain → Domain) : (s.setDomain d f).matrix = s.matrix := rfl
@[simp] theorem setDomain_place (s : State) (d : Nat) (f : Domain → Domain) : (s.setDomain d f).place = s.place := rfl
@[simp] theorem setDomain_tiers (s : State) (d : Nat) (f : Domain → Domain) : (s.setDomain d f).tiers = s.tiers := rfl
@[simp] theorem setDomain_net (s : State) (d : Nat) (f : Domain → Domain) : (s.setDomain d f).net = s.net := rfl
@[simp] theorem setDomain_fabric (s : State) (d : Nat) (f : Domain → Domain) : (s.setDomain d f).fabric = s.fabric := rfl
@[simp] theorem setDomain_fault (s : State) (d : Nat) (f : Domain → Domain) : (s.setDomain d f).fault = s.fault := rfl
@[simp] theorem setDomain_mgmt (s : State) (d : Nat) (f : Domain → Domain) : (s.setDomain d f).mgmt = s.mgmt := rfl
@[simp] theorem setDomain_out (s : State) (d : Nat) (f : Domain → Domain) : (s.setDomain d f).out = s.out := rfl
@[simp] theorem setDomain_mesh (s : State) (d : Nat) (f : Domain → Domain) : (s.setDomain d f).mesh = s.mesh := rfl
@[simp] theorem setDomain_free (s : State) (d : Nat) (f : Domain → Domain) : (s.setDomain d f).free = s.free := rfl

@[simp] theorem log_pending (s : State) (a b c d e f : Nat) : (s.log a b c d e f).pending = s.pending := by unfold State.log; dsimp only; rw [apply_ite State.pending, State.bump, bumpBy_pending, ite_self]
@[simp] theorem log_chip (s : State) (a b c d e f : Nat) : (s.log a b c d e f).chip = s.chip := by unfold State.log; dsimp only; rw [apply_ite State.chip, State.bump, bumpBy_chip, ite_self]
@[simp] theorem log_clock (s : State) (a b c d e f : Nat) : (s.log a b c d e f).clock = s.clock := by unfold State.log; dsimp only; rw [apply_ite State.clock, State.bump, bumpBy_clock, ite_self]
@[simp] theorem log_mem (s : State) (a b c d e f : Nat) : (s.log a b c d e f).mem = s.mem := by unfold State.log; dsimp only; rw [apply_ite State.mem, State.bump, bumpBy_mem, ite_self]
@[simp] theorem log_regs (s : State) (a b c d e f : Nat) : (s.log a b c d e f).regs = s.regs := by unfold State.log; dsimp only; rw [apply_ite State.regs, State.bump, bumpBy_regs, ite_self]
@[simp] theorem log_host (s : State) (a b c d e f : Nat) : (s.log a b c d e f).host = s.host := by unfold State.log; dsimp only; rw [apply_ite State.host, State.bump, bumpBy_host, ite_self]
@[simp] theorem log_rings (s : State) (a b c d e f : Nat) : (s.log a b c d e f).rings = s.rings := by unfold State.log; dsimp only; rw [apply_ite State.rings, State.bump, bumpBy_rings, ite_self]
@[simp] theorem log_ops (s : State) (a b c d e f : Nat) : (s.log a b c d e f).ops = s.ops := by unfold State.log; dsimp only; rw [apply_ite State.ops, State.bump, bumpBy_ops, ite_self]
@[simp] theorem log_sess (s : State) (a b c d e f : Nat) : (s.log a b c d e f).sess = s.sess := by unfold State.log; dsimp only; rw [apply_ite State.sess, State.bump, bumpBy_sess, ite_self]
@[simp] theorem log_map (s : State) (a b c d e f : Nat) : (s.log a b c d e f).map = s.map := by unfold State.log; dsimp only; rw [apply_ite State.map, State.bump, bumpBy_map, ite_self]
@[simp] theorem log_sound (s : State) (a b c d e f : Nat) : (s.log a b c d e f).sound = s.sound := by unfold State.log; dsimp only; rw [apply_ite State.sound, State.bump, bumpBy_sound, ite_self]
@[simp] theorem log_abacus (s : State) (a b c d e f : Nat) : (s.log a b c d e f).abacus = s.abacus := by unfold State.log; dsimp only; rw [apply_ite State.abacus, State.bump, bumpBy_abacus, ite_self]
@[simp] theorem log_matrix (s : State) (a b c d e f : Nat) : (s.log a b c d e f).matrix = s.matrix := by unfold State.log; dsimp only; rw [apply_ite State.matrix, State.bump, bumpBy_matrix, ite_self]
@[simp] theorem log_place (s : State) (a b c d e f : Nat) : (s.log a b c d e f).place = s.place := by unfold State.log; dsimp only; rw [apply_ite State.place, State.bump, bumpBy_place, ite_self]
@[simp] theorem log_tiers (s : State) (a b c d e f : Nat) : (s.log a b c d e f).tiers = s.tiers := by unfold State.log; dsimp only; rw [apply_ite State.tiers, State.bump, bumpBy_tiers, ite_self]
@[simp] theorem log_net (s : State) (a b c d e f : Nat) : (s.log a b c d e f).net = s.net := by unfold State.log; dsimp only; rw [apply_ite State.net, State.bump, bumpBy_net, ite_self]
@[simp] theorem log_fabric (s : State) (a b c d e f : Nat) : (s.log a b c d e f).fabric = s.fabric := by unfold State.log; dsimp only; rw [apply_ite State.fabric, State.bump, bumpBy_fabric, ite_self]
@[simp] theorem log_fault (s : State) (a b c d e f : Nat) : (s.log a b c d e f).fault = s.fault := by unfold State.log; dsimp only; rw [apply_ite State.fault, State.bump, bumpBy_fault, ite_self]
@[simp] theorem log_power (s : State) (a b c d e f : Nat) : (s.log a b c d e f).power = s.power := by unfold State.log; dsimp only; rw [apply_ite State.power, State.bump, bumpBy_power, ite_self]
@[simp] theorem log_mgmt (s : State) (a b c d e f : Nat) : (s.log a b c d e f).mgmt = s.mgmt := by unfold State.log; dsimp only; rw [apply_ite State.mgmt, State.bump, bumpBy_mgmt, ite_self]
@[simp] theorem log_out (s : State) (a b c d e f : Nat) : (s.log a b c d e f).out = s.out := by unfold State.log; dsimp only; rw [apply_ite State.out, State.bump, bumpBy_out, ite_self]
@[simp] theorem log_mesh (s : State) (a b c d e f : Nat) : (s.log a b c d e f).mesh = s.mesh := by unfold State.log; dsimp only; rw [apply_ite State.mesh, State.bump, bumpBy_mesh, ite_self]
@[simp] theorem log_free (s : State) (a b c d e f : Nat) : (s.log a b c d e f).free = s.free := by unfold State.log; dsimp only; rw [apply_ite State.free, State.bump, bumpBy_free, ite_self]

/-! ## Time -/

@[simp] theorem toTime_pending (s : State) (t : Nat) : (s.toTime t).pending = s.pending := by rw [State.toTime]
@[simp] theorem toTime_chip (s : State) (t : Nat) : (s.toTime t).chip = s.chip := by rw [State.toTime]
@[simp] theorem toTime_mem (s : State) (t : Nat) : (s.toTime t).mem = s.mem := by rw [State.toTime]
@[simp] theorem toTime_regs (s : State) (t : Nat) : (s.toTime t).regs = s.regs := by rw [State.toTime]
@[simp] theorem toTime_host (s : State) (t : Nat) : (s.toTime t).host = s.host := by rw [State.toTime]
@[simp] theorem toTime_rings (s : State) (t : Nat) : (s.toTime t).rings = s.rings := by rw [State.toTime]
@[simp] theorem toTime_ops (s : State) (t : Nat) : (s.toTime t).ops = s.ops := by rw [State.toTime]
@[simp] theorem toTime_tally (s : State) (t : Nat) : (s.toTime t).tally = s.tally := by rw [State.toTime]
@[simp] theorem toTime_sess (s : State) (t : Nat) : (s.toTime t).sess = s.sess := by rw [State.toTime]
@[simp] theorem toTime_map (s : State) (t : Nat) : (s.toTime t).map = s.map := by rw [State.toTime]
@[simp] theorem toTime_sound (s : State) (t : Nat) : (s.toTime t).sound = s.sound := by rw [State.toTime]
@[simp] theorem toTime_abacus (s : State) (t : Nat) : (s.toTime t).abacus = s.abacus := by rw [State.toTime]
@[simp] theorem toTime_matrix (s : State) (t : Nat) : (s.toTime t).matrix = s.matrix := by rw [State.toTime]
@[simp] theorem toTime_place (s : State) (t : Nat) : (s.toTime t).place = s.place := by rw [State.toTime]
@[simp] theorem toTime_tiers (s : State) (t : Nat) : (s.toTime t).tiers = s.tiers := by rw [State.toTime]
@[simp] theorem toTime_net (s : State) (t : Nat) : (s.toTime t).net = s.net := by rw [State.toTime]
@[simp] theorem toTime_fabric (s : State) (t : Nat) : (s.toTime t).fabric = s.fabric := by rw [State.toTime]
@[simp] theorem toTime_fault (s : State) (t : Nat) : (s.toTime t).fault = s.fault := by rw [State.toTime]
@[simp] theorem toTime_power (s : State) (t : Nat) : (s.toTime t).power = s.power := by rw [State.toTime]
@[simp] theorem toTime_mgmt (s : State) (t : Nat) : (s.toTime t).mgmt = s.mgmt := by rw [State.toTime]
@[simp] theorem toTime_out (s : State) (t : Nat) : (s.toTime t).out = s.out := by rw [State.toTime]
@[simp] theorem toTime_mesh (s : State) (t : Nat) : (s.toTime t).mesh = s.mesh := by rw [State.toTime]
@[simp] theorem toTime_free (s : State) (t : Nat) : (s.toTime t).free = s.free := by rw [State.toTime]
@[simp] theorem toDev_pending (s : State) (t : Nat) : (s.toDev t).pending = s.pending := by rw [State.toDev]
@[simp] theorem toDev_chip (s : State) (t : Nat) : (s.toDev t).chip = s.chip := by rw [State.toDev]
@[simp] theorem toDev_mem (s : State) (t : Nat) : (s.toDev t).mem = s.mem := by rw [State.toDev]
@[simp] theorem toDev_regs (s : State) (t : Nat) : (s.toDev t).regs = s.regs := by rw [State.toDev]
@[simp] theorem toDev_host (s : State) (t : Nat) : (s.toDev t).host = s.host := by rw [State.toDev]
@[simp] theorem toDev_rings (s : State) (t : Nat) : (s.toDev t).rings = s.rings := by rw [State.toDev]
@[simp] theorem toDev_ops (s : State) (t : Nat) : (s.toDev t).ops = s.ops := by rw [State.toDev]
@[simp] theorem toDev_tally (s : State) (t : Nat) : (s.toDev t).tally = s.tally := by rw [State.toDev]
@[simp] theorem toDev_sess (s : State) (t : Nat) : (s.toDev t).sess = s.sess := by rw [State.toDev]
@[simp] theorem toDev_map (s : State) (t : Nat) : (s.toDev t).map = s.map := by rw [State.toDev]
@[simp] theorem toDev_sound (s : State) (t : Nat) : (s.toDev t).sound = s.sound := by rw [State.toDev]
@[simp] theorem toDev_abacus (s : State) (t : Nat) : (s.toDev t).abacus = s.abacus := by rw [State.toDev]
@[simp] theorem toDev_matrix (s : State) (t : Nat) : (s.toDev t).matrix = s.matrix := by rw [State.toDev]
@[simp] theorem toDev_place (s : State) (t : Nat) : (s.toDev t).place = s.place := by rw [State.toDev]
@[simp] theorem toDev_tiers (s : State) (t : Nat) : (s.toDev t).tiers = s.tiers := by rw [State.toDev]
@[simp] theorem toDev_net (s : State) (t : Nat) : (s.toDev t).net = s.net := by rw [State.toDev]
@[simp] theorem toDev_fabric (s : State) (t : Nat) : (s.toDev t).fabric = s.fabric := by rw [State.toDev]
@[simp] theorem toDev_fault (s : State) (t : Nat) : (s.toDev t).fault = s.fault := by rw [State.toDev]
@[simp] theorem toDev_power (s : State) (t : Nat) : (s.toDev t).power = s.power := by rw [State.toDev]
@[simp] theorem toDev_mgmt (s : State) (t : Nat) : (s.toDev t).mgmt = s.mgmt := by rw [State.toDev]
@[simp] theorem toDev_out (s : State) (t : Nat) : (s.toDev t).out = s.out := by rw [State.toDev]
@[simp] theorem toDev_mesh (s : State) (t : Nat) : (s.toDev t).mesh = s.mesh := by rw [State.toDev]
@[simp] theorem toDev_free (s : State) (t : Nat) : (s.toDev t).free = s.free := by rw [State.toDev]

/-- Time moves on to the instant, or stays where it has passed it. -/
theorem toTime_now (s : State) (t : Nat) : (s.toTime t).clock.now = max s.clock.now t := by
  rw [State.toTime]; simp only [Clock.advance]; omega

theorem le_toTime (s : State) (t : Nat) : t ≤ (s.toTime t).clock.now := by rw [toTime_now]; exact le_max_right _ _

theorem toTime_frame (s : State) (t : Nat) : s.toTime t = { s with clock := (s.toTime t).clock } := by rw [State.toTime]

@[simp] theorem toTime_state (s : State) (t : Nat) : (s.toTime t).clock.state = s.clock.state := by rw [State.toTime, Clock.advance]

@[simp] theorem toTime_findOp (s : State) (t i : Nat) : (s.toTime t).findOp i = s.findOp i := by unfold State.findOp; rw [toTime_ops]

/-! ## Counters and ring contexts after a write -/

theorem counter_bumpBy (s : State) (i j n a b : Nat) (hj : j < 2 ^ 24) (hb : b < 2 ^ 24) :
    (s.bumpBy i j n).counter a b = if a = i ∧ b = j then (s.counter i j + n) % 2 ^ 64 else s.counter a b := by
  unfold State.bumpBy State.counter
  dsimp only
  rw [Store.get_set]
  by_cases h : a = i ∧ b = j
  · obtain ⟨rfl, rfl⟩ := h; simp
  · rw [if_neg h, if_neg]
    unfold ctrKey
    intro he
    apply h
    constructor <;> omega

theorem sq_setSq (s : State) (fn n g m : Nat) (c : SqCtx) : (s.setSq fn n c).sq g m = if ringKey g m = ringKey fn n then c else s.sq g m := by
  unfold State.setSq State.sq; dsimp only; rw [Store.get_set]

@[simp] theorem sq_setSq_same (s : State) (fn n : Nat) (c : SqCtx) : (s.setSq fn n c).sq fn n = c := by rw [sq_setSq, if_pos rfl]

theorem cq_setCq (s : State) (fn n g m : Nat) (c : CqCtx) : (s.setCq fn n c).cq g m = if ringKey g m = ringKey fn n then c else s.cq g m := by
  unfold State.setCq State.cq; dsimp only; rw [Store.get_set]

@[simp] theorem cq_setCq_same (s : State) (fn n : Nat) (c : CqCtx) : (s.setCq fn n c).cq fn n = c := by rw [cq_setCq, if_pos rfl]

theorem fnc_setFnc (s : State) (fn g : Nat) (c : FnCtx) : (s.setFnc fn c).fnc g = if g = fn then c else s.fnc g := by
  unfold State.setFnc State.fnc; dsimp only; rw [Store.get_set]

@[simp] theorem fnc_setFnc_same (s : State) (fn : Nat) (c : FnCtx) : (s.setFnc fn c).fnc fn = c := by rw [fnc_setFnc, if_pos rfl]
@[simp] theorem sq_setFnc (s : State) (fn g m : Nat) (c : FnCtx) : (s.setFnc fn c).sq g m = s.sq g m := rfl
@[simp] theorem cq_setFnc (s : State) (fn g m : Nat) (c : FnCtx) : (s.setFnc fn c).cq g m = s.cq g m := rfl
@[simp] theorem sq_of_setCq (s : State) (fn n g m : Nat) (c : CqCtx) : (s.setCq fn n c).sq g m = s.sq g m := rfl
@[simp] theorem fnc_setCq (s : State) (fn n g : Nat) (c : CqCtx) : (s.setCq fn n c).fnc g = s.fnc g := rfl
@[simp] theorem cq_of_setSq (s : State) (fn n g m : Nat) (c : SqCtx) : (s.setSq fn n c).cq g m = s.cq g m := rfl
@[simp] theorem fnc_setSq (s : State) (fn n g : Nat) (c : SqCtx) : (s.setSq fn n c).fnc g = s.fnc g := rfl
@[simp] theorem sq_writeMem (s : State) (p g m : Nat) (b : List Byte) : (s.writeMem p b).sq g m = s.sq g m := rfl
@[simp] theorem cq_writeMem (s : State) (p g m : Nat) (b : List Byte) : (s.writeMem p b).cq g m = s.cq g m := rfl
@[simp] theorem fnc_writeMem (s : State) (p g : Nat) (b : List Byte) : (s.writeMem p b).fnc g = s.fnc g := rfl
@[simp] theorem sq_bumpBy (s : State) (i j n g m : Nat) : (s.bumpBy i j n).sq g m = s.sq g m := rfl
@[simp] theorem cq_bumpBy (s : State) (i j n g m : Nat) : (s.bumpBy i j n).cq g m = s.cq g m := rfl
@[simp] theorem fnc_bumpBy (s : State) (i j n g : Nat) : (s.bumpBy i j n).fnc g = s.fnc g := rfl

/-- The slot read leaves a ring but for its tail. -/
theorem readTail_sq (s : State) (fn n : Nat) : ∃ t, (s.readTail fn n).sq fn n = { s.sq fn n with tail := t } := by
  unfold State.readTail
  dsimp only
  split
  · exact ⟨_, sq_setSq_same _ _ _ _⟩
  · exact ⟨(s.sq fn n).tail, rfl⟩

@[simp] theorem sq_writeRecord (s : State) (fn n g m : Nat) : (s.writeRecord fn n).sq g m = s.sq g m := by
  unfold State.writeRecord; dsimp only; split
  · exact sq_writeMem _ _ _ _ _
  · rfl

/-- Writing back leaves a ring but for its tail. -/
theorem writeBack_sq (s : State) (fn n : Nat) : ∃ t, (s.writeBack fn n).sq fn n = { s.sq fn n with tail := t } := by
  have h1 : (s.writeRecord fn n).sq fn n = s.sq fn n := sq_writeRecord _ _ _ _ _
  unfold State.writeBack
  extract_lets s1 c s2
  have h2 : ∃ t, s2.sq fn n = { s1.sq fn n with tail := t } := readTail_sq s1 fn n
  have h1' : s1.sq fn n = s.sq fn n := h1
  clear_value s2 c s1
  obtain ⟨t, ht⟩ := h2
  rw [h1'] at ht
  split
  · split
    · exact ⟨t, ht⟩
    · exact ⟨t, by rw [sq_writeRecord, ht]⟩
  · exact ⟨(s.sq fn n).tail, h1'⟩

/-- A ring context written, with its record: as written but for the tail, which a slot read may bring up to date (R76). -/
theorem putSq_sq (s : State) (fn n : Nat) (c : SqCtx) : ∃ t, (s.putSq fn n c).sq fn n = { c with tail := t } := by
  unfold State.putSq
  dsimp only
  split
  · exact ⟨c.tail, by rw [sq_setSq_same]⟩
  · obtain ⟨t, ht⟩ := writeBack_sq (s.setSq fn n c) fn n
    exact ⟨t, by rw [ht, sq_setSq_same]⟩

/-! ## The tally log -/

/-- Only the tally changes where a state has the same other fields. -/
def TallyOnly (s t : State) : Prop := t = { s with tally := t.tally }

theorem TallyOnly.refl (s : State) : TallyOnly s s := rfl

theorem TallyOnly.trans {a b c : State} (h1 : TallyOnly a b) (h2 : TallyOnly b c) : TallyOnly a c := by
  unfold TallyOnly at *; rw [h2, h1]

theorem tallyOnly_bumpBy (s : State) (i j n : Nat) : TallyOnly s (s.bumpBy i j n) := by
  unfold TallyOnly State.bumpBy; dsimp only

theorem tallyOnly_bump (s : State) (i : Nat) : TallyOnly s (s.bump i) := tallyOnly_bumpBy s i 0 1

theorem tally_counters (t : Tally) (x : List TallyEntry) (h m : Nat) : ({ t with entries := x, head := h, summary := m } : Tally).counters = t.counters := rfl

/-- What a log entry does: a new tally with the same counters, and TALLY_LOST counted where the log was full. -/
theorem log_shape (s : State) (a b c d e f : Nat) : ∃ t : Tally, t.counters = s.tally.counters ∧
    s.log a b c d e f = if 4096 ≤ s.tally.entries.length then ({ s with tally := t } : State).bump Ctr.tallyLost else { s with tally := t } :=
  ⟨_, tally_counters _ _ _ _, rfl⟩

theorem tallyOnly_log (s : State) (a b c d e f : Nat) : TallyOnly s (s.log a b c d e f) := by
  obtain ⟨t, -, h⟩ := log_shape s a b c d e f
  rw [h]
  split
  · exact TallyOnly.trans (b := { s with tally := t }) rfl (tallyOnly_bump _ _)
  · rfl

theorem tallyOnly_logLimited (s : State) (k a b c d e f : Nat) : TallyOnly s (s.logLimited k a b c d e f) := by
  unfold State.logLimited
  extract_lets last
  split
  · exact TallyOnly.refl s
  · generalize hs : ({ s with tally := _ } : State) = s1
    have h1 : TallyOnly s s1 := by rw [← hs]; unfold TallyOnly; dsimp only
    exact h1.trans (tallyOnly_log _ _ _ _ _ _ _)

/-- A log entry moves no counter but TALLY_LOST. -/
theorem counter_log (s : State) (a b c d e f i j : Nat) (hi : i ≠ 0x706) (hj : j < 2 ^ 24) : (s.log a b c d e f).counter i j = s.counter i j := by
  obtain ⟨t, hc, h⟩ := log_shape s a b c d e f
  have h1 : State.counter { s with tally := t } i j = s.counter i j := by unfold State.counter; rw [hc]
  rw [h]
  split
  · rw [State.bump, counter_bumpBy _ _ _ _ _ _ (by decide) hj, if_neg fun h => hi h.1, h1]
  · exact h1

theorem counter_logLimited (s : State) (k a b c d e f i j : Nat) (hi : i ≠ 0x706) (hj : j < 2 ^ 24) : (s.logLimited k a b c d e f).counter i j = s.counter i j := by
  unfold State.logLimited
  extract_lets last
  split
  · rfl
  · generalize hs : ({ s with tally := _ } : State) = s1
    have hc : s1.tally.counters = s.tally.counters := by rw [← hs]
    have h1 : s1.counter i j = s.counter i j := by unfold State.counter; rw [hc]
    rw [counter_log _ _ _ _ _ _ _ _ _ hi hj, h1]

/-- A lock violation is counted, and nothing but the tally changes (R471). -/
theorem lockViolation_spec (s : State) (fn off : Nat) : (s.lockViolation fn off).counter 0x104 0 = (s.counter 0x104 0 + 1) % 2 ^ 64 ∧
    TallyOnly s (s.lockViolation fn off) := by
  unfold State.lockViolation
  refine ⟨?_, (tallyOnly_bump s _).trans (tallyOnly_log _ _ _ _ _ _ _)⟩
  rw [counter_log _ _ _ _ _ _ _ _ _ (by decide) (by decide), State.bump, counter_bumpBy _ _ _ _ _ _ (by decide) (by decide), if_pos ⟨rfl, rfl⟩]

/-- A guarded access is counted, and nothing but the tally changes (R467). -/
theorem guardedAccess_spec (s : State) (fn off : Nat) : (s.guardedAccess fn off).counter 0x105 0 = (s.counter 0x105 0 + 1) % 2 ^ 64 ∧
    TallyOnly s (s.guardedAccess fn off) := by
  unfold State.guardedAccess
  refine ⟨?_, (tallyOnly_bump s _).trans (tallyOnly_logLimited _ _ _ _ _ _ _ _)⟩
  rw [counter_logLimited _ _ _ _ _ _ _ _ _ _ (by decide) (by decide), State.bump, counter_bumpBy _ _ _ _ _ _ (by decide) (by decide), if_pos ⟨rfl, rfl⟩]

/-! ## Accesses -/

/-- The blocks every part has (R3, R464). -/
theorem blockOf_isSome (s : State) (off : Nat) (h : (capTable.filter fun c => !([0x11, 0x20, 0x22, 0x41].contains c.id)).any (fun c => decide (c.base ≤ off ∧ off < c.base + c.size)) = true) :
    ∃ c, s.blockOf off = some c := by
  have : (s.blockOf off).isSome = true := by
    rw [State.blockOf, List.find?_isSome]
    rw [List.any_eq_true] at h
    obtain ⟨c, hc, hd⟩ := h
    rw [List.mem_filter] at hc
    refine ⟨c, hc.1, ?_⟩
    have h2 := hc.2
    simp only [Part.hasCap, Bool.and_eq_true]
    exact ⟨by rw [h2]; simp, hd⟩
  exact Option.isSome_iff_exists.mp this

/-- A 4-byte write that reaches its register. -/
theorem busWrite_reg {s : State} {fn off v : Nat} (h : s.Reaches fn) (h4 : off % 4 = 0) (hlt : off < 0x40000) {c : Cap} (hb : s.blockOf off = some c)
    (hg : isGuarded off = true → s.privileged fn = true) : s.busWrite fn off 4 v = s.writeReg fn off (BitVec.ofNat 32 v) := by
  obtain ⟨h1, h2⟩ := h
  have hg' : (isGuarded off && !s.privileged fn) = false := by
    cases hgo : isGuarded off
    · rfl
    · simp [hg hgo]
  simp [State.busWrite, h1, h2, State.springReady, h4, State.write4, hlt, State.writeWord, hb, hg']

/-- A read that reaches its register: the value is noted, and f is done. -/
theorem busRead_reg {s : State} {fn off size : Nat} (f : State → State) (h : s.Reaches fn) (h4 : off % 4 = 0) (hs : 4 ≤ size) {c : Cap} (hb : s.blockOf off = some c)
    (hg : isGuarded off = true → s.privileged fn = true) :
    s.busRead fn off size f = f { s with regs := { s.regs with lastRead := BitVec.ofNat 64 (s.busValue fn off size) } } := by
  obtain ⟨h1, h2⟩ := h
  have hoff : off / 4 * 4 = off := by omega
  have e0 : s.springReady fn s.regs.springStalled.length = s := by rw [h2]; rfl
  unfold State.busRead
  simp only [h1, Bool.not_true, Bool.false_eq_true, if_false, e0, hoff]
  split
  · rename_i hn
    have e : s.blockOf off = none := hn
    rw [hb] at e; cases e
  · have hg' : ¬ ((isGuarded off && !s.privileged fn) = true) := by
      cases hgo : isGuarded off
      · simp
      · simp [hg hgo]
    exact (if_neg hg').trans (if_pos ⟨hs, h4⟩)

end Sys2Proof.Machine
end

