-- ==== Sys2Proof/Laws/Spine.lean ====
section
/-! SUPPORT. What the work of the engines, the fabric, the tiers and time leaves as it was: the queue, the chip, the registers, the host
interface, the rings, the management port, the last epoch published, the view, and which operations are in flight. One lemma for each operation
and each meaning that changes none of them. -/

namespace Sys2Proof.Machine

set_option linter.unusedTactic false
set_option linter.unreachableTactic false
set_option linter.unusedSimpArgs false
set_option linter.unusedVariables false

/-- The queue, the chip, the registers, the host interface, the rings, the management port, the last epoch published, the view's number,
members and leader, and the IDs of the operations in flight. -/
def State.spine (s : State) : List Instr × Chip × Regs × HostIf × Rings × Mgmt × Nat × Nat × Nat × Nat × List Nat := (s.pending, s.chip, s.regs, s.host, s.rings, s.mgmt, s.map.published, s.fabric.viewNo, s.fabric.members, s.fabric.leader, s.ops.list.map (·.id))
@[simp] theorem spine_mk (a b c d e f g o h i j k l m n p q r t u v w x y) : (State.mk a b c d e f g o h i j k l m n p q r t u v w x y).spine = (a, b, e, f, g, v, j.published, r.viewNo, r.members, r.leader, o.list.map (·.id)) := by simp only [State.spine]
@[simp] theorem spine_fold (s : State) : (s.pending, s.chip, s.regs, s.host, s.rings, s.mgmt, s.map.published, s.fabric.viewNo, s.fabric.members, s.fabric.leader, s.ops.list.map (·.id)) = s.spine := by simp only [State.spine]
theorem map_updFirst {α β : Type} (g : α → β) (p : α → Bool) (f : α → α) (l : List α) (h : ∀ x, g (f x) = g x) : (updFirst p f l).map g = l.map g := by
  induction l with
  | nil => rfl
  | cons x t ih =>
    unfold updFirst
    split
    · simp [h]
    · simp [ih]
@[simp] theorem ids_updFirst (p : Op → Bool) (f : Op → Op) (l : List Op) (h : ∀ x, (f x).id = x.id) : (updFirst p f l).map (·.id) = l.map (·.id) := map_updFirst _ _ _ _ h
@[simp] theorem foldl_spine {α : Type} (f : State → α → State) (l : List α) (s : State) (h : ∀ s a, (f s a).spine = s.spine) : (l.foldl f s).spine = s.spine := by
  induction l generalizing s with
  | nil => rfl
  | cons x t ih => rw [List.foldl_cons, ih, h]
@[simp] theorem foldl_spine1 {α β : Type} (f : State × β → α → State × β) (l : List α) (s : State × β) (h : ∀ s a, (f s a).1.spine = s.1.spine) : (l.foldl f s).1.spine = s.1.spine := by
  induction l generalizing s with
  | nil => rfl
  | cons x t ih => rw [List.foldl_cons, ih, h]
@[simp] theorem spine_ite (c : Prop) [Decidable c] (a b : State) : (if c then a else b).spine = if c then a.spine else b.spine := by split <;> rfl
@[simp] theorem State.spend_spine (s : State) (n : Nat) : (State.spend s n).spine = s.spine := by
  simp [State.spend]
@[simp] theorem State.toTime_spine (s : State) (t : Nat) : (State.toTime s t).spine = s.spine := by
  simp [State.toTime]
@[simp] theorem State.toDev_spine (s : State) (t : Nat) : (State.toDev s t).spine = s.spine := by
  simp [State.toDev]
@[simp] theorem State.bumpBy_spine (s : State) (id : Nat) (inst : Nat) (n : Nat) : (State.bumpBy s id inst n).spine = s.spine := by
  simp [State.bumpBy]
@[simp] theorem State.bump_spine (s : State) (id : Nat) : (State.bump s id).spine = s.spine := by
  simp [State.bump]
@[simp] theorem State.log_spine (s : State) (source : Nat) (code : Nat) (cls : Nat) (fn : Nat) (subject : Nat) (detail : Nat) : (State.log s source code cls fn subject detail).spine = s.spine := by
  simp [State.log]
@[simp] theorem State.logLimited_spine (s : State) (key : Nat) (source : Nat) (code : Nat) (cls : Nat) (fn : Nat) (subject : Nat) (detail : Nat) : (State.logLimited s key source code cls fn subject detail).spine = s.spine := by
  simp [State.logLimited]
@[simp] theorem State.lockViolation_spine (s : State) (fn : Nat) (off : Nat) : (State.lockViolation s fn off).spine = s.spine := by
  simp [State.lockViolation]
@[simp] theorem State.guardedAccess_spine (s : State) (fn : Nat) (off : Nat) : (State.guardedAccess s fn off).spine = s.spine := by
  simp [State.guardedAccess]
@[simp] theorem State.eccCorrected_spine (s : State) (source : Nat) (addr : Nat) : (State.eccCorrected s source addr).spine = s.spine := by
  simp [State.eccCorrected]
@[simp] theorem State.updOp_spine (s : State) (id : Nat) (f : Op → Op) (h : ∀ x, (f x).id = x.id) : (State.updOp s id f).spine = s.spine := by
  unfold State.updOp; rw [spine_mk, ids_updFirst _ _ _ h, spine_fold]
@[simp] theorem State.finish_spine (s : State) (id : Nat) (r : Res) : (State.finish s id r).spine = s.spine := by
  simp [State.finish]
@[simp] theorem State.complete_spine (s : State) (id : Nat) (r : Res) : (State.complete s id r).spine = s.spine := by
  unfold State.complete; (repeat' (first | (simp [*]; done) | split))
@[simp] theorem State.commit_spine (s : State) (id : Nat) : (State.commit s id).spine = s.spine := by
  simp [State.commit]
@[simp] theorem State.await_spine (s : State) (id : Nat) : (State.await s id).spine = s.spine := by
  simp [State.await]
@[simp] theorem State.begin_spine (s : State) (id : Nat) : (State.begin s id).spine = s.spine := by
  simp [State.begin]
@[simp] theorem State.waited_spine (s : State) (c : Nat) (cls : Nat) (ns : Nat) : (State.waited s c cls ns).spine = s.spine := by
  simp [State.waited]
@[simp] theorem State.useSpare_spine (s : State) (kind : Nat) : (State.useSpare s kind).spine = s.spine := by
  simp [State.useSpare]
@[simp] theorem State.unitGone_spine (s : State) (source : Nat) (kind : Nat) (spare : Nat) (subject : Nat) : (State.unitGone s source kind spare subject).spine = s.spine := by
  simp [State.unitGone]
@[simp] theorem State.exhaust_spine (s : State) (source : Nat) (kind : Nat) : (State.exhaust s source kind).spine = s.spine := by
  simp [State.exhaust]
@[simp] theorem State.setDomain_spine (s : State) (d : Nat) (f : Domain → Domain) : (State.setDomain s d f).spine = s.spine := by
  simp [State.setDomain]
@[simp] theorem State.placed_spine (s : State) (c : Nat) : (State.placed s c).spine = s.spine := by
  simp [State.placed]
@[simp] theorem State.dropWork_spine (s : State) (id : Nat) : (State.dropWork s id).spine = s.spine := by
  simp [State.dropWork]
@[simp] theorem State.updSession_spine (s : State) (sid : Nat) (f : Session → Session) : (State.updSession s sid f).spine = s.spine := by
  simp [State.updSession]
@[simp] theorem State.updKeys_spine (s : State) (sid : Nat) (f : KeySlot → KeySlot) : (State.updKeys s sid f).spine = s.spine := by
  simp [State.updKeys]
@[simp] theorem State.queueEvent_spine (s : State) (sid : Nat) (code : Nat) (data : Nat) : (State.queueEvent s sid code data).spine = s.spine := by
  unfold State.queueEvent; (repeat' (first | (simp [*]; done) | split))
@[simp] theorem State.occupy_spine (s : State) (p : Nat) (n : Nat) (at_ : Nat) : (State.occupy s p n at_).spine = s.spine := by
  simp [State.occupy]
@[simp] theorem State.sendUsp_spine (s : State) (sid : Nat) (kind : Nat) (body : List Byte) : (State.sendUsp s sid kind body).spine = s.spine := by
  unfold State.sendUsp; simp [*]; (repeat' (first | (simp [*]; done) | split))
@[simp] theorem State.sendError_spine (s : State) (sid : Nat) (code : Nat) (seq : Nat) : (State.sendError s sid code seq).spine = s.spine := by
  unfold State.sendError; (repeat' (first | (simp [*]; done) | split))
@[simp] theorem State.endUnstarted_spine (s : State) (sid : Nat) (r : Res) : (State.endUnstarted s sid r).spine = s.spine := by
  simp [State.endUnstarted]
@[simp] theorem State.quiesce_spine (s : State) (sid : Nat) : (State.quiesce s sid).spine = s.spine := by
  unfold State.quiesce; (repeat' (first | (simp [*]; done) | split))
@[simp] theorem State.freeSession_spine (s : State) (sid : Nat) : (State.freeSession s sid).spine = s.spine := by
  simp [State.freeSession]
@[simp] theorem State.putFlits_spine (s : State) (port : Nat) (l : List Flit) : (State.putFlits s port l).spine = s.spine := by
  simp [State.putFlits]
@[simp] theorem State.sendOn_spine (s : State) (port : Nat) (type : Nat) (cls : Nat) (dst : Nat) (xid : Nat) (body : List Byte) : (State.sendOn s port type cls dst xid body).spine = s.spine := by
  simp [State.sendOn]
@[simp] theorem State.flitRound_spine (s : State) : (State.flitRound s).spine = s.spine := by
  simp [State.flitRound]
@[simp] theorem State.taken_spine (s : State) (port : Nat) (cls : Nat) (n : Nat) : (State.taken s port cls n).spine = s.spine := by
  simp [State.taken]
@[simp] theorem State.sendFz_spine (s : State) (type : Nat) (cls : Nat) (dst : Nat) (xid : Nat) (body : List Byte) : (State.sendFz s type cls dst xid body).spine = s.spine := by
  unfold State.sendFz; (repeat' (first | (simp [*]; done) | split))
@[simp] theorem State.sendRequest_spine (s : State) (op : Nat) (peer : Nat) (cls : Nat) (desc : List Byte) (data : List Byte) : (State.sendRequest s op peer cls desc data).spine = s.spine := by
  simp [State.sendRequest]
@[simp] theorem State.sendResponse_spine (s : State) (peer : Nat) (cls : Nat) (xid : Nat) (r : Res) (data : List Byte) : (State.sendResponse s peer cls xid r data).spine = s.spine := by
  simp [State.sendResponse]
@[simp] theorem State.dropRequests_spine (s : State) (op : Nat) : (State.dropRequests s op).spine = s.spine := by
  simp [State.dropRequests]
@[simp] theorem State.setCur_spine (s : State) (v : MapView) : (State.setCur s v).spine = s.spine := by
  simp [State.setCur]
@[simp] theorem State.access_spine (s : State) (ix : Int) (iy : Int) (dev : Nat) : (State.access s ix iy dev).spine = s.spine := by
  unfold State.access; (repeat' (first | (simp [*]; done) | split))
@[simp] theorem State.setStream_spine (s : State) (x : Stream) : (State.setStream s x).spine = s.spine := by
  simp [State.setStream]
@[simp] theorem State.sendItem_spine (s : State) (peer : Nat) (seq : Nat) (ix : Int) (iy : Int) (epoch : Nat) : (State.sendItem s peer seq ix iy epoch).spine = s.spine := by
  simp [State.sendItem]
@[simp] theorem State.stream_spine (s : State) (ix : Int) (iy : Int) : (State.stream s ix iy).spine = s.spine := by
  simp [State.stream]
@[simp] theorem State.awaitAcks_spine (s : State) (w : AckWait) : (State.awaitAcks s w).spine = s.spine := by
  simp [State.awaitAcks]
@[simp] theorem State.finishAcked_spine (s : State) (old : State) (op : Nat) (r : Res) : (State.finishAcked s old op r).spine = s.spine := by
  simp [State.finishAcked]
@[simp] theorem State.record_spine (s : State) (t : Tile) : (State.record s t).spine = s.spine := by
  simp [State.record]
@[simp] theorem State.addKeyframe_spine (s : State) (k : Keyframe) (dev : Nat) : (State.addKeyframe s k dev).spine = s.spine := by
  simp [State.addKeyframe]
@[simp] theorem State.tell_spine (s : State) (peer : Nat) (cls : Nat) (desc : List Byte) (data : List Byte) : (State.tell s peer cls desc data).spine = s.spine := by
  simp [State.tell]
@[simp] theorem State.addPoint_spine (s : State) (p : NewPoint) : (State.addPoint s p).spine = s.spine := by
  simp [State.addPoint]
@[simp] theorem State.addObs_spine (s : State) (ix : Int) (iy : Int) (o : Observation) : (State.addObs s ix iy o).spine = s.spine := by
  simp [State.addObs]
@[simp] theorem State.observe_spine (s : State) (ix : Int) (iy : Int) (key : Nat) (f : Nat × Nat × List Byte) : (State.observe s ix iy key f).1.spine = s.spine := by
  unfold State.observe; simp [*]; (repeat' (first | (simp [*]; done) | split))
@[simp] theorem State.addObservations_spine (s : State) (ix : Int) (iy : Int) (key : Nat) (fs : List (Nat × Nat × List Byte)) (dev : Nat) : (State.addObservations s ix iy key fs dev).spine = s.spine := by
  simp [State.addObservations]
@[simp] theorem State.pointAsked_spine (s : State) (peer : Nat) (key : Nat) (b : List Byte) : (State.pointAsked s peer key b).spine = s.spine := by
  simp [State.pointAsked]
@[simp] theorem State.pointGiven_spine (s : State) (ix : Int) (iy : Int) (key : Nat) (b : List Byte) : (State.pointGiven s ix iy key b).spine = s.spine := by
  unfold State.pointGiven; (repeat' (first | (simp [*]; done) | split))
@[simp] theorem State.syncPool_spine (s : State) : (State.syncPool s).spine = s.spine := by
  simp [State.syncPool]
@[simp] theorem State.inletFull_spine (s : State) : (State.inletFull s).spine = s.spine := by
  simp [State.inletFull]
@[simp] theorem State.insertEntry_spine (s : State) (h : Nat) (e : Entry) : (State.insertEntry s h e).1.spine = s.spine := by
  unfold State.insertEntry; (repeat' (first | (simp [*]; done) | split))
@[simp] theorem State.deleteEntry_spine (s : State) (h : Nat) (key : Nat) (ix : Int) (iy : Int) : (State.deleteEntry s h key ix iy).1.spine = s.spine := by
  unfold State.deleteEntry; (repeat' (first | (simp [*]; done) | split))
@[simp] theorem State.insertPlace_spine (s : State) (k : Keyframe) : (State.insertPlace s k).spine = s.spine := by
  unfold State.insertPlace; (repeat' (first | (simp [*]; done) | split))
@[simp] theorem State.setNext_spine (s : State) (op : Nat) (sid : Nat) (f : SessCfg → SessCfg) : (State.setNext s op sid f).spine = s.spine := by
  simp [State.setNext]
@[simp] theorem State.countReads_spine (s : State) (r : Int × Int × Int × Int) (dev : Nat) : (State.countReads s r dev).spine = s.spine := by
  simp [State.countReads]
@[simp] theorem State.serveRead_spine (s : State) (peer : Nat) (xid : Nat) (o : Op) (data : List Byte) : (State.serveRead s peer xid o data).spine = s.spine := by
  unfold State.serveRead; simp [*]; (repeat' (first | (simp [*]; done) | split))
@[simp] theorem State.applyRestore_spine (s : State) (o : Op) (data : List Byte) : (State.applyRestore s o data).1.spine = s.spine := by
  unfold State.applyRestore; simp [*]; (repeat' (first | (simp [*]; done) | split))
@[simp] theorem State.purge_spine (s : State) (key : Nat) (removed : List Observation) : (State.purge s key removed).1.spine = s.spine := by
  unfold State.purge; apply foldl_spine1 (s := (s, 0)); intro s a; dsimp only; split <;> simp
@[simp] theorem State.applyDelete_spine (s : State) (o : Op) (data : List Byte) : (State.applyDelete s o data).1.spine = s.spine := by
  unfold State.applyDelete; simp [*]; (repeat' (first | (simp [*]; done) | split))
@[simp] theorem State.applyPose_spine (s : State) (o : Op) (data : List Byte) : (State.applyPose s o data).1.spine = s.spine := by
  unfold State.applyPose; simp [*]; (repeat' (first | (simp [*]; done) | split))
@[simp] theorem State.applyLinkAdd_spine (s : State) (o : Op) (data : List Byte) : (State.applyLinkAdd s o data).1.spine = s.spine := by
  unfold State.applyLinkAdd; simp [*]; (repeat' (first | (simp [*]; done) | split))
@[simp] theorem State.applyLinkDelete_spine (s : State) (o : Op) : (State.applyLinkDelete s o).1.spine = s.spine := by
  unfold State.applyLinkDelete; simp [*]; (repeat' (first | (simp [*]; done) | split))
@[simp] theorem State.applyQuarantine_spine (s : State) (o : Op) (data : List Byte) (on : Bool) : (State.applyQuarantine s o data on).1.spine = s.spine := by
  simp [State.applyQuarantine]
@[simp] theorem State.applyCreate_spine (s : State) (o : Op) (data : List Byte) : (State.applyCreate s o data).1.spine = s.spine := by
  unfold State.applyCreate; (repeat' (first | (simp [*]; done) | split))
@[simp] theorem State.applyDrop_spine (s : State) (o : Op) : (State.applyDrop s o).1.spine = s.spine := by
  simp [State.applyDrop]
@[simp] theorem State.applyAffinity_spine (s : State) (o : Op) : (State.applyAffinity s o).1.spine = s.spine := by
  simp [State.applyAffinity]
@[simp] theorem State.applyEdit_spine (s : State) (o : Op) (data : List Byte) : (State.applyEdit s o data).1.spine = s.spine := by
  unfold State.applyEdit; (repeat' (first | (simp [*]; done) | split))
@[simp] theorem State.recordMoves_spine (s : State) (base : MapView) (moves : List PoseMove) (links : List Link) : (State.recordMoves s base moves links).spine = s.spine := by
  unfold State.recordMoves; (repeat' (first | (simp [*]; done) | refine (foldl_spine _ _ _ (fun s a => ?_)).trans ?_ | split))
@[simp] theorem State.correct_spine (s : State) (moves : List PoseMove) (epoch : Nat) : (State.correct s moves epoch).spine = s.spine := by
  simp [State.correct]
@[simp] theorem State.carryOut_spine (s : State) (base : MapView) (o : Op) (data : List Byte) : (State.carryOut s base o data).1.spine = s.spine := by
  unfold State.carryOut; (repeat' (first | (simp [*]; done) | split))
@[simp] theorem State.hold_spine (s : State) (h : HeldCommit) : (State.hold s h).spine = s.spine := by
  simp [State.hold]
@[simp] theorem State.unhold_spine (s : State) (peer : Nat) (id : Nat) : (State.unhold s peer id).spine = s.spine := by
  simp [State.unhold]
@[simp] theorem State.inSealed_spine (s : State) (f : State → State) (h : ∀ s, (f s).spine = s.spine) : (State.inSealed s f).spine = s.spine := by
  unfold State.inSealed; (repeat' (first | (simp [*]; done) | split))
@[simp] theorem State.applyChange_spine (s : State) (epoch : Nat) (o : Op) (data : List Byte) : (State.applyChange s epoch o data).spine = s.spine := by
  simp [State.applyChange]
@[simp] theorem State.settleChange_spine (s : State) (peer : Nat) (id : Nat) (epoch : Nat) (desc : List Byte) (data : List Byte) : (State.settleChange s peer id epoch desc data).spine = s.spine := by
  simp [State.settleChange]
@[simp] theorem State.dueChanges_spine (s : State) : (State.dueChanges s).spine = s.spine := by
  simp [State.dueChanges]
@[simp] theorem State.takeChange_spine (s : State) (peer : Nat) (id : Nat) (o : Op) (data : List Byte) : (State.takeChange s peer id o data).1.spine = s.spine := by
  unfold State.takeChange; simp [*]; (repeat' (first | (simp [*]; done) | split))
@[simp] theorem State.serveChange_spine (s : State) (peer : Nat) (o : Op) (data : List Byte) : (State.serveChange s peer o data).1.spine = s.spine := by
  unfold State.serveChange; (repeat' (first | (simp [*]; done) | split))
@[simp] theorem State.proposeChange_spine (s : State) (id : Nat) (cls : Nat) (desc : List Byte) (data : List Byte) : (State.proposeChange s id cls desc data).spine = s.spine := by
  simp [State.proposeChange]
@[simp] theorem State.withdrawChange_spine (s : State) (id : Nat) : (State.withdrawChange s id).spine = s.spine := by
  unfold State.withdrawChange; (repeat' (first | (simp [*]; done) | split))
@[simp] theorem State.decideChange_spine (s : State) (id : Nat) (cls : Nat) (desc : List Byte) (data : List Byte) (answers : List RemoteSt) : (State.decideChange s id cls desc data answers).1.spine = s.spine := by
  simp [State.decideChange]
@[simp] theorem State.editTile_spine (s : State) (o : Op) (data : List Byte) : (State.editTile s o data).spine = s.spine := by
  simp [State.editTile]
@[simp] theorem State.editAll_spine (s : State) (o : Op) (data : List Byte) : (State.editAll s o data).spine = s.spine := by
  simp [State.editAll]
@[simp] theorem State.editAnswered_spine (s : State) (o : Op) : (State.editAnswered s o).spine = s.spine := by
  unfold State.editAnswered; simp [*]; (repeat' (first | (simp [*]; done) | split))
@[simp] theorem State.sendPkt_spine (s : State) (p : MeshPkt) : (State.sendPkt s p).spine = s.spine := by
  simp [State.sendPkt]
@[simp] theorem State.meshRound_spine (s : State) : (State.meshRound s).spine = s.spine := by
  simp [State.meshRound]
@[simp] theorem State.dispatch_spine (s : State) (o : Op) (c : Nat) : (State.dispatch s o c).spine = s.spine := by
  simp [State.dispatch]
@[simp] theorem State.pondWork_spine (s : State) (c : Nat) (masters : List Nat) : (State.pondWork s c masters).spine = s.spine := by
  simp [State.pondWork]
@[simp] theorem State.searchOwn_spine (s : State) (v : MapView) (x : Index) (q : List Word) (par : SearchPar) (f : Filters) (table : List (List Nat)) : (State.searchOwn s v x q par f table).1.spine = s.spine := by
  simp [State.searchOwn]
@[simp] theorem State.countSearch_spine (s : State) (f : Filters) (dev : Nat) : (State.countSearch s f dev).spine = s.spine := by
  simp [State.countSearch]
@[simp] theorem State.probe_spine (s : State) (v : MapView) (x : Index) (par : SearchPar) (f : Filters) (q : List Word) : (State.probe s v x par f q).1.spine = s.spine := by
  simp [State.probe]
@[simp] theorem State.probes_spine (v : MapView) (x : Index) (par : SearchPar) (f : Filters) (l : List (List Word)) (s : State) : (State.probes v x par f l s).1.spine = s.spine := by
  induction l generalizing s with
  | nil => rfl
  | cons q r ih => simp [State.probes, ih]
@[simp] theorem State.serveQuery_spine (s : State) (m : QueryMsg) : (State.serveQuery s m).spine = s.spine := by
  unfold State.serveQuery; (repeat' (first | (simp [*]; done) | split))
@[simp] theorem State.vecRecord_spine (s : State) (insert : Bool) (h : Nat) (x : Index) (r : List Byte) : (State.vecRecord s insert h x r).1.spine = s.spine := by
  unfold State.vecRecord; simp [*]; (repeat' (first | (simp [*]; done) | split))
@[simp] theorem State.vecApply_spine (s : State) (insert : Bool) (h : Nat) (x : Index) (recs : List (List Byte)) (dev : Nat) : (State.vecApply s insert h x recs dev).1.spine = s.spine := by
  unfold State.vecApply; apply foldl_spine1 (s := (s, [])); intro s a; dsimp only; split <;> simp
@[simp] theorem State.settlePublished_spine (s : State) (epoch : Nat) : (State.settlePublished s epoch).spine = s.spine := by
  simp [State.settlePublished]
@[simp] theorem State.contribute_spine (s : State) (x : Session) (capture : Nat) (frameNo : Nat) (pose : Pose) (r : VisionResult) : (State.contribute s x capture frameNo pose r).spine = s.spine := by
  simp [State.contribute]
@[simp] theorem State.frameDone_spine (s : State) (sid : Nat) (f : Frame) (r : VisionResult) : (State.frameDone s sid f r).spine = s.spine := by
  unfold State.frameDone; (repeat' (first | (simp [*]; done) | split))
@[simp] theorem State.startSolve_spine (s : State) (o : Op) (x : Sched) (c : Nat) : (State.startSolve s o x c).spine = s.spine := by
  simp [State.startSolve]
@[simp] theorem State.putSolve_spine (s : State) (st : SolveSt) : (State.putSolve s st).spine = s.spine := by
  simp [State.putSolve]
@[simp] theorem State.endSolve_spine (s : State) (op : Nat) : (State.endSolve s op).spine = s.spine := by
  simp [State.endSolve]
@[simp] theorem State.serveGather_spine (s : State) (peer : Nat) (xid : Nat) (o : Op) (data : List Byte) : (State.serveGather s peer xid o data).spine = s.spine := by
  unfold State.serveGather; simp [*]; (repeat' (first | (simp [*]; done) | split))
@[simp] theorem State.serveLater_spine (s : State) : (State.serveLater s).spine = s.spine := by
  simp [State.serveLater]
@[simp] theorem State.ownAnswered_spine (s : State) (id : Nat) : (State.ownAnswered s id).spine = s.spine := by
  unfold State.ownAnswered; (repeat' (first | (simp [*]; done) | split))
@[simp] theorem State.updProg_spine (s : State) (h : Nat) (f : Prog → Prog) : (State.updProg s h f).spine = s.spine := by
  simp [State.updProg]
@[simp] theorem State.updInfer_spine (s : State) (op : Nat) (f : InferSt → InferSt) : (State.updInfer s op f).spine = s.spine := by
  simp [State.updInfer]
@[simp] theorem State.endInfer_spine (s : State) (op : Nat) : (State.endInfer s op).spine = s.spine := by
  simp [State.endInfer]
@[simp] theorem State.setExtent_spine (s : State) (key : Nat) (e : Extent) : (State.setExtent s key e).spine = s.spine := by
  simp [State.setExtent]
@[simp] theorem State.writeReachBase_spine (s : State) (fn : Nat) (key : Nat) (val : Word) : (State.writeReachBase s fn key val).spine = s.spine := by
  simp [State.writeReachBase]
@[simp] theorem State.updParcel_spine (s : State) (n : Nat) (f : Parcel → Parcel) : (State.updParcel s n f).spine = s.spine := by
  simp [State.updParcel]
@[simp] theorem State.evict_spine (s : State) (l : List Parcel) : (State.evict s l).spine = s.spine := by
  induction l generalizing s with
  | nil => rfl
  | cons q r ih => unfold State.evict; split <;> simp [ih]
@[simp] theorem State.hintCheck_spine (s : State) : (State.hintCheck s).spine = s.spine := by
  simp [State.hintCheck]
@[simp] theorem State.retireFrame_spine (s : State) (lake : Bool) (frame : Nat) : (State.retireFrame s lake frame).spine = s.spine := by
  simp [State.retireFrame]
@[simp] theorem State.updTile_spine (s : State) (ix : Int) (iy : Int) (f : Tile → Tile) : (State.updTile s ix iy f).spine = s.spine := by
  simp [State.updTile]
@[simp] theorem State.dropHandover_spine (s : State) (t : Tile) : (State.dropHandover s t).spine = s.spine := by
  simp [State.dropHandover]
@[simp] theorem State.abortHandover_spine (s : State) (t : Tile) (reason : Nat) : (State.abortHandover s t reason).spine = s.spine := by
  unfold State.abortHandover; (repeat' (first | (simp [*]; done) | split))
@[simp] theorem State.propose_spine (s : State) (t : Tile) (p : Nat) : (State.propose s t p).spine = s.spine := by
  simp [State.propose]
@[simp] theorem State.endEpochWaits_spine (s : State) : (State.endEpochWaits s).spine = s.spine := by
  simp [State.endEpochWaits]
@[simp] theorem State.evaluate_spine (s : State) : (State.evaluate s).spine = s.spine := by
  simp [State.evaluate]
@[simp] theorem State.affinityAborts_spine (s : State) : (State.affinityAborts s).spine = s.spine := by
  simp [State.affinityAborts]
@[simp] theorem State.startCopies_spine (s : State) (recs : List PublishRec) : (State.startCopies s recs).spine = s.spine := by
  simp [State.startCopies]
@[simp] theorem State.logLost_spine (s : State) (recs : List PublishRec) : (State.logLost s recs).spine = s.spine := by
  simp [State.logLost]
@[simp] theorem State.setInStream_spine (s : State) (x : Stream) : (State.setInStream s x).spine = s.spine := by
  simp [State.setInStream]
@[simp] theorem State.sendAck_spine (s : State) (x : Stream) : (State.sendAck s x).spine = s.spine := by
  simp [State.sendAck]
@[simp] theorem State.takeItem_spine (s : State) (ix : Int) (iy : Int) (b : List Byte) : (State.takeItem s ix iy b).spine = s.spine := by
  unfold State.takeItem; (repeat' (first | (simp [*]; done) | split))
@[simp] theorem State.sendSynced_spine (s : State) (t : Tile) : (State.sendSynced s t).spine = s.spine := by
  unfold State.sendSynced; (repeat' (first | (simp [*]; done) | split))
@[simp] theorem State.sendSnapshot_spine (s : State) (t : Tile) (peer : Nat) : (State.sendSnapshot s t peer).spine = s.spine := by
  simp [State.sendSnapshot]
@[simp] theorem State.stepBy_spine (s : State) (d : Int) : (State.stepBy s d).spine = s.spine := by
  simp [State.stepBy]
@[simp] theorem State.stepTo_spine (s : State) (ns : Nat) : (State.stepTo s ns).spine = s.spine := by
  simp [State.stepTo]
@[simp] theorem State.timeIs_spine (s : State) (t : TimeState) : (State.timeIs s t).spine = s.spine := by
  simp [State.timeIs]
@[simp] theorem State.measured_spine (s : State) (off : Int) : (State.measured s off).spine = s.spine := by
  simp [State.measured]
@[simp] theorem State.lostSource_spine (s : State) : (State.lostSource s).spine = s.spine := by
  simp [State.lostSource]
@[simp] theorem State.timeSet_spine (s : State) (fn : Nat) : (State.timeSet s fn).spine = s.spine := by
  simp [State.timeSet]
@[simp] theorem State.timeRate_spine (s : State) (fn : Nat) (v : Nat) : (State.timeRate s fn v).spine = s.spine := by
  simp [State.timeRate]
@[simp] theorem State.latchSeconds_spine (s : State) : (State.latchSeconds s).spine = s.spine := by
  simp [State.latchSeconds]
@[simp] theorem State.takeTrigger_spine (s : State) (t : Nat) : (State.takeTrigger s t).spine = s.spine := by
  simp [State.takeTrigger]
@[simp] theorem State.sendPtp_spine (s : State) (m : PtpMsg) : (State.sendPtp s m).spine = s.spine := by
  simp [State.sendPtp]
@[simp] theorem State.becomeMaster_spine (s : State) : (State.becomeMaster s).spine = s.spine := by
  simp [State.becomeMaster]
@[simp] theorem State.ptpAnnounce_spine (s : State) (set_ : List Nat) (id : Nat) : (State.ptpAnnounce s set_ id).spine = s.spine := by
  simp [State.ptpAnnounce]
@[simp] theorem State.ptpSynced_spine (s : State) (origin : Nat) (rx : Nat) : (State.ptpSynced s origin rx).spine = s.spine := by
  unfold State.ptpSynced; simp [*]; (repeat' (first | (simp [*]; done) | split))
@[simp] theorem State.ptpDelayIs_spine (s : State) (d : Int) : (State.ptpDelayIs s d).spine = s.spine := by
  simp [State.ptpDelayIs]
@[simp] theorem State.ptpReceive_spine (s : State) (m : PtpMsg) (rx : Nat) : (State.ptpReceive s m rx).spine = s.spine := by
  unfold State.ptpReceive; (repeat' (first | (simp [*]; done) | split))
@[simp] theorem State.updPort_spine (s : State) (p : Nat) (f : FzPort → FzPort) : (State.updPort s p f).spine = s.spine := by
  simp [State.updPort]
@[simp] theorem State.portDown_spine (s : State) (p : Nat) : (State.portDown s p).spine = s.spine := by
  simp [State.portDown]
@[simp] theorem State.replayFrom_spine (s : State) (port : Nat) (flit : Nat) : (State.replayFrom s port flit).spine = s.spine := by
  simp [State.replayFrom]
@[simp] theorem State.laneSwap_spine (s : State) (port : Nat) : (State.laneSwap s port).spine = s.spine := by
  simp [State.laneSwap]
@[simp] theorem State.sendJoin_spine (s : State) (port : Nat) (leader : Nat) : (State.sendJoin s port leader).spine = s.spine := by
  simp [State.sendJoin]
@[simp] theorem State.forwardReq_spine (s : State) (dst : Nat) (src : Nat) (cls : Nat) (xid : Nat) (desc : List Byte) (data : List Byte) : (State.forwardReq s dst src cls xid desc data).spine = s.spine := by
  unfold State.forwardReq; simp [*]; (repeat' (first | (simp [*]; done) | split))
@[simp] theorem State.answerEdit_spine (s : State) (old : State) (peer : Nat) (cls : Nat) (xid : Nat) (r : Res) (data : List Byte) : (State.answerEdit s old peer cls xid r data).spine = s.spine := by
  simp [State.answerEdit]
@[simp] theorem State.serveEdit_spine (s : State) (peer : Nat) (xid : Nat) (o : Op) (data : List Byte) : (State.serveEdit s peer xid o data).spine = s.spine := by
  unfold State.serveEdit; simp [*]; (repeat' (first | (simp [*]; done) | split))
@[simp] theorem State.serveVec_spine (s : State) (peer : Nat) (xid : Nat) (o : Op) (data : List Byte) : (State.serveVec s peer xid o data).spine = s.spine := by
  unfold State.serveVec; simp [*]; (repeat' (first | (simp [*]; done) | split))
@[simp] theorem State.serve_spine (s : State) (peer : Nat) (xid : Nat) (desc : List Byte) (data : List Byte) : (State.serve s peer xid desc data).spine = s.spine := by
  unfold State.serve; simp [*]; (repeat' (first | (simp [*]; done) | split))
@[simp] theorem State.tellTables_spine (s : State) (peer : Nat) : (State.tellTables s peer).spine = s.spine := by
  simp [State.tellTables]
@[simp] theorem State.resendStreams_spine (s : State) : (State.resendStreams s).spine = s.spine := by
  simp [State.resendStreams]
@[simp] theorem State.isolate_spine (s : State) : (State.isolate s).spine = s.spine := by
  simp [State.isolate]
@[simp] theorem State.sendLeave_spine (s : State) (reason : Nat) : (State.sendLeave s reason).spine = s.spine := by
  simp [State.sendLeave]
@[simp] theorem State.chooseParent_spine (s : State) : (State.chooseParent s).spine = s.spine := by
  unfold State.chooseParent; (repeat' (first | (simp [*]; done) | split))
@[simp] theorem State.sendOpenAck_spine (s : State) (sid : Nat) (x : Session) : (State.sendOpenAck s sid x).spine = s.spine := by
  simp [State.sendOpenAck]
@[simp] theorem State.queueFrame_spine (s : State) (port : Nat) (f : TxFrame) : (State.queueFrame s port f).spine = s.spine := by
  simp [State.queueFrame]
@[simp] theorem State.dequeue_spine (s : State) (port : Nat) (seq : Nat) : (State.dequeue s port seq).spine = s.spine := by
  simp [State.dequeue]
@[simp] theorem State.sendFrame_spine (s : State) (port : Nat) (f : TxFrame) (at_ : Nat) : (State.sendFrame s port f at_).spine = s.spine := by
  unfold State.sendFrame; simp [*]; (repeat' (first | (simp [*]; done) | split))
@[simp] theorem State.drainPort_spine (s : State) (p : Nat) : (State.drainPort s p).spine = s.spine := by
  simp [State.drainPort]
@[simp] theorem State.drainFabric_spine (s : State) : (State.drainFabric s).spine = s.spine := by
  simp [State.drainFabric]
@[simp] theorem State.holdOps_spine (s : State) (idx : Nat) : (State.holdOps s idx).spine = s.spine := by
  simp [State.holdOps]
@[simp] theorem State.replayOp_spine (s : State) (id : Nat) : (State.replayOp s id).spine = s.spine := by
  unfold State.replayOp; simp [*]; (repeat' (first | (simp [*]; done) | split))
@[simp] theorem State.replayCluster_spine (s : State) (c : Nat) (move : Bool) : (State.replayCluster s c move).spine = s.spine := by
  simp [State.replayCluster]
@[simp] theorem State.updCluster_spine (s : State) (i : Nat) (f : Cluster → Cluster) : (State.updCluster s i f).spine = s.spine := by
  simp [State.updCluster]
@[simp] theorem State.pondGone_spine (s : State) (c : Nat) : (State.pondGone s c).spine = s.spine := by
  simp [State.pondGone]
@[simp] theorem State.retireCluster_spine (s : State) (c : Nat) (source : Nat) (subject : Nat) : (State.retireCluster s c source subject).spine = s.spine := by
  unfold State.retireCluster; simp [*]; (repeat' (first | (simp [*]; done) | split))
@[simp] theorem State.retireCore_spine (s : State) (id : Nat) : (State.retireCore s id).spine = s.spine := by
  unfold State.retireCore; simp [*]; (repeat' (first | (simp [*]; done) | split))
@[simp] theorem State.replayCore_spine (s : State) (id : Nat) : (State.replayCore s id).spine = s.spine := by
  simp [State.replayCore]
@[simp] theorem State.attempt_spine (s : State) (o : Op) (most : Nat) : (State.attempt s o most).spine = s.spine := by
  simp [State.attempt]
@[simp] theorem State.drainCore_spine (s : State) (id : Nat) : (State.drainCore s id).spine = s.spine := by
  unfold State.drainCore; (repeat' (first | (simp [*]; done) | split))
@[simp] theorem State.wearDrain_spine (s : State) (id : Nat) : (State.wearDrain s id).spine = s.spine := by
  simp [State.wearDrain]
@[simp] theorem State.undrain_spine (s : State) (op : Nat) : (State.undrain s op).spine = s.spine := by
  simp [State.undrain]
@[simp] theorem State.setBank_spine (s : State) (c : Nat) (bank : Nat) (n : Nat × Nat) : (State.setBank s c bank n).spine = s.spine := by
  simp [State.setBank]
@[simp] theorem State.wornRow_spine (s : State) (c : Nat) (bank : Nat) : (State.wornRow s c bank).spine = s.spine := by
  simp [State.wornRow]
@[simp] theorem State.reservoirTested_spine (s : State) (r : Cluster) (pass : Bool) : (State.reservoirTested s r pass).spine = s.spine := by
  simp [State.reservoirTested]
@[simp] theorem State.genPorts_spine (s : State) (g : Nat) : (State.genPorts s g).spine = s.spine := by
  simp [State.genPorts]
@[simp] theorem State.askSwitch_spine (s : State) (o : Op) (ready : Bool) : (State.askSwitch s o ready).spine = s.spine := by
  simp [State.askSwitch]
@[simp] theorem State.writeMem_spine (s : State) (p : Nat) (b : List Byte) : (State.writeMem s p b).spine = s.spine := by
  simp [State.writeMem]
@[simp] theorem State.serveWait_spine (s : State) (o : Op) : (State.serveWait s o).spine = s.spine := by
  simp [State.serveWait]
@[simp] theorem State.deliverEvents_spine (s : State) : (State.deliverEvents s).spine = s.spine := by
  simp [State.deliverEvents]
@[simp] theorem State.event_spine (s : State) (sid : Nat) (code : Nat) (data : Nat) : (State.event s sid code data).spine = s.spine := by
  simp [State.event]
@[simp] theorem State.restartFilter_spine (s : State) (sid : Nat) (cause : Nat) : (State.restartFilter s sid cause).spine = s.spine := by
  unfold State.restartFilter; (repeat' (first | (simp [*]; done) | split))
@[simp] theorem State.shockTip_spine (s : State) (sid : Nat) (base : BaseCfg) (o : FilterOut) : (State.shockTip s sid base o).spine = s.spine := by
  unfold State.shockTip; (repeat' (first | (simp [*]; done) | split))
@[simp] theorem State.filterStep_spine (s : State) (sid : Nat) (time : Nat) (v : List Word) : (State.filterStep s sid time v).spine = s.spine := by
  unfold State.filterStep; (repeat' (first | (simp [*]; done) | split))
@[simp] theorem State.filterSample_spine (s : State) (sid : Nat) (time : Nat) (v : List Word) : (State.filterSample s sid time v).spine = s.spine := by
  simp [State.filterSample]
@[simp] theorem filterBatch_spine (sid first period : Nat) (l : List (List Word)) (j : Nat) (s : State) : (filterBatch sid first period l j s).spine = s.spine := by
  induction l generalizing j s with
  | nil => rfl
  | cons v t ih => exact (ih _ _).trans (State.filterSample_spine _ _ _ _)
@[simp] theorem State.motionBatch_spine (s : State) (sid : Nat) (first : Nat) (samples : List (List Word)) : (State.motionBatch s sid first samples).spine = s.spine := by
  unfold State.motionBatch; (repeat' (first | (simp [*]; done) | split))
@[simp] theorem State.unlockTime_spine (s : State) (sid : Nat) (cause : Nat) (offset : Nat) : (State.unlockTime s sid cause offset).spine = s.spine := by
  simp [State.unlockTime]
@[simp] theorem State.relockTime_spine (s : State) (sid : Nat) (x : Session) (run : List Int) : (State.relockTime s sid x run).spine = s.spine := by
  simp [State.relockTime]
@[simp] theorem State.relockStep_spine (s : State) (sid : Nat) (v : Int) : (State.relockStep s sid v).spine = s.spine := by
  unfold State.relockStep; (repeat' (first | (simp [*]; done) | split))
@[simp] theorem State.arrivalLate_spine (s : State) (sid : Nat) (capture : Nat) (arrival : Nat) : (State.arrivalLate s sid capture arrival).spine = s.spine := by
  unfold State.arrivalLate; (repeat' (first | (simp [*]; done) | split))
@[simp] theorem State.arrivalAccepted_spine (s : State) (sid : Nat) (capture : Nat) (arrival : Nat) : (State.arrivalAccepted s sid capture arrival).spine = s.spine := by
  unfold State.arrivalAccepted; (repeat' (first | (simp [*]; done) | split))
@[simp] theorem State.rate_spine (s : State) (x : Session) (p : UspPacket) : (State.rate s x p).spine = s.spine := by
  simp [State.rate]
@[simp] theorem State.takeResidual_spine (s : State) (sid : Nat) (q : Resid) : (State.takeResidual s sid q).spine = s.spine := by
  unfold State.takeResidual; (repeat' (first | (simp [*]; done) | split))
@[simp] theorem State.settleResiduals_spine (s : State) (sid : Nat) : (State.settleResiduals s sid).spine = s.spine := by
  unfold State.settleResiduals; (repeat' (first | (simp [*]; done) | split))
@[simp] theorem State.motionIn_spine (s : State) (sid : Nat) (first : Nat) (samples : List (List Word)) : (State.motionIn s sid first samples).spine = s.spine := by
  simp [State.motionIn]
@[simp] theorem State.acceptFrame_spine (s : State) (sid : Nat) (f : Frame) : (State.acceptFrame s sid f).spine = s.spine := by
  unfold State.acceptFrame; (repeat' (first | (simp [*]; done) | split))
@[simp] theorem State.enterClosed_spine (s : State) (sid : Nat) (reason : Nat) : (State.enterClosed s sid reason).spine = s.spine := by
  simp [State.enterClosed]
@[simp] theorem State.closeSession_spine (s : State) (sid : Nat) (reason : Nat) : (State.closeSession s sid reason).spine = s.spine := by
  simp [State.closeSession]
@[simp] theorem State.mapReadDone_spine (s : State) (o : Op) (v : MapView) : (State.mapReadDone s o v).spine = s.spine := by
  unfold State.mapReadDone; simp [*]; (repeat' (first | (simp [*]; done) | split))
@[simp] theorem State.mapRead_spine (s : State) (o : Op) : (State.mapRead s o).spine = s.spine := by
  unfold State.mapRead; (repeat' (first | (simp [*]; done) | split))
@[simp] theorem State.mergeSearch_spine (s : State) (st : SearchSt) : (State.mergeSearch s st).spine = s.spine := by
  unfold State.mergeSearch; (repeat' (first | (simp [*]; done) | split))
@[simp] theorem State.searchCheck_spine (s : State) (op : Nat) : (State.searchCheck s op).spine = s.spine := by
  unfold State.searchCheck; (repeat' (first | (simp [*]; done) | split))
@[simp] theorem State.peerGone_spine (s : State) (id : Nat) : (State.peerGone s id).spine = s.spine := by
  simp [State.peerGone]
@[simp] theorem State.vecDone_spine (s : State) (o : Op) : (State.vecDone s o).spine = s.spine := by
  simp [State.vecDone]
@[simp] theorem State.vecOp_spine (s : State) (o : Op) (insert : Bool) : (State.vecOp s o insert).spine = s.spine := by
  unfold State.vecOp; (repeat' (first | (simp [*]; done) | split))
@[simp] theorem State.answerQuery_spine (s : State) (o : Op) (r : VisionResult) : (State.answerQuery s o r).spine = s.spine := by
  simp [State.answerQuery]
@[simp] theorem State.copyResult_spine (s : State) (o : Op) (x : Session) (r : VisionResult) : (State.copyResult s o x r).spine = s.spine := by
  simp [State.copyResult]
@[simp] theorem State.trackQuery_spine (s : State) (o : Op) : (State.trackQuery s o).spine = s.spine := by
  unfold State.trackQuery; simp [*]; (repeat' (first | (simp [*]; done) | split))
@[simp] theorem State.endBootstrap_spine (s : State) (sid : Nat) : (State.endBootstrap s sid).spine = s.spine := by
  unfold State.endBootstrap; (repeat' (first | (simp [*]; done) | split))
@[simp] theorem State.completeFrame_spine (s : State) (f : Frame) (r : PoseRec) : (State.completeFrame s f r).spine = s.spine := by
  unfold State.completeFrame; (repeat' (first | (simp [*]; done) | split))
@[simp] theorem State.stationFrame_spine (s : State) (x : Session) (f : Frame) (r : VisionResult) : (State.stationFrame s x f r).spine = s.spine := by
  simp [State.stationFrame]
@[simp] theorem State.seeFrame_spine (s : State) (x : Session) (f : Frame) : (State.seeFrame s x f).spine = s.spine := by
  unfold State.seeFrame; (repeat' (first | (simp [*]; done) | split))
@[simp] theorem State.relocalise_spine (s : State) (sid : Nat) (f : Frame) (r : VisionResult) : (State.relocalise s sid f r).spine = s.spine := by
  unfold State.relocalise; simp [*]; (repeat' (first | (simp [*]; done) | split))
@[simp] theorem State.stepEvent_spine (s : State) (sid : Nat) (old : Fusion) (new : Fusion) (fixed : Bool) (hold : Bool) : (State.stepEvent s sid old new fixed hold).spine = s.spine := by
  simp [State.stepEvent]
@[simp] theorem State.fuseFrame_spine (s : State) (x0 : Session) (f : Frame) (r : VisionResult) : (State.fuseFrame s x0 f r).spine = s.spine := by
  simp [State.fuseFrame]
@[simp] theorem State.endFrame_spine (s : State) (sid : Nat) (frameNo : Nat) : (State.endFrame s sid frameNo).spine = s.spine := by
  unfold State.endFrame; simp [*]; (repeat' (first | (simp [*]; done) | split))
@[simp] theorem State.solveDone_spine (s : State) (o : Op) (st : SolveSt) (refused : Bool) (epoch : Nat) : (State.solveDone s o st refused epoch).spine = s.spine := by
  simp [State.solveDone]
@[simp] theorem State.runSolve_spine (s : State) (o : Op) (st : SolveSt) (pb : Problem) (epoch : Nat) : (State.runSolve s o st pb epoch).spine = s.spine := by
  simp [State.runSolve]
@[simp] theorem State.stepSolve_spine (s : State) (o : Op) (st : SolveSt) : (State.stepSolve s o st).spine = s.spine := by
  unfold State.stepSolve; simp [*]; (repeat' (first | (simp [*]; done) | split))
@[simp] theorem State.solveAnswered_spine (s : State) (o : Op) : (State.solveAnswered s o).spine = s.spine := by
  unfold State.solveAnswered; simp [*]; (repeat' (first | (simp [*]; done) | split))
@[simp] theorem State.storeWork_spine (s : State) (o : Op) (img : List Byte) (bufs : List (List Byte)) : (State.storeWork s o img bufs).spine = s.spine := by
  simp [State.storeWork]
@[simp] theorem State.inferDone_spine (s : State) (o : Op) (img : List Byte) (i : InferSt) (bufs : List (List Byte)) : (State.inferDone s o img i bufs).spine = s.spine := by
  simp [State.inferDone]
@[simp] theorem State.freeParcels_spine (s : State) : (State.freeParcels s).spine = s.spine := by
  simp [State.freeParcels]
@[simp] theorem State.writeReachSize_spine (s : State) (fn : Nat) (key : Nat) (val : Word) : (State.writeReachSize s fn key val).spine = s.spine := by
  simp [State.writeReachSize]
@[simp] theorem State.moveChunk_spine (s : State) (o : Op) (data : List Byte) : (State.moveChunk s o data).spine = s.spine := by
  simp [State.moveChunk]
@[simp] theorem State.ackDone_spine (s : State) (w : AckWait) : (State.ackDone s w).spine = s.spine := by
  unfold State.ackDone; (repeat' (first | (simp [*]; done) | split))
@[simp] theorem State.acksDone_spine (s : State) : (State.acksDone s).spine = s.spine := by
  simp [State.acksDone]
@[simp] theorem State.report_spine (s : State) (o : Op) (size : Nat) (recs : List (List Byte)) : (State.report s o size recs).spine = s.spine := by
  simp [State.report]
@[simp] theorem State.answered_spine (s : State) (id : Nat) : (State.answered s id).spine = s.spine := by
  unfold State.answered; (repeat' (first | (simp [*]; done) | split))
@[simp] theorem State.membersLost_spine (s : State) (gone : List Nat) : (State.membersLost s gone).spine = s.spine := by
  simp [State.membersLost]
@[simp] theorem State.authFail_spine (s : State) (sid : Nat) : (State.authFail s sid).spine = s.spine := by
  unfold State.authFail; simp [*]; (repeat' (first | (simp [*]; done) | split))
@[simp] theorem State.openReq_spine (s : State) (x : Session) (p : UspPacket) : (State.openReq s x p).spine = s.spine := by
  simp [State.openReq]
@[simp] theorem State.frameOut_spine (s : State) (sid : Nat) (r : Reasm) : (State.frameOut s sid r).spine = s.spine := by
  unfold State.frameOut; (repeat' (first | (simp [*]; done) | split))
@[simp] theorem State.abandonFrame_spine (s : State) (sid : Nat) (r : Reasm) : (State.abandonFrame s sid r).spine = s.spine := by
  simp [State.abandonFrame]
@[simp] theorem State.fragJoin_spine (s : State) (x : Session) (r : Reasm) (b : List Byte) : (State.fragJoin s x r b).spine = s.spine := by
  simp [State.fragJoin]
@[simp] theorem State.fragment_spine (s : State) (x : Session) (b : List Byte) : (State.fragment s x b).spine = s.spine := by
  unfold State.fragment; simp [*]; (repeat' (first | (simp [*]; done) | split))
@[simp] theorem State.motion_spine (s : State) (x : Session) (p : UspPacket) : (State.motion s x p).spine = s.spine := by
  simp [State.motion]
@[simp] theorem State.uspAccepted_spine (s : State) (p : UspPacket) : (State.uspAccepted s p).spine = s.spine := by
  unfold State.uspAccepted; (repeat' (first | (simp [*]; done) | split))
@[simp] theorem State.uspReceive_spine (s : State) (src : SrcAddr) (b : List Byte) : (State.uspReceive s src b).spine = s.spine := by
  unfold State.uspReceive; (repeat' (first | (simp [*]; done) | split))
@[simp] theorem State.passThrough_spine (s : State) (port : Nat) (frame : List Byte) : (State.passThrough s port frame).spine = s.spine := by
  unfold State.passThrough; (repeat' (first | (simp [*]; done) | split))
@[simp] theorem State.closeAll_spine (s : State) : (State.closeAll s).spine = s.spine := by
  simp [State.closeAll]
@[simp] theorem State.enterSafeHold_spine (s : State) (code : Nat) : (State.enterSafeHold s code).spine = s.spine := by
  simp [State.enterSafeHold]
@[simp] theorem State.deviceFault_spine (s : State) (code : Nat) : (State.deviceFault s code).spine = s.spine := by
  simp [State.deviceFault]
/-- A meaning's next state keeps the spine. -/
def KeepsSpine (s : State) (r : Result) : Prop := match r with
  | .next s' => s'.spine = s.spine
  | _ => True
@[simp] theorem spine_next (s s' : State) : KeepsSpine s (.next s') = (s'.spine = s.spine) := by simp only [KeepsSpine]
@[simp] theorem State.runOp_spine (s : State) (id : Nat) (code : Nat) (f : Op → State) (h : ∀ o, (f o).spine = s.spine) : KeepsSpine s (State.runOp s id code f) := by
  unfold State.runOp; repeat' (first | (simp [h]; done) | split)
@[simp] theorem State.runSub_spine (s : State) (id : Nat) (code : Nat) (sub : Nat) (f : Op → State) (h : ∀ o, (f o).spine = s.spine) : KeepsSpine s (State.runSub s id code sub f) := by
  unfold State.runSub; repeat' (first | (simp [h]; done) | split)
@[simp] theorem State.tune_spine (s : State) (op sub : Nat) (f : Op → Session → State) (h : ∀ o x, (f o x).spine = s.spine) : KeepsSpine s (State.tune s op sub f) := by
  unfold State.tune; refine State.runSub_spine _ _ _ _ _ (fun o => ?_); repeat' (first | (simp [*]; done) | split)
@[simp] theorem State.tuneCfg_spine (s : State) (op : Nat) (sub : Nat) (chk : Op → Session → Option Res) (f : Op → SessCfg → SessCfg) : KeepsSpine s (State.tuneCfg s op sub chk f) := by
  unfold State.tuneCfg; refine State.runSub_spine _ _ _ _ _ fun o => ?_; dsimp only; (repeat' (first | (simp; done) | split))
@[simp] theorem execSessionKey_spine (op : Nat) (s : State) : KeepsSpine s (execSessionKey op s) := by
  unfold execSessionKey; refine State.runOp_spine _ _ _ _ fun o => ?_; dsimp only; (repeat' (first | (simp; done) | split))
@[simp] theorem execSetFilter_spine (op : Nat) (s : State) : KeepsSpine s (execSetFilter op s) := by
  unfold execSetFilter; refine State.runSub_spine _ _ _ _ _ fun o => ?_; dsimp only; (repeat' (first | (simp; done) | split))
@[simp] theorem execSetThresholds_spine (op : Nat) (s : State) : KeepsSpine s (execSetThresholds op s) := by
  simp [execSetThresholds]
@[simp] theorem execSetTimers_spine (op : Nat) (s : State) : KeepsSpine s (execSetTimers op s) := by
  simp [execSetTimers]
@[simp] theorem execSetMaxLoad_spine (op : Nat) (s : State) : KeepsSpine s (execSetMaxLoad op s) := by
  simp [execSetMaxLoad]
@[simp] theorem execSetHostRate_spine (op : Nat) (s : State) : KeepsSpine s (execSetHostRate op s) := by
  simp [execSetHostRate]
@[simp] theorem execSetLimits_spine (op : Nat) (s : State) : KeepsSpine s (execSetLimits op s) := by
  unfold execSetLimits; refine State.runSub_spine _ _ _ _ _ fun o => ?_; dsimp only; (repeat' (first | (simp; done) | split))
@[simp] theorem execSetGates_spine (op : Nat) (s : State) : KeepsSpine s (execSetGates op s) := by
  simp [execSetGates]
@[simp] theorem execSetPrecedence_spine (op : Nat) (s : State) : KeepsSpine s (execSetPrecedence op s) := by
  simp [execSetPrecedence]
@[simp] theorem execSetReply_spine (op : Nat) (s : State) : KeepsSpine s (execSetReply op s) := by
  simp [execSetReply]
@[simp] theorem execSetTime_spine (op : Nat) (s : State) : KeepsSpine s (execSetTime op s) := by
  simp [execSetTime]
@[simp] theorem execSetPose_spine (op : Nat) (s : State) : KeepsSpine s (execSetPose op s) := by
  simp [execSetPose]
@[simp] theorem execSetCalibRefine_spine (op : Nat) (s : State) : KeepsSpine s (execSetCalibRefine op s) := by
  simp [execSetCalibRefine]
@[simp] theorem execSetCalibration_spine (op : Nat) (s : State) : KeepsSpine s (execSetCalibration op s) := by
  simp [execSetCalibration]
@[simp] theorem execSetRefine_spine (op : Nat) (s : State) : KeepsSpine s (execSetRefine op s) := by
  simp [execSetRefine]
@[simp] theorem execSetSearch_spine (op : Nat) (s : State) : KeepsSpine s (execSetSearch op s) := by
  simp [execSetSearch]
@[simp] theorem execSetFeatures_spine (op : Nat) (s : State) : KeepsSpine s (execSetFeatures op s) := by
  simp [execSetFeatures]
@[simp] theorem execSetStereo_spine (op : Nat) (s : State) : KeepsSpine s (execSetStereo op s) := by
  simp [execSetStereo]
@[simp] theorem execSetRetain_spine (op : Nat) (s : State) : KeepsSpine s (execSetRetain op s) := by
  simp [execSetRetain]
@[simp] theorem execTileRestore_spine (op : Nat) (s : State) : KeepsSpine s (execTileRestore op s) := by
  unfold execTileRestore; refine State.runSub_spine _ _ _ _ _ fun o => ?_; (repeat' (first | (simp; done) | split))
@[simp] theorem execKeyframeDelete_spine (op : Nat) (s : State) : KeepsSpine s (execKeyframeDelete op s) := by
  unfold execKeyframeDelete; refine State.runSub_spine _ _ _ _ _ fun o => ?_; (repeat' (first | (simp; done) | split))
@[simp] theorem execKeyframePose_spine (op : Nat) (s : State) : KeepsSpine s (execKeyframePose op s) := by
  unfold execKeyframePose; refine State.runSub_spine _ _ _ _ _ fun o => ?_; dsimp only; (repeat' (first | (simp; done) | split))
@[simp] theorem execLinkAdd_spine (op : Nat) (s : State) : KeepsSpine s (execLinkAdd op s) := by
  unfold execLinkAdd; refine State.runSub_spine _ _ _ _ _ fun o => ?_; dsimp only; (repeat' (first | (simp; done) | split))
@[simp] theorem execLinkDelete_spine (op : Nat) (s : State) : KeepsSpine s (execLinkDelete op s) := by
  unfold execLinkDelete; refine State.runSub_spine _ _ _ _ _ fun o => ?_; (repeat' (first | (simp; done) | split))
@[simp] theorem execQuarantine_spine (op : Nat) (s : State) : KeepsSpine s (execQuarantine op s) := by
  unfold execQuarantine; refine State.runSub_spine _ _ _ _ _ fun o => ?_; (repeat' (first | (simp; done) | split))
@[simp] theorem execRelease_spine (op : Nat) (s : State) : KeepsSpine s (execRelease op s) := by
  unfold execRelease; refine State.runSub_spine _ _ _ _ _ fun o => ?_; (repeat' (first | (simp; done) | split))
@[simp] theorem execIndexCreate_spine (op : Nat) (s : State) : KeepsSpine s (execIndexCreate op s) := by
  unfold execIndexCreate; refine State.runSub_spine _ _ _ _ _ fun o => ?_; dsimp only; (repeat' (first | (simp; done) | split))
@[simp] theorem execIndexDrop_spine (op : Nat) (s : State) : KeepsSpine s (execIndexDrop op s) := by
  unfold execIndexDrop; refine State.runSub_spine _ _ _ _ _ fun o => ?_; (repeat' (first | (simp; done) | split))
@[simp] theorem execTileAffinity_spine (op : Nat) (s : State) : KeepsSpine s (execTileAffinity op s) := by
  unfold execTileAffinity; refine State.runSub_spine _ _ _ _ _ fun o => ?_; (repeat' (first | (simp; done) | split))
@[simp] theorem execEpochWait_spine (op : Nat) (s : State) : KeepsSpine s (execEpochWait op s) := by
  simp [execEpochWait]
@[simp] theorem execQuery_spine (m : QueryMsg) (s : State) : KeepsSpine s (execQuery m s) := by
  simp [execQuery]
@[simp] theorem execSettle_spine (op : Nat) (s : State) : KeepsSpine s (execSettle op s) := by
  unfold execSettle; refine State.runOp_spine _ _ _ _ fun o => ?_; dsimp only; (repeat' (first | (simp; done) | split))
@[simp] theorem execSettlingPass_spine (index : Nat) (s : State) : KeepsSpine s (execSettlingPass index s) := by
  unfold execSettlingPass; (repeat' (first | (simp; done) | split))
@[simp] theorem execSettlingPassDone_spine (index : Nat) (s : State) : KeepsSpine s (execSettlingPassDone index s) := by
  unfold execSettlingPassDone; (repeat' (first | (simp; done) | split))
@[simp] theorem execKeyframeMaskComplete_spine (key : Nat) (masked : List Nat) (s : State) : KeepsSpine s (execKeyframeMaskComplete key masked s) := by
  unfold execKeyframeMaskComplete; simp; (repeat' (first | (simp; done) | split))
@[simp] theorem execMotionShort_spine (sid : Nat) (frameNo : Nat) (s : State) : KeepsSpine s (execMotionShort sid frameNo s) := by
  unfold execMotionShort; (repeat' (first | (simp; done) | split))
@[simp] theorem execReplyLaunch_spine (sid : Nat) (s : State) : KeepsSpine s (execReplyLaunch sid s) := by
  unfold execReplyLaunch; simp; (repeat' (first | (simp; done) | split))
@[simp] theorem execSessionMove_spine (sid : Nat) (cluster : Nat) (s : State) : KeepsSpine s (execSessionMove sid cluster s) := by
  unfold execSessionMove; (repeat' (first | (simp; done) | split))
@[simp] theorem execScheduleLoad_spine (op : Nat) (s : State) : KeepsSpine s (execScheduleLoad op s) := by
  unfold execScheduleLoad; refine State.runOp_spine _ _ _ _ fun o => ?_; dsimp only; (repeat' (first | (simp; done) | split))
@[simp] theorem execScheduleDrop_spine (op : Nat) (s : State) : KeepsSpine s (execScheduleDrop op s) := by
  unfold execScheduleDrop; refine State.runOp_spine _ _ _ _ fun o => ?_; dsimp only; (repeat' (first | (simp; done) | split))
@[simp] theorem execCalibSolveQueue_spine (sid : Nat) (s : State) : KeepsSpine s (execCalibSolveQueue sid s) := by
  unfold execCalibSolveQueue; simp; (repeat' (first | (simp; done) | split))
@[simp] theorem execLoopClosure_spine (sid : Nat) (keyA : Nat) (keyB : Nat) (s : State) : KeepsSpine s (execLoopClosure sid keyA keyB s) := by
  unfold execLoopClosure; simp; (repeat' (first | (simp; done) | split))
@[simp] theorem execProgramLoad_spine (op : Nat) (s : State) : KeepsSpine s (execProgramLoad op s) := by
  unfold execProgramLoad; refine State.runOp_spine _ _ _ _ fun o => ?_; dsimp only; (repeat' (first | (simp; done) | split))
@[simp] theorem execProgramDrop_spine (op : Nat) (s : State) : KeepsSpine s (execProgramDrop op s) := by
  unfold execProgramDrop; refine State.runOp_spine _ _ _ _ fun o => ?_; dsimp only; (repeat' (first | (simp; done) | split))
@[simp] theorem execWeightsBind_spine (op : Nat) (s : State) : KeepsSpine s (execWeightsBind op s) := by
  unfold execWeightsBind; refine State.runOp_spine _ _ _ _ fun o => ?_; dsimp only; (repeat' (first | (simp; done) | split))
@[simp] theorem execWeightsUnbind_spine (op : Nat) (s : State) : KeepsSpine s (execWeightsUnbind op s) := by
  unfold execWeightsUnbind; refine State.runOp_spine _ _ _ _ fun o => ?_; dsimp only; (repeat' (first | (simp; done) | split))
@[simp] theorem execInfer_spine (op : Nat) (cluster : Nat) (s : State) : KeepsSpine s (execInfer op cluster s) := by
  unfold execInfer; refine State.runOp_spine _ _ _ _ fun o => ?_; dsimp only; (repeat' (first | (simp; done) | split))
@[simp] theorem execParcelPromote_spine (parcel : Nat) (tier : UpperTier) (s : State) : KeepsSpine s (execParcelPromote parcel tier s) := by
  unfold execParcelPromote; simp; (repeat' (first | (simp; done) | split))
@[simp] theorem execPromotionCopyEnd_spine (parcel : Nat) (s : State) : KeepsSpine s (execPromotionCopyEnd parcel s) := by
  unfold execPromotionCopyEnd; (repeat' (first | (simp; done) | split))
@[simp] theorem execParcelDemote_spine (parcel : Nat) (s : State) : KeepsSpine s (execParcelDemote parcel s) := by
  unfold execParcelDemote; simp; (repeat' (first | (simp; done) | split))
@[simp] theorem execDemotionWriteBackEnd_spine (parcel : Nat) (s : State) : KeepsSpine s (execDemotionWriteBackEnd parcel s) := by
  unfold execDemotionWriteBackEnd; (repeat' (first | (simp; done) | split))
@[simp] theorem execTierAccessLate_spine (tier : LateTier) (repair : Bool) (s : State) : KeepsSpine s (execTierAccessLate tier repair s) := by
  unfold execTierAccessLate; (repeat' (first | (simp; done) | split))
@[simp] theorem execScrubPass_spine (lake : Bool) (frame : Nat) (corrected : Bool) (uncorrectable : Bool) (s : State) : KeepsSpine s (execScrubPass lake frame corrected uncorrectable s) := by
  unfold execScrubPass; simp; (repeat' (first | (simp; done) | split))
@[simp] theorem execPondTestStep_spine (cluster : Nat) (bank : Nat) (fails : Bool) (s : State) : KeepsSpine s (execPondTestStep cluster bank fails s) := by
  unfold execPondTestStep; simp; (repeat' (first | (simp; done) | split))
@[simp] theorem execLaneRepairWalk_spine (pc : Nat) (lane : Nat) (s : State) : KeepsSpine s (execLaneRepairWalk pc lane s) := by
  unfold execLaneRepairWalk; (repeat' (first | (simp; done) | split))
@[simp] theorem execLaneRepairSwitch_spine (pc : Nat) (s : State) : KeepsSpine s (execLaneRepairSwitch pc s) := by
  unfold execLaneRepairSwitch; (repeat' (first | (simp; done) | split))
@[simp] theorem execResidencyHint_spine (op : Nat) (s : State) : KeepsSpine s (execResidencyHint op s) := by
  unfold execResidencyHint; refine State.runOp_spine _ _ _ _ fun o => ?_; dsimp only; (repeat' (first | (simp; done) | split))
@[simp] theorem execMirrorItem_spine (m : MirrorItemMsg) (s : State) : KeepsSpine s (execMirrorItem m s) := by
  unfold execMirrorItem; simp; (repeat' (first | (simp; done) | split))
@[simp] theorem execMirrorAckTimer_spine (src : Nat) (s : State) : KeepsSpine s (execMirrorAckTimer src s) := by
  unfold execMirrorAckTimer; simp; (repeat' (first | (simp; done) | split))
@[simp] theorem execMirrorSyncComplete_spine (ix : Int) (iy : Int) (s : State) : KeepsSpine s (execMirrorSyncComplete ix iy s) := by
  unfold execMirrorSyncComplete; simp; (repeat' (first | (simp; done) | split))
@[simp] theorem execHandoverPropose_spine (src : Nat) (ix : Int) (iy : Int) (_epoch : Nat) (s : State) : KeepsSpine s (execHandoverPropose src ix iy _epoch s) := by
  unfold execHandoverPropose; simp; (repeat' (first | (simp; done) | split))
@[simp] theorem execHandoverReply_spine (src : Nat) (ix : Int) (iy : Int) (code : Nat) (s : State) : KeepsSpine s (execHandoverReply src ix iy code s) := by
  unfold execHandoverReply; simp; (repeat' (first | (simp; done) | split))
@[simp] theorem execSnapshot_spine (src : Nat) (ix : Int) (iy : Int) (offset : Nat) (last : Bool) (data : List Byte) (s : State) : KeepsSpine s (execSnapshot src ix iy offset last data s) := by
  unfold execSnapshot; simp; (repeat' (first | (simp; done) | split))
@[simp] theorem execSynced_spine (src : Nat) (ix : Int) (iy : Int) (seq : Nat) (s : State) : KeepsSpine s (execSynced src ix iy seq s) := by
  unfold execSynced; simp; (repeat' (first | (simp; done) | split))
@[simp] theorem execHandoverAbort_spine (src : Nat) (ix : Int) (iy : Int) (_reason : Nat) (s : State) : KeepsSpine s (execHandoverAbort src ix iy _reason s) := by
  unfold execHandoverAbort; simp; (repeat' (first | (simp; done) | split))
@[simp] theorem execHandoverCopyTimeout_spine (ix : Int) (iy : Int) (s : State) : KeepsSpine s (execHandoverCopyTimeout ix iy s) := by
  unfold execHandoverCopyTimeout; simp; (repeat' (first | (simp; done) | split))
@[simp] theorem execHoldoverLimit_spine (s : State) : KeepsSpine s (execHoldoverLimit s) := by
  unfold execHoldoverLimit; (repeat' (first | (simp; done) | split))
@[simp] theorem execTriggerEdge_spine (t : Nat) (s : State) : KeepsSpine s (execTriggerEdge t s) := by
  unfold execTriggerEdge; (repeat' (first | (simp; done) | split))
@[simp] theorem execTriggerPulseEnd_spine (t : Nat) (s : State) : KeepsSpine s (execTriggerPulseEnd t s) := by
  unfold execTriggerPulseEnd; (repeat' (first | (simp; done) | split))
@[simp] theorem execPpsInEdge_spine (s : State) : KeepsSpine s (execPpsInEdge s) := by
  unfold execPpsInEdge; simp; (repeat' (first | (simp; done) | split))
@[simp] theorem execPpsSeenTimeout_spine (s : State) : KeepsSpine s (execPpsSeenTimeout s) := by
  unfold execPpsSeenTimeout; (repeat' (first | (simp; done) | split))
@[simp] theorem execPpsOutRise_spine (s : State) : KeepsSpine s (execPpsOutRise s) := by
  unfold execPpsOutRise; (repeat' (first | (simp; done) | split))
@[simp] theorem execPpsOutFall_spine (s : State) : KeepsSpine s (execPpsOutFall s) := by
  unfold execPpsOutFall; (repeat' (first | (simp; done) | split))
@[simp] theorem execPtpMessage_spine (m : PtpMsg) (s : State) : KeepsSpine s (execPtpMessage m s) := by
  unfold execPtpMessage; (repeat' (first | (simp; done) | split))
@[simp] theorem execPtpAnnounceTimeout_spine (s : State) : KeepsSpine s (execPtpAnnounceTimeout s) := by
  unfold execPtpAnnounceTimeout; (repeat' (first | (simp; done) | split))
@[simp] theorem execPtpMessageInterval_spine (s : State) : KeepsSpine s (execPtpMessageInterval s) := by
  unfold execPtpMessageInterval; simp; (repeat' (first | (simp; done) | split))
@[simp] theorem execFzlLinkUp_spine (port : Nat) (s : State) : KeepsSpine s (execFzlLinkUp port s) := by
  unfold execFzlLinkUp; (repeat' (first | (simp; done) | split))
@[simp] theorem execFlitNak_spine (port : Nat) (ack : Nat) (s : State) : KeepsSpine s (execFlitNak port ack s) := by
  unfold execFlitNak; simp; (repeat' (first | (simp; done) | split))
@[simp] theorem execFlitReplayTimeout_spine (port : Nat) (s : State) : KeepsSpine s (execFlitReplayTimeout port s) := by
  unfold execFlitReplayTimeout; simp; (repeat' (first | (simp; done) | split))
@[simp] theorem execPortRetrainTimeout_spine (port : Nat) (s : State) : KeepsSpine s (execPortRetrainTimeout port s) := by
  unfold execPortRetrainTimeout; simp; (repeat' (first | (simp; done) | split))
@[simp] theorem execLaneFailure_spine (port : Nat) (lane : Nat) (s : State) : KeepsSpine s (execLaneFailure port lane s) := by
  unfold execLaneFailure; simp; (repeat' (first | (simp; done) | split))
@[simp] theorem execFlitReceiveError_spine (port : Nat) (expected : Nat) (s : State) : KeepsSpine s (execFlitReceiveError port expected s) := by
  unfold execFlitReceiveError; (repeat' (first | (simp; done) | split))
@[simp] theorem execHello_spine (port : Nat) (h : Hello) (s : State) : KeepsSpine s (execHello port h s) := by
  unfold execHello; simp; (repeat' (first | (simp; done) | split))
@[simp] theorem execHelloTimer_spine (port : Nat) (s : State) : KeepsSpine s (execHelloTimer port s) := by
  unfold execHelloTimer; simp; (repeat' (first | (simp; done) | split))
@[simp] theorem execRemoteReq_spine (m : RemoteReqMsg) (s : State) : KeepsSpine s (execRemoteReq m s) := by
  unfold execRemoteReq; simp; (repeat' (first | (simp; done) | split))
@[simp] theorem execJoinReply_spine (code : Nat) (s : State) : KeepsSpine s (execJoinReply code s) := by
  unfold execJoinReply; simp; (repeat' (first | (simp; done) | split))
@[simp] theorem execViewAck_spine (src : Nat) (viewNo : Nat) (s : State) : KeepsSpine s (execViewAck src viewNo s) := by
  unfold execViewAck; simp; (repeat' (first | (simp; done) | split))
@[simp] theorem execHeartbeat_spine (src : Nat) (viewNo : Nat) (leaving : Bool) (s : State) : KeepsSpine s (execHeartbeat src viewNo leaving s) := by
  unfold execHeartbeat; simp; (repeat' (first | (simp; done) | split))
@[simp] theorem execHeartbeatTimer_spine (s : State) : KeepsSpine s (execHeartbeatTimer s) := by
  unfold execHeartbeatTimer; (repeat' (first | (simp; done) | split))
@[simp] theorem execTimeSync_spine (port : Nat) (stamp : Nat) (hops : Nat) (master : Nat) (s : State) : KeepsSpine s (execTimeSync port stamp hops master s) := by
  unfold execTimeSync; simp; (repeat' (first | (simp; done) | split))
@[simp] theorem execTimeSyncTimer_spine (s : State) : KeepsSpine s (execTimeSyncTimer s) := by
  unfold execTimeSyncTimer; (repeat' (first | (simp; done) | split))
@[simp] theorem execTimeSyncTimeout_spine (s : State) : KeepsSpine s (execTimeSyncTimeout s) := by
  unfold execTimeSyncTimeout; (repeat' (first | (simp; done) | split))
@[simp] theorem execDelayReq_spine (port : Nat) (_stamp : Nat) (s : State) : KeepsSpine s (execDelayReq port _stamp s) := by
  unfold execDelayReq; simp; (repeat' (first | (simp; done) | split))
@[simp] theorem execDelayReqTimer_spine (s : State) : KeepsSpine s (execDelayReqTimer s) := by
  unfold execDelayReqTimer; (repeat' (first | (simp; done) | split))
@[simp] theorem execDelayResp_spine (port : Nat) (stamp : Nat) (s : State) : KeepsSpine s (execDelayResp port stamp s) := by
  unfold execDelayResp; simp; (repeat' (first | (simp; done) | split))
@[simp] theorem execMessageForward_spine (port : Nat) (h : FzlHeader) (s : State) : KeepsSpine s (execMessageForward port h s) := by
  unfold execMessageForward; simp; (repeat' (first | (simp; done) | split))
@[simp] theorem execNetSend_spine (op : Nat) (s : State) : KeepsSpine s (execNetSend op s) := by
  unfold execNetSend; refine State.runOp_spine _ _ _ _ fun o => ?_; dsimp only; (repeat' (first | (simp; done) | split))
@[simp] theorem execNetRecvPost_spine (op : Nat) (s : State) : KeepsSpine s (execNetRecvPost op s) := by
  simp [execNetRecvPost]
@[simp] theorem execFrameLaunch_spine (port : Nat) (s : State) : KeepsSpine s (execFrameLaunch port s) := by
  unfold execFrameLaunch; simp; (repeat' (first | (simp; done) | split))
@[simp] theorem execNetLinkChange_spine (port : Nat) (up : Bool) (s : State) : KeepsSpine s (execNetLinkChange port up s) := by
  simp [execNetLinkChange]
@[simp] theorem execRetryBudgetExpiry_spine (op : Nat) (s : State) : KeepsSpine s (execRetryBudgetExpiry op s) := by
  unfold execRetryBudgetExpiry; (repeat' (first | (simp; done) | split))
@[simp] theorem execWearDetected_spine (u : WearUnit) (s : State) : KeepsSpine s (execWearDetected u s) := by
  unfold execWearDetected; simp; (repeat' (first | (simp; done) | split))
@[simp] theorem execDrainComplete_spine (core : Nat) (s : State) : KeepsSpine s (execDrainComplete core s) := by
  unfold execDrainComplete; simp; (repeat' (first | (simp; done) | split))
@[simp] theorem execSpareInService_spine (core : Nat) (s : State) : KeepsSpine s (execSpareInService core s) := by
  unfold execSpareInService; (repeat' (first | (simp; done) | split))
@[simp] theorem execReservoirClusterReady_spine (s : State) : KeepsSpine s (execReservoirClusterReady s) := by
  unfold execReservoirClusterReady; (repeat' (first | (simp; done) | split))
@[simp] theorem execReservoirDailyTest_spine (pass : Bool) (s : State) : KeepsSpine s (execReservoirDailyTest pass s) := by
  unfold execReservoirDailyTest; (repeat' (first | (simp; done) | split))
@[simp] theorem execPrepare_spine (op : Nat) (pass : Bool) (s : State) : KeepsSpine s (execPrepare op pass s) := by
  unfold execPrepare; (repeat' (first | (simp; done) | split))
@[simp] theorem execRetire_spine (op : Nat) (s : State) : KeepsSpine s (execRetire op s) := by
  simp [execRetire]
@[simp] theorem execSparePllLocked_spine (gen : Nat) (s : State) : KeepsSpine s (execSparePllLocked gen s) := by
  unfold execSparePllLocked; (repeat' (first | (simp; done) | split))
@[simp] theorem execActivate_spine (op : Nat) (s : State) : KeepsSpine s (execActivate op s) := by
  simp [execActivate]
@[simp] theorem execRevert_spine (op : Nat) (s : State) : KeepsSpine s (execRevert op s) := by
  simp [execRevert]
@[simp] theorem execSessionOpen_spine (op : Nat) (s : State) : KeepsSpine s (execSessionOpen op s) := by
  unfold execSessionOpen; refine State.runOp_spine _ _ _ _ fun o => ?_; dsimp only; (repeat' (first | (simp; done) | split))
@[simp] theorem execEventWait_spine (op : Nat) (s : State) : KeepsSpine s (execEventWait op s) := by
  unfold execEventWait; refine State.runSub_spine _ _ _ _ _ fun o => ?_; (repeat' (first | (simp; done) | split))
@[simp] theorem execFrameSubmit_spine (op : Nat) (s : State) : KeepsSpine s (execFrameSubmit op s) := by
  unfold execFrameSubmit; refine State.runOp_spine _ _ _ _ fun o => ?_; dsimp only; (repeat' (first | (simp; done) | split))
@[simp] theorem execMapReadTileImage_spine (op : Nat) (s : State) : KeepsSpine s (execMapReadTileImage op s) := by
  simp [execMapReadTileImage]
@[simp] theorem execMapReadKeyframes_spine (op : Nat) (s : State) : KeepsSpine s (execMapReadKeyframes op s) := by
  simp [execMapReadKeyframes]
@[simp] theorem execMapReadLinks_spine (op : Nat) (s : State) : KeepsSpine s (execMapReadLinks op s) := by
  simp [execMapReadLinks]
@[simp] theorem execMapReadPoints_spine (op : Nat) (s : State) : KeepsSpine s (execMapReadPoints op s) := by
  simp [execMapReadPoints]
@[simp] theorem execMapReadObservations_spine (op : Nat) (s : State) : KeepsSpine s (execMapReadObservations op s) := by
  simp [execMapReadObservations]
@[simp] theorem execSearch_spine (op : Nat) (s : State) : KeepsSpine s (execSearch op s) := by
  unfold execSearch
  refine State.runOp_spine _ _ _ _ (fun o => ?_)
  split
  · rfl
  · split
    · simp
    · simp
    · extract_lets q b f par margin xid
      split
      · simp
      · split
        · simp
        · split
          · simp
          · extract_lets tb queried st r s1 mine st1 src s2 body s3
            rw [State.searchCheck_spine, State.await_spine]
            have h2 : s2.spine = s.spine := by
              have h1 : r.1.spine = s.spine := by
                simp only [r]; split <;> simp
              simpa [s2, s1] using h1
            exact (foldl_spine _ _ _ (fun s a => by simp)).trans h2
@[simp] theorem execPeerDeadline_spine (op : Nat) (s : State) : KeepsSpine s (execPeerDeadline op s) := by
  unfold execPeerDeadline; (repeat' (first | (simp; done) | split))
@[simp] theorem execAnswer_spine (m : AnswerMsg) (s : State) : KeepsSpine s (execAnswer m s) := by
  unfold execAnswer; simp; (repeat' (first | (simp; done) | split))
@[simp] theorem execVecInsert_spine (op : Nat) (s : State) : KeepsSpine s (execVecInsert op s) := by
  simp [execVecInsert]
@[simp] theorem execVecDelete_spine (op : Nat) (s : State) : KeepsSpine s (execVecDelete op s) := by
  simp [execVecDelete]
@[simp] theorem execRecallProbe_spine (op : Nat) (s : State) : KeepsSpine s (execRecallProbe op s) := by
  unfold execRecallProbe; refine State.runOp_spine _ _ _ _ fun o => ?_; dsimp only; (repeat' (first | (simp; done) | split))
@[simp] theorem execTrackQueryFeatures_spine (op : Nat) (s : State) : KeepsSpine s (execTrackQueryFeatures op s) := by
  simp [execTrackQueryFeatures]
@[simp] theorem execTrackQueryTracks_spine (op : Nat) (s : State) : KeepsSpine s (execTrackQueryTracks op s) := by
  simp [execTrackQueryTracks]
@[simp] theorem execTrackQueryDisparity_spine (op : Nat) (s : State) : KeepsSpine s (execTrackQueryDisparity op s) := by
  simp [execTrackQueryDisparity]
@[simp] theorem execTrackQueryProject_spine (op : Nat) (s : State) : KeepsSpine s (execTrackQueryProject op s) := by
  unfold execTrackQueryProject; refine State.runSub_spine _ _ _ _ _ fun o => ?_; dsimp only; (repeat' (first | (simp; done) | split))
@[simp] theorem execVisionFrame_spine (sid : Nat) (frameNo : Nat) (s : State) : KeepsSpine s (execVisionFrame sid frameNo s) := by
  unfold execVisionFrame; (repeat' (first | (simp; done) | split))
@[simp] theorem execFusionFrame_spine (sid : Nat) (frameNo : Nat) (s : State) : KeepsSpine s (execFusionFrame sid frameNo s) := by
  unfold execFusionFrame; (repeat' (first | (simp; done) | split))
@[simp] theorem execFusionIntervalClose_spine (sid : Nat) (s : State) : KeepsSpine s (execFusionIntervalClose sid s) := by
  unfold execFusionIntervalClose; simp; (repeat' (first | (simp; done) | split))
@[simp] theorem execSessionClose_spine (op : Nat) (s : State) : KeepsSpine s (execSessionClose op s) := by
  unfold execSessionClose; refine State.runOp_spine _ _ _ _ fun o => ?_; dsimp only; (repeat' (first | (simp; done) | split))
@[simp] theorem execSolve_spine (op : Nat) (s : State) : KeepsSpine s (execSolve op s) := by
  unfold execSolve; refine State.runOp_spine _ _ _ _ fun o => ?_; (repeat' (first | (simp; done) | refine (foldl_spine _ _ _ (fun s a => ?_)).trans ?_ | split))
@[simp] theorem execCalibSolveResult_spine (sid : Nat) (s : State) : KeepsSpine s (execCalibSolveResult sid s) := by
  unfold execCalibSolveResult; simp; (repeat' (first | (simp; done) | split))
@[simp] theorem execInferLayerStart_spine (op : Nat) (layer : Nat) (s : State) : KeepsSpine s (execInferLayerStart op layer s) := by
  unfold execInferLayerStart; refine State.runOp_spine _ _ _ _ fun o => ?_; dsimp only; (repeat' (first | (simp; done) | split))
@[simp] theorem execMove_spine (op : Nat) (s : State) : KeepsSpine s (execMove op s) := by
  unfold execMove; refine State.runOp_spine _ _ _ _ fun o => ?_; (repeat' (first | (simp; done) | refine (foldl_spine _ _ _ (fun s a => ?_)).trans ?_ | split))
@[simp] theorem execMoveFill_spine (op : Nat) (s : State) : KeepsSpine s (execMoveFill op s) := by
  unfold execMoveFill; refine State.runOp_spine _ _ _ _ fun o => ?_; (repeat' (first | (simp; done) | refine (foldl_spine _ _ _ (fun s a => ?_)).trans ?_ | split))
@[simp] theorem execMirrorAck_spine (src : Nat) (seq : Nat) (s : State) : KeepsSpine s (execMirrorAck src seq s) := by
  unfold execMirrorAck; simp; (repeat' (first | (simp; done) | split))
@[simp] theorem execDiagSessions_spine (op : Nat) (s : State) : KeepsSpine s (execDiagSessions op s) := by
  unfold execDiagSessions; refine State.runSub_spine _ _ _ _ _ fun o => ?_; dsimp only; (repeat' (first | (simp; done) | split))
@[simp] theorem execDiagClusters_spine (op : Nat) (s : State) : KeepsSpine s (execDiagClusters op s) := by
  unfold execDiagClusters; refine State.runSub_spine _ _ _ _ _ fun o => ?_; dsimp only; (repeat' (first | (simp; done) | split))
@[simp] theorem execDiagTiles_spine (op : Nat) (s : State) : KeepsSpine s (execDiagTiles op s) := by
  unfold execDiagTiles; refine State.runSub_spine _ _ _ _ _ fun o => ?_; dsimp only; (repeat' (first | (simp; done) | split))
@[simp] theorem execRemoteResp_spine (m : RemoteRespMsg) (s : State) : KeepsSpine s (execRemoteResp m s) := by
  unfold execRemoteResp; simp; (repeat' (first | (simp; done) | split))
@[simp] theorem execReassemblyTimeout_spine (sid : Nat) (frameNo : Nat) (s : State) : KeepsSpine s (execReassemblyTimeout sid frameNo s) := by
  unfold execReassemblyTimeout; (repeat' (first | (simp; done) | split))
@[simp] theorem execSilentTimeout_spine (sid : Nat) (s : State) : KeepsSpine s (execSilentTimeout sid s) := by
  unfold execSilentTimeout; (repeat' (first | (simp; done) | split))
@[simp] theorem execLingerExpiry_spine (sid : Nat) (s : State) : KeepsSpine s (execLingerExpiry sid s) := by
  unfold execLingerExpiry; (repeat' (first | (simp; done) | split))
@[simp] theorem execNetFrameReceive_spine (f : RxFrame) (s : State) : KeepsSpine s (execNetFrameReceive f s) := by
  unfold execNetFrameReceive; simp; (repeat' (first | (simp; done) | split))
@[simp] theorem execSafeHold_spine (code : Nat) (s : State) : KeepsSpine s (execSafeHold code s) := by
  simp [execSafeHold]
@[simp] theorem execThermalLimit_spine (s : State) : KeepsSpine s (execThermalLimit s) := by
  simp [execThermalLimit]
@[simp] theorem execSafeHoldAction_spine (op : Nat) (s : State) : KeepsSpine s (execSafeHoldAction op s) := by
  simp [execSafeHoldAction]
@[simp] theorem execClockLoss_spine (gen : Nat) (s : State) : KeepsSpine s (execClockLoss gen s) := by
  unfold execClockLoss; simp; (repeat' (first | (simp; done) | split))
@[simp] theorem execLogRead_spine (op : Nat) (s : State) : KeepsSpine s (execLogRead op s) := by
  simp [execLogRead]
@[simp] theorem execDiagCounters_spine (op : Nat) (s : State) : KeepsSpine s (execDiagCounters op s) := by
  unfold execDiagCounters; refine State.runSub_spine _ _ _ _ _ fun o => ?_; dsimp only; (repeat' (first | (simp; done) | split))
end Sys2Proof.Machine
end

