-- ==== Sys2Proof/Machine/Pins.lean ====
section
/-! DEFINITION. The balls as the rest of the state sets them: phases and pin groups (R446, R452, R453, R492), the balls of absent units (R486), and the
number of balls of each group (R485). -/

namespace Sys2Proof.Machine

/-- The phases of R452. -/
inductive PinPhase where
  | ramp | reset | configured | safeHold
  deriving DecidableEq, Repr

/-- The ball groups of R452 and R492, with the number of the port, channel or trigger. -/
inductive Pin where
  | trig (i : Nat) | ppsOut | ppsIn | netTx (p : Nat) | netRx (p : Nat) | fabricTx (p : Nat) | fabricRx (p : Nat) | pcieTx | pcieRx
  | lakeCommand (c : Nat) | lakeData (c : Nat) | flashSelect | flashData | alert | mgmtBus | mgmtAddress | resetN | tamperN | perstN
  | testLow | testHigh | testOut
  deriving DecidableEq, Repr

/-- What a ball does: as an output, hi-Z with or without a weak pull, a level, electrically idle, or active; as an input, ignored or used. -/
inductive Drive where
  | absent | hiZ | weakDown | level (high : Bool) | idleLanes | active | lakeHeld | terminated | unterminated | ignored | used
  deriving DecidableEq, Repr

/-- The phase that the whole device is in (R452): the ramp until power-on release; then reset until bring-up is done. -/
def State.phase (s : State) : PinPhase :=
  if s.power.boot = .phaseA then .ramp else if s.fault.safeHold then .safeHold else if s.power.boot = .running then .configured else .reset

/-- The power domain that holds a ball's driver (R430). -/
def Pin.domain : Pin → Option Nat
  | .trig _ | .ppsOut | .ppsIn | .netTx _ | .netRx _ => some 4
  | .fabricTx p | .fabricRx p => some (5 + p)
  | .pcieTx | .pcieRx => some 3
  | .lakeCommand c | .lakeData c => some (13 + c / 4)
  | _ => none

/-- The phase that a ball is in: one whose domain is off, or was reset by a lost clock, is in phase B whatever the others are (R446, R492). -/
def State.pinPhase (s : State) (b : Pin) : PinPhase :=
  if s.phase != .ramp && b.domain.any (fun d => !s.domOn d) then .reset else s.phase

/-- Whether a part has the ball's unit (R3, R486). -/
def State.pinPresent (s : State) : Pin → Bool
  | .trig i => s.hasNet && decide (i < 8)
  | .ppsOut | .ppsIn => s.hasNet
  | .netTx p | .netRx p => s.hasNet && decide (p < 2)
  | .fabricTx p | .fabricRx p => decide (p < s.fzPorts)
  | .lakeCommand c | .lakeData c => decide (c < 8)
  | _ => true

/-- What a ball does in the ramp (R452, R492). -/
def Pin.inRamp : Pin → Drive
  | .trig _ | .ppsOut | .lakeCommand _ => .weakDown
  | .netRx _ | .fabricRx _ | .pcieRx => .unterminated
  | .ppsIn | .mgmtAddress | .resetN | .tamperN | .perstN => .ignored
  | _ => .hiZ

/-- Whether a fuse map that is not programmed holds a ball: every output, SPI_CS_N included (R453). -/
def Pin.isOutput : Pin → Bool
  | .trig _ | .ppsOut | .netTx _ | .fabricTx _ | .pcieTx | .lakeCommand _ | .flashSelect | .alert | .testOut => true
  | _ => false

/-- What a ball does from reset to configuration (R452, R487, R492). The flash is selected while options and firmware are read, and its data balls are
released after BOOT_FAIL (R448). -/
def State.inReset (s : State) (b : Pin) : Drive :=
  match b with
  | .trig _ | .ppsOut => .weakDown
  | .netTx _ | .fabricTx _ => .idleLanes
  | .pcieTx => if s.host.linkUp then .active else .idleLanes
  | .lakeCommand _ => if s.power.boot = .verified then .active else .lakeHeld
  | .lakeData _ => if s.power.boot = .verified then .active else .hiZ
  | .netRx _ | .fabricRx _ | .pcieRx => .terminated
  | .flashSelect => .level (s.power.boot ≠ .start && s.power.boot ≠ .released)
  | .flashData => if s.power.boot = .start || s.power.boot = .released then .active else .hiZ
  | .alert => if s.alertDriven then .level false else .hiZ
  | .ppsIn => .ignored
  | .mgmtBus => .active
  | .mgmtAddress | .resetN | .tamperN | .perstN => .used
  | .testLow | .testHigh => if s.testPortOpen then .used else .ignored
  | .testOut => if s.testPortOpen then .active else .hiZ

/-- What a ball does once its group is configured (R452, R492): a port's lanes are active while its register enables it, and MGMT_A0 and MGMT_A1 are held from
their sample. -/
def State.inService (s : State) (b : Pin) : Drive :=
  match b with
  | .trig i => .level (s.trigBall i)
  | .ppsOut => .level s.net.ppsOut
  | .netTx p => if bit (s.reg 0x5000 0) p then .active else .idleLanes
  | .fabricTx p => if bit (s.reg 0x8004 0) p then .active else .idleLanes
  | .lakeCommand _ | .lakeData _ => .active
  | .flashSelect => .level true
  | .flashData => .hiZ
  | .ppsIn => .used
  | .mgmtAddress => .ignored
  | _ => s.inReset b

/-- What a ball does in safe hold (R413, R452): triggers and PPS_OUT are driven inactive, and net and fabric lanes are idle. -/
def State.inSafeHold (s : State) (b : Pin) : Drive :=
  match b with
  | .ppsOut => .level false
  | .netTx _ | .fabricTx _ => .idleLanes
  | _ => s.inService b

/-- What a ball does (R452, R453, R486, R492). A ball of an absent unit has no driver and no receiver, but the triggers' and PPS balls keep their weak
pull-down. -/
def State.pin (s : State) (b : Pin) : Drive :=
  if !s.pinPresent b then (match b with | .trig _ | .ppsOut | .ppsIn => .weakDown | _ => .absent)
  else match s.pinPhase b with
    | .ramp => b.inRamp
    | .reset => if b.isOutput && !s.chip.fuseProgrammed then .weakDown else s.inReset b
    | .configured => s.inService b
    | .safeHold => s.inSafeHold b

/-- The 50 kΩ pull of a ball: true is up (R492). -/
def Pin.pull : Pin → Option Bool
  | .resetN | .tamperN | .flashData | .testHigh => some true
  | .ppsIn | .testLow => some false
  | _ => none

/-- The balls of each group (R485), reserved ones and power and ground last. -/
def ballGroups : List (String × Nat) :=
  [("Host", 67), ("Lake", 584), ("Fabric", 120), ("Net", 8), ("Triggers and PPS", 10), ("Management", 5), ("Reset and tamper", 2), ("Clocks", 4),
   ("Boot flash", 7), ("Test", 5), ("Reserved", 24), ("Power and ground", 2080)]

end Sys2Proof.Machine
end

