-- ==== Sys2Proof/Laws/Shared.lean ====
section
/-! SUPPORT. What the shared operations of the fabric, the spine, the pool and parity leave and change: one lemma for each, to cite in place of
its definition. -/

namespace Sys2Proof.Machine

/-! ## Parity faults -/

/-- Without a parity fault on its registers a function's context acts as it stands. -/
theorem fncNow_of_no_fault (s : State) (fn : Nat) (h : s.regs.faults = []) : s.fncNow fn = s.fnc fn := by
  simp [State.fncNow, Regs.faulted, h]

/-- A context's nudge is its own, whatever its registers hold. -/
@[simp] theorem fncNow_nudge (s : State) (fn : Nat) : (s.fncNow fn).nudge = (s.fnc fn).nudge := rfl

@[simp] theorem faultMark_faulted (s : State) (off idx : Nat) : (s.faultMark off idx).regs.faulted off idx = true := by
  simp [State.faultMark, Regs.faulted]

theorem faultMark_frame (s : State) (off idx : Nat) : s.faultMark off idx = { s with regs := { s.regs with faults := (s.faultMark off idx).regs.faults } } := rfl

/-! ## Fabric ports -/

theorem updPort_frame (s : State) (p : Nat) (f : FzPort → FzPort) : s.updPort p f = { s with fabric := { s.fabric with ports := updAt p f s.fabric.ports } } := rfl

theorem taken_frame (s : State) (p c n : Nat) : s.taken p c n = { s with fabric := { s.fabric with ports := (s.taken p c n).fabric.ports } } := rfl

theorem putFlits_frame (s : State) (p : Nat) (l : List Flit) : s.putFlits p l = { s with fabric := { s.fabric with ports := (s.putFlits p l).fabric.ports } } := rfl

@[simp] theorem taken_ops (s : State) (p c n : Nat) : (s.taken p c n).ops = s.ops := rfl
@[simp] theorem taken_map (s : State) (p c n : Nat) : (s.taken p c n).map = s.map := rfl
@[simp] theorem taken_out (s : State) (p c n : Nat) : (s.taken p c n).out = s.out := rfl
@[simp] theorem putFlits_ops (s : State) (p : Nat) (l : List Flit) : (s.putFlits p l).ops = s.ops := rfl
@[simp] theorem putFlits_map (s : State) (p : Nat) (l : List Flit) : (s.putFlits p l).map = s.map := rfl
@[simp] theorem putFlits_out (s : State) (p : Nat) (l : List Flit) : (s.putFlits p l).out = s.out := rfl

/-! ## The spine -/

theorem sendPkt_frame (s : State) (p : MeshPkt) : s.sendPkt p = { s with mesh := (s.sendPkt p).mesh } := by
  unfold State.sendPkt
  split <;> rfl

/-- A packet of a legal form waits last at the router of its source; another is not sent. -/
theorem sendPkt_mesh (s : State) (p : MeshPkt) :
    (s.sendPkt p).mesh = if p.ok then { s.mesh with waiting := s.mesh.waiting ++ [{ pkt := p, router := p.src }] } else s.mesh := by
  unfold State.sendPkt
  split <;> rfl

theorem meshRound_frame (s : State) : s.meshRound = { s with mesh := s.mesh.round } := rfl

/-- A round of an empty spine changes nothing. -/
theorem round_of_empty (m : Mesh) (h : m.waiting = []) : m.round = m := by
  simp [Mesh.round, h]

/-! ## The pool and the sealed change -/

theorem syncPool_frame (s : State) : s.syncPool = { s with tiers := s.syncPool.tiers } := rfl

/-- Without a sealed change nothing is done to it. -/
theorem inSealed_of_none (s : State) (f : State → State) (h : s.map.sealedView = none) : s.inSealed f = s := by
  simp [State.inSealed, h]

/-- What is done to a sealed change leaves the epoch being filled. -/
theorem inSealed_cur (s : State) (f : State → State) : (s.inSealed f).map.cur = s.map.cur := by
  unfold State.inSealed
  split <;> rfl

/-! ## Rings -/

theorem noteStall_spec (s : State) (fn n : Nat) :
    s.noteStall fn n = s.setStall fn n ((s.sq fn n).ready && s.tagWait (cfgClass (s.sq fn n).cfg)) ((s.sq fn n).ready && !(s.cq fn (cfgCq (s.sq fn n).cfg)).space) := rfl

/-! ## What R258 bounds -/

/-- A word held within a tolerance is within it, or is the exact value rounded. -/
theorem heldWithin_spec (tol d : Rat) (w : Word) : heldWithin tol d w = F32.ofRat d ∨ ratAbs (ratOf (heldWithin tol d w) - d) ≤ tol := by
  by_cases h : F32.finite w ∧ ratAbs (ratOf w - d) ≤ tol <;> simp [heldWithin, h]

/-- An orientation after a rotation step is within 0.25 µrad of the exact product, or is that product rounded. -/
theorem rotated_spec (q w : List Word) :
    rotated q w = F32.normalise ((quatMul (q.map ratOf) (rotationQuat (w.map ratOf))).map F32.ofRat) ∨
      quatNear ((rotated q w).map ratOf) (quatMul (q.map ratOf) (rotationQuat (w.map ratOf))) = true := by
  unfold rotated
  dsimp only
  split <;> simp_all

/-! ## Balls -/

/-- Until power-on release a ball that is there does what the ramp gives it. -/
theorem pin_ramp (s : State) (b : Pin) (h : s.power.boot = .phaseA) (hp : s.pinPresent b = true) : s.pin b = b.inRamp := by
  simp [State.pin, State.pinPhase, State.phase, h, hp]

/-- The secure pond is out of reach of every unit but the security core and PF0's registers. -/
theorem secureAccess_of_other (s : State) (u : DieUnit) (data : List Byte) (h : u ≠ .securityCore) :
    s.secureAccess u false data = (s.bump Ctr.guardedAccess, zeros data.length) := by
  simp [State.secureAccess, DieUnit.reachesSecure, h]

end Sys2Proof.Machine
end

