-- ==== Sys2Proof/Laws/Sound.lean ====
section
/-! SUPPORT. The operations and meanings that write memory or take and give back tags keep memory canonical, the tags within their pools
(R57), and the queue as it was. -/

namespace Sys2Proof.Machine

set_option linter.unusedTactic false
set_option linter.unreachableTactic false
set_option linter.unusedSimpArgs false
set_option linter.unusedVariables false

/-- What the writers keep: the queue q, the tags within their pools (R57), and memory in canonical form. -/
def Good (q : List Instr) (k : List Instr × Nat × Nat × Nat × Memory) : Prop := k.1 = q ∧ k.2.1 ≤ 512 ∧ k.2.2.1 ≤ 1024 ∧ k.2.2.2.1 ≤ 6656 ∧ k.2.2.2.2.wf = true
@[simp] theorem foldl_good {α : Type} {q : List Instr} (f : State → α → State) (l : List α) (s : State) (h : ∀ s a, Good q s.kept → Good q (f s a).kept) (hs : Good q s.kept) : Good q (l.foldl f s).kept := by
  induction l generalizing s with
  | nil => exact hs
  | cons x t ih => rw [List.foldl_cons]; exact ih _ (h _ _ hs)
@[simp] theorem foldl_good1 {α β : Type} {q : List Instr} (f : State × β → α → State × β) (l : List α) (s : State × β) (h : ∀ s a, Good q s.1.kept → Good q (f s a).1.kept) (hs : Good q s.1.kept) : Good q (l.foldl f s).1.kept := by
  induction l generalizing s with
  | nil => exact hs
  | cons x t ih => rw [List.foldl_cons]; exact ih _ (h _ _ hs)
@[simp] theorem good_ite (q) (c : Prop) [Decidable c] (a b) : Good q (if c then a else b) = if c then Good q a else Good q b := by split <;> rfl
theorem good_if (q) (c : Prop) [Decidable c] (a b : State) (h1 : c → Good q a.kept) (h2 : ¬c → Good q b.kept) : Good q (if c then a else b).kept := by split <;> simp_all

/-- The tags in use of each pool (R57). -/
def State.used (s : State) : Nat × Nat × Nat := (s.ops.used0, s.ops.used1, s.ops.usedShared)
theorem State.used_of_kept {s t : State} (h : s.kept = t.kept) : s.used = t.used := by
  simp only [State.kept, State.used, Prod.mk.injEq] at *; exact ⟨h.2.1, h.2.2.1, h.2.2.2.1⟩
theorem State.writeMem_used (s : State) (p : Nat) (b : List Byte) : (s.writeMem p b).used = s.used := rfl
theorem State.blurBufs_used (s : State) (o : Op) : (s.blurBufs o).used = s.used := by
  have h : ∀ (l : List (Nat × Nat)) (s : State), (l.foldl (fun (s : State) p => (s.writeMem p.1 ((List.range p.2).map fun i => BitVec.ofNat 8 (Config.freeNat (s.free + i)))).spend p.2) s).used = s.used := by
    intro l
    induction l with
    | nil => exact fun s => rfl
    | cons x t ih => exact fun s => (ih _).trans ((State.used_of_kept (State.spend_kept _ _)).trans (State.writeMem_used s _ _))
  unfold State.blurBufs
  split
  · rfl
  · exact (State.used_of_kept (State.updOp_kept _ _ _)).trans (h _ _)
theorem State.settleBufs_used (s : State) : s.settleBufs.used = s.used := by
  have h : ∀ (l : List Op) (s : State), (l.foldl State.blurBufs s).used = s.used := by
    intro l
    induction l with
    | nil => exact fun s => rfl
    | cons x t ih => exact fun s => (ih _).trans (State.blurBufs_used s x)
  exact h _ _
/-- The same of a meaning's next state. -/
def GoodNext (q : List Instr) (r : Result) : Prop := match r with
  | .next s' => Good q s'.kept
  | _ => True
@[simp] theorem goodNext_next (q) (s' : State) : GoodNext q (.next s') = Good q s'.kept := by simp only [GoodNext]
theorem goodNext_of_kept {q} {s : State} {r : Result} (hk : KeepsKept s r) (h : Good q s.kept) : GoodNext q r := by
  unfold KeepsKept at hk; unfold GoodNext; split <;> simp_all
@[simp] theorem State.runOp_good {q : List Instr} (s : State) (id : Nat) (code : Nat) (f : Op → State) (h : ∀ o, Good q (f o).kept) (hs : Good q s.kept) : GoodNext q (State.runOp s id code f) := by
  unfold State.runOp; repeat' (first | (simp [*]; done) | split)
@[simp] theorem State.runSub_good {q : List Instr} (s : State) (id : Nat) (code sub : Nat) (f : Op → State) (h : ∀ o, Good q (f o).kept) (hs : Good q s.kept) : GoodNext q (State.runSub s id code sub f) := by
  unfold State.runSub; repeat' (first | (simp [*]; done) | split)
@[simp] theorem State.tune_good {q : List Instr} (s : State) (op sub : Nat) (f : Op → Session → State) (h : ∀ o x, Good q (f o x).kept) (hs : Good q s.kept) : GoodNext q (State.tune s op sub f) := by
  unfold State.tune; refine State.runSub_good _ _ _ _ _ (fun o => ?_) hs; repeat' (first | (simp [*]; done) | split)
@[simp] theorem State.writeWord_good {q : List Instr} (s : State) (fn off : Nat) (f : State → State) (h : ∀ s, Good q s.kept → Good q (f s).kept) (hs : Good q s.kept) : Good q (State.writeWord s fn off f).kept := by
  unfold State.writeWord; repeat' (first | (simp [*]; done) | split)
theorem Ops.give_good {q : List Instr} {p : List Instr} {m : Memory} (o : Ops) (pool : Nat) (h : Good q (p, o.used0, o.used1, o.usedShared, m)) :
    Good q (p, (o.give pool).used0, (o.give pool).used1, (o.give pool).usedShared, m) := by
  obtain ⟨h1, h2, h3, h4, h5⟩ := h
  dsimp only at *
  unfold Ops.give
  split
  · exact ⟨h1, by dsimp only; omega, h3, h4, h5⟩
  · split
    · exact ⟨h1, h2, by dsimp only; omega, h4, h5⟩
    · exact ⟨h1, h2, h3, by dsimp only; omega, h5⟩
theorem Ops.take_good {q : List Instr} {p : List Instr} {m : Memory} (o : Ops) (pool : Nat) (h : Good q (p, o.used0, o.used1, o.usedShared, m))
    (hr : (pool = 0 ∧ o.used0 < 512) ∨ (pool = 1 ∧ o.used1 < 1024) ∨ (pool = 2 ∧ o.usedShared < 6656)) :
    Good q (p, (o.take pool).used0, (o.take pool).used1, (o.take pool).usedShared, m) := by
  obtain ⟨h1, h2, h3, h4, h5⟩ := h
  dsimp only at *
  unfold Ops.take
  split
  · exact ⟨h1, by dsimp only; omega, h3, h4, h5⟩
  · split
    · exact ⟨h1, h2, by dsimp only; omega, h4, h5⟩
    · exact ⟨h1, h2, h3, by dsimp only; omega, h5⟩

@[simp] theorem State.writeMem_good {q_ : List Instr} (s : State) (p : Nat) (b : List Byte) (h_ : Good q_ s.kept) : Good q_ (State.writeMem s p b).kept := by
  simp only [State.writeMem, kept_mk]; exact ⟨h_.1, h_.2.1, h_.2.2.1, h_.2.2.2.1, Memory.write_wf _ _ _ h_.2.2.2.2⟩
@[simp] theorem State.serveWait_good {q_ : List Instr} (s : State) (o : Op) (h_ : Good q_ s.kept) : Good q_ (State.serveWait s o).kept := by
  unfold State.serveWait
  dsimp only
  repeat' (first | with_reducible assumption | with_reducible apply State.writeMem_good | with_reducible refine State.runOp_good _ _ _ _ (fun o => ?_) ?_ | with_reducible refine State.writeWord_good _ _ _ _ (fun s h => ?_) ?_ | with_reducible refine foldl_good _ _ _ (fun s a h => ?_) ?_ | (simp only [kept_mk, kept_fold, goodNext_next, State.finish_kept]) | split)
@[simp] theorem State.deliverEvents_good {q_ : List Instr} (s : State) (h_ : Good q_ s.kept) : Good q_ (State.deliverEvents s).kept := by
  unfold State.deliverEvents; (repeat' (first | (simp [*]; done) | refine foldl_good _ _ _ (fun s a h => ?_) ?_ | refine State.writeWord_good _ _ _ _ (fun s h => ?_) ?_ | split))
@[simp] theorem State.event_good {q_ : List Instr} (s : State) (sid : Nat) (code : Nat) (data : Nat) (h_ : Good q_ s.kept) : Good q_ (State.event s sid code data).kept := by
  simp [State.event, h_]
@[simp] theorem State.restartFilter_good {q_ : List Instr} (s : State) (sid : Nat) (cause : Nat) (h_ : Good q_ s.kept) : Good q_ (State.restartFilter s sid cause).kept := by
  unfold State.restartFilter; (repeat' (first | (simp [*]; done) | split))
@[simp] theorem State.shockTip_good {q_ : List Instr} (s : State) (sid : Nat) (base : BaseCfg) (o : FilterOut) (h_ : Good q_ s.kept) : Good q_ (State.shockTip s sid base o).kept := by
  unfold State.shockTip; simp [h_]; (repeat' (first | (simp [*]; done) | split))
@[simp] theorem State.filterStep_good {q_ : List Instr} (s : State) (sid : Nat) (time : Nat) (v : List Word) (h_ : Good q_ s.kept) : Good q_ (State.filterStep s sid time v).kept := by
  unfold State.filterStep; simp [h_]; (repeat' (first | (simp [*]; done) | split))
@[simp] theorem State.filterSample_good {q_ : List Instr} (s : State) (sid : Nat) (time : Nat) (v : List Word) (h_ : Good q_ s.kept) : Good q_ (State.filterSample s sid time v).kept := by
  unfold State.filterSample; simp [h_]; (repeat' (first | (simp [*]; done) | split))
@[simp] theorem filterBatch_good {q_ : List Instr} (sid first period : Nat) (l : List (List Word)) (j : Nat) (s : State) (h_ : Good q_ s.kept) : Good q_ (filterBatch sid first period l j s).kept := by
  induction l generalizing j s with
  | nil => exact h_
  | cons v t ih => exact ih _ _ (State.filterSample_good _ _ _ _ h_)
@[simp] theorem State.motionBatch_good {q_ : List Instr} (s : State) (sid : Nat) (first : Nat) (samples : List (List Word)) (h_ : Good q_ s.kept) : Good q_ (State.motionBatch s sid first samples).kept := by
  unfold State.motionBatch; simp [h_]; (repeat' (first | (simp [*]; done) | split))
@[simp] theorem State.unlockTime_good {q_ : List Instr} (s : State) (sid : Nat) (cause : Nat) (offset : Nat) (h_ : Good q_ s.kept) : Good q_ (State.unlockTime s sid cause offset).kept := by
  simp [State.unlockTime, h_]
@[simp] theorem State.relockTime_good {q_ : List Instr} (s : State) (sid : Nat) (x : Session) (run : List Int) (h_ : Good q_ s.kept) : Good q_ (State.relockTime s sid x run).kept := by
  simp [State.relockTime, h_]
@[simp] theorem State.relockStep_good {q_ : List Instr} (s : State) (sid : Nat) (v : Int) (h_ : Good q_ s.kept) : Good q_ (State.relockStep s sid v).kept := by
  unfold State.relockStep; simp [h_]; (repeat' (first | (simp [*]; done) | split))
@[simp] theorem State.arrivalLate_good {q_ : List Instr} (s : State) (sid : Nat) (capture : Nat) (arrival : Nat) (h_ : Good q_ s.kept) : Good q_ (State.arrivalLate s sid capture arrival).kept := by
  unfold State.arrivalLate; simp [h_]; (repeat' (first | (simp [*]; done) | split))
@[simp] theorem State.arrivalAccepted_good {q_ : List Instr} (s : State) (sid : Nat) (capture : Nat) (arrival : Nat) (h_ : Good q_ s.kept) : Good q_ (State.arrivalAccepted s sid capture arrival).kept := by
  unfold State.arrivalAccepted; simp [h_]; (repeat' (first | (simp [*]; done) | split))
@[simp] theorem State.takeResidual_good {q_ : List Instr} (s : State) (sid : Nat) (q : Resid) (h_ : Good q_ s.kept) : Good q_ (State.takeResidual s sid q).kept := by
  unfold State.takeResidual; simp [h_]; (repeat' (first | (simp [*]; done) | split))
@[simp] theorem State.settleResiduals_good {q_ : List Instr} (s : State) (sid : Nat) (h_ : Good q_ s.kept) : Good q_ (State.settleResiduals s sid).kept := by
  unfold State.settleResiduals; (repeat' (first | (simp [*]; done) | refine foldl_good _ _ _ (fun s a h => ?_) ?_ | refine State.writeWord_good _ _ _ _ (fun s h => ?_) ?_ | split))
@[simp] theorem State.motionIn_good {q_ : List Instr} (s : State) (sid : Nat) (first : Nat) (samples : List (List Word)) (h_ : Good q_ s.kept) : Good q_ (State.motionIn s sid first samples).kept := by
  simp [State.motionIn, h_]
@[simp] theorem State.acceptFrame_good {q_ : List Instr} (s : State) (sid : Nat) (f : Frame) (h_ : Good q_ s.kept) : Good q_ (State.acceptFrame s sid f).kept := by
  unfold State.acceptFrame
  dsimp only
  repeat' (first | with_reducible assumption | with_reducible apply State.restartFilter_good | with_reducible apply State.arrivalAccepted_good | with_reducible refine State.runOp_good _ _ _ _ (fun o => ?_) ?_ | with_reducible refine State.writeWord_good _ _ _ _ (fun s h => ?_) ?_ | with_reducible refine foldl_good _ _ _ (fun s a h => ?_) ?_ | (simp only [kept_mk, kept_fold, goodNext_next, State.bump_kept, State.updSession_kept]) | split)
@[simp] theorem State.enterClosed_good {q_ : List Instr} (s : State) (sid : Nat) (reason : Nat) (h_ : Good q_ s.kept) : Good q_ (State.enterClosed s sid reason).kept := by
  simp [State.enterClosed, h_]
@[simp] theorem State.closeSession_good {q_ : List Instr} (s : State) (sid : Nat) (reason : Nat) (h_ : Good q_ s.kept) : Good q_ (State.closeSession s sid reason).kept := by
  simp [State.closeSession, h_]
@[simp] theorem execSessionOpen_good {q_ : List Instr} (op : Nat) (s : State) (h_ : Good q_ s.kept) : GoodNext q_ (execSessionOpen op s) := by
  unfold execSessionOpen
  dsimp only
  repeat' (first | with_reducible assumption | with_reducible apply State.event_good | with_reducible refine State.runOp_good _ _ _ _ (fun o => ?_) ?_ | with_reducible refine State.writeWord_good _ _ _ _ (fun s h => ?_) ?_ | with_reducible refine foldl_good _ _ _ (fun s a h => ?_) ?_ | (simp only [kept_mk, kept_fold, goodNext_next, State.spend_kept, State.finish_kept, State.placed_kept]) | split)
@[simp] theorem execEventWait_good {q_ : List Instr} (op : Nat) (s : State) (h_ : Good q_ s.kept) : GoodNext q_ (execEventWait op s) := by
  unfold execEventWait; refine State.runSub_good _ _ _ _ _ (fun o => ?_) h_; (repeat' (first | (simp [*]; done) | split))
@[simp] theorem execFrameSubmit_good {q_ : List Instr} (op : Nat) (s : State) (h_ : Good q_ s.kept) : GoodNext q_ (execFrameSubmit op s) := by
  unfold execFrameSubmit; refine State.runOp_good _ _ _ _ (fun o => ?_) h_; dsimp only; (repeat' (first | (simp [*]; done) | split))
@[simp] theorem State.mapReadDone_good {q_ : List Instr} (s : State) (o : Op) (v : MapView) (h_ : Good q_ s.kept) : Good q_ (State.mapReadDone s o v).kept := by
  unfold State.mapReadDone; simp [h_]; (repeat' (first | (simp [*]; done) | split))
@[simp] theorem State.mapRead_good {q_ : List Instr} (s : State) (o : Op) (h_ : Good q_ s.kept) : Good q_ (State.mapRead s o).kept := by
  unfold State.mapRead; simp [h_]; (repeat' (first | (simp [*]; done) | split))
@[simp] theorem execMapReadTileImage_good {q_ : List Instr} (op : Nat) (s : State) (h_ : Good q_ s.kept) : GoodNext q_ (execMapReadTileImage op s) := by
  simp [execMapReadTileImage, h_]
@[simp] theorem execMapReadKeyframes_good {q_ : List Instr} (op : Nat) (s : State) (h_ : Good q_ s.kept) : GoodNext q_ (execMapReadKeyframes op s) := by
  simp [execMapReadKeyframes, h_]
@[simp] theorem execMapReadLinks_good {q_ : List Instr} (op : Nat) (s : State) (h_ : Good q_ s.kept) : GoodNext q_ (execMapReadLinks op s) := by
  simp [execMapReadLinks, h_]
@[simp] theorem execMapReadPoints_good {q_ : List Instr} (op : Nat) (s : State) (h_ : Good q_ s.kept) : GoodNext q_ (execMapReadPoints op s) := by
  simp [execMapReadPoints, h_]
@[simp] theorem execMapReadObservations_good {q_ : List Instr} (op : Nat) (s : State) (h_ : Good q_ s.kept) : GoodNext q_ (execMapReadObservations op s) := by
  simp [execMapReadObservations, h_]
@[simp] theorem State.mergeSearch_good {q_ : List Instr} (s : State) (st : SearchSt) (h_ : Good q_ s.kept) : Good q_ (State.mergeSearch s st).kept := by
  unfold State.mergeSearch
  dsimp only
  repeat' (first | with_reducible assumption | with_reducible apply State.writeMem_good | with_reducible refine State.runOp_good _ _ _ _ (fun o => ?_) ?_ | with_reducible refine State.writeWord_good _ _ _ _ (fun s h => ?_) ?_ | with_reducible refine foldl_good _ _ _ (fun s a h => ?_) ?_ | (simp only [kept_mk, kept_fold, goodNext_next, State.complete_kept]) | split)
@[simp] theorem State.searchCheck_good {q_ : List Instr} (s : State) (op : Nat) (h_ : Good q_ s.kept) : Good q_ (State.searchCheck s op).kept := by
  unfold State.searchCheck; simp [h_]; (repeat' (first | (simp [*]; done) | split))
@[simp] theorem State.peerGone_good {q_ : List Instr} (s : State) (id : Nat) (h_ : Good q_ s.kept) : Good q_ (State.peerGone s id).kept := by
  unfold State.peerGone
  dsimp only
  repeat' (first | with_reducible assumption | with_reducible apply State.searchCheck_good | with_reducible refine State.runOp_good _ _ _ _ (fun o => ?_) ?_ | with_reducible refine State.writeWord_good _ _ _ _ (fun s h => ?_) ?_ | with_reducible refine foldl_good _ _ _ (fun s a h => ?_) ?_ | (simp only [kept_mk, kept_fold, goodNext_next]) | split)
@[simp] theorem execSearch_good {q_ : List Instr} (op : Nat) (s : State) (h_ : Good q_ s.kept) : GoodNext q_ (execSearch op s) := by
  unfold execSearch
  refine State.runOp_good _ _ _ _ (fun o => ?_) h_
  split
  · exact h_
  · split
    · simpa using h_
    · simpa using h_
    · extract_lets q b f par margin xid
      split
      · simpa using h_
      · split
        · simpa using h_
        · split
          · simpa using h_
          · extract_lets tb queried st r s1 mine st1 src s2 body s3
            refine State.searchCheck_good _ _ ?_
            rw [State.await_kept]
            have h2 : Good q_ s2.kept := by
              have h1 : Good q_ r.1.kept := by
                simp only [r]; split <;> simpa using h_
              simpa [s2, s1] using h1
            exact foldl_good _ _ _ (fun s a h => by simpa using h) h2
@[simp] theorem execPeerDeadline_good {q_ : List Instr} (op : Nat) (s : State) (h_ : Good q_ s.kept) : GoodNext q_ (execPeerDeadline op s) := by
  unfold execPeerDeadline; (repeat' (first | (simp [*]; done) | split))
@[simp] theorem execAnswer_good {q_ : List Instr} (m : AnswerMsg) (s : State) (h_ : Good q_ s.kept) : GoodNext q_ (execAnswer m s) := by
  unfold execAnswer
  dsimp only
  repeat' (first | with_reducible assumption | with_reducible apply State.searchCheck_good | with_reducible refine State.runOp_good _ _ _ _ (fun o => ?_) ?_ | with_reducible refine State.writeWord_good _ _ _ _ (fun s h => ?_) ?_ | with_reducible refine foldl_good _ _ _ (fun s a h => ?_) ?_ | (simp only [kept_mk, kept_fold, goodNext_next, State.bump_kept, State.taken_kept]) | split)
@[simp] theorem State.vecDone_good {q_ : List Instr} (s : State) (o : Op) (h_ : Good q_ s.kept) : Good q_ (State.vecDone s o).kept := by
  simp [State.vecDone, h_]
@[simp] theorem State.vecOp_good {q_ : List Instr} (s : State) (o : Op) (insert : Bool) (h_ : Good q_ s.kept) : Good q_ (State.vecOp s o insert).kept := by
  unfold State.vecOp; simp [h_]; (repeat' (first | (simp [*]; done) | split))
@[simp] theorem execVecInsert_good {q_ : List Instr} (op : Nat) (s : State) (h_ : Good q_ s.kept) : GoodNext q_ (execVecInsert op s) := by
  simp [execVecInsert, h_]
@[simp] theorem execVecDelete_good {q_ : List Instr} (op : Nat) (s : State) (h_ : Good q_ s.kept) : GoodNext q_ (execVecDelete op s) := by
  simp [execVecDelete, h_]
@[simp] theorem execRecallProbe_good {q_ : List Instr} (op : Nat) (s : State) (h_ : Good q_ s.kept) : GoodNext q_ (execRecallProbe op s) := by
  unfold execRecallProbe; refine State.runOp_good _ _ _ _ (fun o => ?_) h_; dsimp only; (repeat' (first | (simp [*]; done) | split))
@[simp] theorem State.answerQuery_good {q_ : List Instr} (s : State) (o : Op) (r : VisionResult) (h_ : Good q_ s.kept) : Good q_ (State.answerQuery s o r).kept := by
  simp [State.answerQuery, h_]
@[simp] theorem State.copyResult_good {q_ : List Instr} (s : State) (o : Op) (x : Session) (r : VisionResult) (h_ : Good q_ s.kept) : Good q_ (State.copyResult s o x r).kept := by
  simp [State.copyResult, h_]
@[simp] theorem State.trackQuery_good {q_ : List Instr} (s : State) (o : Op) (h_ : Good q_ s.kept) : Good q_ (State.trackQuery s o).kept := by
  unfold State.trackQuery; simp [h_]; (repeat' (first | (simp [*]; done) | split))
@[simp] theorem execTrackQueryFeatures_good {q_ : List Instr} (op : Nat) (s : State) (h_ : Good q_ s.kept) : GoodNext q_ (execTrackQueryFeatures op s) := by
  simp [execTrackQueryFeatures, h_]
@[simp] theorem execTrackQueryTracks_good {q_ : List Instr} (op : Nat) (s : State) (h_ : Good q_ s.kept) : GoodNext q_ (execTrackQueryTracks op s) := by
  simp [execTrackQueryTracks, h_]
@[simp] theorem execTrackQueryDisparity_good {q_ : List Instr} (op : Nat) (s : State) (h_ : Good q_ s.kept) : GoodNext q_ (execTrackQueryDisparity op s) := by
  simp [execTrackQueryDisparity, h_]
@[simp] theorem execTrackQueryProject_good {q_ : List Instr} (op : Nat) (s : State) (h_ : Good q_ s.kept) : GoodNext q_ (execTrackQueryProject op s) := by
  unfold execTrackQueryProject; refine State.runSub_good _ _ _ _ _ (fun o => ?_) h_; dsimp only; (repeat' (first | (simp [*]; done) | split))
@[simp] theorem State.endBootstrap_good {q_ : List Instr} (s : State) (sid : Nat) (h_ : Good q_ s.kept) : Good q_ (State.endBootstrap s sid).kept := by
  unfold State.endBootstrap; simp [h_]; (repeat' (first | (simp [*]; done) | split))
@[simp] theorem State.completeFrame_good {q_ : List Instr} (s : State) (f : Frame) (r : PoseRec) (h_ : Good q_ s.kept) : Good q_ (State.completeFrame s f r).kept := by
  unfold State.completeFrame; (repeat' (first | (simp [*]; done) | split))
@[simp] theorem State.stationFrame_good {q_ : List Instr} (s : State) (x : Session) (f : Frame) (r : VisionResult) (h_ : Good q_ s.kept) : Good q_ (State.stationFrame s x f r).kept := by
  simp [State.stationFrame, h_]
@[simp] theorem State.seeFrame_good {q_ : List Instr} (s : State) (x : Session) (f : Frame) (h_ : Good q_ s.kept) : Good q_ (State.seeFrame s x f).kept := by
  unfold State.seeFrame; (repeat' (first | (simp [*]; done) | split))
@[simp] theorem execVisionFrame_good {q_ : List Instr} (sid : Nat) (frameNo : Nat) (s : State) (h_ : Good q_ s.kept) : GoodNext q_ (execVisionFrame sid frameNo s) := by
  unfold execVisionFrame; (repeat' (first | (simp [*]; done) | split))
@[simp] theorem State.relocalise_good {q_ : List Instr} (s : State) (sid : Nat) (f : Frame) (r : VisionResult) (h_ : Good q_ s.kept) : Good q_ (State.relocalise s sid f r).kept := by
  unfold State.relocalise; simp [h_]; (repeat' (first | (simp [*]; done) | split))
@[simp] theorem State.stepEvent_good {q_ : List Instr} (s : State) (sid : Nat) (old : Fusion) (new : Fusion) (fixed : Bool) (hold : Bool) (h_ : Good q_ s.kept) : Good q_ (State.stepEvent s sid old new fixed hold).kept := by
  simp [State.stepEvent, h_]
@[simp] theorem State.fuseFrame_good {q_ : List Instr} (s : State) (x0 : Session) (f : Frame) (r : VisionResult) (h_ : Good q_ s.kept) : Good q_ (State.fuseFrame s x0 f r).kept := by
  unfold State.fuseFrame
  dsimp only
  repeat' (first | with_reducible assumption | with_reducible apply State.stepEvent_good | with_reducible apply State.settleResiduals_good | with_reducible apply State.completeFrame_good | with_reducible apply State.relocalise_good | with_reducible refine State.runOp_good _ _ _ _ (fun o => ?_) ?_ | with_reducible refine State.writeWord_good _ _ _ _ (fun s h => ?_) ?_ | with_reducible refine foldl_good _ _ _ (fun s a h => ?_) ?_ | (simp only [kept_mk, kept_fold, goodNext_next, State.bump_kept, State.updSession_kept, State.frameDone_kept, State.contribute_kept]) | split)
@[simp] theorem execFusionFrame_good {q_ : List Instr} (sid : Nat) (frameNo : Nat) (s : State) (h_ : Good q_ s.kept) : GoodNext q_ (execFusionFrame sid frameNo s) := by
  unfold execFusionFrame
  repeat' (first | with_reducible assumption | with_reducible apply State.fuseFrame_good | with_reducible refine State.runOp_good _ _ _ _ (fun o => ?_) ?_ | with_reducible refine State.writeWord_good _ _ _ _ (fun s h => ?_) ?_ | with_reducible refine foldl_good _ _ _ (fun s a h => ?_) ?_ | (simp only [kept_mk, kept_fold, goodNext_next]) | split)
@[simp] theorem execFusionIntervalClose_good {q_ : List Instr} (sid : Nat) (s : State) (h_ : Good q_ s.kept) : GoodNext q_ (execFusionIntervalClose sid s) := by
  unfold execFusionIntervalClose; simp [h_]; (repeat' (first | (simp [*]; done) | split))
@[simp] theorem State.endFrame_good {q_ : List Instr} (s : State) (sid : Nat) (frameNo : Nat) (h_ : Good q_ s.kept) : Good q_ (State.endFrame s sid frameNo).kept := by
  unfold State.endFrame; simp [h_]; (repeat' (first | (simp [*]; done) | split))
@[simp] theorem execSessionClose_good {q_ : List Instr} (op : Nat) (s : State) (h_ : Good q_ s.kept) : GoodNext q_ (execSessionClose op s) := by
  unfold execSessionClose
  dsimp only
  repeat' (first | with_reducible assumption | with_reducible apply State.endFrame_good | with_reducible apply State.event_good | with_reducible refine State.runOp_good _ _ _ _ (fun o => ?_) ?_ | with_reducible refine State.writeWord_good _ _ _ _ (fun s h => ?_) ?_ | with_reducible refine foldl_good _ _ _ (fun s a h => ?_) ?_ | (simp only [kept_mk, kept_fold, goodNext_next, State.endUnstarted_kept, State.finish_kept, State.quiesce_kept, State.sendUsp_kept, State.freeSession_kept]) | split)
@[simp] theorem State.solveDone_good {q_ : List Instr} (s : State) (o : Op) (st : SolveSt) (refused : Bool) (epoch : Nat) (h_ : Good q_ s.kept) : Good q_ (State.solveDone s o st refused epoch).kept := by
  unfold State.solveDone
  dsimp only
  repeat' (first | with_reducible assumption | with_reducible apply State.writeMem_good | with_reducible refine State.runOp_good _ _ _ _ (fun o => ?_) ?_ | with_reducible refine State.writeWord_good _ _ _ _ (fun s h => ?_) ?_ | with_reducible refine foldl_good _ _ _ (fun s a h => ?_) ?_ | (simp only [kept_mk, kept_fold, goodNext_next, State.bump_kept, State.endSolve_kept, State.complete_kept]) | split)
@[simp] theorem State.runSolve_good {q_ : List Instr} (s : State) (o : Op) (st : SolveSt) (pb : Problem) (epoch : Nat) (h_ : Good q_ s.kept) : Good q_ (State.runSolve s o st pb epoch).kept := by
  unfold State.runSolve
  extract_lets x es vars start pb2 r it chi rejected flags candBytes res status moved link u st2 s1 s2 e r2 needs data
  have h2 : Good q_ s2.kept := by simpa [s2, s1] using h_
  have h3 : Good q_ r2.kept := by simpa [r2] using h2
  split
  · exact State.solveDone_good _ _ _ _ _ h2
  · split
    · exact h2
    · split
      · split
        · split
          · exact State.solveDone_good _ _ _ _ _ h3
          · simpa using h3
        · exact State.solveDone_good _ _ _ _ _ h2
      · split
        · simpa using h2
        · exact State.solveDone_good _ _ _ _ _ h2
@[simp] theorem State.stepSolve_good {q_ : List Instr} (s : State) (o : Op) (st : SolveSt) (h_ : Good q_ s.kept) : Good q_ (State.stepSolve s o st).kept := by
  unfold State.stepSolve; simp [h_]; (repeat' (first | (simp [*]; done) | split))
@[simp] theorem execSolve_good {q_ : List Instr} (op : Nat) (s : State) (h_ : Good q_ s.kept) : GoodNext q_ (execSolve op s) := by
  unfold execSolve; refine State.runOp_good _ _ _ _ (fun o => ?_) h_; (repeat' (first | (simp [*]; done) | split))
@[simp] theorem State.solveAnswered_good {q_ : List Instr} (s : State) (o : Op) (h_ : Good q_ s.kept) : Good q_ (State.solveAnswered s o).kept := by
  unfold State.solveAnswered
  dsimp only
  repeat' (first | with_reducible assumption | with_reducible apply State.solveDone_good | with_reducible refine State.runOp_good _ _ _ _ (fun o => ?_) ?_ | with_reducible refine State.writeWord_good _ _ _ _ (fun s h => ?_) ?_ | with_reducible refine foldl_good _ _ _ (fun s a h => ?_) ?_ | (simp only [kept_mk, kept_fold, goodNext_next, State.putSolve_kept, State.withdrawChange_kept, State.decideChange_kept, State.endSolve_kept, State.complete_kept, State.dropRequests_kept, State.awaitAcks_kept, State.updOp_kept, State.commit_kept]) | split)
@[simp] theorem execCalibSolveResult_good {q_ : List Instr} (sid : Nat) (s : State) (h_ : Good q_ s.kept) : GoodNext q_ (execCalibSolveResult sid s) := by
  unfold execCalibSolveResult; simp [h_]; (repeat' (first | (simp [*]; done) | split))
@[simp] theorem State.storeWork_good {q_ : List Instr} (s : State) (o : Op) (img : List Byte) (bufs : List (List Byte)) (h_ : Good q_ s.kept) : Good q_ (State.storeWork s o img bufs).kept := by
  unfold State.storeWork; (repeat' (first | (simp [*]; done) | refine foldl_good _ _ _ (fun s a h => ?_) ?_ | refine State.writeWord_good _ _ _ _ (fun s h => ?_) ?_ | split))
@[simp] theorem State.inferDone_good {q_ : List Instr} (s : State) (o : Op) (img : List Byte) (i : InferSt) (bufs : List (List Byte)) (h_ : Good q_ s.kept) : Good q_ (State.inferDone s o img i bufs).kept := by
  unfold State.inferDone
  dsimp only
  repeat' (first | with_reducible assumption | with_reducible apply State.writeMem_good | with_reducible refine State.runOp_good _ _ _ _ (fun o => ?_) ?_ | with_reducible refine State.writeWord_good _ _ _ _ (fun s h => ?_) ?_ | with_reducible refine foldl_good _ _ _ (fun s a h => ?_) ?_ | (simp only [kept_mk, kept_fold, goodNext_next, State.endInfer_kept, State.syncPool_kept, State.finish_kept, State.updProg_kept]) | split)
@[simp] theorem execInferLayerStart_good {q_ : List Instr} (op : Nat) (layer : Nat) (s : State) (h_ : Good q_ s.kept) : GoodNext q_ (execInferLayerStart op layer s) := by
  unfold execInferLayerStart
  dsimp only
  repeat' (first | with_reducible assumption | with_reducible apply State.inferDone_good | with_reducible apply State.storeWork_good | with_reducible refine State.runOp_good _ _ _ _ (fun o => ?_) ?_ | with_reducible refine State.writeWord_good _ _ _ _ (fun s h => ?_) ?_ | with_reducible refine foldl_good _ _ _ (fun s a h => ?_) ?_ | (simp only [kept_mk, kept_fold, goodNext_next, State.pondWork_kept, State.bumpBy_kept, State.endInfer_kept, State.spend_kept, State.updInfer_kept, State.finish_kept, State.updProg_kept]) | split)
@[simp] theorem State.freeParcels_good {q_ : List Instr} (s : State) (h_ : Good q_ s.kept) : Good q_ (State.freeParcels s).kept := by
  simp only [State.freeParcels, kept_mk]
  refine ⟨h_.1, h_.2.1, h_.2.2.1, h_.2.2.2.1, ?_⟩
  have key : ∀ (l : List Parcel) (m : Memory), m.wf = true → (l.foldl (fun (m : Memory) (q : Parcel) => m.clear (parcelPtr q.num) 65536) m).wf = true := by
    intro l
    induction l with
    | nil => exact fun m hm => hm
    | cons x t ih => exact fun m hm => ih _ (Memory.clear_wf m _ _ hm)
  exact key _ _ h_.2.2.2.2
@[simp] theorem State.writeReachSize_good {q_ : List Instr} (s : State) (fn : Nat) (key : Nat) (val : Word) (h_ : Good q_ s.kept) : Good q_ (State.writeReachSize s fn key val).kept := by
  unfold State.writeReachSize
  dsimp only
  repeat' (first | with_reducible assumption | with_reducible apply State.freeParcels_good | with_reducible refine State.runOp_good _ _ _ _ (fun o => ?_) ?_ | with_reducible refine State.writeWord_good _ _ _ _ (fun s h => ?_) ?_ | with_reducible refine foldl_good _ _ _ (fun s a h => ?_) ?_ | (simp only [kept_mk, kept_fold, goodNext_next, State.lockViolation_kept, State.setExtent_kept]) | split)
@[simp] theorem execBar2Access_good {q_ : List Instr} (fn : Nat) (write : Bool) (off : Nat) (len : Nat) (data : List Byte) (s : State) (h_ : Good q_ s.kept) : GoodNext q_ (execBar2Access fn write off len data s) := by
  unfold execBar2Access
  dsimp only
  repeat' (first | with_reducible assumption | with_reducible apply State.writeMem_good | with_reducible refine State.runOp_good _ _ _ _ (fun o => ?_) ?_ | with_reducible refine State.writeWord_good _ _ _ _ (fun s h => ?_) ?_ | with_reducible refine foldl_good _ _ _ (fun s a h => ?_) ?_ | (simp only [kept_mk, kept_fold, goodNext_next, State.bump_kept]) | split)
@[simp] theorem State.moveChunk_good {q_ : List Instr} (s : State) (o : Op) (data : List Byte) (h_ : Good q_ s.kept) : Good q_ (State.moveChunk s o data).kept := by
  simp [State.moveChunk, h_]
@[simp] theorem execMove_good {q_ : List Instr} (op : Nat) (s : State) (h_ : Good q_ s.kept) : GoodNext q_ (execMove op s) := by
  unfold execMove; refine State.runOp_good _ _ _ _ (fun o => ?_) h_; (repeat' (first | (simp [*]; done) | split))
@[simp] theorem execMoveFill_good {q_ : List Instr} (op : Nat) (s : State) (h_ : Good q_ s.kept) : GoodNext q_ (execMoveFill op s) := by
  unfold execMoveFill; refine State.runOp_good _ _ _ _ (fun o => ?_) h_; (repeat' (first | (simp [*]; done) | split))
@[simp] theorem State.ackDone_good {q_ : List Instr} (s : State) (w : AckWait) (h_ : Good q_ s.kept) : Good q_ (State.ackDone s w).kept := by
  unfold State.ackDone; simp [h_]; (repeat' (first | (simp [*]; done) | split))
@[simp] theorem State.acksDone_good {q_ : List Instr} (s : State) (h_ : Good q_ s.kept) : Good q_ (State.acksDone s).kept := by
  unfold State.acksDone
  dsimp only
  repeat' (first | with_reducible assumption | with_reducible apply State.ackDone_good | with_reducible refine State.runOp_good _ _ _ _ (fun o => ?_) ?_ | with_reducible refine State.writeWord_good _ _ _ _ (fun s h => ?_) ?_ | with_reducible refine foldl_good _ _ _ (fun s a h => ?_) ?_ | (simp only [kept_mk, kept_fold, goodNext_next]) | split)
@[simp] theorem execMirrorAck_good {q_ : List Instr} (src : Nat) (seq : Nat) (s : State) (h_ : Good q_ s.kept) : GoodNext q_ (execMirrorAck src seq s) := by
  unfold execMirrorAck
  dsimp only
  repeat' (first | with_reducible assumption | with_reducible apply State.acksDone_good | with_reducible refine State.runOp_good _ _ _ _ (fun o => ?_) ?_ | with_reducible refine State.writeWord_good _ _ _ _ (fun s h => ?_) ?_ | with_reducible refine foldl_good _ _ _ (fun s a h => ?_) ?_ | (simp only [kept_mk, kept_fold, goodNext_next, State.setStream_kept, State.taken_kept]) | split)
@[simp] theorem State.report_good {q_ : List Instr} (s : State) (o : Op) (size : Nat) (recs : List (List Byte)) (h_ : Good q_ s.kept) : Good q_ (State.report s o size recs).kept := by
  simp [State.report, h_]
@[simp] theorem State.diag_good {q_ : List Instr} (s : State) (op : Nat) (sub : Nat) (size : Nat) (recs : Op → List (List Byte)) (h_ : Good q_ s.kept) : GoodNext q_ (State.diag s op sub size recs) := by
  simp [State.diag, h_]
@[simp] theorem execDiagSessions_good {q_ : List Instr} (op : Nat) (s : State) (h_ : Good q_ s.kept) : GoodNext q_ (execDiagSessions op s) := by
  simp [execDiagSessions, h_]
@[simp] theorem execDiagClusters_good {q_ : List Instr} (op : Nat) (s : State) (h_ : Good q_ s.kept) : GoodNext q_ (execDiagClusters op s) := by
  simp [execDiagClusters, h_]
@[simp] theorem execDiagTiles_good {q_ : List Instr} (op : Nat) (s : State) (h_ : Good q_ s.kept) : GoodNext q_ (execDiagTiles op s) := by
  simp [execDiagTiles, h_]
@[simp] theorem State.answered_good {q_ : List Instr} (s : State) (id : Nat) (h_ : Good q_ s.kept) : Good q_ (State.answered s id).kept := by
  unfold State.answered
  repeat' (first | with_reducible assumption | with_reducible apply State.vecDone_good | with_reducible apply State.solveAnswered_good | with_reducible apply State.mapReadDone_good | with_reducible refine State.runOp_good _ _ _ _ (fun o => ?_) ?_ | with_reducible refine State.writeWord_good _ _ _ _ (fun s h => ?_) ?_ | with_reducible refine foldl_good _ _ _ (fun s a h => ?_) ?_ | (simp only [kept_mk, kept_fold, goodNext_next, State.ownAnswered_kept, State.complete_kept, State.dropRequests_kept, State.editAnswered_kept]) | split)
@[simp] theorem execRemoteResp_good {q_ : List Instr} (m : RemoteRespMsg) (s : State) (h_ : Good q_ s.kept) : GoodNext q_ (execRemoteResp m s) := by
  unfold execRemoteResp
  dsimp only
  repeat' (first | with_reducible assumption | with_reducible apply State.answered_good | with_reducible refine State.runOp_good _ _ _ _ (fun o => ?_) ?_ | with_reducible refine State.writeWord_good _ _ _ _ (fun s h => ?_) ?_ | with_reducible refine foldl_good _ _ _ (fun s a h => ?_) ?_ | (simp only [kept_mk, kept_fold, goodNext_next, State.bumpBy_kept, State.taken_kept]) | split)
@[simp] theorem State.membersLost_good {q_ : List Instr} (s : State) (gone : List Nat) (h_ : Good q_ s.kept) : Good q_ (State.membersLost s gone).kept := by
  unfold State.membersLost
  dsimp only
  repeat' (first | with_reducible assumption | with_reducible apply State.answered_good | with_reducible refine State.runOp_good _ _ _ _ (fun o => ?_) ?_ | with_reducible refine State.writeWord_good _ _ _ _ (fun s h => ?_) ?_ | with_reducible refine foldl_good _ _ _ (fun s a h => ?_) ?_ | (simp only [kept_mk, kept_fold, goodNext_next, State.withdrawChange_kept, State.dropRequests_kept]) | split)
@[simp] theorem State.adopt_good {q_ : List Instr} (s : State) (viewNo : Nat) (members : Nat) (h_ : Good q_ s.kept) : Good q_ (State.adopt s viewNo members).kept := by
  unfold State.adopt
  dsimp only
  repeat' (first | with_reducible assumption | with_reducible apply State.peerGone_good | with_reducible apply State.membersLost_good | with_reducible apply State.acksDone_good | with_reducible refine State.runOp_good _ _ _ _ (fun o => ?_) ?_ | with_reducible refine State.writeWord_good _ _ _ _ (fun s h => ?_) ?_ | with_reducible refine foldl_good _ _ _ (fun s a h => ?_) ?_ | (simp only [kept_mk, kept_fold, goodNext_next, State.log_kept, State.dropHandover_kept, State.resendStreams_kept]) | split)
@[simp] theorem State.formView_good {q_ : List Instr} (s : State) (members : Nat) (h_ : Good q_ s.kept) : Good q_ (State.formView s members).kept := by
  unfold State.formView
  dsimp only
  repeat' (first | with_reducible assumption | with_reducible apply State.adopt_good | with_reducible refine State.runOp_good _ _ _ _ (fun o => ?_) ?_ | with_reducible refine State.writeWord_good _ _ _ _ (fun s h => ?_) ?_ | with_reducible refine foldl_good _ _ _ (fun s a h => ?_) ?_ | (simp only [kept_mk, kept_fold, goodNext_next, State.tellTables_kept, State.sendFz_kept, State.isolate_kept]) | split)
@[simp] theorem execJoin_good {q_ : List Instr} (src : Nat) (h : Hello) (s : State) (h_ : Good q_ s.kept) : GoodNext q_ (execJoin src h s) := by
  unfold execJoin
  dsimp only
  repeat' (first | with_reducible assumption | with_reducible apply State.formView_good | with_reducible refine State.runOp_good _ _ _ _ (fun o => ?_) ?_ | with_reducible refine State.writeWord_good _ _ _ _ (fun s h => ?_) ?_ | with_reducible refine foldl_good _ _ _ (fun s a h => ?_) ?_ | (simp only [kept_mk, kept_fold, goodNext_next, State.sendFz_kept, State.taken_kept]) | split)
@[simp] theorem execView_good {q_ : List Instr} (viewNo : Nat) (leader : Nat) (members : Nat) (s : State) (h_ : Good q_ s.kept) : GoodNext q_ (execView viewNo leader members s) := by
  unfold execView
  dsimp only
  repeat' (first | with_reducible assumption | with_reducible apply State.adopt_good | with_reducible refine State.runOp_good _ _ _ _ (fun o => ?_) ?_ | with_reducible refine State.writeWord_good _ _ _ _ (fun s h => ?_) ?_ | with_reducible refine foldl_good _ _ _ (fun s a h => ?_) ?_ | (simp only [kept_mk, kept_fold, goodNext_next, State.sendFz_kept, State.taken_kept, State.isolate_kept]) | split)
@[simp] theorem execMemberTimeout_good {q_ : List Instr} (id : Nat) (s : State) (h_ : Good q_ s.kept) : GoodNext q_ (execMemberTimeout id s) := by
  unfold execMemberTimeout; simp [h_]; (repeat' (first | (simp [*]; done) | split))
@[simp] theorem execLeave_good {q_ : List Instr} (src : Nat) (_reason : Nat) (s : State) (h_ : Good q_ s.kept) : GoodNext q_ (execLeave src _reason s) := by
  unfold execLeave
  dsimp only
  repeat' (first | with_reducible assumption | with_reducible apply State.formView_good | with_reducible refine State.runOp_good _ _ _ _ (fun o => ?_) ?_ | with_reducible refine State.writeWord_good _ _ _ _ (fun s h => ?_) ?_ | with_reducible refine foldl_good _ _ _ (fun s a h => ?_) ?_ | (simp only [kept_mk, kept_fold, goodNext_next, State.taken_kept]) | split)
@[simp] theorem execGracefulLeaveComplete_good {q_ : List Instr} (s : State) (h_ : Good q_ s.kept) : GoodNext q_ (execGracefulLeaveComplete s) := by
  unfold execGracefulLeaveComplete; dsimp only; (repeat' (first | (simp [*]; done) | refine foldl_good _ _ _ (fun s a h => ?_) ?_ | refine State.writeWord_good _ _ _ _ (fun s h => ?_) ?_ | split))
@[simp] theorem State.forceView_good {q_ : List Instr} (s : State) (reachable : Nat) (h_ : Good q_ s.kept) : Good q_ (State.forceView s reachable).kept := by
  simp [State.forceView, h_]
@[simp] theorem State.authFail_good {q_ : List Instr} (s : State) (sid : Nat) (h_ : Good q_ s.kept) : Good q_ (State.authFail s sid).kept := by
  unfold State.authFail; simp [h_]; (repeat' (first | (simp [*]; done) | split))
@[simp] theorem State.openReq_good {q_ : List Instr} (s : State) (x : Session) (p : UspPacket) (h_ : Good q_ s.kept) : Good q_ (State.openReq s x p).kept := by
  simp [State.openReq, h_]
@[simp] theorem State.rate_good {q_ : List Instr} (s : State) (x : Session) (p : UspPacket) (h_ : Good q_ s.kept) : Good q_ (State.rate s x p).kept := by
  simp [State.rate, h_]
@[simp] theorem State.frameOut_good {q_ : List Instr} (s : State) (sid : Nat) (r : Reasm) (h_ : Good q_ s.kept) : Good q_ (State.frameOut s sid r).kept := by
  unfold State.frameOut; simp [h_]; (repeat' (first | (simp [*]; done) | split))
@[simp] theorem State.abandonFrame_good {q_ : List Instr} (s : State) (sid : Nat) (r : Reasm) (h_ : Good q_ s.kept) : Good q_ (State.abandonFrame s sid r).kept := by
  simp [State.abandonFrame, h_]
@[simp] theorem State.fragJoin_good {q_ : List Instr} (s : State) (x : Session) (r : Reasm) (b : List Byte) (h_ : Good q_ s.kept) : Good q_ (State.fragJoin s x r b).kept := by
  simp [State.fragJoin, h_]
@[simp] theorem State.fragment_good {q_ : List Instr} (s : State) (x : Session) (b : List Byte) (h_ : Good q_ s.kept) : Good q_ (State.fragment s x b).kept := by
  unfold State.fragment
  dsimp only
  repeat' (first | with_reducible assumption | with_reducible apply State.abandonFrame_good | with_reducible apply State.fragJoin_good | with_reducible apply State.arrivalLate_good | with_reducible refine State.runOp_good _ _ _ _ (fun o => ?_) ?_ | with_reducible refine State.writeWord_good _ _ _ _ (fun s h => ?_) ?_ | with_reducible refine foldl_good _ _ _ (fun s a h => ?_) ?_ | (simp only [kept_mk, kept_fold, goodNext_next, State.bump_kept, State.updSession_kept]) | split)
@[simp] theorem State.motion_good {q_ : List Instr} (s : State) (x : Session) (p : UspPacket) (h_ : Good q_ s.kept) : Good q_ (State.motion s x p).kept := by
  simp [State.motion, h_]
@[simp] theorem State.uspAccepted_good {q_ : List Instr} (s : State) (p : UspPacket) (h_ : Good q_ s.kept) : Good q_ (State.uspAccepted s p).kept := by
  unfold State.uspAccepted; simp [h_]; (repeat' (first | (simp [*]; done) | split))
@[simp] theorem State.uspReceive_good {q_ : List Instr} (s : State) (src : SrcAddr) (b : List Byte) (h_ : Good q_ s.kept) : Good q_ (State.uspReceive s src b).kept := by
  unfold State.uspReceive; simp [h_]; (repeat' (first | (simp [*]; done) | split))
@[simp] theorem execReassemblyTimeout_good {q_ : List Instr} (sid : Nat) (frameNo : Nat) (s : State) (h_ : Good q_ s.kept) : GoodNext q_ (execReassemblyTimeout sid frameNo s) := by
  unfold execReassemblyTimeout; (repeat' (first | (simp [*]; done) | split))
@[simp] theorem execSilentTimeout_good {q_ : List Instr} (sid : Nat) (s : State) (h_ : Good q_ s.kept) : GoodNext q_ (execSilentTimeout sid s) := by
  unfold execSilentTimeout; simp [h_]; (repeat' (first | (simp [*]; done) | split))
@[simp] theorem execLingerExpiry_good {q_ : List Instr} (sid : Nat) (s : State) (h_ : Good q_ s.kept) : GoodNext q_ (execLingerExpiry sid s) := by
  unfold execLingerExpiry; (repeat' (first | (simp [*]; done) | split))
@[simp] theorem State.passThrough_good {q_ : List Instr} (s : State) (port : Nat) (frame : List Byte) (h_ : Good q_ s.kept) : Good q_ (State.passThrough s port frame).kept := by
  unfold State.passThrough; simp [h_]; (repeat' (first | (simp [*]; done) | split))
@[simp] theorem execNetFrameReceive_good {q_ : List Instr} (f : RxFrame) (s : State) (h_ : Good q_ s.kept) : GoodNext q_ (execNetFrameReceive f s) := by
  unfold execNetFrameReceive; simp [h_]; (repeat' (first | (simp [*]; done) | split))
@[simp] theorem State.writeRecord_good {q_ : List Instr} (s : State) (fn : Nat) (n : Nat) (h_ : Good q_ s.kept) : Good q_ (State.writeRecord s fn n).kept := by
  simp [State.writeRecord, h_]
@[simp] theorem State.writeBack_good {q_ : List Instr} (s : State) (fn : Nat) (n : Nat) (h_ : Good q_ s.kept) : Good q_ (State.writeBack s fn n).kept := by
  simp [State.writeBack, h_]
@[simp] theorem State.putSq_good {q_ : List Instr} (s : State) (fn : Nat) (n : Nat) (c : SqCtx) (h_ : Good q_ s.kept) : Good q_ (State.putSq s fn n c).kept := by
  simp [State.putSq, h_]
@[simp] theorem State.setStall_good {q_ : List Instr} (s : State) (fn : Nat) (n : Nat) (tags : Bool) (cq : Bool) (h_ : Good q_ s.kept) : Good q_ (State.setStall s fn n tags cq).kept := by
  unfold State.setStall
  dsimp only
  repeat' (first | with_reducible assumption | with_reducible apply State.putSq_good | with_reducible refine State.runOp_good _ _ _ _ (fun o => ?_) ?_ | with_reducible refine State.writeWord_good _ _ _ _ (fun s h => ?_) ?_ | with_reducible refine foldl_good _ _ _ (fun s a h => ?_) ?_ | (simp only [kept_mk, kept_fold, goodNext_next, State.endStall_kept]) | split)
@[simp] theorem State.noteStall_good {q_ : List Instr} (s : State) (fn : Nat) (n : Nat) (h_ : Good q_ s.kept) : Good q_ (State.noteStall s fn n).kept := by
  simp [State.noteStall, h_]
@[simp] theorem State.restall_good {q_ : List Instr} (s : State) (h_ : Good q_ s.kept) : Good q_ (State.restall s).kept := by
  unfold State.restall; (repeat' (first | (simp [*]; done) | refine foldl_good _ _ _ (fun s a h => ?_) ?_ | refine State.writeWord_good _ _ _ _ (fun s h => ?_) ?_ | split))
@[simp] theorem State.sweepSq_good {q_ : List Instr} (s : State) (fn : Nat) (n : Nat) (h_ : Good q_ s.kept) : Good q_ (State.sweepSq s fn n).kept := by
  simp [State.sweepSq, h_]
@[simp] theorem State.sweep_good {q_ : List Instr} (s : State) (fn : Nat) (group : Option Nat) (h_ : Good q_ s.kept) : Good q_ (State.sweep s fn group).kept := by
  unfold State.sweep; (repeat' (first | (simp [*]; done) | refine foldl_good _ _ _ (fun s a h => ?_) ?_ | refine State.writeWord_good _ _ _ _ (fun s h => ?_) ?_ | split))
@[simp] theorem execDoorbellSweep_good {q_ : List Instr} (fn : Nat) (group : Option Nat) (s : State) (h_ : Good q_ s.kept) : GoodNext q_ (execDoorbellSweep fn group s) := by
  unfold execDoorbellSweep
  dsimp only
  repeat' (first | with_reducible assumption | with_reducible apply State.sweep_good | with_reducible refine State.runOp_good _ _ _ _ (fun o => ?_) ?_ | with_reducible refine State.writeWord_good _ _ _ _ (fun s h => ?_) ?_ | with_reducible refine foldl_good _ _ _ (fun s a h => ?_) ?_ | (simp only [kept_mk, kept_fold, goodNext_next, State.nextSweep_kept, State.setFnc_kept]) | split)
@[simp] theorem State.blurBufs_good {q_ : List Instr} (s : State) (o : Op) (h_ : Good q_ s.kept) : Good q_ (State.blurBufs s o).kept := by
  unfold State.blurBufs; (repeat' (first | (simp [*]; done) | refine foldl_good _ _ _ (fun s a h => ?_) ?_ | refine State.writeWord_good _ _ _ _ (fun s h => ?_) ?_ | split))
@[simp] theorem State.settleBufs_good {q_ : List Instr} (s : State) (h_ : Good q_ s.kept) : Good q_ (State.settleBufs s).kept := by
  unfold State.settleBufs; (repeat' (first | (simp [*]; done) | refine foldl_good _ _ _ (fun s a h => ?_) ?_ | refine State.writeWord_good _ _ _ _ (fun s h => ?_) ?_ | split))
@[simp] theorem execOperationStart_good {q_ : List Instr} (op : Nat) (s : State) (h_ : Good q_ s.kept) : GoodNext q_ (execOperationStart op s) := by
  unfold execOperationStart; simp [h_]; (repeat' (first | (simp [*]; done) | split))
@[simp] theorem State.writeEntry_good {q_ : List Instr} (s : State) (addr : Nat) (e : List Byte) (h_ : Good q_ s.kept) : Good q_ (State.writeEntry s addr e).kept := by
  simp [State.writeEntry, h_]
@[simp] theorem State.closeAll_good {q_ : List Instr} (s : State) (h_ : Good q_ s.kept) : Good q_ (State.closeAll s).kept := by
  unfold State.closeAll; (repeat' (first | (simp [*]; done) | refine foldl_good _ _ _ (fun s a h => ?_) ?_ | refine State.writeWord_good _ _ _ _ (fun s h => ?_) ?_ | split))
@[simp] theorem State.enterSafeHold_good {q_ : List Instr} (s : State) (code : Nat) (h_ : Good q_ s.kept) : Good q_ (State.enterSafeHold s code).kept := by
  unfold State.enterSafeHold
  dsimp only
  repeat' (first | with_reducible assumption | with_reducible apply State.closeAll_good | with_reducible refine State.runOp_good _ _ _ _ (fun o => ?_) ?_ | with_reducible refine State.writeWord_good _ _ _ _ (fun s h => ?_) ?_ | with_reducible refine foldl_good _ _ _ (fun s a h => ?_) ?_ | (simp only [kept_mk, kept_fold, goodNext_next, State.drainFabric_kept, State.sendLeave_kept, State.log_kept, State.drainPort_kept, State.holdOps_kept]) | split)
@[simp] theorem State.deviceFault_good {q_ : List Instr} (s : State) (code : Nat) (h_ : Good q_ s.kept) : Good q_ (State.deviceFault s code).kept := by
  simp [State.deviceFault, h_]
@[simp] theorem execSafeHold_good {q_ : List Instr} (code : Nat) (s : State) (h_ : Good q_ s.kept) : GoodNext q_ (execSafeHold code s) := by
  simp [execSafeHold, h_]
@[simp] theorem execThermalLimit_good {q_ : List Instr} (s : State) (h_ : Good q_ s.kept) : GoodNext q_ (execThermalLimit s) := by
  simp [execThermalLimit, h_]
@[simp] theorem execSafeHoldAction_good {q_ : List Instr} (op : Nat) (s : State) (h_ : Good q_ s.kept) : GoodNext q_ (execSafeHoldAction op s) := by
  simp [execSafeHoldAction, h_]
@[simp] theorem State.unitFails_good {q_ : List Instr} (s : State) (u : FailedUnit) (h_ : Good q_ s.kept) : Good q_ (State.unitFails s u).kept := by
  unfold State.unitFails
  dsimp only
  repeat' (first | with_reducible assumption | with_reducible apply State.deviceFault_good | with_reducible refine State.runOp_good _ _ _ _ (fun o => ?_) ?_ | with_reducible refine State.writeWord_good _ _ _ _ (fun s h => ?_) ?_ | with_reducible refine foldl_good _ _ _ (fun s a h => ?_) ?_ | (simp only [kept_mk, kept_fold, goodNext_next, State.useSpare_kept, State.setCq_kept, State.retireCluster_kept, State.setSq_kept, State.unitGone_kept, State.replayCore_kept, State.exhaust_kept, State.retireCore_kept]) | split)
@[simp] theorem execUnitRetired_good {q_ : List Instr} (u : FailedUnit) (s : State) (h_ : Good q_ s.kept) : GoodNext q_ (execUnitRetired u s) := by
  unfold execUnitRetired; (repeat' (first | (simp [*]; done) | split))
@[simp] theorem execPieceFailure_good {q_ : List Instr} (op : Nat) (piece : Piece) (core : Nat) (recurs : Bool) (s : State) (h_ : Good q_ s.kept) : GoodNext q_ (execPieceFailure op piece core recurs s) := by
  unfold execPieceFailure; simp [h_]; (repeat' (first | (simp [*]; done) | split))
@[simp] theorem execClockLoss_good {q_ : List Instr} (gen : Nat) (s : State) (h_ : Good q_ s.kept) : GoodNext q_ (execClockLoss gen s) := by
  unfold execClockLoss
  dsimp only
  repeat' (first | with_reducible assumption | with_reducible apply State.deviceFault_good | with_reducible refine State.runOp_good _ _ _ _ (fun o => ?_) ?_ | with_reducible refine State.writeWord_good _ _ _ _ (fun s h => ?_) ?_ | with_reducible refine foldl_good _ _ _ (fun s a h => ?_) ?_ | (simp only [kept_mk, kept_fold, goodNext_next, State.useSpare_kept, State.setDomain_kept, State.bump_kept, State.genPorts_kept, State.unitGone_kept, State.log_kept, State.exhaust_kept]) | split)
@[simp] theorem execLogRead_good {q_ : List Instr} (op : Nat) (s : State) (h_ : Good q_ s.kept) : GoodNext q_ (execLogRead op s) := by
  simp [execLogRead, h_]
@[simp] theorem execDiagCounters_good {q_ : List Instr} (op : Nat) (s : State) (h_ : Good q_ s.kept) : GoodNext q_ (execDiagCounters op s) := by
  simp [execDiagCounters, h_]
@[simp] theorem State.resetDomains_good {q_ : List Instr} (s : State) (cause : Nat) (l : Level) (h_ : Good q_ s.kept) : Good q_ (State.resetDomains s cause l).kept := by
  simp only [State.resetDomains, kept_mk]
  exact ⟨h_.1, Nat.zero_le _, Nat.zero_le _, Nat.zero_le _, Memory.hostOnly_wf _ h_.2.2.2.2⟩
@[simp] theorem State.warmReset_good {q_ : List Instr} (s : State) (cause : Nat) (h_ : Good q_ s.kept) : Good q_ (State.warmReset s cause).kept := by
  simp [State.warmReset, h_]
@[simp] theorem State.coldReset_good {q_ : List Instr} (s : State) (cause : Nat) (h_ : Good q_ s.kept) : Good q_ (State.coldReset s cause).kept := by
  unfold State.coldReset
  dsimp only
  repeat' (first | with_reducible assumption | with_reducible apply State.resetDomains_good | with_reducible refine State.runOp_good _ _ _ _ (fun o => ?_) ?_ | with_reducible refine State.writeWord_good _ _ _ _ (fun s h => ?_) ?_ | with_reducible refine foldl_good _ _ _ (fun s a h => ?_) ?_ | (simp only [kept_mk, kept_fold, goodNext_next]) | split)
@[simp] theorem State.functionReset_good {q_ : List Instr} (s : State) (fn : Nat) (h_ : Good q_ s.kept) : Good q_ (State.functionReset s fn).kept := by
  unfold State.functionReset
  dsimp only
  apply State.freeParcels_good
  simp only [State.syncPool_kept, kept_mk, State.setFnc_kept, kept_fold]
  refine foldl_good _ _ _ (fun s o h => ?_) h_
  have e := (State.dropWork_kept (s.withdrawChange o.id) o.id).trans (State.withdrawChange_kept s o.id)
  simp only [State.kept, Prod.mk.injEq] at e h
  simp only [kept_mk, e.1, e.2.2.2.2]
  exact Ops.give_good _ _ h
@[simp] theorem State.linkLost_good {q_ : List Instr} (s : State) (h_ : Good q_ s.kept) : Good q_ (State.linkLost s).kept := by
  unfold State.linkLost; (repeat' (first | (simp [*]; done) | refine foldl_good _ _ _ (fun s a h => ?_) ?_ | refine State.writeWord_good _ _ _ _ (fun s h => ?_) ?_ | split))
@[simp] theorem execPowerOn_good {q_ : List Instr} (s : State) (h_ : Good q_ s.kept) : GoodNext q_ (execPowerOn s) := by
  unfold execPowerOn
  dsimp only
  repeat' (first | with_reducible assumption | with_reducible apply State.coldReset_good | with_reducible refine State.runOp_good _ _ _ _ (fun o => ?_) ?_ | with_reducible refine State.writeWord_good _ _ _ _ (fun s h => ?_) ?_ | with_reducible refine foldl_good _ _ _ (fun s a h => ?_) ?_ | (simp only [kept_mk, kept_fold, goodNext_next, State.noTamper_kept]) | split)
@[simp] theorem State.tamperEvent_good {q_ : List Instr} (s : State) (c : TamperCause) (h_ : Good q_ s.kept) : Good q_ (State.tamperEvent s c).kept := by
  unfold State.tamperEvent
  dsimp only
  repeat' (first | with_reducible assumption | with_reducible apply State.coldReset_good | with_reducible refine State.runOp_good _ _ _ _ (fun o => ?_) ?_ | with_reducible refine State.writeWord_good _ _ _ _ (fun s h => ?_) ?_ | with_reducible refine foldl_good _ _ _ (fun s a h => ?_) ?_ | (simp only [kept_mk, kept_fold, goodNext_next, State.wipeKeys_kept]) | split)
@[simp] theorem execRailExcursion_good {q_ : List Instr} (rail : Nat) (mV : Nat) (us : Nat) (s : State) (h_ : Good q_ s.kept) : GoodNext q_ (execRailExcursion rail mV us s) := by
  unfold execRailExcursion; simp [h_]; (repeat' (first | (simp [*]; done) | split))
@[simp] theorem execTamper_good {q_ : List Instr} (cause : TamperCause) (s : State) (h_ : Good q_ s.kept) : GoodNext q_ (execTamper cause s) := by
  unfold execTamper
  split <;> simp [h_]
@[simp] theorem execResetNAssert_good {q_ : List Instr} (s : State) (h_ : Good q_ s.kept) : GoodNext q_ (execResetNAssert s) := by
  unfold execResetNAssert
  dsimp only
  repeat' (first | with_reducible assumption | with_reducible apply State.warmReset_good | with_reducible refine State.runOp_good _ _ _ _ (fun o => ?_) ?_ | with_reducible refine State.writeWord_good _ _ _ _ (fun s h => ?_) ?_ | with_reducible refine foldl_good _ _ _ (fun s a h => ?_) ?_ | (simp only [kept_mk, kept_fold, goodNext_next, State.spend_kept, State.toTime_kept]) | split)
@[simp] theorem execPerstNAssert_good {q_ : List Instr} (s : State) (h_ : Good q_ s.kept) : GoodNext q_ (execPerstNAssert s) := by
  unfold execPerstNAssert; simp [h_]; (repeat' (first | (simp [*]; done) | split))
@[simp] theorem execFunctionLevelReset_good {q_ : List Instr} (fn : Nat) (s : State) (h_ : Good q_ s.kept) : GoodNext q_ (execFunctionLevelReset fn s) := by
  unfold execFunctionLevelReset; (repeat' (first | (simp [*]; done) | split))
@[simp] theorem execHostPathFailure_good {q_ : List Instr} (s : State) (h_ : Good q_ s.kept) : GoodNext q_ (execHostPathFailure s) := by
  unfold execHostPathFailure; (repeat' (first | (simp [*]; done) | split))
@[simp] theorem execWatchdogExpiry_good {q_ : List Instr} (s : State) (h_ : Good q_ s.kept) : GoodNext q_ (execWatchdogExpiry s) := by
  unfold execWatchdogExpiry; (repeat' (first | (simp [*]; done) | split))
@[simp] theorem execSecurityCoreRequest_good {q_ : List Instr} (s : State) (h_ : Good q_ s.kept) : GoodNext q_ (execSecurityCoreRequest s) := by
  unfold execSecurityCoreRequest; (repeat' (first | (simp [*]; done) | split))
@[simp] theorem State.lifeCycleMove_good {q_ : List Instr} (s : State) (t : LifeCycle) (h_ : Good q_ s.kept) : Good q_ (State.lifeCycleMove s t).kept := by
  simp [State.lifeCycleMove, h_]
@[simp] theorem State.writeSqCfg_good {q_ : List Instr} (s : State) (fn : Nat) (n : Nat) (val : Word) (h_ : Good q_ s.kept) : Good q_ (State.writeSqCfg s fn n val).kept := by
  unfold State.writeSqCfg
  dsimp only
  repeat' (first | with_reducible assumption | with_reducible apply State.putSq_good | with_reducible apply State.writeBack_good | with_reducible refine State.runOp_good _ _ _ _ (fun o => ?_) ?_ | with_reducible refine State.writeWord_good _ _ _ _ (fun s h => ?_) ?_ | with_reducible refine foldl_good _ _ _ (fun s a h => ?_) ?_ | (simp only [kept_mk, kept_fold, goodNext_next, State.setSq_kept, State.guardedAccess_kept, State.lockViolation_kept, State.endStall_kept]) | split)
@[simp] theorem State.writeRing_good {q_ : List Instr} (s : State) (fn : Nat) (off : Nat) (val : Word) (h_ : Good q_ s.kept) : Good q_ (State.writeRing s fn off val).kept := by
  simp [State.writeRing, h_]
@[simp] theorem State.writeReach_good {q_ : List Instr} (s : State) (fn : Nat) (off : Nat) (val : Word) (h_ : Good q_ s.kept) : Good q_ (State.writeReach s fn off val).kept := by
  unfold State.writeReach
  dsimp only
  repeat' (first | with_reducible assumption | with_reducible apply State.writeReachSize_good | with_reducible refine State.runOp_good _ _ _ _ (fun o => ?_) ?_ | with_reducible refine State.writeWord_good _ _ _ _ (fun s h => ?_) ?_ | with_reducible refine foldl_good _ _ _ (fun s a h => ?_) ?_ | (simp only [kept_mk, kept_fold, goodNext_next, State.writeReachBase_kept, State.mend_kept]) | split)
@[simp] theorem State.writeResetCtrl_good {q_ : List Instr} (s : State) (fn : Nat) (val : Word) (h_ : Good q_ s.kept) : Good q_ (State.writeResetCtrl s fn val).kept := by
  simp [State.writeResetCtrl, h_]
@[simp] theorem State.writeLcRequest_good {q_ : List Instr} (s : State) (fn : Nat) (val : Word) (h_ : Good q_ s.kept) : Good q_ (State.writeLcRequest s fn val).kept := by
  unfold State.writeLcRequest; simp [h_]; (repeat' (first | (simp [*]; done) | split))
@[simp] theorem State.writeFzlCtrl_good {q_ : List Instr} (s : State) (fn : Nat) (val : Nat) (reachable : Nat) (h_ : Good q_ s.kept) : Good q_ (State.writeFzlCtrl s fn val reachable).kept := by
  unfold State.writeFzlCtrl; simp [h_]; (repeat' (first | (simp [*]; done) | split))
@[simp] theorem State.writeReg_good {q_ : List Instr} (s : State) (fn : Nat) (off : Nat) (val : Word) (h_ : Good q_ s.kept) : Good q_ (State.writeReg s fn off val).kept := by
  unfold State.writeReg
  repeat' (first | with_reducible assumption | with_reducible apply State.writeFzlCtrl_good | with_reducible apply State.writeResetCtrl_good | with_reducible apply State.writeRing_good | with_reducible apply State.writeLcRequest_good | with_reducible apply State.writeReach_good | with_reducible_and_instances refine good_if _ _ _ _ (fun _ => ?_) (fun _ => ?_) | with_reducible refine State.writeWord_good _ _ _ _ (fun s h => ?_) ?_ | (simp only [kept_mk, kept_fold, State.writePrivCtrl_kept, State.writePrivKey_kept, State.writeTimeCmd_kept, State.writeResetKey_kept, State.timeRate_kept, State.writeGrant_kept, State.writeRow_kept, State.writeDoorbell_kept, State.writeHostTag_kept, State.mend_kept, State.springWrite_kept]))
  cases rowOf off with
  | none => exact h_
  | some r => simpa using h_
@[simp] theorem State.writeAlias_good {q_ : List Instr} (s : State) (fn off : Nat) (val : Word) (h_ : Good q_ s.kept) : Good q_ (State.writeAlias s fn off val).kept := by
  unfold State.writeAlias
  dsimp only
  repeat' (first | with_reducible assumption | with_reducible apply State.writeReg_good | with_reducible refine State.runOp_good _ _ _ _ (fun o => ?_) ?_ | with_reducible refine State.writeWord_good _ _ _ _ (fun s h => ?_) ?_ | with_reducible refine foldl_good _ _ _ (fun s a h => ?_) ?_ | (simp only [kept_mk, kept_fold, goodNext_next, State.springWrite_kept]) | split)
@[simp] theorem State.write4_good {q_ : List Instr} (s : State) (fn off : Nat) (val : Word) (h_ : Good q_ s.kept) : Good q_ (State.write4 s fn off val).kept := by
  unfold State.write4
  repeat' (first | with_reducible assumption | with_reducible apply State.writeAlias_good | with_reducible apply State.writeReg_good | with_reducible refine State.runOp_good _ _ _ _ (fun o => ?_) ?_ | with_reducible refine State.writeWord_good _ _ _ _ (fun s h => ?_) ?_ | with_reducible refine foldl_good _ _ _ (fun s a h => ?_) ?_ | (simp only [kept_mk, kept_fold, goodNext_next, State.writeMsix_kept]) | split)
@[simp] theorem State.busWrite_good {q_ : List Instr} (s : State) (fn : Nat) (off : Nat) (size : Nat) (val : Nat) (h_ : Good q_ s.kept) : Good q_ (State.busWrite s fn off size val).kept := by
  simp [State.busWrite, h_]
@[simp] theorem execRegisterWrite_good {q_ : List Instr} (fn : Nat) (off : Nat) (size : Nat) (val : Nat) (s : State) (h_ : Good q_ s.kept) : GoodNext q_ (execRegisterWrite fn off size val s) := by
  simp [execRegisterWrite, h_]
@[simp] theorem execBitAliasWrite_good {q_ : List Instr} (fn : Nat) (off : Nat) (val : Word) (s : State) (h_ : Good q_ s.kept) : GoodNext q_ (execBitAliasWrite fn off val s) := by
  unfold execBitAliasWrite; (repeat' (first | (simp [*]; done) | split))
@[simp] theorem execRingEnable_good {q_ : List Instr} (fn : Nat) (val : Word) (s : State) (h_ : Good q_ s.kept) : GoodNext q_ (execRingEnable fn val s) := by
  unfold execRingEnable; (repeat' (first | (simp [*]; done) | split))
@[simp] theorem execRingDisable_good {q_ : List Instr} (fn : Nat) (val : Word) (s : State) (h_ : Good q_ s.kept) : GoodNext q_ (execRingDisable fn val s) := by
  unfold execRingDisable; (repeat' (first | (simp [*]; done) | split))
@[simp] theorem execFnRingsWrite_good {q_ : List Instr} (fn : Nat) (val : Word) (s : State) (h_ : Good q_ s.kept) : GoodNext q_ (execFnRingsWrite fn val s) := by
  simp [execFnRingsWrite, h_]
@[simp] theorem execPrivKeyWrite_good {q_ : List Instr} (fn : Nat) (val : Word) (s : State) (h_ : Good q_ s.kept) : GoodNext q_ (execPrivKeyWrite fn val s) := by
  simp [execPrivKeyWrite, h_]
@[simp] theorem execPrivEnter_good {q_ : List Instr} (fn : Nat) (s : State) (h_ : Good q_ s.kept) : GoodNext q_ (execPrivEnter fn s) := by
  simp [execPrivEnter, h_]
@[simp] theorem execPrivLeave_good {q_ : List Instr} (fn : Nat) (s : State) (h_ : Good q_ s.kept) : GoodNext q_ (execPrivLeave fn s) := by
  simp [execPrivLeave, h_]
@[simp] theorem execHostTagWrite_good {q_ : List Instr} (fn : Nat) (val : Word) (s : State) (h_ : Good q_ s.kept) : GoodNext q_ (execHostTagWrite fn val s) := by
  simp [execHostTagWrite, h_]
@[simp] theorem execResetKeyWrite_good {q_ : List Instr} (fn : Nat) (val : Word) (s : State) (h_ : Good q_ s.kept) : GoodNext q_ (execResetKeyWrite fn val s) := by
  simp [execResetKeyWrite, h_]
@[simp] theorem execResetCtrlWarm_good {q_ : List Instr} (fn : Nat) (s : State) (h_ : Good q_ s.kept) : GoodNext q_ (execResetCtrlWarm fn s) := by
  simp [execResetCtrlWarm, h_]
@[simp] theorem execResetCtrlCold_good {q_ : List Instr} (fn : Nat) (s : State) (h_ : Good q_ s.kept) : GoodNext q_ (execResetCtrlCold fn s) := by
  simp [execResetCtrlCold, h_]
@[simp] theorem execTimeCmdSet_good {q_ : List Instr} (fn : Nat) (s : State) (h_ : Good q_ s.kept) : GoodNext q_ (execTimeCmdSet fn s) := by
  simp [execTimeCmdSet, h_]
@[simp] theorem execTimeCmdStep_good {q_ : List Instr} (fn : Nat) (s : State) (h_ : Good q_ s.kept) : GoodNext q_ (execTimeCmdStep fn s) := by
  simp [execTimeCmdStep, h_]
@[simp] theorem execTimeRateWrite_good {q_ : List Instr} (fn : Nat) (val : Word) (s : State) (h_ : Good q_ s.kept) : GoodNext q_ (execTimeRateWrite fn val s) := by
  simp [execTimeRateWrite, h_]
@[simp] theorem execSpringRegisterWrite_good {q_ : List Instr} (fn : Nat) (off : Nat) (val : Word) (s : State) (h_ : Good q_ s.kept) : GoodNext q_ (execSpringRegisterWrite fn off val s) := by
  unfold execSpringRegisterWrite; (repeat' (first | (simp [*]; done) | split))
@[simp] theorem execLcRequestWrite_good {q_ : List Instr} (fn : Nat) (val : Word) (s : State) (h_ : Good q_ s.kept) : GoodNext q_ (execLcRequestWrite fn val s) := by
  simp [execLcRequestWrite, h_]
@[simp] theorem execFzlLeave_good {q_ : List Instr} (fn : Nat) (s : State) (h_ : Good q_ s.kept) : GoodNext q_ (execFzlLeave fn s) := by
  simp [execFzlLeave, h_]
@[simp] theorem execForceView_good {q_ : List Instr} (fn reachable : Nat) (s : State) (h_ : Good q_ s.kept) : GoodNext q_ (execForceView fn reachable s) := by
  unfold execForceView
  repeat' (first | with_reducible assumption | with_reducible apply State.forceView_good | with_reducible refine State.runOp_good _ _ _ _ (fun o => ?_) ?_ | with_reducible refine State.writeWord_good _ _ _ _ (fun s h => ?_) ?_ | with_reducible refine foldl_good _ _ _ (fun s a h => ?_) ?_ | (simp only [kept_mk, kept_fold, goodNext_next, State.springReady_kept]) | split)
@[simp] theorem execExtentEnable_good {q_ : List Instr} (fn : Nat) (val : Word) (s : State) (h_ : Good q_ s.kept) : GoodNext q_ (execExtentEnable fn val s) := by
  unfold execExtentEnable; (repeat' (first | (simp [*]; done) | split))
@[simp] theorem execExtentDisable_good {q_ : List Instr} (fn : Nat) (val : Word) (s : State) (h_ : Good q_ s.kept) : GoodNext q_ (execExtentDisable fn val s) := by
  unfold execExtentDisable; (repeat' (first | (simp [*]; done) | split))
@[simp] theorem State.charge_good {q_ : List Instr} (s : State) (fn sq pool cls : Nat) (hp : s.pool cls = some pool) (h_ : Good q_ s.kept) : Good q_ (State.charge s fn sq pool).kept := by
  unfold State.charge
  dsimp only
  apply State.putSq_good
  have e := State.endStall_kept s fn sq false false
  simp only [State.kept, Prod.mk.injEq] at e h_
  simp only [State.setCq_kept, kept_mk, e.1, e.2.2.2.2]
  refine Ops.take_good _ _ ?_ ?_
  · simp only [e.2.1, e.2.2.1, e.2.2.2.1]; exact h_
  · unfold State.pool at hp
    simp only [e.2.1, e.2.2.1, e.2.2.2.1]
    split at hp
    · simp_all
    · split at hp
      · simp_all
      · split at hp <;> simp_all
@[simp] theorem execDescriptorFetch_good {q_ : List Instr} (fn sq : Nat) (s : State) (h_ : Good q_ s.kept) : GoodNext q_ (execDescriptorFetch fn sq s) := by
  unfold execDescriptorFetch
  dsimp only
  split
  · exact h_
  · split
    · exact State.noteStall_good _ _ _ h_
    · rename_i pool hp
      split
      · exact State.noteStall_good _ _ _ h_
      · split
        · exact State.noteStall_good _ _ _ h_
        · have hs : Good q_ s.settleBufs.kept := State.settleBufs_good _ h_
          have e := State.settleBufs_used s
          have hq : s.settleBufs.pool (cfgClass (s.sq fn sq).cfg) = some pool := by
            simp only [State.used, Prod.mk.injEq] at e; rw [← hp]; unfold State.pool; simp only [e.1, e.2.1, e.2.2]
          have hc := State.charge_good s.settleBufs fn sq pool _ hq hs
          split <;> simpa using hc
@[simp] theorem State.retireOp_good {q_ : List Instr} (s : State) (o : Op) (h_ : Good q_ s.kept) : Good q_ (State.retireOp s o).kept := by
  unfold State.retireOp
  dsimp only
  simp only [State.setCq_kept, kept_mk]
  exact Ops.give_good _ _ h_
@[simp] theorem State.postEntry_good {q_ : List Instr} (s : State) (o : Op) (h_ : Good q_ s.kept) : Good q_ (State.postEntry s o).kept := by
  simp [State.postEntry, h_]
@[simp] theorem execCompletionPost_good {q_ : List Instr} (op : Nat) (s : State) (h_ : Good q_ s.kept) : GoodNext q_ (execCompletionPost op s) := by
  unfold execCompletionPost
  dsimp only
  repeat' (first | with_reducible assumption | with_reducible apply State.retireOp_good | with_reducible apply State.freeParcels_good | with_reducible apply State.blurBufs_good | with_reducible apply State.restall_good | with_reducible apply State.postEntry_good | with_reducible refine State.runOp_good _ _ _ _ (fun o => ?_) ?_ | with_reducible refine State.writeWord_good _ _ _ _ (fun s h => ?_) ?_ | with_reducible refine foldl_good _ _ _ (fun s a h => ?_) ?_ | (simp only [kept_mk, kept_fold, goodNext_next, State.touchHeld_kept, State.postSignal_kept]) | split)
@[simp] theorem State.expire_good {q_ : List Instr} (s : State) (o : Op) (h_ : Good q_ s.kept) : Good q_ (State.expire s o).kept := by
  unfold State.expire; simp [h_]; (repeat' (first | (simp [*]; done) | split))
@[simp] theorem execDeadlineExpiry_good {q_ : List Instr} (op : Nat) (s : State) (h_ : Good q_ s.kept) : GoodNext q_ (execDeadlineExpiry op s) := by
  unfold execDeadlineExpiry; (repeat' (first | (simp [*]; done) | split))
@[simp] theorem execMgmtResetTaken_good {q_ : List Instr} (s : State) (h_ : Good q_ s.kept) : GoodNext q_ (execMgmtResetTaken s) := by
  unfold execMgmtResetTaken; simp [h_]; (repeat' (first | (simp [*]; done) | split))
end Sys2Proof.Machine
end

