-- ==== Sys2Proof/WellFormed.lean ====
section
/-! DEFINITION. The ranges that the operands of a command have by the spec's field widths (functions R63, rings R62, tile
coordinates R14, array IDs R379, ports R365 and R379, domains R430, fields of messages R121 and R387). -/

namespace Sys2Proof

/-- A signed 16-bit tile coordinate (R14). -/
def coordWf (x : Int) : Bool := decide (-32768 ≤ x ∧ x ≤ 32767)

/-- Source addresses (R127). -/
def SrcAddr.wf (a : SrcAddr) : Bool :=
  decide (a.port < 2) && decide (a.mac < 2 ^ 48) && decide (a.ip < 2 ^ 128) && decide (a.udp < 2 ^ 16)

/-- HELLO and JOIN bodies (R387). -/
def Hello.wf (h : Hello) : Bool :=
  decide (h.arrayId < 256) && decide (h.port < 6) && decide (h.coord < 2 ^ 32) && decide (h.leader < 256) && decide (h.viewNo < 2 ^ 32) &&
    decide (h.epochPeriod < 2 ^ 16) && decide (h.version < 256)

/-- PTP messages (R362): the clock attributes of an Announce are bytes. -/
def PtpMsg.wf : PtpMsg → Bool
  | .announce p1 cc p2 _ => decide (p1 < 256) && decide (cc < 256) && decide (p2 < 256)
  | .sync _ _ _ => true
  | .followUp _ _ => true
  | .delayReq _ => true
  | .delayResp _ _ => true
  | .pdelayReq _ => true
  | .pdelayResp _ _ => true
  | .management => true

/-- What a frame carries (R366). -/
def RxProto.wf : RxProto → Bool
  | .ptp _ domain m => decide (domain < 256) && m.wf
  | .udp dstMac dstIp dstPort _ _ _ src p =>
    decide (dstMac < 2 ^ 48) && decide (dstIp < 2 ^ 128) && decide (dstPort < 2 ^ 16) && src.wf && decide (p.length < 2 ^ 16)
  | .pause => true
  | .other => true

/-- Received frames (R365, R372). -/
def RxFrame.wf (f : RxFrame) : Bool := decide (f.port < 2) && decide (f.bytes.length < 2 ^ 16) && f.proto.wf

/-- PUBLISH records (R387). -/
def PublishRec.wf (r : PublishRec) : Bool := coordWf r.ix && coordWf r.iy && decide (r.owner < 256) && decide (r.mirror < 256)

/-- QUERY messages (R387). -/
def QueryMsg.wf (m : QueryMsg) : Bool :=
  decide (m.src < 256) && decide (m.epoch < 2 ^ 64) && decide (m.k ≤ 1024) && decide (m.index < 256)

/-- ANSWER messages (R387). -/
def AnswerMsg.wf (m : AnswerMsg) : Bool := decide (m.src < 256) && decide (m.result < 3)

/-- REMOTE_REQ segments (R388). -/
def RemoteReqMsg.wf (m : RemoteReqMsg) : Bool := decide (m.src < 256) && decide (m.desc.length = 64 ∨ m.desc.length = 0)

/-- REMOTE_RESP segments (R388). -/
def RemoteRespMsg.wf (m : RemoteRespMsg) : Bool := decide (m.src < 256) && decide (m.status < 256)

/-- MIRROR_ITEM messages (R387). -/
def MirrorItemMsg.wf (m : MirrorItemMsg) : Bool := decide (m.src < 256) && decide (m.seq < 2 ^ 32) && coordWf m.ix && coordWf m.iy

/-- Farzako headers (R385). -/
def FzlHeader.wf (h : FzlHeader) : Bool :=
  decide (h.type < 256) && decide (h.cls < 8) && decide (h.src < 256) && decide (h.dst < 256) && decide (h.hops < 256)

/-- Units that wear (R406). -/
def WearUnit.wf : WearUnit → Bool
  | .coreMargin core => decide (core < 2 ^ 16)
  | .coreErrors core => decide (core < 2 ^ 16)
  | .pondRow cluster bank => decide (cluster < 13) && decide (bank < 2 ^ 16)
  | .basinLane pc => decide (pc < 2 ^ 16)
  | .lakeFrame frame => decide (frame < 2 ^ 32)
  | .fabricLane port lane => decide (port < 6) && decide (lane < 9)
  | .ringContext fn n => decide (fn < 64) && decide (n < 2 ^ 16)
  | .pll gen => decide (gen < 32)

/-- Units that fail (R401, R409). -/
def FailedUnit.wf : FailedUnit → Bool
  | .core id => decide (id < 2 ^ 16)
  | .pondBank cluster bank => decide (cluster < 13) && decide (bank < 2 ^ 16)
  | .crossbar cluster => decide (cluster < 13)
  | .basinLane pc => decide (pc < 2 ^ 16)
  | .ringContext fn n => decide (fn < 64) && decide (n < 2 ^ 16)
  | .spinePort cluster => decide (cluster < 13)
  | .dieUnit n => decide (n < 256)

/-- Upper tiers (R335). -/
def UpperTier.wf : UpperTier → Bool
  | .basin => true
  | .pond cluster => decide (cluster < 13)

/-- A command whose operands are in range. -/
def Instr.wf : Instr → Bool
  | .doorbellSweep fn group => decide (fn < 64) && group.all fun g => decide (g < 16)
  | .nudge fn => decide (fn < 64)
  | .descriptorFetch fn sq => decide (fn < 64) && decide (sq < 32768)
  | .operationStart _ => true
  | .completionPost _ => true
  | .interruptTimer fn cq => decide (fn < 64) && decide (cq < 32768)
  | .deadlineExpiry _ => true
  | .ringEnable fn _ => decide (fn < 64)
  | .ringDisable fn _ => decide (fn < 64)
  | .fnRingsWrite fn _ => decide (fn < 64)
  | .registerWrite fn off size val => decide (fn < 64) && decide (off < 2 ^ 24) && decide (size = 1 ∨ size = 2 ∨ size = 4 ∨ size = 8) && decide (val < 2 ^ (8 * size))
  | .bitAliasWrite fn off _ => decide (fn < 64) && decide (off < 2 ^ 24)
  | .shadowApplyLink _ => true
  | .configParityFault off idx => decide (off < 2 ^ 24) && decide (idx < 2 ^ 22)
  | .privKeyWrite fn _ => decide (fn < 64)
  | .privEnter fn => decide (fn < 64)
  | .privLeave fn => decide (fn < 64)
  | .hostTagWrite fn _ => decide (fn < 64)
  | .resetKeyWrite fn _ => decide (fn < 64)
  | .resetCtrlWarm fn => decide (fn < 64)
  | .resetCtrlCold fn => decide (fn < 64)
  | .timeCmdSet fn => decide (fn < 64)
  | .timeCmdStep fn => decide (fn < 64)
  | .timeRateWrite fn _ => decide (fn < 64)
  | .timeNsRead fn => decide (fn < 64)
  | .tallyHeadAckRead fn size => decide (fn < 64) && decide (size = 1 ∨ size = 2 ∨ size = 4 ∨ size = 8)
  | .eventSummaryRead fn size => decide (fn < 64) && decide (size = 1 ∨ size = 2 ∨ size = 4 ∨ size = 8)
  | .springRegisterWrite fn off _ => decide (fn < 64) && decide (off < 2 ^ 24)
  | .springWriteArrival => true
  | .lcRequestWrite fn _ => decide (fn < 64)
  | .fzlLeave fn => decide (fn < 64)
  | .forceView fn reachable => decide (fn < 64) && decide (reachable < 2 ^ 64)
  | .extentEnable fn _ => decide (fn < 64)
  | .extentDisable fn _ => decide (fn < 64)
  | .bar2Access fn write off len data => decide (fn < 64) && decide (off + len ≤ 2 ^ 36) && decide (write = true → data.length = len)
  | .nop _ => true
  | .fence _ => true
  | .sessionOpen _ => true
  | .sessionClose _ => true
  | .sessionKey _ => true
  | .setFilter _ => true
  | .setThresholds _ => true
  | .setTimers _ => true
  | .setMaxLoad _ => true
  | .setHostRate _ => true
  | .setLimits _ => true
  | .eventWait _ => true
  | .setGates _ => true
  | .setPrecedence _ => true
  | .setReply _ => true
  | .setTime _ => true
  | .setPose _ => true
  | .setCalibRefine _ => true
  | .setCalibration _ => true
  | .setRefine _ => true
  | .setSearch _ => true
  | .setFeatures _ => true
  | .setStereo _ => true
  | .setRetain _ => true
  | .frameSubmit _ => true
  | .trackQueryFeatures _ => true
  | .trackQueryTracks _ => true
  | .trackQueryDisparity _ => true
  | .trackQueryProject _ => true
  | .mapReadTileImage _ => true
  | .mapReadKeyframes _ => true
  | .mapReadLinks _ => true
  | .mapReadPoints _ => true
  | .mapReadObservations _ => true
  | .tileRestore _ => true
  | .keyframeDelete _ => true
  | .keyframePose _ => true
  | .linkAdd _ => true
  | .linkDelete _ => true
  | .quarantine _ => true
  | .release _ => true
  | .indexCreate _ => true
  | .indexDrop _ => true
  | .tileAffinity _ => true
  | .epochWait _ => true
  | .search _ => true
  | .vecInsert _ => true
  | .vecDelete _ => true
  | .settle _ => true
  | .recallProbe _ => true
  | .solve _ => true
  | .scheduleLoad _ => true
  | .scheduleDrop _ => true
  | .infer _ cluster => decide (cluster < 13)
  | .programLoad _ => true
  | .programDrop _ => true
  | .weightsBind _ => true
  | .weightsUnbind _ => true
  | .move _ => true
  | .moveFill _ => true
  | .residencyHint _ => true
  | .netSend _ => true
  | .netRecvPost _ => true
  | .logRead _ => true
  | .diagSessions _ => true
  | .diagClusters _ => true
  | .diagTiles _ => true
  | .diagCounters _ => true
  | .retire _ => true
  | .safeHoldAction _ => true
  | .prepare _ _ => true
  | .stage _ _ version secVersion => decide (version < 2 ^ 16) && decide (secVersion < 2 ^ 32)
  | .activate _ => true
  | .revert _ => true
  | .netFrameReceive f => f.wf
  | .reassemblyTimeout sid frameNo => decide (sid < 2 ^ 32) && decide (frameNo < 2 ^ 32)
  | .silentTimeout sid => decide (sid < 2 ^ 32)
  | .lingerExpiry sid => decide (sid < 2 ^ 32)
  | .visionFrame sid frameNo => decide (sid < 2 ^ 32) && decide (frameNo < 2 ^ 32)
  | .fusionFrame sid frameNo => decide (sid < 2 ^ 32) && decide (frameNo < 2 ^ 32)
  | .motionShort sid frameNo => decide (sid < 2 ^ 32) && decide (frameNo < 2 ^ 32)
  | .fusionIntervalClose sid => decide (sid < 2 ^ 32)
  | .loopClosure sid keyA keyB => decide (sid < 2 ^ 32) && decide (keyA < 2 ^ 64) && decide (keyB < 2 ^ 64)
  | .calibSolveQueue sid => decide (sid < 2 ^ 32)
  | .calibSolveResult sid => decide (sid < 2 ^ 32)
  | .replyLaunch sid => decide (sid < 2 ^ 32)
  | .frameLaunch port => decide (port < 2)
  | .sessionMove sid cluster => decide (sid < 2 ^ 32) && decide (cluster < 13)
  | .settlingPass index => decide (index < 256)
  | .settlingPassDone index => decide (index < 256)
  | .peerDeadline _ => true
  | .query m => m.wf
  | .answer m => m.wf
  | .remoteReq m => m.wf
  | .remoteResp m => m.wf
  | .mirrorItem m => m.wf
  | .mirrorAck src seq => decide (src < 256) && decide (seq < 2 ^ 32)
  | .mirrorAckTimer src => decide (src < 256)
  | .mirrorSyncComplete ix iy => coordWf ix && coordWf iy
  | .handoverPropose src ix iy epoch => decide (src < 256) && coordWf ix && coordWf iy && decide (epoch < 2 ^ 64)
  | .handoverReply src ix iy code => decide (src < 256) && coordWf ix && coordWf iy && decide (code < 2 ^ 16)
  | .snapshot src ix iy _ _ data => decide (src < 256) && coordWf ix && coordWf iy && decide (data.length ≤ 32768)
  | .synced src ix iy seq => decide (src < 256) && coordWf ix && coordWf iy && decide (seq < 2 ^ 32)
  | .handoverAbort src ix iy reason => decide (src < 256) && coordWf ix && coordWf iy && decide (reason < 256)
  | .handoverCopyTimeout ix iy => coordWf ix && coordWf iy
  | .tick => true
  | .epochBoundary => true
  | .epochReadySend => true
  | .barrierReady src epoch viewNo tiles => decide (src < 256) && decide (epoch < 2 ^ 64) && decide (viewNo < 2 ^ 32) && tiles.all fun p => coordWf p.1 && coordWf p.2
  | .barrierPublish epoch viewNo recs => decide (epoch < 2 ^ 64) && decide (viewNo < 2 ^ 32) && recs.all PublishRec.wf
  | .hello port h => decide (port < 6) && h.wf
  | .helloTimer port => decide (port < 6)
  | .join src h => decide (src < 256) && h.wf
  | .joinReply code => decide (code < 2 ^ 16)
  | .view viewNo leader members => decide (viewNo < 2 ^ 32) && decide (leader < 256) && decide (members < 2 ^ 64)
  | .viewAck src viewNo => decide (src < 256) && decide (viewNo < 2 ^ 32)
  | .heartbeat src viewNo _ => decide (src < 256) && decide (viewNo < 2 ^ 32)
  | .heartbeatTimer => true
  | .memberTimeout id => decide (id < 256)
  | .leave src reason => decide (src < 256) && decide (reason < 256)
  | .gracefulLeaveComplete => true
  | .timeSync port _ hops master => decide (port < 6) && decide (hops < 256) && decide (master < 256)
  | .timeSyncTimer => true
  | .timeSyncTimeout => true
  | .delayReq port _ => decide (port < 6)
  | .delayReqTimer => true
  | .delayResp port _ => decide (port < 6)
  | .fzlLinkUp port => decide (port < 6)
  | .flitNak port ack => decide (port < 6) && decide (ack < 4096)
  | .flitReplayTimeout port => decide (port < 6)
  | .portRetrainTimeout port => decide (port < 6)
  | .laneFailure port lane => decide (port < 6) && decide (lane < 9)
  | .ptpMessage m => m.wf
  | .ptpAnnounceTimeout => true
  | .ppsInEdge => true
  | .ppsSeenTimeout => true
  | .holdoverLimit => true
  | .ppsOutRise => true
  | .ppsOutFall => true
  | .triggerEdge t => decide (t < 8)
  | .triggerPulseEnd t => decide (t < 8)
  | .netLinkChange port _ => decide (port < 2)
  | .parcelPromote parcel tier => decide (parcel < 2 ^ 32) && tier.wf
  | .promotionCopyEnd parcel => decide (parcel < 2 ^ 32)
  | .parcelDemote parcel => decide (parcel < 2 ^ 32)
  | .demotionWriteBackEnd parcel => decide (parcel < 2 ^ 32)
  | .tierAccessLate _ _ => true
  | .scrubPass _ frame _ _ => decide (frame < 2 ^ 32)
  | .pondTestStep cluster bank _ => decide (cluster < 13) && decide (bank < 2 ^ 16)
  | .laneRepairWalk pc lane => decide (pc < 2 ^ 16) && decide (lane < 9)
  | .laneRepairSwitch pc => decide (pc < 2 ^ 16)
  | .inferLayerStart _ layer => decide (layer < 2 ^ 16)
  | .pieceFailure _ _ core _ => decide (core < 2 ^ 16)
  | .retryBudgetExpiry _ => true
  | .unitRetired u => u.wf
  | .wearDetected u => u.wf
  | .drainComplete core => decide (core < 2 ^ 16)
  | .spareInService core => decide (core < 2 ^ 16)
  | .reservoirClusterReady => true
  | .reservoirDailyTest _ => true
  | .clockLoss gen => decide (gen < 32)
  | .sparePllLocked gen => decide (gen < 32)
  | .safeHold code => decide (code < 2 ^ 16)
  | .thermalLimit => true
  | .hostPathFailure => true
  | .clusterRetention c => decide (c < 13)
  | .clusterOff c => decide (c < 13)
  | .matrixDomainOff c => decide (c < 13)
  | .clusterWake c _ => decide (c < 13)
  | .clusterWakeComplete c => decide (c < 13)
  | .powerOn => true
  | .railExcursion rail _ _ => decide (rail < 32)
  | .tamper _ => true
  | .resetNAssert => true
  | .resetNRelease => true
  | .parked => true
  | .perstNAssert => true
  | .perstNRelease => true
  | .functionLevelReset fn => decide (fn < 64)
  | .watchdogExpiry => true
  | .bringUp => true
  | .domainRelease domain => decide (domain < 41)
  | .firmwareVerified => true
  | .tidyFirmwareStart => true
  | .mgmtStatus args => decide (args.length ≤ 32768)
  | .mgmtTemperature args => decide (args.length ≤ 32768)
  | .mgmtReservoirLevel args => decide (args.length ≤ 32768)
  | .mgmtTallyRead args => decide (args.length ≤ 32768)
  | .resetArm args => decide (args.length ≤ 32768)
  | .resetGo args => decide (args.length ≤ 32768)
  | .mgmtArmExpiry => true
  | .mgmtResetTaken => true
  | .mgmtDynamicAddress addr => decide (addr < 128)
  | .ptpMessageInterval => true
  | .flitReceiveError port expected => decide (port < 6) && decide (expected < 4096)
  | .messageForward port h => decide (port < 6) && h.wf
  | .keyframeMaskComplete key masked => decide (key < 2 ^ 64) && masked.all fun i => decide (i < 2 ^ 32)
  | .securityCoreRequest => true
  | .hbmRefreshRate stack _ => decide (stack < 2)

end Sys2Proof
end

