-- ==== Sys2Proof/Tests/Slice0.lean ====
section
/-! SUPPORT. Tests: ill-formed commands that WellFormed refuses, a witness for the hypotheses of each statement's clauses, and
single steps with results taken from the rules. -/

namespace Sys2Proof.Tests

open Sys2Proof.Machine

/-- A device in service with every domain on, the link up, PF0 privileged and no work. -/
def live : State :=
  { State.reset with
    power := { State.reset.power with boot := .running, domains := State.reset.power.domains.map fun d => { d with state := .on, released := true } }
    host := { linkUp := true, detect := true, perstLow := false, privileged := true } }

/-- A descriptor from the offset, size and value of each field. -/
def desc (l : List (Nat × Nat × Nat)) : List Byte := l.foldl (fun b f => b.take f.1 ++ leBytes f.2.2 f.2.1 ++ b.drop (f.1 + f.2.1)) (zeros 64)

/-- A started operation with an opcode and fields. -/
def opOf (id code : Nat) (l : List (Nat × Nat × Nat)) : Op := { id := id, desc := desc ((0, 1, code) :: l), deadlineAt := 1000000000, deadlineUs := 1000000 }

/-- A state with operations in flight. -/
def on (s : State) (l : List Op) : State := { s with ops := { s.ops with list := l, nextId := 100 } }

/-- A member of a two-member view on a link to its neighbour 1, whose coordinate it knows; it leads the view. -/
def pair : State :=
  { live with
    power := { live.power with options := { live.power.options with dimX := 2 } }
    fabric := { live.fabric with
      members := 3, coordValid := true
      ports := [{ up := true, agreed := true, neighbour := 1, neighbourKnown := true, coord := some 16, lanes := 31 }, {}, {}, {}, {}, {}] } }

/-- A register instance with an applied and shadow value. -/
def setReg (s : State) (off idx : Nat) (w : Word) : State :=
  { s with regs := { s.regs with applied := (regKey off idx, w) :: s.regs.applied, shadow := (regKey off idx, w) :: s.regs.shadow } }

/-- Memory with bytes at a pointer. -/
def put (s : State) (p : Nat) (b : List Byte) : State := { s with mem := s.mem.write p b }

/-- StepRunsFrontCommand, IdleStepLetsTimePass, StepKeepsSound and CommandsAnswerAndKeepTheQueue: states with a command and without one. -/
theorem witness_queue : ({ live with pending := [.tick, .nop 0] } : State).pending = .tick :: [.nop 0] ∧ live.pending = [] ∧ live.Sound ∧
    (step live = .next live → False) := by
  refine ⟨by decide, by decide, by decide, ?_⟩
  · intro h
    have : (match step live with | .next t => t.clock.now | _ => 0) = live.clock.now := by rw [h]
    exact absurd this (by decide)

theorem witness_NopAndFenceComplete :
    (on live [opOf 7 0 []]).Runs 7 0x00 (opOf 7 0 []) ∧ (on live [opOf 7 1 [(1, 1, 1)]]).Runs 7 0x01 (opOf 7 1 [(1, 1, 1)]) ∧
    (on live [opOf 7 1 [(1, 1, 1)]]).fencePending { id := 7, scope := 1 } = false ∧ (on live [opOf 3 0 [], opOf 7 1 [(1, 1, 1)]]).fencePending { id := 7, scope := 1 } = true := by decide

/-- A state whose function 0 has one enabled ring n with tail and head set, and doorbell slots at 0x1000. -/
def ringed (head tail : Nat) : State :=
  { live with rings := { live.rings with
      sq := [(ringKey 0 3, { cfg := 0x8064, baseLo := 0x10000, head := head, tail := tail })]
      cq := [(ringKey 0 0, { cfg := 0x8064, baseLo := 0x20000, int := 0xC0000005 })]
      fns := [(0, { sqCount := 256, cqCount := 256, dbLo := 0x1000, wbLo := 0x3000, sweep := 1 })] } }

theorem witness_InvalidDoorbellSlotIsIgnored :
    (65536 ≤ leNat ((put (ringed 0 0) 0x100C [0, 0, 1, 0]).readMem (((ringed 0 0).fnc 0).sqSlot 3) 4)) ∧
    (cfgSize ((ringed 0 0).sq 0 3).cfg ≤ leNat ((put (ringed 0 0) 0x100C [16, 0, 0, 0]).readMem (((ringed 0 0).fnc 0).sqSlot 3) 4)) ∧
    (cfgSize ((ringed 0 0).cq 0 0).cfg ≤ leNat ((put (ringed 0 0) 0x2000 [16, 0, 0, 0]).readMem (((ringed 0 0).fnc 0).cqSlot 0) 4)) := by decide

theorem witness_WakeWhenFollowsHead :
    (bit ((ringed 2 2).sq 0 3).cfg.toNat 12 = false ∧ ((ringed 0 2).sq 0 3).head ≠ ((ringed 0 2).sq 0 3).tail) ∧
    (bit ({ cfg := 0x9064 } : SqCtx).cfg.toNat 12 = true ∧ ({ cfg := 0x9064 } : SqCtx).head = 0) := by decide

theorem witness_SweepsSeeNewIndices :
    ((ringed 0 0).hostUp 0 = true ∧ bit ((ringed 0 0).fncNow 0).sweep.toNat 0 = true ∧ (ringed 0 0).fault.safeHold = false) ∧
    (let f (x : NudgeState) : State := { live with rings := { live.rings with fns := [(0, { sweep := 1, nudge := x })] } }
     bit ((f .pending).fncNow 0).sweep.toNat 0 = true ∧ ((f .pending).fnc 0).nudge = .pending ∧ ((f .further).fnc 0).nudge = .further) ∧
    (let s := put (put (ringed 0 0) 0x100C [15, 0, 0, 0]) 0x2000 [7, 0, 0, 0]
     0 ∈ s.cqsOf 0 (some 0) ∧ leNat (s.readMem ((s.fncNow 0).cqSlot 0) 4) < min 65536 (cfgSize (s.cq 0 0).cfg) ∧
     3 ∈ s.sqsOf 0 (some 0) ∧ leNat (s.readMem ((s.fncNow 0).sqSlot 3) 4) < min 65536 (cfgSize (s.sq 0 3).cfg) ∧
     (∀ e ∈ s.rings.sq, e.2.stalledTags = false ∧ e.2.stalledCq = false) ∧ (s.fncNow 0).sqSlot 3 + 4 ≤ ringBase (s.fncNow 0).wbLo (s.fncNow 0).wbHi) := by decide

theorem witness_DescriptorFetchAcceptsNext :
    ∀ b ∈ [[3], [5]], let s := put (ringed 0 1) 0x10002 b
     s.running = true ∧ s.hostUp 0 = true ∧ (s.sq 0 3).ready = true ∧ s.pool (cfgClass (s.sq 0 3).cfg) = some 2 ∧ (s.cq 0 (cfgCq (s.sq 0 3).cfg)).space = true ∧
      s.outranked (cfgClass (s.sq 0 3).cfg) 2 = false ∧ s.findOp s.ops.nextId = none ∧ ((s.settleBufs.charge 0 3 2).descCheck (s.fetched 0 3 2)).isSome = decide (b = [5]) := by decide

theorem witness_HeldOperationStarts :
    let s := on live [{ opOf 7 0 [] with phase := .held }]
    s.findOp 7 = some { opOf 7 0 [] with phase := .held } ∧ s.fenced { opOf 7 0 [] with phase := .held } = false ∧ s.orderHeld { opOf 7 0 [] with phase := .held } = false ∧
    (let o : Op := { opOf 7 0 [] with phase := .held }
     let s : State := { live with ops := { list := [opOf 3 0 [], opOf 5 1 [(1, 1, 1)], o], fences := [{ id := 5, scope := 1 }] } }
     s.fenced o = true ∧ s.findOp 7 = some o) ∧
    (on live [opOf 3 0 [(1, 1, 4)], { opOf 7 0 [(1, 1, 4)] with phase := .held }]).orderHeld { opOf 7 0 [(1, 1, 4)] with phase := .held } = true := by decide

theorem witness_InterruptTimerSignalsVector :
    let s : State := { live with rings := { live.rings with cq := [(0, { cfg := 0x8064, int := 0xC0000005, unsignalled := 1 })] }
                                 host := { live.host with msixTable := [(92, 0)] } }
    0 < (s.cq 0 0).unsignalled ∧ bit (s.cq 0 0).int.toNat 31 = true ∧ bits (s.cq 0 0).int.toNat 10 0 < 256 ∧ s.host.msixOff.contains 0 = false ∧
      s.vectorMasked 0 (bits (s.cq 0 0).int.toNat 10 0) = false ∧
      ({ s with host := { s.host with msixTable := [] } } : State).vectorMasked 0 (bits (s.cq 0 0).int.toNat 10 0) = true := by decide

theorem witness_UnfinishedOperationTimesOut :
    (on live [opOf 7 0x1A []]).findOp 7 = some (opOf 7 0x1A []) ∧ (opOf 7 0x1A []).phase ≠ .final ∧ (opOf 7 0x1A []).committed = false ∧
      ¬ ([0x20, 0x21, 0x22].contains (opOf 7 0x1A []).opcode) ∧ (opOf 7 0x1A []).deadlineUs < 2 ^ 32 := by decide

theorem witness_CompletionEntryIsPosted :
    let o : Op := { opOf 7 0 [] with phase := .final, sq := 3 }
    let s := on (ringed 1 1) [o]
    s.findOp 7 = some o ∧ (s.ops.list.any fun p => p.fn = o.fn && p.sq = o.sq && decide (p.id < o.id)) = false ∧ s.hostUp o.fn = true ∧
      (∀ e ∈ s.rings.sq, e.2.stalledTags = false ∧ e.2.stalledCq = false) ∧
      ringBase (s.cq o.fn o.cq).baseLo (s.cq o.fn o.cq).baseHi + 32 * (s.cq o.fn o.cq).post + 32 ≤ 2 ^ 63 := by decide

/-- The device 1 ms after the keys were written, and 1 ns later. -/
def keyed (d : Nat) : State :=
  { live with clock := { live.clock with now := 1000000 + d }, host := { live.host with privKeyAt := some 0, resetKeyAt := some 0 } }

theorem witness_PrivilegedModeNeedsKey :
    (live.Reaches 0 ∧ (keyed 0).keyFresh (keyed 0).host.privKeyAt = true ∧ (keyed 1).keyFresh (keyed 1).host.privKeyAt = false ∧ live.Reaches 1) ∧
    ((5 : Word) ≠ 1 ∧ (5 : Word) ≠ 2) := by decide

theorem witness_GuardedRegistersRefuse :
    live.host.privileged = true ∧ live.host.hostTagSet = false ∧ ({ live with host := { live.host with hostTagSet := true } } : State).host.hostTagSet = true ∧
    (live.Reaches 1 ∧ 0x3018 % 4 = 0 ∧ 0x3018 < 0x40000 ∧ (live.blockOf 0x3018).isSome = true ∧ isGuarded 0x3018 = true ∧ live.privileged 1 = false) := by decide

theorem witness_ResetNeedsKey :
    (keyed 0).Reaches 0 ∧ (keyed 0).host.privileged = true ∧ (keyed 0).keyFresh (keyed 0).host.resetKeyAt = true ∧ (keyed 1).keyFresh (keyed 1).host.resetKeyAt = false ∧
      (keyed 0).power.boot ≠ .heldInReset ∧ bits (0 : Word).toNat 1 0 ≠ 1 ∧ bits (0 : Word).toNat 1 0 ≠ 2 := by decide

theorem witness_RegisterWritesTakeTheirFields :
    (live.Reaches 0 ∧ ((rowOf 0x301C).any fun r => r.fields.all fun f => f.at_ = .imm) = true ∧ (live.blockOf 0x301C).isSome = true ∧ live.privileged 0 = true ∧
      ((rowOf 0x301C).any fun r => decide (live.instOf 0 r < 64)) = true) ∧
    (0x301C ≠ 0x700C ∧ 0x301C ≠ 0x8004 ∧ 0x301C % 4 = 0 ∧ 0x301C < 0x40000 ∧ ((rowOf 0x301C).any fun r => (r.fields.find? fun f => f.lo ≤ 7 && 7 ≤ f.hi).any fun f => f.acc = .rw && !f.reserved) = true) ∧
    (live.Reaches 63 ∧ isGuarded 0x207C = false ∧ (live.blockOf 0x207C).isSome = true ∧ ((rowOf 0x207C).any fun r => decide (live.instOf 63 r = 63)) = true ∧
      ((rowOf 0x207C).any fun r => (r.fields.find? fun f => f.lo ≤ 0 && 0 ≤ f.hi).any fun f => f.acc = .rw && !f.reserved) = true) := by decide

theorem witness_SpringWriteArrivesLater :
    (live.Reaches 0 ∧ live.host.privileged = true ∧ live.regs.springQueue.length < 16) ∧
    (let s : State := { live with regs := { live.regs with springQueue := [(0, 0x11010, 31)] } }
     s.regs.springQueue = [(0, 0x11010, 31)] ∧ s.regs.springStalled = []) := by decide

theorem witness_ReadsAndTimeCommandsTakeEffect :
    (live.Reaches 0 ∧ live.host.privileged = true ∧ live.Reaches 63) ∧ (live.timeLocked = false ∧ live.timeSource ≠ .pps) ∧
    ((setReg live 0x6000 0 2).timeLocked = false ∧ (setReg live 0x6000 0 2).timeSource = .pps ∧ (setReg live 0x6000 0 2).Reaches 0) ∧
    (0 ≤ (live.clock.dev : Int) + sext 32 (live.reg 0x6024 0) * 1024000000000) ∧
    (let s := setReg { live with clock := { live.clock with dev := 1024000000000 } } 0x6024 0 0xFFFFFFFF
     s.Reaches 0 ∧ s.timeLocked = false ∧ 0 ≤ (s.clock.dev : Int) + sext 32 (s.reg 0x6024 0) * 1024000000000) := by decide

theorem witness_RingsEnableAndDisable :
    (let s : State := { ringed 0 0 with rings := { (ringed 0 0).rings with sq := [] } }
     s.Reaches 0 ∧ cfgEnable 0x8064 = true ∧ s.ringSel 0 = (0, false) ∧ cfgEnable (s.sq 0 0).cfg = false ∧
      (s.Reaches 1 ∧ bits (0x8024 : Word).toNat 7 5 < 2 ∧ s.ringSel 1 = (0, false)) ∧
      contextOk 0x8064 (s.sq 0 0).baseHi 0 (s.fncNow 0).sqCount = true ∧ cfgCq 0x8064 < (s.fncNow 0).cqCount ∧ cfgEnable (s.cq 0 (cfgCq 0x8064)).cfg = true ∧
      contextOk 0x8063 (s.sq 0 0).baseHi 0 (s.fncNow 0).sqCount = false ∧ (s.fncNow 0).cqCount ≤ cfgCq 0x1008064 ∧ cfgEnable (s.cq 0 (cfgCq 0x18064)).cfg = false) ∧
    (let s := setReg live 0x1000 0 0x80FF
     s.ringSel 0 = (255, true) ∧ cfgEnable (s.cq 0 255).cfg = false ∧ contextOk 0x8070 (s.cq 0 255).baseHi 255 (s.fncNow 0).cqCount = true ∧
      contextOk 0x8063 (s.cq 0 255).baseHi 255 (s.fncNow 0).cqCount = false) ∧
    (let s := setReg (ringed 0 0) 0x1000 0 3
     cfgEnable 0x64 = false ∧ cfgEnable 0x65 = false ∧ s.ringSel 0 = (3, false) ∧ cfgEnable (s.sq 0 3).cfg = true ∧ lockedCfg 0x65 ≠ lockedCfg (s.sq 0 3).cfg ∧ s.counter 0x104 0 + 1 < 2 ^ 64) ∧
    (let s := setReg (ringed 0 0) 0x1000 0 0x8000
     s.ringSel 0 = (0, true) ∧ cfgEnable (s.cq 0 0).cfg = true ∧ lockedCfg 0x64 = lockedCfg (s.cq 0 0).cfg ∧ s.cqInUse 0 0 = true ∧
     ({ s with rings := { s.rings with sq := [] } } : State).cqInUse 0 0 = false) ∧
    (let s := setReg live 0x1020 0 1
     s.Reaches 0 ∧ s.host.privileged = true ∧ s.regF 0x1020 0 5 0 = 1 ∧ s.fnActive 1 = false ∧
      (((List.range 64).filter fun g => g ≠ 1).map fun g => (s.fnc g).sqCount).sum + bits (0x7F007F00 : Word).toNat 15 0 ≤ 32768 ∧
      (((List.range 64).filter fun g => g ≠ 1).map fun g => (s.fnc g).cqCount).sum + bits (0x7F007F00 : Word).toNat 31 16 ≤ 32768 ∧
      32768 < (((List.range 64).filter fun g => g ≠ 1).map fun g => (s.fnc g).sqCount).sum + bits (0x7F007F01 : Word).toNat 15 0 ∧
      32768 < (((List.range 64).filter fun g => g ≠ 1).map fun g => (s.fnc g).cqCount).sum + bits (0x7F017F00 : Word).toNat 31 16) ∧
    ((ringed 0 0).Reaches 0 ∧ (ringed 0 0).regF 0x1020 0 5 0 = 0 ∧ (ringed 0 0).fnActive 0 = true) := by decide

/-- Two packets at router 7 for its stop, of classes 1 and 3, and one of class 3 that goes right along the row. -/
def meshed : Mesh :=
  { waiting := [{ pkt := { cls := 3, src := 5, dst := 7 }, router := 7, input := 1 }, { pkt := { cls := 1, src := 9, dst := 7 }, router := 7, input := 2 },
                { pkt := { cls := 3, src := 7, dst := 8 }, router := 7 }] }

theorem witness_SpineRoutesAndGrantsByClass :
    (∀ w ∈ meshed.waiting, w.input < 5 ∧ w.pkt.cls ≤ 4) ∧ meshed.asking 7 0 ≠ [] ∧ meshed.asking 0 0 = [] ∧ meshed.asking 7 2 ≠ [] ∧
    (let n : Mesh := { waiting := meshed.waiting.filter fun w => w.pkt.cls = 3 }
     meshed ≠ n ∧ (meshed.waiting.filter fun w => w.pkt.cls = 3) = n.waiting.filter fun w => w.pkt.cls = 3) := by
  refine ⟨by decide, by decide, by decide, ?_, by decide⟩
  have h : meshed.credit 7 2 3 = true := by
    have e : (meshed.waiting.filter fun x => x.router = routerNext 7 2 && x.input = inputOf 2 && x.pkt.cls = 3) = [] := by decide
    simp [Mesh.credit, e, vcDepth]
  intro h0
  have : ({ pkt := { cls := 3, src := 7, dst := 8 }, router := 7 } : OnMesh) ∈ meshed.asking 7 2 := by
    simp only [Mesh.asking, List.mem_filter]
    refine ⟨by decide, ?_⟩
    simp only [h]
    decide
  rw [h0] at this
  exact absurd this (List.not_mem_nil)

/-- One enabled extent of two lake parcels from 0x100000. -/
def reached : State :=
  { live with tiers := { live.tiers with extents := [(0, { base := 0x100000, size := 0x80000002 })], parcels := [{ num := 0x100000 }, { num := 0x100001 }] } }

theorem witness_ExtentsGrantFreeAndMapParcels :
    (let s : State := { live with tiers := { live.tiers with extents := [(0, { base := 0x100000 })] } }
     s.Reaches 0 ∧ s.host.privileged = true ∧ s.extentSel 0 = 0 ∧ bit (0x80000002 : Word).toNat 24 = false ∧ bit (0x80000002 : Word).toNat 31 = true ∧
      bit (s.extent 0).size.toNat 31 = false ∧ s.extentFits (s.extent 0).base.toNat (bits (0x80000002 : Word).toNat 23 0) = true ∧
      s.extentFits (s.extent 0).base.toNat (bits (0x80000000 : Word).toNat 23 0) = false) ∧
    (reached.Reaches 0 ∧ bit (2 : Word).toNat 31 = false ∧ bit (reached.extent 0).size.toNat 31 = true) ∧
    (let s := setReg reached 0x3018 0 64
     0x10000 + 8 ≤ 2 ^ 36 ∧ s.power.boot = .running ∧ (List.replicate 8 (0 : Byte)).length = 8 ∧ s.bar2Reach (s.bar2Addr 0x10000) 8 = true ∧ s.regs.faulted 0x3018 0 = false ∧ s.power.options.bar2En = true ∧ s.host.linkUp = true ∧
      s.bar2Reach (s.bar2Addr 0x1FFFC) 8 = false) := by decide

theorem witness_ParityFaultReturnsRegisterToReset :
    ((live.blockOf 0x301C).isSome = true ∧ ((rowOf 0x301C).any fun r => decide (0 < r.inst.count)) = true ∧ (live.blockOf 0x1000).isSome = true ∧
      ((rowOf 0x1000).any fun r => decide (63 < r.inst.count)) = true) ∧
    (∀ off ∈ [0x1004, 0x1017, 0x3010, 0x3014, 0x1024, 0x2000, 0x2004, 0x2008, 0x200C, 0x2014, 0x12C, 0x6028], (live.blockOf off).isSome = true) := by decide

theorem witness_CommandedResetsAreTaken :
    ((keyed 0).power.boot ≠ .heldInReset ∧ (keyed 0).Reaches 0 ∧ (keyed 0).host.privileged = true ∧ (keyed 0).keyFresh (keyed 0).host.resetKeyAt = true) ∧
    (bits 0x6C04 15 8 = 0x6C ∧ 0x6C04 < 2 ^ 32 ∧ lifeCycleOf (bits 0x6C04 2 0) = some .scrapped ∧ live.mayMove .scrapped = true) ∧
    ({ live with mgmt := { live.mgmt with pendingReset := some .warm } } : State).mgmt.pendingReset = some .warm := by decide

theorem witness_EventResetsAreTaken :
    live.power.boot = .running ∧ live.power.boot ≠ .heldInReset ∧ live.power.boot ≠ .phaseA ∧ live.domOn 1 = true ∧ live.chip.lifeCycle ≠ .scrapped ∧
      (729 < 730 ∧ 660 ≤ 729 ∧ 729 ≤ 840 ∧ 10 ≤ 10) ∧ (770 < 840 ∧ 840 ≤ 840) ∧ (659 < 660 ∨ 840 < 659) ∧ (841 < 660 ∨ 840 < 841) := by decide

/-- The device held by RESET_N after a run, with PARK_ON_RESET_N. -/
def held : State :=
  { live with power := { live.power with boot := .heldInReset, level := .warm, brought := true, options := { live.power.options with parkOnResetN := true } } }

theorem witness_ResetPinsHoldAndRelease :
    (live.power.boot ≠ .heldInReset ∧ live.power.boot ≠ .phaseA) ∧ (held.power.boot = .heldInReset ∧ held.power.level = .warm ∧ held.power.brought = true ∧
      held.power.options.parkOnResetN = true ∧ held.power.parked = false) ∧
    (live.host.perstLow = false) ∧ (let s : State := { live with host := { live.host with perstLow := true } }
     s.host.perstLow = true ∧ s.domOn 3 = true) ∧ live.host.linkUp = true := by decide

theorem witness_FunctionResetIsolatesOthers : live.host.linkUp = true ∧ 0 ≤ live.power.options.totalVfs ∧ 63 ≤ live.power.options.totalVfs := by decide

/-- The device at a point of bring-up. -/
def booting (b : Boot) : State := { live with power := { live.power with boot := b } }

theorem witness_BringUpStepsInOrder :
    (State.reset.power.boot = .start ∧ State.reset.chip.fuseProgrammed = true ∧ State.reset.chip.lifeCycle ≠ .scrapped) ∧
    (let s : State := { live with power := { live.power with domains := updAt 2 (fun d => { d with released := false }) live.power.domains } }
     s.power.domains[2]? = some { state := .on } ∧ s.earlierReleased 2 = true ∧ s.clockless 2 = false) ∧
    ((booting .released).chip.slotBoots ((booting .released).chip.slot ((booting .released).chip.slotRecord % 2)) = true) ∧
    (let s : State := { booting .released with chip := { live.chip with slotA := { signed := false }, slotB := { signed := false } } }
     s.power.boot = .released ∧ s.chip.slotBoots s.chip.slotA = false ∧ s.chip.slotBoots s.chip.slotB = false) ∧
    ((booting .verified).power.boot = .verified ∧ ((booting .verified).serving.all fun c => (booting .verified).settled (15 + c) && (booting .verified).settled (28 + c)) = true ∧
      (booting .verified).chip.lifeCycle = .field) := by decide

/-- The device with one cluster domain changed, at epoch 20. -/
def withDom (d : Nat) (x : Domain) : State :=
  { live with power := { live.power with domains := updAt d (fun (_ : Domain) => x) live.power.domains }, map := { live.map with published := 20 } }

theorem witness_PowerFollowsWorkAndHeat :
    (let s := withDom 0 { state := .on, released := true }
     s.power.domains[15]? = some { state := .on, released := true } ∧ s.power.domains[28]? = some { state := .on, released := true } ∧ s.maySleep 0 = true ∧ bit (s.reg 0x13008 0) 10 = true ∧
      s.clusterBusy 0 = false ∧ Store.get (fun _ => 0) 0 s.power.idleSince + max 1 (s.regF 0x13008 0 23 16) ≤ s.map.published ∧ bit (s.reg 0x13008 0) 11 = true ∧ s.otherAwake 0 = true ∧
      s.running = true ∧ s.serving.contains 0 = true ∧ (s.matrix.infers.any fun i => i.cluster = 0) = false) ∧
    (let s := withDom 15 {}
     s.running = true ∧ s.serving.contains 0 = true ∧ s.power.domains[15]? = some ({} : Domain)) ∧
    (let s := withDom 15 { wakeEnds := some 5 }
     s.power.domains[15]? = some { wakeEnds := some 5 } ∧ ({ wakeEnds := some 5 } : Domain).state ≠ .fused ∧ (s.power.domains[28]?).isSome = true) ∧
    1 < live.chip.part.basinGb / 16 := by decide

theorem witness_ManagementPortAnswers :
    live.power.boot ≠ .phaseA ∧ (live.power.domains.drop 1).any (fun d => d.state = .on) = true ∧ (8 : Byte).toNat < 9 ∧ 9 ≤ (9 : Byte).toNat ∧
    (let s : State := { live with tally := { live.tally with entries := [{ seq := 7 }], head := 8 } }
     s.tally.entries.find? (fun e => e.seq = leNat [7, 0, 0, 0]) = some { seq := 7 } ∧ s.tally.entries.find? (fun e => e.seq = leNat [8, 0, 0, 0]) = none) ∧
    (let s : State := { live with mgmt := { live.mgmt with armedAt := some 0 } }
     s.mgmt.armedAt = some 0 ∧ s.clock.now < 0 + 1000000000) ∧
    ((booting .phaseA).power.boot = .phaseA ∧ ([] : List Byte).length ≠ 1 ∧ (0x4C : Byte) ≠ 0x4B) := by decide

/-- The pair with port 0 changed. -/
def pairWith (f : FzPort → FzPort) : State := { pair with fabric := { pair.fabric with ports := updAt 0 f pair.fabric.ports } }

theorem witness_FabricPortTrainsAndReplays :
    (let s := setReg pair 0x8004 0 1
     (s.fabric.ports[0]?).isSome = true ∧ s.portUsable 0 = true ∧ s.domOn 5 = true) ∧
    (let s := pairWith fun q => { q with txSeq := 4 }
     (s.fabric.ports[0]?).any (fun q => q.up && !q.retraining && decide (q.txSeq ≠ (q.ackSeq + 1) % 4096) && !q.spareUsed && bit q.lanes 4 && bit q.lanes 0) = true) ∧
    (pairWith fun q => { q with retraining := true }).fabric.ports[0]? = some { up := true, agreed := true, neighbour := 1, neighbourKnown := true, coord := some 16, lanes := 31, retraining := true } := by decide

/-- A HELLO from the neighbour of port 0. -/
def greeting : Hello := { arrayId := 1, port := 1, dimX := 2, coordValid := true, coord := 16 }

theorem witness_HelloAgreesCoordinates :
    (pair.running = true ∧ pair.fabricUp = true ∧ (pair.fabric.ports[0]?).any (fun q => q.up) = true) ∧
    (pair.helloCause 0 { greeting with port := 0 } = some 1 ∧ pair.helloCause 0 { greeting with tileSize := 9 } = some 2 ∧ pair.helloCause 0 { greeting with arrayId := 0 } = some 3 ∧
      pair.helloCause 0 { greeting with coord := 0 } = some 4 ∧ pair.helloCause 0 greeting = none ∧ pair.fabric.coordValid = true) ∧
    (let s : State := { pair with fabric := { pair.fabric with coordValid := false } }
     s.helloCause 0 greeting = none ∧ s.helloCause 0 { greeting with coordValid := false } = none ∧ s.fabric.coordValid = false) ∧
    ((pairWith fun q => { q with agreed := false }).fabric.ports[0]?).any (fun q => !q.retraining && !q.agreed) = true ∧
    ((pair.fabric.ports[0]?).any (fun q => !q.isolated && !q.retraining) = true ∧ (1 : Nat) ≠ pair.self ∧ fzType 0x55 = true ∧ fzLenOk 0x55 3 = true ∧ 0x55 ∉ [0x40, 0x41, 0x42, 0x50] ∧
      pair.route 1 = some 0) := by decide

theorem witness_ViewsFollowMembership :
    (pair.running = true ∧ pair.fabricUp = true ∧ bit 3 pair.self = true ∧ bit 1 pair.self = true ∧ bit 2 pair.self = false ∧ 1 ≠ pair.fabric.viewNo ∧ validView pair.fabric.members 1 = true ∧
      pair.others = [1]) ∧
    (let s : State := { pair with fabric := { pair.fabric with leader := 1 } }
     s.fabric.isolated = false ∧ s.fabric.leader ≠ s.self ∧ s.route s.fabric.leader = some 0) ∧
    (pair.fabric.leader = pair.self ∧ validView pair.fabric.members (setBit pair.fabric.members 1 false) = true) ∧
    (let s : State := { pair with power := { pair.power with options := { pair.power.options with arrayId := 1 } }, fabric := { pair.fabric with leader := 1 } }
     s.fabric.isolated = false ∧ s.fabric.leader = s.self ∧ s.others = [0] ∧ validView s.fabric.members (setBit s.fabric.members 0 false) = false) ∧
    (let s : State := { pair with fabric := { pair.fabric with members := 1 } }
     s.fabric.leader = s.self ∧ s.helloCode greeting = 0 ∧ bit s.fabric.members 1 = false ∧ validView s.fabric.members (setBit s.fabric.members 1 true) = true ∧ s.helloCode { greeting with version := 2 } ≠ 0) ∧
    ({ pair with fabric := { pair.fabric with joinSeen := true } } : State).fabric.joinSeen = true ∧
    (let s : State := { pair with fabric := { pair.fabric with leaving := true }, map := { pair.map with cur := { tiles := [{ owner := 1 }] } } }
     s.fabric.leaving = true ∧ s.fabricUp = true ∧ ∀ t ∈ s.map.cur.tiles ++ s.map.latest.tiles, t.owner ≠ s.self ∧ t.mirror ≠ some s.self) := by decide

theorem witness_FabricControlAndLinksTakeEffect :
    (pair.Reaches 0 ∧ pair.host.privileged = true ∧ (rowOf 0x8004).isSome = true ∧ (rowOf 0x5000).isSome = true) ∧
    (let s : State := { pair with regs := { pair.regs with waiting := [(0x8004, 0)], shadow := [(regKey 0x8004 0, 1)] } }
     s.regs.waiting = [(0x8004, 0)] ∧ ((rowOf 0x8004).any fun r => (s.linkHits 0x8004 0 r).contains 0) = true) ∧
    (let s : State := { live with regs := { live.regs with waiting := [(0x5000, 0)], shadow := [(regKey 0x5000 0, 3)] }, net := { live.net with ports := [{}, { up := true }] } }
     s.regs.waiting = [(0x5000, 0)] ∧ ((rowOf 0x5000).any fun r => (s.linkHits 0x5000 0 r).contains 1) = true) ∧
    ((setReg live 0x5000 0 0x15).netUp = true ∧ bit ((setReg live 0x5000 0 0x15).reg 0x5000 0) 0 = true ∧ (setReg live 0x5000 0 0x15).domOn 4 = true ∧ (live.net.ports[0]?).isSome = true) := by decide

/-- The device with TIME_CTRL set and device time in a state. -/
def timed (w : Word) (st : TimeState) : State := { setReg live 0x6000 0 w with clock := { live.clock with state := st, dev := 5000000000 * 1024000000000 } }

theorem witness_PpsAndTriggersFollowDeviceTime :
    ((timed 2 .free).hasNet = true ∧ (timed 2 .free).power.boot = .running ∧ (timed 2 .free).timeSource = .pps ∧ (timed 2 .free).clock.ppsSetPending = false ∧ (timed 2 .free).clock.state ≠ .unset ∧
      (timed 2 .free).secondOffset.natAbs ≤ (timed 2 .free).stepLimit) ∧
    (let s : State := { timed 2 .free with clock := { (timed 2 .free).clock with dev := 5400000000 * 1024000000000 } }
     s.stepLimit < s.secondOffset.natAbs ∧ s.timeSource = .pps) ∧
    ({ timed 2 .locked with clock := { (timed 2 .locked).clock with ppsSeen := true } } : State).clock.ppsSeen = true ∧
    ((timed 0x10 .free).running = true ∧ bit ((timed 0x10 .free).reg 0x6000 0) 4 = true ∧ (timed 0x10 .free).net.ppsOut = false ∧ 0 < (timed 0x10 .free).clock.speed) ∧
    ({ live with net := { live.net with ppsOut := true } } : State).net.ppsOut = true ∧
    (let s : State := { timed 0 .free with net := { live.net with trigs := updAt 3 (fun (g : Trig) => { g with running := true }) live.net.trigs } }
     (s.net.trigs[3]?).any (fun g => g.running && !g.level) = true ∧ s.clock.state ≠ .unset ∧ s.hasNet = true ∧ s.running = true) ∧
    (({ live with net := { live.net with trigs := updAt 3 (fun (g : Trig) => { g with level := true }) live.net.trigs } } : State).net.trigs[3]?).any (fun g => g.level) = true ∧
    (timed 0 .holdover).clock.state = .holdover := by decide

theorem witness_TimeMessagesAreAnswered :
    (let s := setReg pair 0x6000 0 3
     s.running = true ∧ s.fabricUp = true ∧ (s.fabric.ports[0]?).any FzPort.carries = true ∧ 1 ≠ s.self ∧ s.timeSource = .fabric ∧ s.clock.state = .unset ∧
      (s.updPort 0 fun q => { q with masterSeen := some (2, 1), lastSync := some (700, s.devNs) }).bestParent = some (0, 2, 1) ∧ 0 ≤ (700 : Int) + ((s.fabric.ports[0]?).getD ({} : FzPort)).delay) ∧
    (let s : State := { setReg (pairWith fun q => { q with reqTx := some 9, lastSync := some (3, 5) }) 0x6000 0 3 with
        clock := { pair.clock with state := .locked }, fabric := { (pairWith fun q => { q with reqTx := some 9, lastSync := some (3, 5) }).fabric with parentPort := some 0 } }
     s.fabric.parentPort = some 0 ∧ (s.fabric.ports[0]?).any (fun q => q.carries && q.reqTx = some 9 && q.lastSync = some (3, 5)) = true ∧ s.timeSource = .fabric ∧ s.fabric.ports.length = 6 ∧
      s.clock.state = .locked) ∧
    (pair.sendsTime = true ∧ pair.fabric.parentPort = none) ∧
    (let s : State := { setReg live 0x5000 0 0x241 with net := { live.net with ports := [{ up := true }, {}] }, clock := { live.clock with ptpMaster := true } }
     s.running = true ∧ s.ptpOn = true ∧ 5 ≠ s.clockIdentity ∧ s.clock.ptpParent = none ∧ datasetBetter [127, 6, 128, 5] s.ownDataset = true ∧ s.clock.ptpMaster = true ∧ s.ptpPeer = false ∧
      bit (s.reg 0x5000 0) 9 = true) := by decide

/-- The device with a session and a key slot. -/
def withSess (x : Session) (k : KeySlot) : State := { live with sess := { live.sess with list := [x], keys := [k] } }

/-- A pose block: position 0 and a unit quaternion. -/
def poseBlock : List Byte := zeros 20 ++ leBytes 0x3F800000 4 ++ zeros 12

theorem witness_SessionsOpenAndClose :
    (let o := opOf 7 0x0A [(12, 4, 9), (48, 1, 3), (49, 1, 0)]
     let s := on live [o]
     s.Runs 7 0x0A o ∧ keyCheck s o = none ∧ (s.session 9).isSome = false ∧
      keyCheck { s with sess := { s.sess with keys := [{ sid := 9, cur := some (5, 3) }] } } o = some (Res.field 48) ∧
      (let t : State := { s with sess := { s.sess with keys := [{ sid := 9, cur := some (5, 2) }], list := [{ id := 9 }] } }
       keyCheck t o = none ∧ (t.session 9).isSome = true ∧ (t.keySlot 9).isSome = true)) ∧
    (let o := opOf 7 0x08 [(12, 4, 9), (16, 1, 0), (17, 1, 0), (20, 4, 1000)]
     let s : State := { on live [o] with sess := { live.sess with keys := [{ sid := 9, cur := some (5, 3) }] } }
     s.Runs 7 0x08 o ∧ openCheck (on live [o]) o = some (Res.denied 3) ∧ openCheck s o = none) ∧
    (let o := opOf 7 0x09 [(12, 4, 9), (16, 1, 0)]
     let s := on (withSess { id := 9 } { sid := 9 }) [o]
     s.Runs 7 0x09 o ∧ o.u8 16 ≤ 1 ∧ s.session o.handle = some { id := 9 } ∧ (on (withSess { id := 9, fn := 2 } { sid := 9 }) [o]).session o.handle = some { id := 9, fn := 2 }) := by decide

/-- A SESSION_TUNE of session 9 on a device that has it. -/
def tuneOf (sub : Nat) (l : List (Nat × Nat × Nat)) : Op := opOf 7 0x0B ((12, 4, 9) :: (16, 1, sub) :: l)

/-- A live host-path session. -/
def hostSess : Session := { id := 9, hostPath := true, state := .opened, decl := { width := 64, height := 64, images := 1, frameRate := 30 }, nextCfg := { base := { maxLoad := 100 } } }

/-- The device that runs an operation with hostSess live. -/
def tuning (o : Op) : State := on (withSess hostSess { sid := 9 }) [o]

set_option maxRecDepth 10000 in
theorem witness_TuneSetsStreamSettings :
    ((tuning (tuneOf 1 [(17, 1, 2), (18, 1, 1)])).Tunes 7 1 9 (tuneOf 1 [(17, 1, 2), (18, 1, 1)]) hostSess) ∧
    (let o := tuneOf 2 [(20, 4, 0x41200000)]
     (tuning o).Tunes 7 2 9 o hostSess ∧ thresholdOk (o.f32 20) = true ∧ thresholdOk (o.f32 24) = true) ∧
    (let o := tuneOf 3 [(20, 4, 1000), (26, 2, 10000), (28, 2, 1), (30, 1, 200)]
     (tuning o).Tunes 7 3 9 o hostSess ∧ zeroOr 1000 1000000 (o.u32 20) = true ∧ zeroOr 100 10000 (o.u16 26) = true ∧ zeroOr 1 3600 (o.u16 28) = true ∧ zeroOr 5 200 (o.u8 30) = true) ∧
    (let o := tuneOf 4 [(24, 2, 200)]
     (tuning o).Tunes 7 4 9 o hostSess ∧ loadOf hostSess.decl.width hostSess.decl.height hostSess.decl.images hostSess.nextCfg.base.hostRate ≤ o.u16 24 * loadDen ∧
      (tuning o).loadFits ((tuning o).totalLoad - hostSess.declLoad + o.u16 24 * loadDen) = true) ∧
    (let o := tuneOf 5 [(20, 4, 1)]
     (tuning o).Tunes 7 5 9 o hostSess ∧ 1 ≤ o.u32 20 ∧ o.u32 20 ≤ 60000 ∧ loadOf hostSess.decl.width hostSess.decl.height hostSess.decl.images (o.u32 20) ≤ hostSess.nextCfg.base.maxLoad * loadDen) ∧
    (let o := opOf 7 0x0B [(12, 4, 0xFFFFFFFF), (16, 1, 8), (20, 2, 4096), (22, 2, 65535)]
     (on live [o]).RunsSub 7 0x0B 0x08 o ∧ o.fn = 0 ∧ o.handle = 0xFFFFFFFF ∧ o.u16 20 ≤ 4096 ∧ fld o.desc 22 2 ≤ 81920) := by (repeat' apply And.intro) <;> decide

/-- A calibration block: unit focal lengths and quaternions, 0 elsewhere. -/
def calibBlock : List Byte :=
  leBytes 0 4 ++ leBytes 0x3F800000 4 ++ leBytes 0x3F800000 4 ++ zeros 28 ++ leBytes 0x3F800000 4 ++ leBytes 0x3F800000 4 ++ zeros 40 ++
    leBytes 0x3F800000 4 ++ zeros 24 ++ leBytes 0x3F800000 4 ++ zeros 16

set_option maxRecDepth 10000 in
theorem witness_TuneSetsFusionAndTracking :
    (let o := tuneOf 0x20 [(17, 1, 15), (18, 1, 127), (20, 4, 0x3F800000)]
     (tuning o).Tunes 7 0x20 9 o hostSess ∧ o.u8 17 ≤ 15 ∧ o.u8 18 ≤ 127 ∧ zeroOrF 0x3F800000 0x447A0000 (o.f32 20) = true) ∧
    ((tuning (tuneOf 0x21 [(17, 1, 6)])).Tunes 7 0x21 9 (tuneOf 0x21 [(17, 1, 6)]) hostSess) ∧
    (let o := tuneOf 0x22 [(17, 1, 2), (20, 4, 0x41200000)]
     (tuning o).Tunes 7 0x22 9 o hostSess ∧ zeroOrF 0x3D4CCCCD 0x41200000 (o.f32 20) = true) ∧
    ((tuning (tuneOf 0x23 [(17, 1, 15)])).Tunes 7 0x23 9 (tuneOf 0x23 [(17, 1, 15)]) hostSess ∧ zeroOr 2 15 15 = true) ∧
    (let o := tuneOf 0x24 [(24, 8, 0x1000)]
     (put (tuning o) 0x1000 poseBlock).Tunes 7 0x24 9 o hostSess ∧ o.u64 24 ≠ 0 ∧ poseOk ((put (tuning o) 0x1000 poseBlock).readMem (o.u64 24) 36) = true) ∧
    ((tuning (tuneOf 0x25 [(17, 1, 2), (20, 2, 60)])).Tunes 7 0x25 9 (tuneOf 0x25 [(17, 1, 2), (20, 2, 60)]) hostSess ∧ zeroOr 60 65535 60 = true) ∧
    (let o := tuneOf 0x30 [(24, 8, 0x1000)]
     (put (tuning o) 0x1000 calibBlock).Tunes 7 0x30 9 o hostSess ∧ o.u64 24 ≠ 0 ∧ calibOk ((put (tuning o) 0x1000 calibBlock).readMem (o.u64 24) 136) = true ∧
      calibOk ((tuning o).readMem (o.u64 24) 136) = false) ∧
    ((tuning (tuneOf 0x31 [(17, 1, 2), (18, 1, 100)])).Tunes 7 0x31 9 (tuneOf 0x31 [(17, 1, 2), (18, 1, 100)]) hostSess ∧ zeroOr 2 255 2 = true ∧ zeroOr 1 100 100 = true) ∧
    ((tuning (tuneOf 0x32 [(17, 1, 2), (20, 2, 8), (22, 2, 255)])).Tunes 7 0x32 9 (tuneOf 0x32 [(17, 1, 2), (20, 2, 8), (22, 2, 255)]) hostSess ∧ zeroOr 8 64 8 = true ∧ zeroOr 8 255 255 = true) ∧
    ((tuning (tuneOf 0x33 [(17, 1, 127), (18, 1, 15), (20, 2, 64)])).Tunes 7 0x33 9 (tuneOf 0x33 [(17, 1, 127), (18, 1, 15), (20, 2, 64)]) hostSess ∧ zeroOr 64 4096 64 = true) ∧
    ((tuning (tuneOf 0x34 [(17, 1, 128), (18, 1, 255)])).Tunes 7 0x34 9 (tuneOf 0x34 [(17, 1, 128), (18, 1, 255)]) hostSess) ∧
    ((tuning (tuneOf 0x35 [(17, 1, 7), (18, 1, 4)])).Tunes 7 0x35 9 (tuneOf 0x35 [(17, 1, 7), (18, 1, 4)]) hostSess) := by (repeat' apply And.intro) <;> decide

/-- A frame of session 9 with its vision done or not. -/
def frameOf (v : Option VisionResult) (op : Option Nat) : Frame := { frameNo := 5, capture := 7000000, width := 64, height := 64, rate := 30000, seq := 1, vision := v, op := op }

/-- A live session with frames, replies and results. -/
def sessOf (fs : List Frame) (rs : List Reply) (vs : List VisionResult) : Session :=
  { id := 9, hostPath := true, state := .opened, decl := { width := 64, height := 48, images := 1, frameRate := 30000 }, nextCfg := { base := { maxLoad := 100, hostRate := 30000 } },
    frames := fs, replies := rs, results := vs }

/-- A FRAME_SUBMIT of frame 5. -/
def submit : Op := opOf 7 0x10 [(12, 4, 9), (16, 8, 0x1000), (54, 4, 7000000), (60, 4, 5)]

/-- The device that runs operations with a session live. -/
def serving (x : Session) (l : List Op) : State := on (withSess x { sid := 9, cur := some (1, 1), net := { haveSrc := true } }) l

/-- Results of frame 5: two features, a track and one disparity row. -/
def seen : VisionResult := { frameNo := 5, capture := 7000000, features := [{}, { right := true }], tracks := [{}], width := 64, height := 2, disparity := List.replicate 128 0, confidence := List.replicate 128 0, retain := 7 }

theorem witness_FramesPassVisionAndFusion :
    ((serving (sessOf [] [] []) [submit]).Runs 7 0x10 submit ∧ (serving (sessOf [] [] []) [submit]).Uses submit (sessOf [] [] []) ∧ submitCheck (serving (sessOf [] [] []) [submit]) submit (sessOf [] [] []) = none) ∧
    (let x : Session := { sessOf [] [] [] with lastAccepted := some 7000000 }
     (serving x [submit]).Uses submit x ∧ submitCheck (serving x [submit]) submit x = some (Res.field 48)) ∧
    (let x := sessOf [frameOf none none] [] []
     (serving x []).session 9 = some x ∧ x.kind ≠ .station ∧ x.unseen = some (frameOf none none) ∧ (serving x []).running = true ∧
      (serving x []).domOn (15 + x.cluster) = true ∧ (serving x []).nextSeen x (frameOf none none) = true) ∧
    (let x := sessOf [frameOf (some seen) (some 7)] [] []
     let o : Op := { submit with committed := true }
     (serving x [o]).session 9 = some x ∧ x.fusable 5 = some (frameOf (some seen) (some 7), seen) ∧ x.motionReady (frameOf (some seen) (some 7)) = true ∧
      (serving x [o]).findOp 7 = some o ∧ o.phase ≠ .final ∧ o.opcode = 0x10 ∧ x.copies = []) ∧
    (let x := sessOf [frameOf (some seen) none] [] []
     x.fusable 5 = some (frameOf (some seen) none, seen) ∧ ({ x with decl := { x.decl with channelMask := 7 } } : Session).motionReady (frameOf (some seen) none) = false) ∧
    (let x := sessOf [] [] []
     x.kind ≠ .station ∧ x.frames = [] ∧ x.decl.period ≠ 0 ∧ x.state = .opened) ∧
    (let r : Reply := { frameNo := 5, launch := 10, rate := 30000, eligible := 40000000 }
     (sessOf [] [r] []).replies = r :: [] ∧ bit r.record.flags 3 = false ∧ r.launch < r.eligible ∧ pastPeriods r.rate 1 1 (r.eligible - r.launch) = true) ∧
    (let r : Reply := { frameNo := 5, record := { flags := 8 } }
     let s : State := { serving (sessOf [] [r] []) [] with net := { live.net with ports := [{ up := true }, {}] } }
     bit r.record.flags 3 = true ∧ (s.keySlot 9).any (fun k => k.cur.isSome && k.net.haveSrc && (s.exitPort k.net.src) = some 0) = true ∧ s.net.stopped = false ∧
      (let q : Reply := { frameNo := 5, launch := 10, eligible := 5 }
       q.eligible ≤ q.launch ∧ s.clock.rate = 0 ∧ s.devNs ≤ q.launch ∧ ((s.net.ports[0]?).all fun q => decide (q.busyUntil ≤ s.clock.now * 100)) = true)) := by decide

/-- A TRACK_QUERY of session 9. -/
def query (q : Nat) (l : List (Nat × Nat × Nat)) : Op := opOf 7 0x11 ([(12, 4, 9), (16, 1, q), (24, 8, 0x1000), (32, 4, 128)] ++ l)

theorem witness_EventsAndResultsAreRead :
    (let o := opOf 7 0x0B [(12, 4, 9), (16, 1, 0x10), (24, 8, 0x1000), (32, 2, 4096)]
     let x : Session := { sessOf [] [] [] with events := [{ code := 1 }] }
     (serving (sessOf [] [] []) [o]).RunsSub 7 0x0B 0x10 o ∧ within 1 4096 (o.u16 32) = true ∧ (serving x [o]).Uses o x ∧ (∀ p ∈ (serving x [o]).ops.list, p.phase = .waiting → p.opcode ≠ 0x0B) ∧
      (takeEvents o.coversEvents (o.u16 32) (serving x [o]).sess.list).2 ≠ [] ∧ (takeEvents o.coversEvents (o.u16 32) (serving (sessOf [] [] []) [o]).sess.list).2 = []) ∧
    (∀ q ∈ [1, 2, 3], let x := sessOf [] [] [seen]
     let s := serving x [query q []]
     s.RunsSub 7 0x11 q (query q []) ∧ s.Uses (query q []) x ∧ (query q []).u8 17 = 0 ∧ (query q []).u8 18 = 0 ∧ (query q []).u8 19 = 0 ∧ 32 ≤ (query q []).u32 32 ∧ (query q []).u32 36 = 0 ∧ (query q []).u64 40 = 0 ∧
      x.results.head? = some seen ∧ x.copies = [] ∧ x.frames = [] ∧ bit seen.retain (q - 1) = true ∧ bit ({ seen with retain := 0 } : VisionResult).retain (q - 1) = false ∧
      (let o := query q [(20, 4, 6)]
       o.u32 20 ≠ 0 ∧ (x.results.any fun r => r.frameNo = o.u32 20) = false ∧ (x.frames.any fun f => f.frameNo = o.u32 20) = false ∧
       ((sessOf [{ frameOf none none with frameNo := 6 }] [] [seen]).frames.any fun f => f.frameNo = o.u32 20) = true)) ∧
    (let o := query 4 [(36, 4, 1), (40, 8, 0x3000)]
     let s := serving (sessOf [] [] []) [o]
     s.RunsSub 7 0x11 4 o ∧ s.hasNet = true ∧ s.Uses o (sessOf [] [] []) ∧ o.u8 17 = 0 ∧ o.u8 18 ≤ 1 ∧ o.u8 19 ≤ 1 ∧ o.u32 20 = 0 ∧ within 1 1048576 (o.u32 36) = true ∧
      ((cut 16 1 (s.readMem (o.u64 40) (16 * 1))).all fun p => fld p 12 4 = 0) = true) := by (repeat' apply And.intro) <;> decide

theorem witness_SessionTimersAct :
    (let x : Session := { sessOf [] [] [] with reasm := [{ frameNo := 5 }] }
     (serving x []).session 9 = some x ∧ x.reasm.find? (fun r => r.frameNo = 5) = some { frameNo := 5 } ∧ 0 < (serving x []).clock.speed) ∧
    (let x : Session := { sessOf [] [] [] with hostPath := false }
     ((serving x []).keySlot 9).isSome = true ∧ x.state = .opened ∧ x.hostPath = false ∧ ({ x with state := .silent } : Session).state = .silent) ∧
    (let x : Session := { sessOf [] [] [] with cfg := { track := { calib := calibBlock } }, calibDue := 600000000000 }
     x.calibQueued = false ∧ (serving x []).running = true ∧ x.cfg.fusion.calibEnable = true ∧ x.cfg.track.calib ≠ [] ∧ x.kind ≠ .station ∧ x.cfg.fusion.calibPeriod * 1000000000 ≤ x.calibDue) ∧
    (let x : Session := { sessOf [] [] [] with calibQueued := true }
     x.calibQueued = true ∧ (serving x []).running = true ∧ (serving x []).freeAbacus.isSome = true ∧ (serving x []).ops.list = []) ∧
    (let x := sessOf [] [] []
     let a : Cluster := { idx := 0, role := .draining }
     let s : State := { serving x [] with place := { live.place with clusters := a :: live.place.clusters.drop 1 } }
     s.cluster 1 = some { idx := 1 } ∧ s.cluster x.cluster = some a ∧ x.frames = [] ∧ ({ idx := 1 } : Cluster).role = .inService ∧ 1 ≠ x.cluster ∧ s.running = true ∧ x.moving = none ∧ (s.moveReason a { idx := 1 }).isSome = true ∧
      ({ x with moving := some 1 } : Session).moving = some 1) := by (repeat' apply And.intro) <;> decide

/-- The device with port 0 enabled and up, and PTP time free. -/
def netted (q : NetPort) : State := { setReg live 0x5000 0 1 with net := { live.net with ports := [{ q with up := true }, {}] }, clock := { live.clock with state := .free } }

/-- A NET_SEND of 60 bytes from 0x1000 at port 0. -/
def send (l : List (Nat × Nat × Nat)) : Op := opOf 7 0x40 ([(16, 8, 0x1000), (24, 2, 60)] ++ l)

/-- A KEEPALIVE packet of session 9 under its key. -/
def packet : List Byte := sealUsp 1 4 1 9 5 []

theorem witness_packet :
    uspFormOk packet = true ∧ bfld packet 4 4 = 9 ∧ bfld packet 2 1 = 1 ∧ bfld packet 8 8 = 5 := by decide

theorem witness_openPacket : openUsp 1 packet = some [] := by decide +kernel

theorem witness_NetPortsSendAndReceive :
    ((on (netted {}) [send []]).Runs 7 0x40 (send []) ∧ (on (netted {}) [send []]).netSendCheck (send []) = none ∧ (on (netted {}) [send []]).netSendCheck (send [(26, 1, 1)]) = some (Res.bound 0x61) ∧
      (let o := send [(27, 1, 1), (36, 4, 999999999)]
       (on (netted {}) [o]).netSendCheck o = none ∧ bit (o.u8 27) 0 = true ∧ o.lateDrop = false)) ∧
    (let o := opOf 7 0x41 [(24, 4, 80)]
     (on (netted {}) [o]).Runs 7 0x41 o ∧ o.fn = (netted {}).passFn ∧ 80 ≤ o.u32 24 ∧ ({ o with fn := 1 } : Op).fn ≠ (netted {}).passFn) ∧
    (let g : TxFrame := { op := some 7 }
     (netted { queue := [g] }).net.ports[0]? = some { up := true, queue := [g] } ∧ (netted { queue := [g] }).netUp = true ∧ (netted { queue := [g] }).replyLaunchAt 0 = none ∧ g.launch = none ∧
      (on (netted { queue := [g] }) [send []]).findOp 7 = some (send []) ∧ (send []).phase ≠ .final ∧ (send []).late = false ∧
      (netted {}).devAt ((netted {}).portFree 0) < (netted {}).launchPoint 0 1000) ∧
    ((netted {}).netUp = true ∧ (netted {}).portUp 0 = true ∧ (List.replicate 60 (0 : Byte)).length = 60 ∧ (List.replicate 59 (0 : Byte)).length < 60) ∧
    (let o : Op := { opOf 7 0x41 [(24, 4, 80)] with phase := .waiting }
     (on (netted {}) [o]).ops.list.find? (fun o => o.phase = .waiting && o.postCovers 0) = some o ∧ 60 + 16 ≤ o.u32 24 ∧ (netted {}).clock.state ≠ .unset) ∧
    (let s : State := { setReg (netted {}) 0x5018 0 0x0A000001 with
        sess := { live.sess with keys := [{ sid := 9, cur := some (1, 1), net := { replay := { highest := some 9, seen := [5] } } }] } }
     s.isSession 0 (s.mac 0) 0x0A000001 0x2F4A false = true ∧ (s.keySlot 9).any (fun k => k.find 1 = some (1, false) && !k.net.replay.fresh 5) = true) := by (repeat' apply And.intro) <;> decide

theorem witness_MapReadsAnswerFromEpoch :
    (∀ w ∈ [1, 2, 3, 4, 5],
     let o := opOf 7 0x18 [(16, 1, w), (28, 4, 64), (32, 8, 0x1000)]
     (on live [o]).RunsSub 7 0x18 w o ∧ mapReadCheck o = none ∧ mapReadCheck (opOf 7 0x18 [(16, 1, w)]) = some (Res.field 28) ∧ (on live [o]).viewFor o 40 = .ok {} ∧
      (on live [o]).viewFor (opOf 7 0x18 [(40, 8, 1)]) 40 = .error (Res.field 40) ∧ (on live [o]).requestsOf 7 = [] ∧ (on live [o]).peersOf {} o.rect = [] ∧
      (w = 1 → ((on live [o]).readData o {}).length ≤ o.u32 28)) ∧
    (let o := opOf 7 0x1A []
     (on live [o]).Runs 7 0x1A o ∧ (on live [o]).map.published < o.waitTarget ∧ o.waitTarget ≤ ({ on live [o] with map := { live.map with published := 1 } } : State).map.published) := by
  (repeat' apply And.intro) <;> decide

/-- Two keyframes of session 9, kinds and captures apart. -/
def kfs : List Keyframe := [{ key := 0x900000001, capture := 10 }, { key := 0x900000002, capture := 20 }]

/-- A tile of the device with two keyframes and a link. -/
def tile0 : Tile := { keyframes := kfs, links := [{ keyA := 0x900000001, keyB := 0x900000002, factor := zeros 128 }], obs := [{ key := 0x900000001 }] }

/-- A lone device whose map holds one tile, in the epoch being filled and in the published one. -/
def mapped (T : Tile) : State := { live with map := { cur := { tiles := [T] }, held := [(0, { tiles := [T] })] } }

/-- A MAP_EDIT. -/
def edit (sub : Nat) (l : List (Nat × Nat × Nat)) : Op := opOf 7 0x19 ((16, 1, sub) :: l)

/-- A link body between the two keyframes. -/
def linkBody : List Byte := leBytes 0x900000001 8 ++ leBytes 0x900000002 8 ++ leBytes 1 1 ++ zeros 23 ++ leBytes 0x3F800000 4 ++ zeros 100

/-- The image of an empty tile at (0, 0). -/
def emptyImage : List Byte := tileImage {} {} 0 8

set_option maxRecDepth 10000 in
theorem witness_MapEditsChangeTheirTile :
    ((mapped tile0).Alone ∧ (mapped tile0).map.cur.tiles = [tile0] ∧ tile0.owner = (mapped tile0).self ∧ tile0.mirror = none ∧ tile0.handover = none ∧ (edit 1 []).fn = 0 ∧
      (edit 1 []).i16 20 = tile0.ix ∧ (edit 1 []).i16 22 = tile0.iy) ∧
    (let o := edit 1 [(24, 8, 0x1000), (32, 4, 64)]
     let s := put (on (mapped {}) [o]) 0x1000 emptyImage
     s.RunsSub 7 0x19 0x01 o ∧ bits (o.u8 17) 7 1 = 0 ∧ parseImage (s.readMem (o.u64 24) (o.u64 32)) (o.u32 32) s.tileSize 0 0 = some ({}, []) ∧ s.map.cur.inletUsed ≤ 4194304) ∧
    (let o := edit 2 [(24, 8, 0x900000001)]
     (on (mapped tile0) [o]).RunsSub 7 0x19 0x02 o ∧ o.u64 32 = 0 ∧ (on (mapped tile0) [o]).editBar 0 0 (o.u64 24) = none) ∧
    (let o := edit 3 [(24, 8, 0x900000001), (32, 8, 0x1000)]
     let s := put (on (mapped tile0) [o]) 0x1000 poseBlock
     s.RunsSub 7 0x19 0x03 o ∧ poseOk (s.readMem (o.u64 32) 36) = true ∧ s.editBar 0 0 (o.u64 24) = none) ∧
    (let o := edit 4 [(24, 8, 0x900000001), (32, 8, 0x1000)]
     let s := put (on (mapped tile0) [o]) 0x1000 linkBody
     let b := s.readMem (o.u64 32) 144
     s.RunsSub 7 0x19 0x04 o ∧ (tile0.keyframe (o.u64 24)).isSome = true ∧ fld b 16 1 = 1 ∧ fld b 0 8 = o.u64 24 ∧ F32.unitQuat (wflds b 40 4) = true ∧ s.editBar 0 0 (o.u64 24) = none) ∧
    (let o := edit 5 [(24, 8, 0x900000001), (32, 8, 0x900000002)]
     let p : Link → Bool := fun l => decide (l.keyA = o.u64 24 ∧ l.keyB = o.u64 32)
     (on (mapped tile0) [o]).RunsSub 7 0x19 0x05 o ∧ tile0.links.any p = true ∧ ((on (mapped tile0) [o]).map.latest.tile 0 0).any (fun u => u.links.any p) = true) ∧
    (let o := edit 0x10 [(12, 4, 9), (28, 8, 15)]
     (on (mapped tile0) [o]).RunsSub 7 0x19 0x10 o ∧ o.u64 20 ≤ o.u64 28 ∧ (on (mapped tile0) [edit 0x11 [(12, 4, 9)]]).RunsSub 7 0x19 0x11 (edit 0x11 [(12, 4, 9)])) := by
  (repeat' apply And.intro) <;> decide

/-- An index of 32-dimension vectors with one settled entry and one in the inlet. -/
def index2 : Index := { handle := 2, m := 32, dim := 32, codebook := [], mask := 2 ^ 64 - 1, entries := [{ slot := 0, key := 5, code := List.replicate 32 0, inlet := false }, { slot := 1, key := 6, code := List.replicate 32 0 }] }

/-- A lone device that holds index2 in both views. -/
def indexed (l : List Op) : State := on { live with map := { cur := { indexes := [index2] }, held := [(0, { indexes := [index2] })] } } l

set_option maxRecDepth 10000 in
theorem witness_IndexesAndAffinityAreSet :
    (let o := edit 0x20 [(12, 4, 2), (17, 1, 1), (18, 1, 32), (19, 1, 16), (20, 2, 32), (22, 2, 16), (24, 8, 0x1000)]
     (on live [o]).Alone ∧ (on live [o]).RunsSub 7 0x19 0x20 o ∧ createFields o = none ∧ (on live [o]).map.cur.index o.handle = none ∧ ((indexed [o]).map.cur.index o.handle).isSome = true) ∧
    (let o := edit 0x21 [(12, 4, 2)]
     (indexed [o]).RunsSub 7 0x19 0x21 o ∧ (indexed [o]).map.cur.index o.handle = some index2 ∧ (indexed [o]).Alone ∧
      7 ∉ index2.settling.ops ∧ 7 ∉ index2.settling.nextOps ∧ ∀ f ∈ index2.settling.finished, 7 ∉ f.1) ∧
    (let o := edit 0x30 [(17, 1, 255), (18, 1, 1)]
     (on live [o]).RunsSub 7 0x19 0x30 o ∧ within 64 254 (o.u8 17) = false ∧ bits (o.u8 18) 7 1 = 0 ∧ rectOk o.rect = true ∧ inRects [o.rect] 0 0 = true) := by
  (repeat' apply And.intro) <;> decide

/-- The codebook that INDEX_CREATE reads, zeros where nothing is written, is finite. -/
theorem witness_codebook : (wflds (live.readMem 0x1000 64) 0 16).all F32.finite = true := by decide

/-- A SEARCH of index 2 for one neighbour. -/
def find (l : List (Nat × Nat × Nat)) : Op := opOf 7 0x20 ([(12, 4, 2), (16, 8, 0x1000), (24, 8, 0x2000), (32, 2, 1)] ++ l)

/-- A SEARCH that waits for member 1. -/
def asked : SearchSt := { op := 7, xid := 3, queried := [0, 1], answers := [{ src := 0 }] }

/-- The pair, holding index2. -/
def pairIndexed (l : List Op) : State := on { pair with map := { cur := { indexes := [index2] }, held := [(0, { indexes := [index2] })] } } l

set_option maxRecDepth 10000 in
theorem witness_SearchesMergeTheirShards :
    (let s := indexed [find []]
     s.Runs 7 0x20 (find []) ∧ useIndex (find []) s.map.latest = .ok index2 ∧ searchFields (find []) = none ∧ (find []).u32 56 = 0 ∧ blockCheck s (find []) = none ∧ s.contextFree (find []) = true ∧
      s.viewFor (find []) 48 = .ok { indexes := [index2] } ∧ useIndex (find []) { indexes := [index2] } = .ok index2 ∧ s.searchOf 7 = none ∧ (wflds (s.readMem 0x1000 (4 * index2.dim)) 0 index2.dim).all F32.finite = true ∧
      s.shardsOf (find []) { indexes := [index2] } ((find []).block s) = [s.self]) ∧
    (let s := pairIndexed [find []]
     1 ∈ s.shardsOf (find []) { indexes := [index2] } ((find []).block s) ∧ 1 ≠ s.self ∧ 1 ∈ s.others) ∧
    (let s : State := { pairIndexed [{ find [] with phase := .waiting }] with sound := { searches := [asked] } }
     s.searchOf 7 = some asked ∧ s.findOp 7 = some { find [] with phase := .waiting } ∧ s.sound.searches = [asked] ∧ s.overdue { find [] with phase := .waiting } = false ∧
      s.clock.now < (find []).deadlineAt ∧ asked.peerDeadline < (find []).deadlineAt ∧ asked.xid = 3 ∧ 1 ∈ asked.queried ∧ (∀ a ∈ asked.answers, a.src ≠ 1) ∧
      (∀ p ∈ asked.queried, p = 1 ∨ p ∈ asked.gone ∨ ∃ a ∈ asked.answers, a.src = p) ∧ (∃ p ∈ ({ asked with queried := [0, 1, 2] } : SearchSt).queried, p ≠ 1 ∧ p ∉ asked.gone ∧ ∀ a ∈ asked.answers, a.src ≠ p)) ∧
    ((pairIndexed []).Sends 1 ∧ (pairIndexed []).devNs ≤ unpackTime 1 ∧ (pairIndexed []).map.at 5 = none ∧ (pairIndexed []).map.at 0 = some { indexes := [index2] } ∧
      (({ indexes := [index2] } : MapView).index 2) = some index2) ∧ live.sound.searches = [] := by
  (repeat' apply And.intro) <;> decide

/-- The 152 bytes of a vector record in tile (0, 0) with a zero vector, or the 16 bytes of one that deletes it. -/
def vecBytes (ins : Bool) : List Byte := leBytes 77 8 ++ zeros (if ins then 144 else 8)

set_option maxRecDepth 10000 in
theorem witness_VectorsEnterAndLeaveTheirShard :
    (∀ ins ∈ [true, false],
     let o := opOf 7 (if ins then 0x21 else 0x22) [(12, 4, 2), (16, 8, 0x1000), (24, 4, 1), (32, 8, 0x3000)]
     let s := put (indexed [o]) 0x1000 (vecBytes ins)
     s.Runs 7 (if ins then 0x21 else 0x22) o ∧ useIndex o s.map.latest = .ok index2 ∧ s.Alone ∧ within 1 4096 (o.u32 24) = true ∧ s.requestsOf 7 = [] ∧
      (∀ r ∈ cut (vecSize ins 32) 1 (s.readMem (o.u64 16) (vecSize ins 32)), s.ownsIn s.map.cur (vecTile ins r).1 (vecTile ins r).2 = true) ∧ o.u64 16 + vecSize ins 32 ≤ o.u64 32 ∧
      (ins = true → (s.vecApply ins o.handle index2 [vecBytes ins] s.self).2 = [0])) ∧
    (let o := opOf 7 0x23 [(12, 4, 2)]
     (indexed [o]).Runs 7 0x23 o ∧ (indexed [o]).map.cur.index o.handle = some index2 ∧ (∃ e ∈ (indexed [o]).shard index2, e.inlet = true) ∧
      (let y : Index := { index2 with entries := index2.entries.take 1 }
       y.settling.running = false ∧ ∀ e ∈ (indexed [o]).shard y, e.inlet = false ∧ e.tomb = false)) ∧
    ((indexed []).running = true ∧ (indexed []).settleDue { index2 with settling := { asked := true } } = true) ∧
    (let o := opOf 7 0x24 [(12, 4, 2), (24, 4, 1), (32, 2, 1), (48, 8, 0x5000), (16, 8, 0x1000)]
     (indexed [o]).Runs 7 0x24 o ∧ (indexed [o]).contextFree o = true ∧ useIndex o { indexes := [index2] } = .ok index2 ∧
      (∀ e ∈ index2.entries.map fun e => { e with code := [] }, (index2.decode e.code).all F32.finite = true) ∧ within 1 4096 (o.u32 24) = true ∧ searchFields o = none ∧ blockCheck (indexed [o]) o = none ∧ (indexed [o]).map.at o.epochAtFetch = some { indexes := [index2] } ∧
      (∀ b ∈ cut (4 * index2.dim) (o.u32 24) ((indexed [o]).readMem (o.u64 16) (4 * index2.dim * o.u32 24)), (wflds b 0 index2.dim).all F32.finite = true)) := by
  (repeat' apply And.intro) <;> decide

theorem witness_RemoteRequestsAreServed :
    (pair.running = true ∧ 1 ∈ pair.others ∧ (∀ r ∈ pair.sound.responses, r.peer ≠ 1) ∧ 7 % 65448 ≠ 0 ∧ pair.Sends 1) ∧
    (let o := opOf 7 0x18 [(16, 1, 2), (28, 4, 64)]
     (zeros 8).length = 8 ∧ o.opcode = 0x18 ∧ o.epochAtFetch = fld (zeros 8) 0 8 ∧ o.epochAtFetch ≤ pair.map.published ∧ pair.viewFor o 40 = .ok {}) ∧
    (let o : Op := { edit 4 [] with phase := .waiting }
     let r : RemoteSt := { xid := 3, op := 7, peer := 1 }
     let s : State := { on pair [o] with sound := { requests := [r] } }
     s.sound.requests = [r] ∧ r.answered = false ∧ r.segs = [] ∧ r.bad = false ∧ s.running = true ∧ 1 ∈ s.others ∧ (zeros 8).length ≤ 65488 ∧ s.findOp 7 = some o ∧ o.phase ≠ .final ∧ o.opcode = 0x19 ∧
      o.u8 16 ∈ [1, 3, 4, 5] ∧ o.committed = false ∧ s.heldOf s.self 7 = none ∧ s.overdue o = false) := by
  (repeat' apply And.intro) <;> decide

/-- A schedule image of one variable, one slot and one supernode. -/
def schedImage : List Byte :=
  let body := zeros 16 ++ (zeros 4 ++ leBytes 0xFFFFFFFF 4 ++ zeros 8) ++ (zeros 4 ++ leBytes 1 4 ++ leBytes 0xFFFFFFFF 4 ++ zeros 20)
  let fp := crc64 (crc64 (crc64 0 (zeros 8)) (slice body 16 8)) (slice body 32 32)
  let head := leBytes 0x43534241 4 ++ leBytes 1 2 ++ zeros 2 ++ leBytes fp 8 ++ [1, 1, 1, 1, 0, 0].flatMap (fun n => leBytes n 4) ++
    [128, 144, 160, 192, 192, 192].flatMap (fun n => leBytes n 4) ++ zeros 60
  head ++ leBytes (crc32 (head ++ body)) 4 ++ body

/-- The schedule of schedImage. -/
def sched1 : Sched := { handle := 4, image := schedImage, vars := 1, slots := 1, supernodes := 1 }

/-- A SOLVE of host values, its workspace the first extent. -/
def solve0 : Op := opOf 7 0x28 [(12, 4, 4), (24, 8, 0x1000), (32, 8, 0x2000), (48, 8, 0x8000001000000000)]

/-- A device with the extent, sched1 and an operation. -/
def solving (o : Op) (r : List SolveSt) : State := { on reached [o] with abacus := { scheds := [sched1], running := r } }

/-- Two keyframes in one tile, and an index for loop closures. -/
def looped : State := { mapped tile0 with map := { (mapped tile0).map with cur := { tiles := [tile0], indexes := [{}] }, held := [(0, { tiles := [tile0], indexes := [{}] })] }, sess := { live.sess with list := [sessOf [] [] []] } }

set_option maxRecDepth 20000 in
theorem witness_SolvesRunOnSchedules :
    ((solving solve0 []).Runs 7 0x28 solve0 ∧ (solving solve0 []).solveOf 7 = none ∧ (solving solve0 []).sched solve0.handle = some sched1 ∧ sched1.fn = solve0.fn ∧ solveFields solve0 = none ∧
      (solving solve0 []).reach solve0.fn (solve0.u64 48) 1 = true ∧ (solving solve0 []).reach solve0.fn (solve0.u64 48) sched1.workBytes = true ∧ (solving solve0 []).workspaceBusy solve0 = false ∧
      (solving solve0 []).solveFirst solve0 = true ∧ (solving solve0 []).freeAbacus = some 0 ∧ solve0.u8 16 = 0 ∧ (pair.others ≠ [])) ∧
    (let st : SolveSt := { op := 7, sched := sched1 }
     (solving solve0 [st]).Runs 7 0x28 solve0 ∧ (solving solve0 [st]).solveOf 7 = some st ∧ st.stage = .run ∧ (hostProblem sched1 ((solving solve0 [st]).readMem 0x1000 168)).isNone = true ∧
      (hostProblem sched1 ((put (solving solve0 [st]) 0x1014 (leBytes 0x3F800000 4)).readMem 0x1000 168)).isSome = true) ∧
    (let o := opOf 7 0x29 [(12, 4, 4), (16, 8, 0x1000), (24, 4, 192)]
     let s := put (on live [o]) 0x1000 schedImage
     s.Runs 7 0x29 o ∧ within 1 4095 o.handle = true ∧ s.sched o.handle = none ∧ s.abacus.scheds.length < 1024 ∧ schedCheck (s.readMem 0x1000 192) (o.u32 24) = none ∧
      s.poolFits o.cls (parcelsFor (o.u32 24)) = true ∧ schedCheck ((on live [o]).readMem 0x1000 192) (o.u32 24) = some (3, Res.field 16)) ∧
    (let o := opOf 7 0x2A [(12, 4, 4)]
     (solving o []).Runs 7 0x2A o ∧ (solving o []).sched o.handle = some sched1 ∧
      (∃ p ∈ (solving o []).ops.list ++ [{ solve0 with id := 8 }], p.opcode = 0x28 ∧ p.fn = o.fn ∧ p.handle = o.handle ∧ p.began = false ∧ p.phase ≠ .final)) ∧
    ((looped.session 9).isSome = true ∧ looped.running = true ∧ looped.canCommit = true ∧ looped.others = [] ∧ (looped.map.latest.index 1).isSome = true ∧
      (∀ k ∈ [0x900000001, 0x900000002], (looped.map.latest.keyframe k).any (fun k => !k.quarantined) = true ∧ looped.map.latest.quar.contains k = false ∧ (tile0.keyframe k).isSome = true) ∧
      looped.map.cur.tiles = [tile0] ∧ tile0.owner = looped.self ∧ looped.ownSolveMay = true) := by
  (repeat' apply And.intro) <;> decide

/-- A feature of a keyframe that waits for its mask. -/
def unmasked : Nat × Nat × List Byte := (1, 2, [])

/-- The tile of that feature's point, with the keyframe. -/
def pointTile : Tile := { tile0 with ix := (live.newPoint 0x900000001 unmasked).ix, iy := (live.newPoint 0x900000001 unmasked).iy }

/-- The device whose map holds that tile. -/
def masking : State := { mapped pointTile with sess := { live.sess with masks := [(0x900000001, [unmasked])] } }

theorem witness_maskedFeatures :
    masking.map.cur.tiles = [pointTile] ∧ pointTile.owner = masking.self ∧ (pointTile.keyframe 0x900000001).isSome = true ∧
      (masking.sess.masks.find? fun m => m.1 = 0x900000001) = some (0x900000001, [unmasked]) ∧
      (masking.newPoint 0x900000001 unmasked).ix = pointTile.ix ∧ (masking.newPoint 0x900000001 unmasked).iy = pointTile.iy :=
  ⟨rfl, by decide, by decide, by decide, rfl, rfl⟩

/-- A program image of one layer without code or tiles, one input and one output in one pond buffer. -/
def progImage (slots pond : Nat) : List Byte :=
  let body := List.replicate 8 255 ++ zeros 8 ++ (zeros 2 ++ leBytes 1 2 ++ zeros 4 ++ leBytes 64 4 ++ zeros 4) ++
    (leBytes 0x1200 4 ++ leBytes 4 4 ++ zeros 8) ++ (leBytes 0x1201 4 ++ leBytes 4 4 ++ zeros 8) ++ (List.replicate slots (leBytes 16 4 ++ leBytes 0x12 4 ++ leBytes 2 4 ++ leBytes 2 4)).flatten
  let head := leBytes 0x4752504D 4 ++ leBytes 1 2 ++ zeros 2 ++ leBytes 5 8 ++ leBytes (192 + 16 * slots) 4 ++ leBytes slots 2 ++ [1, 1, 1, 1, 1, 0] ++ leBytes 1 4 ++
    [128, 8, 128, 0, 128, 0, 144, 1, 192, 160, pond, 0, 0, 0].flatMap (fun n => leBytes n 4) ++ zeros 36
  head ++ leBytes (crc32 (head ++ body)) 4 ++ body

/-- A program of one weight slot, of handle 4. -/
def prog1 : Prog := { handle := 4, image := progImage 1 64 }

/-- A device with a program, running operations and INFERs. -/
def inferring (p : Prog) (l : List Op) (r : List InferSt) : State := { on live l with matrix := { progs := [p], infers := r } }

/-- prog1 with its weight slot bound. -/
def prog2 : Prog := { prog1 with sets := [{ version := 1, slots := [some (1, zeros 16)] }] }

/-- An INFER of program 4 with its IO table at 0x1000. -/
def infer0 : Op := opOf 7 0x30 [(12, 4, 4), (24, 8, 0x1000)]

set_option maxRecDepth 20000 in
theorem witness_ProgramsBindAndInfer :
    (let o := opOf 7 0x31 [(12, 4, 4), (16, 8, 0x1000), (24, 4, 208)]
     let s := put (on live [o]) 0x1000 (progImage 1 64)
     s.Runs 7 0x31 o ∧ o.u64 16 ≠ 0 ∧ within 1 4095 o.handle = true ∧ s.prog o.handle = none ∧ s.matrix.progs.length < 512 ∧ s.readMem 0x1000 208 = progImage 1 64 ∧ progMagic (progImage 1 64) 208 = true ∧
      progCounts (progImage 1 64) = true ∧ progRecords (progImage 1 64) 208 = true ∧ (progPlan (progImage 1 64)).foldl (fun m r => max m (fld r 8 4 / 4)) 0 = 16 ∧
      s.poolFits o.cls (parcelsFor (o.u32 24)) = true ∧ progCheck ((on live [o]).readMem 0x1000 208) (o.u32 24) = some (3, Res.field 16)) ∧
    (let o := opOf 7 0x31 [(12, 4, 4)]
     (inferring prog1 [o] []).Runs 7 0x31 o ∧ o.u64 16 = 0 ∧ o.u32 24 = 0 ∧ (inferring prog1 [o] []).prog o.handle = some prog1 ∧
      (∀ q ∈ (inferring prog1 [o] []).ops.list, q.opcode = 0x30 → q.handle = o.handle → q.fn = o.fn → q.phase = .final) ∧
      (∃ q ∈ (inferring prog1 [infer0, { o with id := 8 }] []).ops.list, q.opcode = 0x30 ∧ q.handle = o.handle ∧ q.fn = o.fn ∧ q.phase ≠ .final)) ∧
    (let o := opOf 7 0x32 [(12, 4, 4), (24, 4, 1), (32, 8, 0x1000), (40, 8, 16)]
     let s := inferring prog1 [o] []
     s.Runs 7 0x32 o ∧ s.useProg o = .ok prog1 ∧ bit (o.u8 17) 0 = false ∧ o.u32 24 ≠ 0 ∧ o.u32 20 + o.u32 24 ≤ (progHead prog1.image).slots ∧ o.u64 40 = (prog1.sizes 0 1).sum ∧
      s.poolFits o.cls ((prog1.sizes 0 1).map parcelsFor).sum = true ∧ bit ((opOf 7 0x32 [(12, 4, 4), (17, 1, 1)]).u8 17) 0 = true) ∧
    (let s := inferring prog2 [infer0] []
     s.Runs 7 0x30 infer0 ∧ s.inferFirst infer0 = true ∧ s.inferOf 7 = none ∧ s.useProg infer0 = .ok prog2 ∧ s.reach 0 (infer0.u64 24) 16 = true ∧ s.ioReach infer0 (progIo prog2.image) = true ∧ (progHead prog2.image).work = 0 ∧
      infer0.u64 32 = 0 ∧ s.inferFits 7 0 (progHead prog2.image) = true ∧ (prog2.weights 0).complete = true ∧ (prog1.weights 0).complete = false) ∧
    (let i : InferSt := { op := 7, handle := 4, weights := prog2.weights 0, bufs := [zeros 64] }
     let s := inferring prog2 [infer0] [i]
     s.Runs 7 0x30 infer0 ∧ s.inferOf 7 = some i ∧ s.prog i.handle = some prog2 ∧ i.layer = 0 ∧ infer0.replayed = false ∧ s.inferFits 7 1 (progHead prog2.image) = true) := by
  (repeat' apply And.intro) <;> decide

set_option maxRecDepth 20000 in
/-- Its longest row lies in a buffer of 16 values, so the image passes every check. -/
theorem witness_progCheck : progCheck (progImage 1 64) 208 = none := by
  have h : longestRow (progImage 1 64) ≤ 16 := Nat.le_trans (Nat.min_le_right _ _) (by decide)
  have h1 : progMagic (progImage 1 64) 208 = true := by decide
  have h2 : progCounts (progImage 1 64) = true := by decide
  have h3 : progRecords (progImage 1 64) 208 = true := by decide
  simp only [progCheck, h1, h2, h3]
  rw [if_neg (by decide), if_neg (by decide), if_neg (by decide), if_neg (by omega)]

/-- The reached device with its parcels replaced. -/
def parcels (l : List Parcel) (os : List Op) : State := { on reached os with tiers := { reached.tiers with parcels := l } }

/-- A dirty parcel up in the pond of cluster 0. -/
def dirtyUp : Parcel := { num := 0x100001, state := .up, upper := some (.pond 0), dirty := true }

/-- The device with the pond of cluster 0 filled by two INFERs and one dirty parcel. -/
def pondFull : State :=
  { parcels [{ num := 0x100000 }, dirtyUp] [] with matrix := { progs := [{ handle := 4, image := progImage 0 6291456 }], infers := [{ handle := 4 }, { handle := 4, op := 1 }] } }

/-- A RESIDENCY_HINT over the first extent. -/
def hint (w : Nat) (l : List (Nat × Nat × Nat)) : Op := opOf 7 0x39 ([(17, 1, w), (24, 8, 0x8000001000000000), (32, 8, 131072)] ++ l)

set_option maxRecDepth 20000 in
theorem witness_ParcelsMoveBetweenTiers :
    (let s := parcels [{ num := 0x100000 }] []
     s.syncPool.parcel 0x100000 = some { num := 0x100000 } ∧ s.running = true ∧ ({ num := 0x100000 } : Parcel).state = .home ∧ s.syncPool.tierFor { num := 0x100000 } .basin = true ∧ 0 < s.syncPool.tierFree .basin) ∧
    (let u := pondFull.syncPool
     u.tierFor { num := 0x100000 } (.pond 0) = true ∧ u.tierFree (.pond 0) = 0 ∧ (u.tiers.parcels.filter fun q => u.candidate (.pond 0) q) = [dirtyUp] ∧ u.parcel 0x100001 = some dirtyUp) ∧
    (let q : Parcel := { num := 0x100000, state := .promoting, newUpper := some .basin, wishes := [(0, .holdBasin)] }
     let s := { parcels [q] [{ hint 2 [] with phase := .waiting }] with tiers := { (parcels [q] []).tiers with hintOps := [(7, [0x100000])] } }
     s.parcel 0x100000 = some q ∧ q.state = .promoting ∧ s.tiers.hintOps = [(7, [0x100000])] ∧ q.wish = some .holdBasin ∧ q.newUpper = some .basin ∧ s.findOp 7 = some { hint 2 [] with phase := .waiting } ∧ s.overdue { hint 2 [] with phase := .waiting } = false) ∧
    (dirtyUp.state = .up ∧ dirtyUp.wish = none ∧ (parcels [dirtyUp] []).parcel 0x100001 = some dirtyUp ∧ ({ dirtyUp with state := .demoting } : Parcel).state = .demoting) ∧
    ((parcels [] [hint 2 []]).Runs 7 0x39 (hint 2 []) ∧ (parcels [] [hint 2 []]).hintCheckFields (hint 2 []) = none ∧ (hint 2 []).u8 16 ≠ 3 ∧ wishOf 2 = some .holdBasin) ∧
    (let s := setReg (parcels [{ num := 0x100000 }] [hint 2 []]) 0x3008 0 0x40
     let u := s.syncPool
     s.Runs 7 0x39 (hint 2 []) ∧ s.hintCheckFields (hint 2 []) = none ∧
     u.holdTooMany { u.tiers with parcels := u.tiers.parcels.map fun q => if (u.hintParcels (hint 2 [])).contains q.num then q.setWish 0 (some .holdBasin) else q } = true ∧
     (setReg u 0x3008 0 0x10040).holdTooMany { u.tiers with parcels := u.tiers.parcels.map fun q => if (u.hintParcels (hint 2 [])).contains q.num then q.setWish 0 (some .holdBasin) else q } = false) ∧
    (let o := opOf 7 0x39 [(16, 1, 3), (12, 4, 2), (17, 1, 1)]
     let s : State := { indexed [o] with tiers := reached.tiers }
     s.Runs 7 0x39 o ∧ s.hintCheckFields o = none ∧ o.u8 16 = 3) := by
  (repeat' apply And.intro) <;> decide

/-- One candidate is the first in the victim order. -/
theorem witness_victims (f : Parcel → Parcel → Bool) (q : Parcel) : [q].mergeSort f = [q] := List.mergeSort_singleton q

/-- A MOVE of 5,000 bytes from host memory to the extent. -/
def move0 (l : List (Nat × Nat × Nat)) : Op := opOf 7 0x38 ([(16, 8, 0x1000), (24, 8, 0x8000001000000000), (32, 8, 5000)] ++ l)

set_option maxRecDepth 20000 in
theorem witness_MovesAndTierUpkeep :
    ((parcels [] [move0 []]).Runs 7 0x38 (move0 []) ∧ bit ((move0 []).u8 40) 0 = false ∧ moveCheck (move0 []) false = none ∧ (move0 []).count + 4096 < (move0 []).u64 32 ∧
      (move0 []).u64 32 ≤ ({ move0 [] with count := 4096 } : Op).count + 904 ∧ bit ((move0 [(40, 1, 1)]).u8 40) 0 = true ∧ moveCheck (move0 [(40, 1, 1)]) true = none) ∧
    (live.running = true ∧ live.hasBasin = true ∧ bit (live.reg 0x3024 0) 8 = true ∧ 5 < live.lakeFrames ∧ live.tiers.retiredLake.contains 5 = false ∧ 5 < live.chip.part.basinParcels ∧
      live.tiers.retiredBasin.contains 5 = false ∧ Store.get (fun _ => 0) (2 * 5 + 1) [(11, 3)] = 3) ∧
    (bit (live.reg 0x3020 0) 1 = true ∧ (live.place.clusters.any fun c => c.idx = 0) = true ∧ 27 < 28 ∧ 13 ≤ 15) ∧
    (3 < live.chip.part.pcs ∧ live.tiers.spareUsed.contains 3 = false ∧ (∀ r ∈ live.tiers.repairing, r.1 ≠ 3)) ∧
    (3, 1) ∈ ({ live with tiers := { live.tiers with repairing := [(3, 1)] } } : State).tiers.repairing := by
  (repeat' apply And.intro) <;> decide

/-- The pair with one tile, a stream out and a stream in. -/
def tiled (T : Tile) (out inn : List Stream) : State :=
  { pair with map := { cur := { tiles := [T] }, held := [(0, { tiles := [T] })] }, fabric := { pair.fabric with outStreams := out, inStreams := inn } }

set_option maxRecDepth 20000 in
theorem witness_TilesAreMirroredAndHandedOver :
    (let T : Tile := { owner := 1, mirror := some 0, syncing := true }
     let s := tiled T [] [{ peer := 1, seq := 4, acked := 3 }]
     s.running = true ∧ s.curTile 0 0 = T ∧ 1 ∈ s.others ∧ (s.streamFrom 1).seq = 4 ∧ T.mirror = some s.self ∧ (s.streamFrom 1).seq ≠ (s.streamFrom 1).acked ∧ s.Sends 1 ∧
      (parseImage (emptyImage.take (fld emptyImage 44 4)) (fld emptyImage 44 4) s.tileSize 0 0).isSome = true ∧ T.syncing = true) ∧
    (let T : Tile := { mirror := some 1, syncing := true }
     let s := tiled T [{ peer := 1, seq := 4, acked := 3, items := [(4, 0, 0, 1)] }] []
     (∃ i ∈ (s.streamTo 1).items, i.1 = 4) ∧ s.fabric.ackWaits = [] ∧ (s.streamTo 1).items.length = 1 ∧ T.owner = s.self ∧
      (let w : AckWait := { op := some 7, needs := [(1, 4)] }
       let u : State := { on s [{ edit 4 [] with phase := .waiting }] with fabric := { s.fabric with ackWaits := [w] } }
       u.fabric.ackWaits = [w] ∧ u.findOp 7 = some { edit 4 [] with phase := .waiting } ∧ u.solveOf 7 = none ∧ u.requestsOf 7 = [] ∧ u.overdue { edit 4 [] with phase := .waiting } = false) ∧
      (∀ i ∈ ((tiled T [] []).streamTo 1).items, (i.2.1, i.2.2.1) ≠ ((0 : Int), (0 : Int)))) ∧
    (let s := tiled { owner := 1 } [] []
     s.fabric.isolated = false ∧ s.fabric.leaving = false ∧ s.tileCap > s.owned.length ∧ s.curTile 0 0 = { owner := 1 } ∧ (tiled {} [] []).curTile 0 0 = {} ∧ s.tileCap = 4096 ∧
      (setReg s 0xF008 0 16).tileCap = 16) ∧
    (let T : Tile := { handover := some { peer := 1 } }
     let U : Tile := { handover := some { peer := 1, state := .copying } }
     let s : State := { tiled U [] [] with map := { (tiled U [] []).map with published := 4 } }
     (tiled T [] []).curTile 0 0 = T ∧ T.owner = pair.self ∧ (tiled U [] []).curTile 0 0 = U ∧ (0 : Nat) + 4 ≤ s.map.published) ∧
    (let T : Tile := { owner := 1, handover := some { peer := 1, outgoing := false, state := .copying } }
     (tiled T [] []).curTile 0 0 = T ∧ T.owner ≠ pair.self ∧ T.mirror ≠ some pair.self ∧
      (let V : Tile := { owner := 1, handover := some { peer := 1, outgoing := false, state := .copying, streamed := true } }
       (tiled V [] []).curTile 0 0 = V)) := by
  (repeat' apply And.intro) <;> decide

/-- A fabric with a barrier, a leader and ready lists. -/
def barred (b : Option Nat) (leader : Nat) (rs : List (Nat × List (Int × Int))) : State := { pair with fabric := { pair.fabric with barrier := b, leader := leader, readys := rs } }

theorem witness_EpochsArePublished :
    (({ pair with fabric := { pair.fabric with isolated := true } } : State).fabric.isolated = true ∧ pair.running = true) ∧
    ((barred (some 1) 0 []).fabric.isolated = false ∧ (barred (some 1) 0 []).fabric.barrier = some 1 ∧ (barred none 0 []).fabric.barrier = none ∧ (barred none 0 []).others ≠ [] ∧ (barred none 0 []).map.commits = [] ∧ live.others = [] ∧
      live.fabric.barrier = none) ∧
    ((barred (some 1) 1 []).fabric.readySent = false ∧ (barred (some 1) 1 []).changeOpen 1 = false ∧ (barred (some 1) 1 []).sealedAcked 1 = true ∧ (barred (some 1) 1 []).fabric.leader ≠ pair.self ∧ (barred (some 1) 1 []).Sends 1 ∧
      (∃ m ∈ (barred (some 1) 0 []).others, ∀ r ∈ (barred (some 1) 0 []).fabric.readys, r.1 ≠ m) ∧ (∀ m ∈ (barred (some 1) 0 [(1, [])]).others, ∃ r ∈ (barred (some 1) 0 [(1, [])]).fabric.readys, r.1 = m)) ∧
    (1 ∈ (barred (some 1) 0 []).others ∧ (∃ m ∈ bitList (barred (some 1) 0 []).fabric.members 64, m ≠ 1 ∧ ∀ r ∈ (barred (some 1) 0 []).fabric.readys, r.1 ≠ m) ∧
      (∀ m ∈ bitList (barred (some 1) 0 [(0, [])]).fabric.members 64, m = 1 ∨ ∃ r ∈ (barred (some 1) 0 [(0, [])]).fabric.readys, r.1 = m)) ∧
    (let o : Op := { opOf 7 0x1A [] with phase := .waiting }
     (on (barred none 1 []) [o]).findOp 7 = some o ∧ (on (barred none 1 []) [o]).overdue o = false ∧ o.opcode = 0x1A ∧ o.waitTarget ≤ (on (barred none 1 []) [o]).map.published + 1) := by
  (repeat' apply And.intro) <;> decide

/-- A DIAG report with a buffer. -/
def diag (sub n : Nat) : Op := opOf 7 0x49 [(16, 1, sub), (24, 8, 0x1000), (32, 4, n)]

theorem witness_ReportsListTheirRecords :
    (∀ sub ∈ [0x10, 0x11, 0x12, 0x20], (on live [diag sub 16]).RunsSub 7 0x49 sub (diag sub 16) ∧ 16 ≤ (diag sub 16).u32 32 ∧ (diag sub 15).u32 32 < 16) ∧
    (let o := opOf 7 0x48 [(24, 8, 0x1000), (32, 4, 32)]
     let s : State := { on live [o] with tally := { live.tally with entries := [{ seq := 0 }], head := 1 } }
     s.Runs 7 0x48 o ∧ o.fn = 0 ∧ 32 ≤ o.u32 32 ∧ o.u32 32 % 32 = 0 ∧ o.u32 16 = s.tally.oldest ∧ s.tally.entries ≠ [] ∧ seqDist s.tally.oldest s.tally.head ≠ 0) ∧
    (let o := opOf 7 0x48 [(20, 1, 1), (32, 4, 64)]
     (on live [o]).Runs 7 0x48 o ∧ live.tally.entries = [] ∧ bit (o.u8 20) 0 = true ∧ o.u32 16 = live.tally.oldest ∧ (opOf 7 0x48 [(32, 4, 33)]).u32 32 % 32 ≠ 0) := by
  (repeat' apply And.intro) <;> decide

/-- A started NOP with retries made. -/
def tried (n : Nat) : Op := { opOf 7 0 [] with attempts := n, attemptsMax := 2, retrying := true, attemptEnds := 5 }

/-- A cluster of the device replaced. -/
def clustered (k : Cluster) (s : State) : State := { s with place := { s.place with clusters := s.place.clusters.map fun (c : Cluster) => if c.idx = k.idx then k else c } }

set_option maxRecDepth 20000 in
theorem witness_FailedPiecesAreRetriedAndUnitsReplaced :
    (live.running = true ∧ (tried 1).phase = .started ∧ live.clock.now < (tried 1).deadlineAt ∧ (tried 1).attempts < pieceAttempts .matrixTile ∧
      1000 ≤ min (live.retryLimit * 1000) (((tried 1).deadlineAt - live.clock.now) / 2) ∧ pieceAttempts .matrixTile ≤ (tried 2).attempts ∧ pieceOnCore .matrixTile = true ∧ live.coreIn 0x0003 = true ∧
      (tried 1).attemptEnds < (tried 1).deadlineAt ∧ (tried 1).attempts < (tried 1).attemptsMax ∧ (let u := live.toTime (tried 1).attemptEnds
       1000 ≤ min (u.retryLimit * 1000) (((tried 1).deadlineAt - u.clock.now) / 2)) ∧ (tried 2).attemptsMax ≤ (tried 2).attempts) ∧
    ((live.cluster 1).any (fun k => bit (k.bitsOf 0).1 3 && (live.reserveCore k 0).isSome && k.role = .inService && decide (3 < coresOf 0)) = true ∧
      (let k : Cluster := { idx := 1, draining := [0x1003] }
       (clustered k live).cluster 1 = some k ∧ k.role ≠ .draining ∧ (0x1003 : Nat) ∈ k.draining ∧ bit (k.bitsOf 0).1 3 = true ∧ ((clustered k live).reserveCore k 0).isSome = true ∧
       (let o := opOf 7 0x4A [(16, 1, 1), (20, 2, 0x1003)]
        let s : State := { on (clustered k live) [o] with fault := { live.fault with retireOps := [(7, 0x1003)] } }
        s.fault.retireOps = [(7, 0x1003)] ∧ s.findOp 7 = some o ∧ s.overdue o = false))) ∧
    (0xF002 / 4096 = 15 ∧ bit ((setReg live 0x10000 0 200).reg 0x10000 0) 16 = false ∧ bit (live.reg 0x10000 0) 16 = true ∧ live.coreIn 0x1003 = true ∧
      (live.cluster (0x1003 / 4096)).any (fun k => (live.reserveCore k (0x1003 / 256 % 16)).isSome) = true) ∧
    ((({ live with fault := { live.fault with powering := [(0x1004, 9)] } } : State).fault.powering.find? fun p => p.1 = 0x1004) = some (0x1004, 9) ∧ (live.cluster 1).isSome = true) ∧
    ((clustered { idx := 12, role := .preparing } live).place.clusters.find? (fun c => c.role = .preparing) = some { idx := 12, role := .preparing } ∧ live.reserveCluster = some { idx := 12, role := .reserve } ∧
      live.cluster 12 = some { idx := 12, role := .reserve }) ∧
    (let o := opOf 7 0x4A [(16, 1, 3)]
     (on live [o]).RunsSub 7 0x4A 3 o) ∧
    (let o := opOf 7 0x4A [(16, 1, 1), (18, 1, 1), (20, 2, 0x1000)]
     (on live [o]).RunsSub 7 0x4A 1 o ∧ (on live [o]).cluster (o.u16 20 / 4096) = some { idx := 1 } ∧ (on live [o]).spareFor (o.u16 20) true ≠ 0xFFFF ∧
      (clustered { idx := 12, role := .retired } (on live [o])).spareFor (o.u16 20) true = 0xFFFF ∧ bit (o.u8 17) 0 = false) ∧
    (let o := opOf 7 0x4A [(16, 1, 1), (20, 2, 0x1003)]
     (on live [o]).RunsSub 7 0x4A 1 o ∧ o.u8 18 = 0 ∧ (on live [o]).coreIn (o.u16 20) = true ∧ ((on live [o]).reserveCore { idx := 1 } (o.u16 20 / 256 % 16)).isSome = true ∧ (on live [o]).spareFor (o.u16 20) false ≠ 0xFFFF) ∧
    ((live.cluster 12).isSome = true ∧ (∀ c ∈ live.power.clockLost, c.1 ≠ 12) ∧ 12 ∉ live.power.pllUsed ∧ 12 ∈ ({ live.power with pllUsed := [12] } : Power).pllUsed ∧
      (12, 5) ∈ ({ live.power with clockLost := [(12, 5)] } : Power).clockLost) := by
  (repeat' apply And.intro) <;> decide

/-- A FW_UPDATE of 4,096 bytes. -/
def fw (sub : Nat) (l : List (Nat × Nat × Nat)) : Op := opOf 7 0x4B ([(16, 1, sub), (32, 4, 4096)] ++ l)

theorem witness_SafeHoldStopsAndFirmwareSwitches :
    (let o := opOf 7 0x4A [(16, 1, 2)]
     (on live [o]).RunsSub 7 0x4A 2 o ∧ live.running = true ∧ live.sess.list = [] ∧ (∀ q ∈ live.net.ports, q.queue = [])) ∧
    ((on live [fw 1 []]).RunsSub 7 0x4B 1 (fw 1 []) ∧ 4096 ≤ (fw 1 []).u32 32 ∧ (fw 1 []).u32 32 ≤ 16777216 ∧ live.chip.minSecVersion ≤ 0 ∧ live.fault.switchOp = none ∧
      0 < ({ live.chip with minSecVersion := 1 } : Chip).minSecVersion) ∧
    ((on live [fw 2 []]).RunsSub 7 0x4B 2 (fw 2 []) ∧ (fw 2 []).u64 40 = 0 ∧ live.fault.stagedValid = false ∧ ({ live.fault with stagedValid := true } : FaultS).stagedValid = true ∧
      (on live [fw 3 []]).RunsSub 7 0x4B 3 (fw 3 []) ∧ live.chip.slotB.signed = true ∧ (fw 2 [(40, 8, 1)]).u64 40 ≠ 0 ∧ live.map.published < (fw 2 [(40, 8, 1)]).u64 40 ∧
      (fw 2 [(40, 8, 1)]).u64 40 ≤ ({ live.map with published := 1 } : MapS).published) ∧
    (let o : Op := { fw 2 [] with phase := .waiting }
     let s : State := { on pair [o] with fault := { pair.fault with switchOp := some (7, 1) } }
     s.fault.switchOp = some (7, 1) ∧ 1 ≤ s.map.published + 1 ∧ s.fabric.isolated = false ∧ s.fabric.barrier = none ∧ s.others ≠ [] ∧ s.findOp 7 = some o ∧
      (s.toDev (s.nextBoundary * 1000000)).overdue o = false) := by
  (repeat' apply And.intro) <;> decide

theorem witness_WorkLeavesOtherStateAlone : (Instr.setFilter 7).leavesRegisters = true ∧ (Instr.setFilter 7).storesNothing = true := by decide

/-- Every ill-formed term of the list is refused. -/
def refuses (l : List Instr) : Bool := l.all fun i => i.wf == false

theorem smoke_messages_refused :
    SrcAddr.wf { port := 2 } = false ∧ SrcAddr.wf { mac := 2 ^ 48 } = false ∧ SrcAddr.wf { ip := 2 ^ 128 } = false ∧ SrcAddr.wf { udp := 65536 } = false ∧
    Hello.wf { arrayId := 256 } = false ∧ Hello.wf { port := 6 } = false ∧ Hello.wf { coord := 2 ^ 32 } = false ∧ Hello.wf { leader := 256 } = false ∧
    Hello.wf { viewNo := 2 ^ 32 } = false ∧ Hello.wf { epochPeriod := 65536 } = false ∧ Hello.wf { version := 256 } = false ∧
    PtpMsg.wf (.announce 256 0 0 0) = false ∧ PtpMsg.wf (.announce 0 256 0 0) = false ∧ PtpMsg.wf (.announce 0 0 256 0) = false ∧
    RxProto.wf (.ptp .udp4 256 .management) = false ∧ RxProto.wf (.udp (2 ^ 48) 0 0 false false false {} {}) = false ∧
    RxProto.wf (.udp 0 (2 ^ 128) 0 false false false {} {}) = false ∧ RxProto.wf (.udp 0 0 65536 false false false {} {}) = false ∧
    RxFrame.wf { port := 2 } = false ∧ RxFrame.wf { proto := .ptp .udp4 256 .management } = false := by decide

theorem smoke_fabric_messages_refused :
    PublishRec.wf { ix := 32768 } = false ∧ PublishRec.wf { iy := -32769 } = false ∧ PublishRec.wf { owner := 256 } = false ∧ PublishRec.wf { mirror := 256 } = false ∧
    QueryMsg.wf { src := 256 } = false ∧ QueryMsg.wf { epoch := 2 ^ 64 } = false ∧ QueryMsg.wf { k := 1025 } = false ∧ QueryMsg.wf { index := 256 } = false ∧
    AnswerMsg.wf { src := 256 } = false ∧ AnswerMsg.wf { result := 3 } = false ∧
    RemoteReqMsg.wf { src := 256 } = false ∧ RemoteReqMsg.wf { desc := [0] } = false ∧
    RemoteRespMsg.wf { src := 256 } = false ∧ RemoteRespMsg.wf { status := 256 } = false ∧
    MirrorItemMsg.wf { src := 256 } = false ∧ MirrorItemMsg.wf { seq := 2 ^ 32 } = false ∧ MirrorItemMsg.wf { ix := 32768 } = false ∧ MirrorItemMsg.wf { iy := 32768 } = false ∧
    FzlHeader.wf { type := 256 } = false ∧ FzlHeader.wf { cls := 8 } = false ∧ FzlHeader.wf { src := 256 } = false ∧ FzlHeader.wf { dst := 256 } = false ∧ FzlHeader.wf { hops := 256 } = false := by decide

theorem smoke_units_refused :
    WearUnit.wf (.coreMargin 65536) = false ∧ WearUnit.wf (.coreErrors 65536) = false ∧ WearUnit.wf (.pondRow 13 0) = false ∧ WearUnit.wf (.pondRow 0 65536) = false ∧
    WearUnit.wf (.basinLane 65536) = false ∧ WearUnit.wf (.lakeFrame (2 ^ 32)) = false ∧ WearUnit.wf (.fabricLane 6 0) = false ∧ WearUnit.wf (.fabricLane 0 9) = false ∧
    WearUnit.wf (.ringContext 64 0) = false ∧ WearUnit.wf (.ringContext 0 65536) = false ∧ WearUnit.wf (.pll 32) = false ∧
    FailedUnit.wf (.core 65536) = false ∧ FailedUnit.wf (.pondBank 13 0) = false ∧ FailedUnit.wf (.pondBank 0 65536) = false ∧ FailedUnit.wf (.crossbar 13) = false ∧
    FailedUnit.wf (.basinLane 65536) = false ∧ FailedUnit.wf (.ringContext 64 0) = false ∧ FailedUnit.wf (.ringContext 0 65536) = false ∧
    FailedUnit.wf (.dieUnit 256) = false ∧ UpperTier.wf (.pond 13) = false := by decide

theorem smoke_functions_refused :
    refuses [.doorbellSweep 64 none, .doorbellSweep 0 (some 16), .nudge 64, .descriptorFetch 64 0, .descriptorFetch 0 32768, .interruptTimer 64 0, .interruptTimer 0 32768,
      .ringEnable 64 0, .ringDisable 64 0, .fnRingsWrite 64 0, .registerWrite 64 0 4 0, .registerWrite 0 (2 ^ 24) 4 0, .registerWrite 0 0 3 0, .registerWrite 0 0 1 256,
      .bitAliasWrite 64 0 0, .bitAliasWrite 0 (2 ^ 24) 0, .configParityFault (2 ^ 24) 0, .configParityFault 0 (2 ^ 22), .privKeyWrite 64 0, .privEnter 64, .privLeave 64,
      .hostTagWrite 64 0, .resetKeyWrite 64 0, .resetCtrlWarm 64, .resetCtrlCold 64, .timeCmdSet 64, .timeCmdStep 64, .timeRateWrite 64 0, .timeNsRead 64,
      .tallyHeadAckRead 64 4, .tallyHeadAckRead 0 3, .eventSummaryRead 64 4, .eventSummaryRead 0 3, .springRegisterWrite 64 0 0, .springRegisterWrite 0 (2 ^ 24) 0,
      .lcRequestWrite 64 0, .fzlLeave 64, .forceView 64 0, .forceView 0 (2 ^ 64), .extentEnable 64 0, .extentDisable 64 0,
      .bar2Access 64 false 0 0 [], .bar2Access 0 false (2 ^ 36) 1 [], .bar2Access 0 true 0 1 [], .functionLevelReset 64] = true := by decide

theorem smoke_sessions_refused :
    refuses [.infer 0 13, .stage 0 true 65536 0, .stage 0 true 0 (2 ^ 32), .netFrameReceive { port := 2 }, .reassemblyTimeout (2 ^ 32) 0, .reassemblyTimeout 0 (2 ^ 32),
      .silentTimeout (2 ^ 32), .lingerExpiry (2 ^ 32), .visionFrame (2 ^ 32) 0, .visionFrame 0 (2 ^ 32), .fusionFrame (2 ^ 32) 0, .fusionFrame 0 (2 ^ 32),
      .motionShort (2 ^ 32) 0, .motionShort 0 (2 ^ 32), .fusionIntervalClose (2 ^ 32), .loopClosure (2 ^ 32) 0 0, .loopClosure 0 (2 ^ 64) 0, .loopClosure 0 0 (2 ^ 64),
      .calibSolveQueue (2 ^ 32), .calibSolveResult (2 ^ 32), .replyLaunch (2 ^ 32), .frameLaunch 2, .sessionMove (2 ^ 32) 0, .sessionMove 0 13,
      .settlingPass 256, .settlingPassDone 256, .keyframeMaskComplete (2 ^ 64) [], .keyframeMaskComplete 0 [2 ^ 32]] = true := by decide

theorem smoke_members_refused :
    refuses [.query { src := 256 }, .answer { src := 256 }, .remoteReq { src := 256 }, .remoteResp { src := 256 }, .mirrorItem { src := 256 }, .mirrorAck 256 0, .mirrorAck 0 (2 ^ 32),
      .mirrorAckTimer 256, .mirrorSyncComplete 32768 0, .mirrorSyncComplete 0 32768, .handoverPropose 256 0 0 0, .handoverPropose 0 32768 0 0, .handoverPropose 0 0 32768 0,
      .handoverPropose 0 0 0 (2 ^ 64), .handoverReply 256 0 0 0, .handoverReply 0 32768 0 0, .handoverReply 0 0 32768 0, .handoverReply 0 0 0 65536,
      .snapshot 256 0 0 0 0 [], .snapshot 0 32768 0 0 0 [], .snapshot 0 0 32768 0 0 [], .synced 256 0 0 0, .synced 0 32768 0 0, .synced 0 0 32768 0, .synced 0 0 0 (2 ^ 32),
      .handoverAbort 256 0 0 0, .handoverAbort 0 32768 0 0, .handoverAbort 0 0 32768 0, .handoverAbort 0 0 0 256, .handoverCopyTimeout 32768 0, .handoverCopyTimeout 0 32768,
      .barrierReady 256 0 0 [], .barrierReady 0 (2 ^ 64) 0 [], .barrierReady 0 0 (2 ^ 32) [], .barrierReady 0 0 0 [(32768, 0)], .barrierReady 0 0 0 [(0, 32768)],
      .barrierPublish (2 ^ 64) 0 [], .barrierPublish 0 (2 ^ 32) [], .barrierPublish 0 0 [{ owner := 256 }]] = true := by decide

theorem smoke_fabric_refused :
    refuses [.hello 6 {}, .hello 0 { port := 6 }, .helloTimer 6, .join 256 {}, .join 0 { port := 6 }, .joinReply 65536, .view (2 ^ 32) 0 0, .view 0 256 0, .view 0 0 (2 ^ 64),
      .viewAck 256 0, .viewAck 0 (2 ^ 32), .heartbeat 256 0 0, .heartbeat 0 (2 ^ 32) 0, .memberTimeout 256, .leave 256 0, .leave 0 256, .timeSync 6 0 0 0, .timeSync 0 0 256 0,
      .timeSync 0 0 0 256, .delayReq 6 0, .delayResp 6 0, .fzlLinkUp 6, .flitNak 6 0, .flitNak 0 4096, .flitReplayTimeout 6, .portRetrainTimeout 6,
      .laneFailure 6 0, .laneFailure 0 9, .ptpMessage (.announce 256 0 0 0), .triggerEdge 8, .triggerPulseEnd 8, .netLinkChange 2 true,
      .flitReceiveError 6 0, .flitReceiveError 0 4096, .messageForward 6 {}, .messageForward 0 { cls := 8 }] = true := by decide

theorem smoke_units_commands_refused :
    refuses [.parcelPromote (2 ^ 32) .basin, .parcelPromote 0 (.pond 13), .promotionCopyEnd (2 ^ 32), .parcelDemote (2 ^ 32), .demotionWriteBackEnd (2 ^ 32),
      .pondTestStep 13 0 true, .pondTestStep 0 65536 true, .laneRepairWalk 65536 0, .laneRepairWalk 0 9, .laneRepairSwitch 65536, .inferLayerStart 0 65536,
      .pieceFailure 0 .matrixTile 65536 false, .unitRetired (.core 65536), .wearDetected (.pll 32), .drainComplete 65536, .spareInService 65536, .clockLoss 32, .sparePllLocked 32,
      .safeHold 65536, .clusterRetention 13, .clusterOff 13, .matrixDomainOff 13, .clusterWakeComplete 13, .domainRelease 41,
      .mgmtDynamicAddress 128] = true := by decide

theorem smoke_long_arguments_refused :
    (Instr.mgmtStatus (List.replicate 32769 0)).wf = false ∧ (Instr.resetArm (List.replicate 32769 0)).wf = false ∧ (Instr.resetGo (List.replicate 32769 0)).wf = false ∧
    (Instr.snapshot 0 0 0 0 0 (List.replicate 32769 0)).wf = false ∧ RxFrame.wf { bytes := List.replicate 65536 0 } = false := by
  simp only [Instr.wf, RxFrame.wf, List.length_replicate]
  decide

theorem smoke_well_formed :
    ([.registerWrite 0 0x8004 4 1, .bar2Access 0 true 0 1 [0], .infer 0 12, .netFrameReceive {}, .hello 5 {}, .laneFailure 5 8, .domainRelease 40, .barrierReady 1 1 0 [(-32768, 32767)],
      .messageForward 5 {}, .wearDetected (.pll 12)] : List Instr).all Instr.wf = true := by decide

/-! Worked examples of the spec. -/

/-- The state a command leaves. -/
def after (c : Instr) (s : State) : State := match exec c s with | .next t => t | _ => s

-- R462's HV-8306 example, three of its rows.
theorem test_capability_walk :
    (let s : State := { live with chip := { live.chip with part := .hv8306 } }
     s.busValue 2 0x100 4 = 0x00010001 ∧ s.busValue 2 0x104 4 = 0x140 ∧ s.busValue 2 0x240 4 = 0x060100B0 ∧ s.busValue 2 0x260 4 = 0x040100D0 ∧ s.busValue 2 0x264 4 = 0) := by decide

-- R278's example, with the two large products first and last.
set_option maxRecDepth 4000 in
theorem test_e4m3_block_sum :
    (let a := [0x7E, 0xFE] ++ List.replicate 30 1
     let b := [0x7E, 0x7E] ++ List.replicate 30 1
     ({ aFmt := 1, bFmt := 1, a := a, b := b } : Line).block 0 = (0x38F00000, 0) ∧ ({ aFmt := 1, bFmt := 1, a := a.reverse, b := b.reverse } : Line).chain none = (0x38F00000, 0)) := by decide

-- the Ethernet example: 0.32 ns a byte, 24 bytes of overhead on each frame.
theorem test_wire_time : ({} : NetPort).wire 258 = 9024 ∧ ({} : NetPort).wire 9000 = 288768 := by decide

-- the packed form of 1,000.028 000 090 s, the late stamp of the net port example.
theorem test_pack_time : packTime 1000028000090 = 0x000000FA01AB3F5A := by decide

-- the core ID example.
theorem test_core_ids : coreId 7 1 1 = 0x7101 ∧ coreId 12 0 4 = 0xC004 := by decide

-- the position example, and its negative.
theorem test_position : sfld (leBytes 0x00000C800000 6) 0 6 = 209715200 ∧ sfld (leBytes 0xFFFFF3800000 6) 0 6 = -209715200 := by decide

/-- The balls of R485 come to the 2,916 of the package, and before configuration no trigger is driven (R452, R486). -/
theorem test_balls :
    (ballGroups.map (·.2)).sum = 2916 ∧ State.reset.pin (.trig 0) = .weakDown ∧ State.reset.pin (.lakeCommand 7) = .lakeHeld ∧ State.reset.pin (.fabricTx 5) = .idleLanes ∧
      ({ State.reset with chip := { State.reset.chip with part := .hv8309 } } : State).pin (.fabricTx 5) = .absent ∧ live.pin .alert = .hiZ := by decide

/-- 2x + y = 3 and x + y = 2 by the elimination that R258 is held to. -/
theorem test_solveRows : solveRows 2 [[2, 1, 3], [1, 1, 2]] = some [1, 1] := by decide +kernel

-- AES-256-GCM with a key, IV and text of zeros (R123): test cases 13 and 14 of the GCM paper.
theorem test_gcm :
    gcmTag (keysOf 0) (zeros 12) [] [] = [0x53, 0x0F, 0x8A, 0xFB, 0xC7, 0x45, 0x36, 0xB9, 0xA9, 0x63, 0xB4, 0xF1, 0xC4, 0xCB, 0x73, 0x8B] ∧
    gcmStream (keysOf 0) (zeros 12) (zeros 16) = [0xCE, 0xA7, 0x40, 0x3D, 0x4D, 0x60, 0x6B, 0x6E, 0x07, 0x4E, 0xC5, 0xD3, 0xBA, 0xF3, 0x9D, 0x18] := by decide +kernel

-- R473: a bit alias writes one bit of its register; a virtual function's write is a guarded access.
theorem test_bit_alias :
    (after (.bitAliasWrite 0 0x900098 1) live).reg 0x8004 0 = 0x40 ∧ (after (.bitAliasWrite 2 0x900098 1) live).reg 0x8004 0 = 0 := by decide

end Sys2Proof.Tests
end

/-! # The scope of a step

Which command a step runs, that every command answers a next state (log entries 7 and 12), and that from a sound state no command changes the
queue (log entries 5 and 6): the queue's part of the laws that Laws/Kept and Laws/Sound give for each meaning. -/

namespace Sys2Proof.Machine

/-! ## Every command answers a next state -/

/-- A meaning answers a next state: it neither faults nor refuses. -/
def Answers (r : Result) : Prop := ∃ t, r = .next t

theorem answers_next (t : State) : Answers (.next t) := ⟨t, rfl⟩

theorem answers_ite {c : Prop} [Decidable c] {a b : Result} (ha : Answers a) (hb : Answers b) : Answers (if c then a else b) := by
  split
  · exact ha
  · exact hb

/-- An opcode's meaning answers whether its operation may run or not (R94, R100). -/
theorem runOp_answers (s : State) (id code : Nat) (f : Op → State) : Answers (s.runOp id code f) := by
  fun_cases State.runOp <;> exact answers_next _

/-- The same of a SUBOP's or REPORT's meaning; State.tune, State.tuneCfg and State.diag are such runs. -/
theorem runSub_answers (s : State) (id code sub : Nat) (f : Op → State) : Answers (s.runSub id code sub f) := by
  fun_cases State.runSub <;> exact answers_next _

/-- A command of the management port answers whether the port is powered or not, and with any number of argument bytes (R481, R484). -/
theorem mgmtRun_answers (s : State) (code n : Nat) (args : List Byte) (f : State) : Answers (s.mgmtRun code n args f) := by
  fun_cases State.mgmtRun <;> exact answers_next _

/-- Every command answers a next state: whatever branch its meaning takes ends in one. -/
theorem exec_answers (c : Instr) (s : State) : Answers (exec c s) := by
  cases c with rw [exec]
  -- no condition: the effect itself
  | fnRingsWrite | registerWrite | privKeyWrite | privEnter | privLeave | hostTagWrite | resetKeyWrite | resetCtrlWarm | resetCtrlCold | timeCmdSet
  | timeCmdStep | timeRateWrite | timeNsRead | tallyHeadAckRead | eventSummaryRead | springWriteArrival | lcRequestWrite | fzlLeave | query | tick
  | netLinkChange | safeHold | thermalLimit | powerOn =>
    exact answers_next _
  -- one condition, which decides between two next states
  | nudge | interruptTimer | ringEnable | ringDisable | bitAliasWrite | shadowApplyLink | springRegisterWrite | forceView | extentEnable
  | extentDisable | mirrorAck | mirrorAckTimer | handoverPropose | handoverAbort | handoverCopyTimeout | barrierReady | barrierPublish | helloTimer
  | join | joinReply | viewAck | heartbeat | heartbeatTimer | memberTimeout | leave | gracefulLeaveComplete | timeSyncTimer | delayReq | fzlLinkUp
  | flitNak | flitReplayTimeout | portRetrainTimeout | ptpMessage | ptpAnnounceTimeout | ppsSeenTimeout | holdoverLimit | ppsOutRise | ppsOutFall
  | pondTestStep | laneRepairWalk | laneRepairSwitch | unitRetired | hostPathFailure | clusterRetention | clusterOff | matrixDomainOff | tamper
  | resetNAssert | resetNRelease | parked | perstNAssert | perstNRelease | functionLevelReset | watchdogExpiry | bringUp | tidyFirmwareStart
  | mgmtDynamicAddress | flitReceiveError | securityCoreRequest | hbmRefreshRate =>
    exact answers_ite (answers_next _) (answers_next _)
  -- the meaning of an opcode, run on an operation in flight
  | nop | fence | sessionOpen | sessionClose | sessionKey | frameSubmit | epochWait | search | vecInsert | vecDelete | settle | recallProbe | solve
  | scheduleLoad | scheduleDrop | infer | programLoad | programDrop | weightsBind | weightsUnbind | move | moveFill | residencyHint | netSend
  | netRecvPost | logRead | inferLayerStart =>
    exact runOp_answers _ _ _ _
  -- the meaning of a SUBOP or REPORT, run on an operation in flight
  | setFilter | setThresholds | setTimers | setMaxLoad | setHostRate | setLimits | eventWait | setGates | setPrecedence | setReply | setTime
  | setPose | setCalibRefine | setCalibration | setRefine | setSearch | setFeatures | setStereo | setRetain | trackQueryFeatures | trackQueryTracks
  | trackQueryDisparity | trackQueryProject | mapReadTileImage | mapReadKeyframes | mapReadLinks | mapReadPoints | mapReadObservations
  | tileRestore | keyframeDelete | keyframePose | linkAdd | linkDelete | quarantine | release | indexCreate | indexDrop | tileAffinity
  | diagSessions | diagClusters | diagTiles | diagCounters | retire | safeHoldAction | prepare | stage | activate | revert =>
    exact runSub_answers _ _ _ _ _
  -- a command of the management port
  | mgmtStatus | mgmtTemperature | mgmtReservoirLevel | mgmtTallyRead | resetArm =>
    exact mgmtRun_answers _ _ _ _ _
  -- several branches: one case for each
  | doorbellSweep => fun_cases execDoorbellSweep <;> exact answers_next _
  | descriptorFetch => fun_cases execDescriptorFetch <;> exact answers_next _
  | operationStart => fun_cases execOperationStart <;> exact answers_next _
  | completionPost => fun_cases execCompletionPost <;> exact answers_next _
  | deadlineExpiry => fun_cases execDeadlineExpiry <;> exact answers_next _
  | configParityFault => fun_cases execConfigParityFault <;> exact answers_next _
  | bar2Access => fun_cases execBar2Access <;> exact answers_next _
  | netFrameReceive => fun_cases execNetFrameReceive <;> exact answers_next _
  | reassemblyTimeout => fun_cases execReassemblyTimeout <;> exact answers_next _
  | silentTimeout => fun_cases execSilentTimeout <;> exact answers_next _
  | lingerExpiry => fun_cases execLingerExpiry <;> exact answers_next _
  | visionFrame => fun_cases execVisionFrame <;> exact answers_next _
  | fusionFrame => fun_cases execFusionFrame <;> exact answers_next _
  | motionShort => fun_cases execMotionShort <;> exact answers_next _
  | fusionIntervalClose => fun_cases execFusionIntervalClose <;> exact answers_next _
  | loopClosure => fun_cases execLoopClosure <;> exact answers_next _
  | calibSolveQueue => fun_cases execCalibSolveQueue <;> exact answers_next _
  | calibSolveResult => fun_cases execCalibSolveResult <;> exact answers_next _
  | replyLaunch => fun_cases execReplyLaunch <;> exact answers_next _
  | frameLaunch => fun_cases execFrameLaunch <;> exact answers_next _
  | sessionMove => fun_cases execSessionMove <;> exact answers_next _
  | settlingPass => fun_cases execSettlingPass <;> exact answers_next _
  | settlingPassDone => fun_cases execSettlingPassDone <;> exact answers_next _
  | peerDeadline => fun_cases execPeerDeadline <;> exact answers_next _
  | answer => fun_cases execAnswer <;> exact answers_next _
  | remoteReq => fun_cases execRemoteReq <;> exact answers_next _
  | remoteResp => fun_cases execRemoteResp <;> exact answers_next _
  | mirrorItem => fun_cases execMirrorItem <;> exact answers_next _
  | mirrorSyncComplete => fun_cases execMirrorSyncComplete <;> exact answers_next _
  | handoverReply => fun_cases execHandoverReply <;> exact answers_next _
  | snapshot => fun_cases execSnapshot <;> exact answers_next _
  | synced => fun_cases execSynced <;> exact answers_next _
  | epochBoundary => fun_cases execEpochBoundary <;> exact answers_next _
  | epochReadySend => fun_cases execEpochReadySend <;> exact answers_next _
  | hello => fun_cases execHello <;> exact answers_next _
  | view => fun_cases execView <;> exact answers_next _
  | timeSync => fun_cases execTimeSync <;> exact answers_next _
  | timeSyncTimeout => fun_cases execTimeSyncTimeout <;> exact answers_next _
  | delayReqTimer => fun_cases execDelayReqTimer <;> exact answers_next _
  | delayResp => fun_cases execDelayResp <;> exact answers_next _
  | laneFailure => fun_cases execLaneFailure <;> exact answers_next _
  | ppsInEdge => fun_cases execPpsInEdge <;> exact answers_next _
  | triggerEdge => fun_cases execTriggerEdge <;> exact answers_next _
  | triggerPulseEnd => fun_cases execTriggerPulseEnd <;> exact answers_next _
  | parcelPromote => fun_cases execParcelPromote <;> exact answers_next _
  | promotionCopyEnd => fun_cases execPromotionCopyEnd <;> exact answers_next _
  | parcelDemote => fun_cases execParcelDemote <;> exact answers_next _
  | demotionWriteBackEnd => fun_cases execDemotionWriteBackEnd <;> exact answers_next _
  | tierAccessLate => fun_cases execTierAccessLate <;> exact answers_next _
  | scrubPass => fun_cases execScrubPass <;> exact answers_next _
  | pieceFailure => fun_cases execPieceFailure <;> exact answers_next _
  | retryBudgetExpiry => fun_cases execRetryBudgetExpiry <;> exact answers_next _
  | wearDetected => fun_cases execWearDetected <;> exact answers_next _
  | drainComplete => fun_cases execDrainComplete <;> exact answers_next _
  | spareInService => fun_cases execSpareInService <;> exact answers_next _
  | reservoirClusterReady => fun_cases execReservoirClusterReady <;> exact answers_next _
  | reservoirDailyTest => fun_cases execReservoirDailyTest <;> exact answers_next _
  | clockLoss => fun_cases execClockLoss <;> exact answers_next _
  | sparePllLocked => fun_cases execSparePllLocked <;> exact answers_next _
  | clusterWake => fun_cases execClusterWake <;> exact answers_next _
  | clusterWakeComplete => fun_cases execClusterWakeComplete <;> exact answers_next _
  | railExcursion => fun_cases execRailExcursion <;> exact answers_next _
  | domainRelease => fun_cases execDomainRelease <;> exact answers_next _
  | firmwareVerified => fun_cases execFirmwareVerified <;> exact answers_next _
  | resetGo => fun_cases execResetGo <;> exact answers_next _
  | mgmtArmExpiry => fun_cases execMgmtArmExpiry <;> exact answers_next _
  | mgmtResetTaken => fun_cases execMgmtResetTaken <;> exact answers_next _
  | ptpMessageInterval => fun_cases execPtpMessageInterval <;> exact answers_next _
  | messageForward => fun_cases execMessageForward <;> exact answers_next _
  | keyframeMaskComplete => fun_cases execKeyframeMaskComplete <;> exact answers_next _

/-! ## No command changes the queue -/

/-- A sound state is good for its own queue. -/
theorem good_of_sound {s : State} (h : s.Sound) : Good s.pending s.kept := by
  obtain ⟨hmem, h0, h1, hshared⟩ := h
  exact ⟨rfl, h0, h1, hshared, hmem⟩

theorem pending_of_good {q : List Instr} {s : State} (h : Good q s.kept) : s.pending = q := h.1

/-- Every command keeps the queue, the tags within their pools and memory in canonical form, by the law of its meaning: those that write
neither memory nor tags keep both as they are. -/
theorem exec_good {q : List Instr} (c : Instr) (s : State) (h : Good q s.kept) : GoodNext q (exec c s) := by
  cases c with rw [exec]
  -- the meaning's law in Laws/Kept: queue, tags and memory are as they were
  | nudge | interruptTimer | shadowApplyLink | configParityFault | timeNsRead | tallyHeadAckRead | eventSummaryRead | springWriteArrival | nop
  | fence | sessionKey | setFilter | setThresholds | setTimers | setMaxLoad | setHostRate | setLimits | setGates | setPrecedence | setReply
  | setTime | setPose | setCalibRefine | setCalibration | setRefine | setSearch | setFeatures | setStereo | setRetain | tileRestore
  | keyframeDelete | keyframePose | linkAdd | linkDelete | quarantine | release | indexCreate | indexDrop | tileAffinity | epochWait | settle
  | scheduleLoad | scheduleDrop | infer | programLoad | programDrop | weightsBind | weightsUnbind | residencyHint | netSend | netRecvPost | retire
  | prepare | stage | activate | revert | motionShort | loopClosure | calibSolveQueue | replyLaunch | frameLaunch | sessionMove | settlingPass
  | settlingPassDone | query | remoteReq | mirrorItem | mirrorAckTimer | mirrorSyncComplete | handoverPropose | handoverReply | snapshot | synced
  | handoverAbort | handoverCopyTimeout | tick | epochBoundary | epochReadySend | barrierReady | barrierPublish | hello | helloTimer | joinReply
  | viewAck | heartbeat | heartbeatTimer | timeSync | timeSyncTimer | timeSyncTimeout | delayReq | delayReqTimer | delayResp | fzlLinkUp | flitNak
  | flitReplayTimeout | portRetrainTimeout | laneFailure | ptpMessage | ptpAnnounceTimeout | ppsInEdge | ppsSeenTimeout | holdoverLimit
  | ppsOutRise | ppsOutFall | triggerEdge | triggerPulseEnd | netLinkChange | parcelPromote | promotionCopyEnd | parcelDemote
  | demotionWriteBackEnd | tierAccessLate | scrubPass | pondTestStep | laneRepairWalk | laneRepairSwitch | retryBudgetExpiry | wearDetected
  | drainComplete | spareInService | reservoirClusterReady | reservoirDailyTest | sparePllLocked | clusterRetention | clusterOff | matrixDomainOff
  | clusterWake | clusterWakeComplete | resetNRelease | parked | perstNRelease | bringUp | domainRelease | firmwareVerified | tidyFirmwareStart
  | mgmtStatus | mgmtTemperature | mgmtReservoirLevel | mgmtTallyRead | resetArm | resetGo | mgmtArmExpiry | mgmtDynamicAddress
  | ptpMessageInterval | flitReceiveError | messageForward | keyframeMaskComplete | hbmRefreshRate =>
    refine goodNext_of_kept ?_ h
    simp
  -- the meaning's law in Laws/Sound: memory or tags change, and stay good
  | doorbellSweep | descriptorFetch | operationStart | completionPost | deadlineExpiry | ringEnable | ringDisable | fnRingsWrite | registerWrite
  | bitAliasWrite | privKeyWrite | privEnter | privLeave | hostTagWrite | resetKeyWrite | resetCtrlWarm | resetCtrlCold | timeCmdSet | timeCmdStep
  | timeRateWrite | springRegisterWrite | lcRequestWrite | fzlLeave | forceView | extentEnable | extentDisable | bar2Access | sessionOpen
  | sessionClose | eventWait | frameSubmit | trackQueryFeatures | trackQueryTracks | trackQueryDisparity | trackQueryProject | mapReadTileImage
  | mapReadKeyframes | mapReadLinks | mapReadPoints | mapReadObservations | search | vecInsert | vecDelete | recallProbe | solve | move | moveFill
  | logRead | diagSessions | diagClusters | diagTiles | diagCounters | safeHoldAction | netFrameReceive | reassemblyTimeout | silentTimeout
  | lingerExpiry | visionFrame | fusionFrame | fusionIntervalClose | calibSolveResult | peerDeadline | answer | remoteResp | mirrorAck | join
  | view | memberTimeout | leave | gracefulLeaveComplete | inferLayerStart | pieceFailure | unitRetired | clockLoss | safeHold | thermalLimit
  | hostPathFailure | powerOn | railExcursion | tamper | resetNAssert | perstNAssert | functionLevelReset | watchdogExpiry | mgmtResetTaken
  | securityCoreRequest =>
    simp [h]

/-- The state after a command from a sound one is good for the queue before it. -/
theorem good_of_exec {c : Instr} {s t : State} (hs : s.Sound) (ht : exec c s = .next t) : Good s.pending t.kept := by
  have hgood : GoodNext s.pending (exec c s) := exec_good c s (good_of_sound hs)
  rwa [ht, goodNext_next] at hgood

/-! ## The obligations -/

/-- Settles O1: on a queue with a front command, step is by definition that command on the rest (log entries 5 and 6). -/
theorem stepRunsFrontCommand : Obligations.StepRunsFrontCommand := by
  intro c rest s hqueue
  rw [step, hqueue]

/-- Settles O5: every branch of every meaning ends in a next state (log entries 7 and 12), and the laws of the meanings keep the queue of a sound
state. -/
theorem commandsAnswerAndKeepTheQueue : Obligations.CommandsAnswerAndKeepTheQueue :=
  ⟨exec_answers, fun _ _ _ hs ht => pending_of_good (good_of_exec hs ht)⟩

end Sys2Proof.Machine

/-! # What the work of the engines leaves alone

A frame over all commands (R16, R101, R323, R390, R393): the laws of the meanings in Laws/Spine and Laws/Kept, taken together. -/

namespace Sys2Proof.Machine

/-- The meanings of the commands that leave the registers alone keep the spine, each by its law in Laws/Spine. -/
theorem exec_keepsSpine {c : Instr} (s : State) (h : c.leavesRegisters = true) : KeepsSpine s (exec c s) := by
  cases c with rw [exec]
  | sessionOpen | sessionClose | sessionKey | setFilter | setThresholds | setTimers | setMaxLoad | setHostRate | setLimits | eventWait
  | setGates | setPrecedence | setReply | setTime | setPose | setCalibRefine | setCalibration | setRefine | setSearch | setFeatures
  | setStereo | setRetain | frameSubmit | trackQueryFeatures | trackQueryTracks | trackQueryDisparity | trackQueryProject | mapReadTileImage
  | mapReadKeyframes | mapReadLinks | mapReadPoints | mapReadObservations | tileRestore | keyframeDelete | keyframePose | linkAdd
  | linkDelete | quarantine | release | indexCreate | indexDrop | tileAffinity | epochWait | search | vecInsert | vecDelete | settle
  | recallProbe | solve | scheduleLoad | scheduleDrop | infer | programLoad | programDrop | weightsBind | weightsUnbind | move | moveFill
  | residencyHint | netSend | netRecvPost | logRead | diagSessions | diagClusters | diagTiles | diagCounters | retire | safeHoldAction
  | prepare | activate | revert | netFrameReceive | reassemblyTimeout | silentTimeout | lingerExpiry | visionFrame | fusionFrame
  | motionShort | fusionIntervalClose | loopClosure | calibSolveQueue | calibSolveResult | replyLaunch | frameLaunch | sessionMove
  | settlingPass | settlingPassDone | peerDeadline | query | answer | remoteReq | remoteResp | mirrorItem | mirrorAck | mirrorAckTimer
  | mirrorSyncComplete | handoverPropose | handoverReply | snapshot | synced | handoverAbort | handoverCopyTimeout | hello | helloTimer
  | joinReply | viewAck | heartbeat | heartbeatTimer | timeSync | timeSyncTimer | timeSyncTimeout | delayReq | delayReqTimer | delayResp
  | fzlLinkUp | flitNak | flitReplayTimeout | portRetrainTimeout | laneFailure | ptpMessage | ptpAnnounceTimeout | ppsInEdge | ppsSeenTimeout
  | holdoverLimit | ppsOutRise | ppsOutFall | triggerEdge | triggerPulseEnd | netLinkChange | parcelPromote | promotionCopyEnd | parcelDemote
  | demotionWriteBackEnd | tierAccessLate | scrubPass | pondTestStep | laneRepairWalk | laneRepairSwitch | inferLayerStart
  | retryBudgetExpiry | wearDetected | drainComplete | spareInService | reservoirClusterReady | reservoirDailyTest | clockLoss
  | sparePllLocked | safeHold | thermalLimit | ptpMessageInterval | flitReceiveError | messageForward | keyframeMaskComplete =>
    simp
  | _ => cases h

/-- The meanings of the commands that store nothing keep memory and the tags in use, each by its law in Laws/Kept. -/
theorem exec_keepsKept {c : Instr} (s : State) (h : c.storesNothing = true) : KeepsKept s (exec c s) := by
  cases c with rw [exec]
  | nudge | interruptTimer | shadowApplyLink | configParityFault | timeNsRead | tallyHeadAckRead | eventSummaryRead | springWriteArrival
  | nop | fence | sessionKey | setFilter | setThresholds | setTimers | setMaxLoad | setHostRate | setLimits | setGates | setPrecedence
  | setReply | setTime | setPose | setCalibRefine | setCalibration | setRefine | setSearch | setFeatures | setStereo | setRetain
  | tileRestore | keyframeDelete | keyframePose | linkAdd | linkDelete | quarantine | release | indexCreate | indexDrop | tileAffinity
  | epochWait | settle | scheduleLoad | scheduleDrop | infer | programLoad | programDrop | weightsBind | weightsUnbind | residencyHint
  | netSend | netRecvPost | retire | prepare | stage | activate | revert | motionShort | loopClosure | calibSolveQueue | replyLaunch
  | frameLaunch | sessionMove | settlingPass | settlingPassDone | query | remoteReq | mirrorItem | mirrorAckTimer | mirrorSyncComplete
  | handoverPropose | handoverReply | snapshot | synced | handoverAbort | handoverCopyTimeout | tick | epochBoundary | epochReadySend
  | barrierReady | barrierPublish | hello | helloTimer | joinReply | viewAck | heartbeat | heartbeatTimer | timeSync | timeSyncTimer
  | timeSyncTimeout | delayReq | delayReqTimer | delayResp | fzlLinkUp | flitNak | flitReplayTimeout | portRetrainTimeout | laneFailure
  | ptpMessage | ptpAnnounceTimeout | ppsInEdge | ppsSeenTimeout | holdoverLimit | ppsOutRise | ppsOutFall | triggerEdge | triggerPulseEnd
  | netLinkChange | parcelPromote | promotionCopyEnd | parcelDemote | demotionWriteBackEnd | tierAccessLate | scrubPass | pondTestStep
  | laneRepairWalk | laneRepairSwitch | retryBudgetExpiry | wearDetected | drainComplete | spareInService | reservoirClusterReady
  | reservoirDailyTest | sparePllLocked | clusterRetention | clusterOff | matrixDomainOff | clusterWake | clusterWakeComplete | resetNRelease
  | parked | perstNRelease | bringUp | domainRelease | firmwareVerified | tidyFirmwareStart | mgmtStatus | mgmtTemperature
  | mgmtReservoirLevel | mgmtTallyRead | resetArm | resetGo | mgmtArmExpiry | mgmtDynamicAddress | ptpMessageInterval | flitReceiveError
  | messageForward | keyframeMaskComplete | hbmRefreshRate =>
    simp
  | _ => cases h

/-- Settles O60: a frame over all commands. The registers, rings, host state, view, epoch and IDs of operations are part of the spine; memory and
the tags in use are part of what Laws/Kept keeps. -/
theorem workLeavesOtherStateAlone : Obligations.WorkLeavesOtherStateAlone := by
  intro c s t ht
  refine ⟨fun h => ?_, fun h => ?_⟩
  · have hs := exec_keepsSpine s h
    rw [ht, spine_next] at hs
    simp only [State.spine, Prod.mk.injEq] at hs
    exact hs.2
  · have hk := exec_keepsKept s h
    rw [ht, keeps_next] at hk
    simp only [State.kept, Prod.mk.injEq] at hk
    obtain ⟨-, h0, h1, hshared, hmem⟩ := hk
    exact ⟨fun a => by rw [hmem], h0, h1, hshared⟩

end Sys2Proof.Machine

/-! # Operations that end, and changes of the recorded map

How an operation that may run ends, and what changes nothing but the map in the epoch being filled: the layer that the statements on the map and on
epochs share. -/

namespace Sys2Proof.Machine

/-! ## Operations that end -/

theorem Op.ne_final_of_started {o : Op} (h : o.phase = .started) : o.phase ≠ .final := by rw [h]; decide

/-- An operation in flight before its deadline point completes with the outcome given (R94), on any state with the operations and time of s. -/
theorem complete_eq_finish {s s' : State} {id : Nat} {o : Op} (h : s.findOp id = some o) (hp : o.phase ≠ .final) (hd : s.overdue o = false)
    (ho : s'.ops = s.ops) (hc : s'.clock = s.clock) (r : Res) : s'.complete id r = s'.finish id r := by
  have hd' : s'.overdue o = false := by rw [State.overdue, hc]; exact hd
  simp [State.complete, findOp_of_ops ho, h, hp, hd']

theorem ended_complete {s s' : State} {id : Nat} {o : Op} (h : s.findOp id = some o) (hp : o.phase ≠ .final) (hd : s.overdue o = false)
    (ho : s'.ops = s.ops) (hc : s'.clock = s.clock) (r : Res) : (s'.complete id r).Ended id r.status r.count r.detail := by
  rw [complete_eq_finish h hp hd ho hc]
  exact ended_finish_of h r ho

/-- Completing changes the list of operations alone. -/
theorem complete_frame (s : State) (id : Nat) (r : Res) : s.complete id r = { s with ops := { s.ops with list := (s.complete id r).ops.list } } := by
  unfold State.complete
  split
  · split <;> rfl
  · rfl

theorem justEnded_finish {s : State} {id : Nat} {o : Op} (h : s.findOp id = some o) (r : Res) : JustEnded s (s.finish id r) id r :=
  ⟨ended_finish h r, othersKept_finish s id r, rfl⟩

/-- Bytes written on a state with the operations, time and memory of s, then the operation completed. -/
theorem wroteAndEnded_complete {s s' : State} {id : Nat} {o : Op} (h : s.findOp id = some o) (hp : o.phase ≠ .final) (hd : s.overdue o = false)
    (ho : s'.ops = s.ops) (hc : s'.clock = s.clock) (hm : s'.mem = s.mem) (p : Nat) (b : List Byte) (r : Res) :
    WroteAndEnded s ((s'.writeMem p b).complete id r) id p b r := by
  refine ⟨ended_complete (s' := s'.writeMem p b) h hp hd ho hc r, ?_, fun a ha => ?_⟩
  · rw [complete_frame]
    exact Memory.read_write s'.mem p b
  · rw [complete_frame, State.writeMem, Memory.byte_write, if_neg (by omega), hm]

/-! ## Changes of the recorded map alone -/

/-- From s to t the map in the epoch being filled may have changed, and nothing else. -/
def CurOnly (s t : State) : Prop := ∃ v, t = s.setCur v

theorem CurOnly.refl (s : State) : CurOnly s s := ⟨s.map.cur, rfl⟩

theorem CurOnly.trans {a b c : State} (h1 : CurOnly a b) (h2 : CurOnly b c) : CurOnly a c := by
  obtain ⟨v, rfl⟩ := h1
  obtain ⟨w, rfl⟩ := h2
  exact ⟨w, rfl⟩

theorem curOnly_setCur (s : State) (v : MapView) : CurOnly s (s.setCur v) := ⟨v, rfl⟩

theorem curOnly_foldl {α : Type} (f : State → α → State) (h : ∀ s a, CurOnly s (f s a)) (l : List α) (s : State) : CurOnly s (l.foldl f s) := by
  induction l generalizing s with
  | nil => exact CurOnly.refl s
  | cons x t ih => exact (h s x).trans (ih _)

theorem curOnly_access (s : State) (ix iy : Int) (dev : Nat) : CurOnly s (s.access ix iy dev) := by
  unfold State.access
  split
  · exact CurOnly.refl s
  · exact curOnly_setCur s _

theorem curOnly_countReads (s : State) (r : Int × Int × Int × Int) (dev : Nat) : CurOnly s (s.countReads r dev) :=
  curOnly_foldl _ (fun s _ => curOnly_access s _ _ _) _ s

end Sys2Proof.Machine

/-! # MAP_READ and EPOCH_WAIT

What State.mapRead does in each of its cases (R22, R23), and when EPOCH_WAIT ends (R27). -/

namespace Sys2Proof.Machine

theorem mapRead_of_check {s : State} {o : Op} {r : Res} (h : mapReadCheck o = some r) : s.mapRead o = s.finish o.id r := by
  simp only [State.mapRead, h]

theorem mapRead_of_gone {s : State} {o : Op} {r : Res} (hc : mapReadCheck o = none) (hv : s.viewFor o 40 = .error r) : s.mapRead o = s.finish o.id r := by
  simp only [State.mapRead, hc, hv]

/-- A read of tiles that the device owns counts its accesses and completes at once. -/
theorem mapRead_of_own {s : State} {o : Op} {v : MapView} (hc : mapReadCheck o = none) (hv : s.viewFor o 40 = .ok v) (hp : s.peersOf v o.rect = []) :
    s.mapRead o = (s.countReads o.rect s.self).mapReadDone o v := by
  obtain ⟨w, hw⟩ := curOnly_countReads s o.rect s.self
  have hp' : (s.countReads o.rect s.self).peersOf v o.rect = [] := by rw [hw]; exact hp
  simp only [State.mapRead, hc, hv, hp', List.isEmpty_nil, if_true]

section Done

variable {s : State} {o : Op} {v : MapView} (h : s.requestsOf o.id = [])
include h

/-- An image that fits into the buffer is written. -/
theorem mapReadDone_image (hw : o.u8 16 = 1) (hc : (s.readData o v).length ≤ o.u32 28) :
    s.mapReadDone o v = ((s.dropRequests o.id).writeMem (o.u64 32) (s.readData o v)).complete o.id (Res.ok (s.readData o v).length (s.readData o v).length) := by
  have e : (s.dropRequests o.id).readData o v = s.readData o v := rfl
  simp [State.mapReadDone, h, hw, e, Nat.not_lt.mpr hc]

/-- An image that does not fit is not written, and its length is the bound reached. -/
theorem mapReadDone_bound (hw : o.u8 16 = 1) (hc : o.u32 28 < (s.readData o v).length) :
    s.mapReadDone o v = (s.dropRequests o.id).complete o.id (Res.bound (0x80 + (s.readData o v).length * 2 ^ 32)) := by
  have e : (s.dropRequests o.id).readData o v = s.readData o v := rfl
  simp [State.mapReadDone, h, hw, e, hc]

/-- A list is written, cut to the buffer. -/
theorem mapReadDone_list (hw : o.u8 16 ≠ 1) {r : List Byte × Nat × Nat}
    (hr : r = listResult (o.epoch 40) (o.u8 16) (o.u32 28) (unpackTiles (recordSize (o.u8 16)) (rectArea o.rect) (s.readData o v))) :
    s.mapReadDone o v = ((s.dropRequests o.id).writeMem (o.u64 32) r.1).complete o.id
      { status := if r.2.1 < r.2.2 then St.okPartial else St.ok, count := r.1.length, detail := r.2.1 } := by
  have e : (s.dropRequests o.id).readData o v = s.readData o v := rfl
  subst hr
  simp only [State.mapReadDone, h, List.find?_nil, hw, if_false, e, List.flatMap_nil, List.append_nil]

end Done

section Reads

variable {s : State} {id w : Nat} {o : Op} {c : Instr}

/-- A MAP_READ whose check fails, or whose epoch is not held, ends with that outcome (R23, R225). -/
theorem mapRead_ends_early (hx : exec c s = s.runSub id 0x18 w fun o => s.mapRead o) (h : s.RunsSub id 0x18 w o) {r : Res}
    (hr : mapReadCheck o = some r ∨ mapReadCheck o = none ∧ s.viewFor o 40 = .error r) : ∃ t, exec c s = .next t ∧ JustEnded s t id r := by
  have hf : s.findOp id = some o := h.1.1
  have hm : s.mapRead o = s.finish id r := by
    rw [← findOp_id hf]
    rcases hr with hc | ⟨hc, hv⟩
    · exact mapRead_of_check hc
    · exact mapRead_of_gone hc hv
  exact ⟨s.mapRead o, hx.trans (runSub_of h _), hm ▸ justEnded_finish hf r⟩

/-- A MAP_READ of the device's own tiles: an image is written or does not fit, a list is written as far as it fits (R22, R23). -/
theorem mapRead_answers (hx : exec c s = s.runSub id 0x18 w fun o => s.mapRead o) (h : s.RunsSub id 0x18 w o) {v : MapView} (hc : mapReadCheck o = none)
    (hv : s.viewFor o 40 = .ok v) (hq : s.requestsOf id = []) (hp : s.peersOf v o.rect = []) :
    (w = 1 → (s.readData o v).length ≤ o.u32 28 →
      ∃ t, exec c s = .next t ∧ WroteAndEnded s t id (o.u64 32) (s.readData o v) (Res.ok (s.readData o v).length (s.readData o v).length)) ∧
    (w = 1 → o.u32 28 < (s.readData o v).length →
      ∃ t, exec c s = .next t ∧ t.Ended id St.boundReached 0 (0x80 + (s.readData o v).length * 2 ^ 32) ∧ t.mem = s.mem) ∧
    (w ≠ 1 → ∀ r, r = listResult (o.epoch 40) w (o.u32 28) (unpackTiles (recordSize w) (rectArea o.rect) (s.readData o v)) → ∃ t, exec c s = .next t ∧
      WroteAndEnded s t id (o.u64 32) r.1 { status := if r.2.1 < r.2.2 then St.okPartial else St.ok, count := r.1.length, detail := r.2.1 }) := by
  have hrun : exec c s = .next (s.mapRead o) := hx.trans (runSub_of h _)
  obtain ⟨⟨hf, hph, -, hd⟩, hw⟩ := h
  obtain rfl := findOp_id hf
  have hfin : o.phase ≠ .final := Op.ne_final_of_started hph
  obtain ⟨u, hu⟩ := curOnly_countReads s o.rect s.self
  rw [mapRead_of_own hc hv hp, hu] at hrun
  refine ⟨fun h1 hl => ⟨_, hrun, ?_⟩, fun h1 hl => ⟨_, hrun, ?_⟩, fun h1 r hr => ⟨_, hrun, ?_⟩⟩
  · rw [mapReadDone_image (s := s.setCur u) hq (hw.trans h1) hl]
    exact wroteAndEnded_complete (s' := (s.setCur u).dropRequests o.id) hf hfin hd rfl rfl rfl _ _ _
  · rw [mapReadDone_bound (s := s.setCur u) hq (hw.trans h1) hl]
    exact ⟨ended_complete (s' := (s.setCur u).dropRequests o.id) hf hfin hd rfl rfl _, by rw [complete_frame]; rfl⟩
  · subst hw
    rw [mapReadDone_list (s := s.setCur u) hq h1 hr]
    exact wroteAndEnded_complete (s' := (s.setCur u).dropRequests o.id) hf hfin hd rfl rfl rfl _ _ _

end Reads

/-- EPOCH_WAIT for an epoch that is published ends at once. -/
theorem epochWait_ends {s : State} {id : Nat} {o : Op} (h : s.Runs id 0x1A o) (hp : o.waitTarget ≤ s.map.published) :
    exec (.epochWait id) s = .next (s.finish id (Res.ok 0 s.map.published)) := by
  rw [exec, execEpochWait, runOp_of h, if_pos hp]

/-- EPOCH_WAIT for a later epoch waits. -/
theorem epochWait_waits {s : State} {id : Nat} {o : Op} (h : s.Runs id 0x1A o) (hp : s.map.published < o.waitTarget) :
    exec (.epochWait id) s = .next (s.await id) := by
  rw [exec, execEpochWait, runOp_of h, if_neg (by omega)]

/-- Settles O45: each WHAT is the same run of State.mapRead, whose cases the lemmas above give; EPOCH_WAIT has two cases. -/
theorem mapReadsAnswerFromEpoch : Obligations.MapReadsAnswerFromEpoch := by
  intro s id o
  refine ⟨?_, fun h => ⟨fun hp => ?_, fun hp => ?_⟩⟩
  · intro F
    have reads : ∀ w c, exec c s = s.runSub id 0x18 w (fun o => s.mapRead o) → F w c := fun w c hx h =>
      ⟨fun r hc => mapRead_ends_early hx h (.inl hc), fun r hc hv => mapRead_ends_early hx h (.inr ⟨hc, hv⟩),
        fun v hc hv hq hp => mapRead_answers hx h hc hv hq hp⟩
    exact ⟨reads 1 _ rfl, reads 2 _ rfl, reads 3 _ rfl, reads 4 _ rfl, reads 5 _ rfl⟩
  · exact ⟨_, epochWait_ends h hp, justEnded_finish h.1 _⟩
  · exact ⟨_, epochWait_waits h hp, by rw [findOp_await, h.1]; rfl, othersKept_await s id, rfl⟩

end Sys2Proof.Machine

/-! # MAP_EDIT on a lone device

What the edits of R25, R26 and R206 record on a device that is alone in its view and holds one tile without a mirror or a handover: no change is
streamed, and nothing is waited for, so an edit changes the map in the epoch being filled and completes. -/

namespace Sys2Proof.Machine

/-! ## Tiles of a view -/

/-- A tile that is written is the tile at its coordinate. -/
@[simp] theorem tile_setTile (v : MapView) (t : Tile) : (v.setTile t).tile t.ix t.iy = some t := by
  unfold MapView.tile MapView.setTile
  dsimp only
  induction v.tiles with
  | nil => simp [putTile]
  | cons x r ih =>
    unfold putTile
    split
    · simp
    · next hne =>
      split
      · simp
      · rw [List.find?_cons_of_neg (by simpa using hne), ih]

theorem tile_of_single {v : MapView} {T : Tile} (h : v.tiles = [T]) : v.tile T.ix T.iy = some T := by
  simp [MapView.tile, h]

theorem setTile_of_single {v : MapView} {T U : Tile} (h : v.tiles = [T]) (hx : T.ix = U.ix) (hy : T.iy = U.iy) : (v.setTile U).tiles = [U] := by
  simp [MapView.setTile, h, putTile, hx, hy]

theorem curTile_of_tile {s : State} {ix iy : Int} {T : Tile} (h : s.map.cur.tile ix iy = some T) : s.curTile ix iy = T := by
  simp [State.curTile, h]

theorem ownerOf_of_tile {v : MapView} {ix iy : Int} {T : Tile} (h : v.tile ix iy = some T) : v.ownerOf ix iy = T.owner := by
  simp [MapView.ownerOf, h]

/-! ## Recording without a mirror -/

/-- A tile without a mirror or a handover is streamed to nobody (R395, R310). -/
theorem streamTo_of_plain {t : Tile} (hm : t.mirror = none) (hh : t.handover = none) : t.streamTo = [] := by
  simp [Tile.streamTo, hm, hh]

theorem record_of_plain (s : State) {t : Tile} (hm : t.mirror = none) (hh : t.handover = none) : s.record t = s.setCur (s.map.cur.setTile t) := by
  have hcur : (s.setCur (s.map.cur.setTile t)).curTile t.ix t.iy = t := curTile_of_tile (tile_setTile _ _)
  rw [State.record, State.stream, hcur, streamTo_of_plain hm hh]
  rfl

/-- An access to a recorded tile changes what is counted of it alone. -/
theorem access_of_tile {s : State} {ix iy : Int} {T : Tile} (h : s.map.cur.tile ix iy = some T) (dev : Nat) :
    ∃ acc, s.access ix iy dev = s.setCur (s.map.cur.setTile { T with accesses := acc }) := by
  unfold State.access
  rw [h]
  exact ⟨_, rfl⟩

/-- Without streams there is nothing to acknowledge: the operation completes (R411). -/
theorem finishAcked_of_no_stream {s : State} (h : s.fabric.outStreams = []) (old : State) (id : Nat) (r : Res) : s.finishAcked old id r = s.complete id r := by
  simp [State.finishAcked, State.ackNeeds, h]

/-! ## An edit from its owner's part -/

section Lone

variable {s : State} {id : Nat} {o : Op} {c : Instr} {data : List Byte} {u : MapView} {U : Tile} {r : Res}

/-- An edit that every member records, on a lone device: its own part is all of it (R24). -/
theorem editAll_lone (ha : s.Alone) (he : s.applyEdit o data = (s.setCur u, r)) : s.editAll o data = (s.setCur u).complete o.id r := by
  obtain ⟨hothers, hiso, hout⟩ := ha
  have hfin : (s.setCur u).finishAcked s o.id r = (s.setCur u).complete o.id r :=
    finishAcked_of_no_stream (s := s.setCur u) hout _ _ _
  simp only [State.editAll, State.canCommit, hiso, Bool.not_false, Bool.not_true, Bool.false_eq_true, if_false, hothers, List.isEmpty_nil, if_true, he, hfin]

/-- An edit of a tile that the device owns, on a lone device: the owner's part, and an access to the tile (R24, R308). -/
theorem editTile_lone (ha : s.Alone) (hown : s.map.cur.ownerOf (o.i16 20) (o.i16 22) = s.self) (he : s.applyEdit o data = (s.setCur u, r))
    (hu : u.tile (o.i16 20) (o.i16 22) = some U) : ∃ acc, s.editTile o data = (s.setCur (u.setTile { U with accesses := acc })).complete o.id r := by
  obtain ⟨-, hiso, hout⟩ := ha
  obtain ⟨acc, hacc⟩ := access_of_tile (s := s.setCur u) hu s.self
  have hfin : ((s.setCur u).access (o.i16 20) (o.i16 22) s.self).finishAcked s o.id r = (s.setCur (u.setTile { U with accesses := acc })).complete o.id r := by
    rw [hacc]
    exact finishAcked_of_no_stream (s := s.setCur (u.setTile { U with accesses := acc })) hout _ _ _
  exact ⟨acc, by simp only [State.editTile, State.canCommit, hiso, Bool.not_false, Bool.not_true, Bool.false_eq_true, if_false, hown, if_true, he, hfin]⟩

/-- The end of an operation whose effect was on the map being filled. -/
theorem edit_ends (h : s.Runs id 0x19 o) (hx : exec c s = .next ((s.setCur u).complete o.id r)) :
    ∃ t, exec c s = .next t ∧ t.map.cur = u ∧ t.Ended id r.status r.count r.detail := by
  obtain ⟨hf, hph, -, hd⟩ := h
  obtain rfl := findOp_id hf
  refine ⟨_, hx, ?_, ended_complete (s' := s.setCur u) hf (Op.ne_final_of_started hph) hd rfl rfl r⟩
  rw [complete_frame]
  rfl

/-- An edit of one tile on a lone device ends with the outcome of the owner's part, and the tile is as that part left it but for its accesses. -/
theorem editTile_ends (h : s.Runs id 0x19 o) (ha : s.Alone) (hx : exec c s = .next (s.editTile o data)) (he : s.applyEdit o data = (s.setCur (u.setTile U), r))
    (hix : o.i16 20 = U.ix) (hiy : o.i16 22 = U.iy) (hown : s.map.cur.ownerOf U.ix U.iy = s.self) :
    ∃ t acc, exec c s = .next t ∧ t.map.cur.tile U.ix U.iy = some { U with accesses := acc } ∧ t.Ended id r.status r.count r.detail := by
  obtain ⟨acc, hacc⟩ := editTile_lone ha (by rw [hix, hiy]; exact hown) he (by rw [hix, hiy]; exact tile_setTile u U)
  obtain ⟨t, ht, hcur, hend⟩ := edit_ends h (hx.trans (by rw [hacc]))
  exact ⟨t, acc, ht, by rw [hcur]; exact tile_setTile (u.setTile U) { U with accesses := acc }, hend⟩

end Lone

/-! ## The owner's part of each edit, on a tile without a mirror -/

section Apply

variable {s : State} {o : Op} {T : Tile} (ht : s.map.cur.tile (o.i16 20) (o.i16 22) = some T) (hm : T.mirror = none) (hh : T.handover = none)
include ht hm hh

theorem applyPose_of_plain (hb : s.editBar (o.i16 20) (o.i16 22) (o.u64 24) = none) (data : List Byte) :
    s.applyPose o data = (s.setCur (s.map.cur.setTile { T with keyframes := updFirst (fun k => k.key = o.u64 24) (fun k => s.moved k (poseOfBytes data)) T.keyframes }),
      Res.ok (b2n (T.keyframe (o.u64 24)).isSome) s.nextEpoch) := by
  simp only [State.applyPose, hb, curTile_of_tile ht, record_of_plain, hm, hh]

theorem applyLinkAdd_of_plain (hb : s.editBar (o.i16 20) (o.i16 22) (o.u64 24) = none) (hk : (T.keyframe (o.u64 24)).isSome = true) (data : List Byte) :
    s.applyLinkAdd o data = (s.setCur (s.map.cur.setTile { T with links := putLink (linkOf data) T.links }), Res.ok 1 s.nextEpoch) := by
  have hk' : (T.keyframe (o.u64 24)).isNone = false := by simpa [Option.isNone_iff_eq_none, Option.isSome_iff_ne_none] using hk
  simp only [State.applyLinkAdd, hb, curTile_of_tile ht, hk', Bool.false_eq_true, if_false, record_of_plain, hm, hh]

theorem applyLinkDelete_of_plain {p : Link → Bool} (hp : p = fun l => decide (l.keyA = o.u64 24 ∧ l.keyB = o.u64 32)) {l : Link} (hl : l ∈ T.links)
    (hpl : p l = true) (hlatest : (s.map.latest.tile (o.i16 20) (o.i16 22)).any (fun u => u.links.any p) = true) :
    s.applyLinkDelete o = (s.setCur (s.map.cur.setTile { T with links := T.links.filter fun l => !p l }), Res.ok 1 s.nextEpoch) := by
  have hp' : ∀ l : Link, (decide (l.keyA = o.u64 24) && decide (l.keyB = o.u64 32)) = p l := fun l => by rw [hp]; exact (Bool.decide_and _ _).symm
  have hold : ((s.map.latest.tile (o.i16 20) (o.i16 22)).map fun t => t.links.any p).getD false = true := by
    rw [← hlatest]
    cases s.map.latest.tile (o.i16 20) (o.i16 22) <;> rfl
  have hany : T.links.any p = true := List.any_eq_true.mpr ⟨l, hl, hpl⟩
  simp only [State.applyLinkDelete, hp', hold, curTile_of_tile ht, hh, hany, Option.isSome_none, Bool.not_true, Bool.false_eq_true, if_false, record_of_plain, hm]
  rfl

/-- A restore into an empty tile: the image's objects, each keyframe one version on, and its index entries (R25). -/
theorem applyRestore_of_plain (hk : T.keyframes = []) (hl : T.links = []) (hp : T.points = []) (hb : T.obs = []) {data : List Byte} {img : Tile}
    {secs : List (Nat × Nat × List Entry)} (himg : parseImage data (o.u32 32) s.tileSize (o.i16 20) (o.i16 22) = some (img, secs))
    (hsecs : ∀ x ∈ secs, ((s.map.cur.index x.1).any fun y => y.m = x.2.1) = true)
    (hroom : s.map.cur.inletUsed + (secs.map fun x => x.2.2.length).sum ≤ 4194304) :
    ∃ (v : MapView) (n : Nat), s.applyRestore o data = (s.setCur (v.setTile { T with
        keyframes := (img.keyframes.map fun k => { k with version := (k.version + 1) % 2 ^ 32 }).foldl (fun l k => putKeyframe k l) []
        links := img.links.foldl (fun l x => putLink x l) []
        points := img.points.mergeSort fun a b => decide (a.number ≤ b.number)
        obs := img.obs.foldl (fun l x => putObs x l) []
        nextPoint := n }),
      Res.ok (img.keyframes.length + img.links.length + img.points.length + img.obs.length + (secs.map fun x => x.2.2.length).sum) s.nextEpoch) := by
  have hfind : (secs.find? fun x => !(s.map.cur.index x.1).any fun y => y.m = x.2.1) = none :=
    List.find?_eq_none.mpr fun x hx => by rw [hsecs x hx]; decide
  simp only [State.applyRestore, himg, curTile_of_tile ht, hk, hl, hp, hb, hh, hfind, List.isEmpty_nil, Option.isSome_none, Bool.and_self, Bool.not_true,
    Bool.false_and, Bool.false_eq_true, if_false, Nat.not_lt.mpr hroom, record_of_plain, hm]
  exact ⟨_, _, rfl⟩

end Apply

/-- A keyframe leaves the one tile of the device, with what refers to it (R26). -/
theorem purge_of_single {s : State} {T : Tile} (ht : s.map.cur.tiles = [T]) (hown : T.owner = s.self) (hm : T.mirror = none) (hh : T.handover = none) (key : Nat)
    (removed : List Observation) : ∃ v n U, s.purge key removed = (s.setCur v, n) ∧ v.tiles = [U] ∧ U.ix = T.ix ∧ U.iy = T.iy ∧
      U.keyframes = T.keyframes.filter (fun k => k.key ≠ key) ∧ U.links = T.links.filter (fun l => l.keyA ≠ key ∧ l.keyB ≠ key) ∧
      U.obs = T.obs.filter (fun b => b.key ≠ key) := by
  have hfilter : (s.map.cur.tiles.filter fun t => t.owner = s.self) = [T] := by simp [ht, hown]
  unfold State.purge
  rw [hfilter, List.foldl_cons, List.foldl_nil]
  extract_lets U
  have hU : U.ix = T.ix ∧ U.iy = T.iy ∧ U.keyframes = T.keyframes.filter (fun k => k.key ≠ key) ∧
    U.links = T.links.filter (fun l => l.keyA ≠ key ∧ l.keyB ≠ key) ∧ U.obs = T.obs.filter (fun b => b.key ≠ key) := ⟨rfl, rfl, rfl, rfl, rfl⟩
  split
  · next hsame => exact ⟨s.map.cur, 0, U, rfl, by rw [ht, hsame], hU⟩
  · exact ⟨_, _, U, by rw [record_of_plain s (t := U) hm hh], setTile_of_single ht rfl rfl, hU⟩

/-- KEYFRAME_DELETE on the one tile of the device. -/
theorem applyDelete_of_single {s : State} {o : Op} {T : Tile} (ht : s.map.cur.tiles = [T]) (hown : T.owner = s.self) (hm : T.mirror = none)
    (hh : T.handover = none) (hb : s.editBar (o.i16 20) (o.i16 22) (o.u64 24) = none) (data : List Byte) :
    ∃ v n U, s.applyDelete o data = (s.setCur v, Res.ok n s.nextEpoch) ∧ v.tiles = [U] ∧ U.ix = T.ix ∧ U.iy = T.iy ∧
      U.keyframes = T.keyframes.filter (fun k => k.key ≠ o.u64 24) ∧ U.links = T.links.filter (fun l => l.keyA ≠ o.u64 24 ∧ l.keyB ≠ o.u64 24) ∧
      U.obs = T.obs.filter (fun b => b.key ≠ o.u64 24) := by
  unfold State.applyDelete
  extract_lets ix iy key mark r
  obtain ⟨v, n, U, hpurge, hU⟩ := purge_of_single (s := s.setCur (s.map.cur.updIndex 1 mark)) ht hown hm hh key ((cut 24 (data.length / 24) data).map observationOf)
  refine ⟨v, n, U, ?_, hU⟩
  have hbar : (if s.ownsIn s.map.cur ix iy then s.editBar ix iy key else none) = none := by rw [hb, ite_self]
  simp only [hbar]
  rw [show r = (s.setCur v, n) from hpurge]

/-- What QUARANTINE or RELEASE makes of a tile's keyframes, of which some are named (R205). -/
def quarTile (keys : List Nat) (on : Bool) (T : Tile) : Tile :=
  { T with keyframes := T.keyframes.map fun k => if keys.contains k.key then { k with quarantined := on } else k }

/-- QUARANTINE and RELEASE on the one tile of the device. -/
theorem applyQuarantine_of_single {s : State} {T : Tile} (ht : s.map.cur.tiles = [T]) (hown : T.owner = s.self) (hm : T.mirror = none) (hh : T.handover = none)
    (o : Op) (data : List Byte) (on : Bool) : ∃ v n U, s.applyQuarantine o data on = (s.setCur v, Res.ok n s.nextEpoch) ∧ v.tiles = [U] ∧ U.ix = T.ix ∧ U.iy = T.iy ∧
      U.keyframes = (quarTile (s.quarKeys o on) on T).keyframes := by
  have howned : s.owned = [T] := by simp [State.owned, ht, hown]
  unfold State.applyQuarantine
  extract_lets hit keys all own n mark rest cur s1 s2
  have hs2 : ∃ v, s2 = s.setCur v ∧ ∃ U, v.tiles = [U] ∧ U.ix = T.ix ∧ U.iy = T.iy ∧ U.keyframes = (quarTile keys on T).keyframes := by
    simp only [s2, own, howned, List.foldl_cons, List.foldl_nil]
    split
    · exact ⟨_, record_of_plain s1 (t := quarTile keys on T) hm hh, quarTile keys on T, setTile_of_single (v := s1.map.cur) ht rfl rfl, rfl, rfl, rfl⟩
    · next hnone =>
      refine ⟨s1.map.cur, rfl, T, ht, rfl, rfl, ?_⟩
      have hkeep : ∀ k ∈ T.keyframes, (if keys.contains k.key then { k with quarantined := on } else k) = k := fun k hk =>
        if_neg fun hin => hnone (List.any_eq_true.mpr ⟨k, hk, hin⟩)
      exact ((List.map_congr_left hkeep).trans (List.map_id' _)).symm
  obtain ⟨v, hv, U, hU⟩ := hs2
  exact ⟨v, n, U, by rw [hv]; rfl, hU⟩

/-- The keyframes keep their keys. -/
theorem keys_quarTile (keys : List Nat) (on : Bool) (T : Tile) : (quarTile keys on T).keyframes.map (·.key) = T.keyframes.map (·.key) := by
  simp only [quarTile, List.map_map]
  refine List.map_congr_left fun k _ => ?_
  dsimp only [Function.comp]
  split <;> rfl

/-- The keyframes of the session captured in the window are quarantined or released (R205, R206). -/
theorem quarantined_of_window {s : State} {T : Tile} (hT : T ∈ s.owned) (o : Op) (on : Bool) {k : Keyframe}
    (hk : k ∈ (quarTile (s.quarKeys o on) on T).keyframes) (hses : k.key / 2 ^ 32 = o.handle) (hlo : o.u64 20 ≤ k.capture) (hhi : k.capture ≤ o.u64 28) :
    k.quarantined = on := by
  obtain ⟨k', hk', rfl⟩ := List.mem_map.mp hk
  by_cases hin : (s.quarKeys o on).contains k'.key = true
  · rw [if_pos hin]
  · rw [if_neg hin] at hses hlo hhi ⊢
    by_contra hne
    refine hin (List.contains_iff_mem.mpr (List.mem_map.mpr ⟨k', List.mem_flatMap.mpr ⟨T, hT, List.mem_filter.mpr ⟨hk', ?_⟩⟩, rfl⟩))
    rw [hses]
    simp [hlo, hhi, hne]

/-! ## The edits as commands -/

/-- The owner's part that an EDIT names (R24). -/
theorem applyEdit_eq (s : State) (o : Op) (data : List Byte) :
    (o.u8 16 = 0x01 → s.applyEdit o data = s.applyRestore o data) ∧ (o.u8 16 = 0x02 → s.applyEdit o data = s.applyDelete o data) ∧
    (o.u8 16 = 0x03 → s.applyEdit o data = s.applyPose o data) ∧ (o.u8 16 = 0x04 → s.applyEdit o data = s.applyLinkAdd o data) ∧
    (o.u8 16 = 0x05 → s.applyEdit o data = s.applyLinkDelete o) ∧ (o.u8 16 = 0x10 → s.applyEdit o data = s.applyQuarantine o data true) ∧
    (o.u8 16 = 0x11 → s.applyEdit o data = s.applyQuarantine o data false) := by
  unfold State.applyEdit
  refine ⟨?_, ?_, ?_, ?_, ?_, ?_, ?_⟩ <;> (intro h; simp only [h])

section Commands

variable {s : State} {id : Nat} {o : Op}

theorem exec_tileRestore (h : s.RunsSub id 0x19 0x01 o) (hfn : o.fn = 0) (hb : bits (o.u8 17) 7 1 = 0) :
    exec (.tileRestore id) s = .next (s.editTile o (s.readMem (o.u64 24) (o.u64 32))) := by
  rw [exec, execTileRestore, runSub_of h]
  simp [firstRes, pf0Only, hfn, hb]

theorem exec_keyframeDelete (h : s.RunsSub id 0x19 0x02 o) (hfn : o.fn = 0) (hz : o.u64 32 = 0) (hown : s.ownsIn s.map.cur (o.i16 20) (o.i16 22) = true) :
    exec (.keyframeDelete id) s = .next ((s.access (o.i16 20) (o.i16 22) s.self).editAll o (s.deleteData o)) := by
  rw [exec, execKeyframeDelete, runSub_of h]
  simp [firstRes, pf0Only, need, hfn, hz, hown]

theorem exec_keyframePose (h : s.RunsSub id 0x19 0x03 o) (hfn : o.fn = 0) (hp : poseOk (s.readMem (o.u64 32) 36) = true) :
    exec (.keyframePose id) s = .next (s.editTile o (s.readMem (o.u64 32) 36)) := by
  rw [exec, execKeyframePose, runSub_of h]
  simp [firstRes, pf0Only, need, hfn, hp]

theorem exec_linkAdd (h : s.RunsSub id 0x19 0x04 o) (hfn : o.fn = 0) (h16 : fld (s.readMem (o.u64 32) 144) 16 1 = 1)
    (h0 : fld (s.readMem (o.u64 32) 144) 0 8 = o.u64 24) (hq : F32.unitQuat (wflds (s.readMem (o.u64 32) 144) 40 4) = true) :
    exec (.linkAdd id) s = .next (s.editTile o (s.readMem (o.u64 32) 144)) := by
  rw [exec, execLinkAdd, runSub_of h]
  simp [firstRes, pf0Only, need, hfn, h16, h0, hq]

theorem exec_linkDelete (h : s.RunsSub id 0x19 0x05 o) (hfn : o.fn = 0) : exec (.linkDelete id) s = .next (s.editTile o []) := by
  rw [exec, execLinkDelete, runSub_of h]
  simp [pf0Only, hfn]

/-- PF0 may quarantine and release in any session (R205). -/
theorem quarCheck_of_pf0 (hfn : o.fn = 0) (hw : o.u64 20 ≤ o.u64 28) : s.quarCheck o = none := by
  simp [State.quarCheck, firstRes, need, hfn, hw]

theorem exec_quarantine (h : s.RunsSub id 0x19 0x10 o) (hfn : o.fn = 0) (hw : o.u64 20 ≤ o.u64 28) : exec (.quarantine id) s = .next (s.editAll o []) := by
  rw [exec, execQuarantine, runSub_of h]
  simp only [quarCheck_of_pf0 hfn hw]

theorem exec_release (h : s.RunsSub id 0x19 0x11 o) (hfn : o.fn = 0) (hw : o.u64 20 ≤ o.u64 28) : exec (.release id) s = .next (s.editAll o []) := by
  rw [exec, execRelease, runSub_of h]
  simp only [quarCheck_of_pf0 hfn hw]

end Commands

/-- QUARANTINE and RELEASE on a lone device with one tile: the keyframes stay, those of the window take the mark (R205, R206). -/
theorem quarantine_ends {s : State} {id sub : Nat} {o : Op} {c : Instr} {T : Tile} {on : Bool} (h : s.RunsSub id 0x19 sub o) (ha : s.Alone)
    (ht : s.map.cur.tiles = [T]) (hown : T.owner = s.self) (hm : T.mirror = none) (hh : T.handover = none)
    (hx : exec c s = .next (s.editAll o [])) (he : s.applyEdit o [] = s.applyQuarantine o [] on) :
    ∃ t U n, exec c s = .next t ∧ t.map.cur.tile T.ix T.iy = some U ∧ U.keyframes.map (·.key) = T.keyframes.map (·.key) ∧
      (∀ k ∈ U.keyframes, k.key / 2 ^ 32 = o.handle → o.u64 20 ≤ k.capture → k.capture ≤ o.u64 28 → k.quarantined = on) ∧ t.Ended id St.ok n s.nextEpoch := by
  obtain ⟨v, n, U, hq, hv, hix, hiy, hkfs⟩ := applyQuarantine_of_single ht hown hm hh o [] on
  obtain ⟨t, hnext, hcur, hend⟩ := edit_ends h.1 (hx.trans (by rw [editAll_lone ha (he.trans hq)]))
  have hT : T ∈ s.owned := by simp [State.owned, ht, hown]
  refine ⟨t, U, n, hnext, ?_, ?_, ?_, hend⟩
  · rw [hcur, ← hix, ← hiy]
    exact tile_of_single hv
  · rw [hkfs]
    exact keys_quarTile _ on T
  · rw [hkfs]
    exact fun k hk => quarantined_of_window hT o on hk

/-- KEYFRAME_DELETE on a lone device with one tile: the keyframe leaves it, with what refers to it (R26). -/
theorem keyframeDelete_ends {s : State} {id : Nat} {o : Op} {T : Tile} (h : s.RunsSub id 0x19 0x02 o) (hfn : o.fn = 0) (ha : s.Alone)
    (ht : s.map.cur.tiles = [T]) (hown : T.owner = s.self) (hm : T.mirror = none) (hh : T.handover = none) (hix : o.i16 20 = T.ix) (hiy : o.i16 22 = T.iy)
    (hz : o.u64 32 = 0) (hb : s.editBar T.ix T.iy (o.u64 24) = none) :
    ∃ t U n, exec (.keyframeDelete id) s = .next t ∧ t.map.cur.tile T.ix T.iy = some U ∧ U.keyframes = T.keyframes.filter (fun k => k.key ≠ o.u64 24) ∧
      U.links = T.links.filter (fun l => l.keyA ≠ o.u64 24 ∧ l.keyB ≠ o.u64 24) ∧ U.obs = T.obs.filter (fun b => b.key ≠ o.u64 24) ∧ t.Ended id St.ok n s.nextEpoch := by
  have htile : s.map.cur.tile T.ix T.iy = some T := tile_of_single ht
  have howns : s.ownsIn s.map.cur (o.i16 20) (o.i16 22) = true := by
    rw [hix, hiy, State.ownsIn, ownerOf_of_tile htile, hown]
    exact decide_eq_true rfl
  obtain ⟨acc, hacc⟩ := access_of_tile htile s.self
  have hx := exec_keyframeDelete h hfn hz howns
  rw [hix, hiy, hacc] at hx
  -- the tile with the access counted has the same objects and parties
  have ht' : (s.map.cur.setTile { T with accesses := acc }).tiles = [{ T with accesses := acc }] := setTile_of_single ht rfl rfl
  have hbar : (s.setCur (s.map.cur.setTile { T with accesses := acc })).editBar (o.i16 20) (o.i16 22) (o.u64 24) = none := by
    have hcur : (s.setCur (s.map.cur.setTile { T with accesses := acc })).curTile T.ix T.iy = { T with accesses := acc } :=
      curTile_of_tile (tile_setTile s.map.cur { T with accesses := acc })
    rw [State.editBar, curTile_of_tile htile] at hb
    rw [hix, hiy, State.editBar, hcur]
    exact hb
  obtain ⟨v, n, U, hdel, hv, hux, huy, hU⟩ :=
    applyDelete_of_single (s := s.setCur (s.map.cur.setTile { T with accesses := acc })) ht' hown hm hh hbar (s.deleteData o)
  obtain ⟨-, hedit, -⟩ := applyEdit_eq (s.setCur (s.map.cur.setTile { T with accesses := acc })) o (s.deleteData o)
  have hall := editAll_lone (s := s.setCur (s.map.cur.setTile { T with accesses := acc })) ha ((hedit h.2).trans hdel)
  obtain ⟨t, hnext, hcur, hend⟩ := edit_ends (u := v) h.1 (hx.trans (congrArg _ hall))
  obtain ⟨hkfs, hlinks, hobs⟩ := hU
  refine ⟨t, U, n, hnext, ?_, hkfs, hlinks, hobs, hend⟩
  rw [hcur]
  exact hux ▸ huy ▸ tile_of_single hv

/-- Settles O46: on a lone device an edit is its owner's part, and each part is given by its lemma above. -/
theorem mapEditsChangeTheirTile : Obligations.MapEditsChangeTheirTile := by
  intro s id o T ha ht hown hm hh hfn
  have htile : s.map.cur.tile T.ix T.iy = some T := tile_of_single ht
  have howner : s.map.cur.ownerOf T.ix T.iy = s.self := (ownerOf_of_tile htile).trans hown
  have hedit := applyEdit_eq s o
  refine ⟨fun hix hiy => ?_, ?_⟩
  · have htile' : s.map.cur.tile (o.i16 20) (o.i16 22) = some T := by rw [hix, hiy]; exact htile
    have hbar : ∀ {key}, s.editBar T.ix T.iy key = none → s.editBar (o.i16 20) (o.i16 22) key = none := fun hb => by rw [hix, hiy]; exact hb
    refine ⟨fun h hb hk hl hp hobs img secs himg hsecs hroom => ?_, fun h hz hb => keyframeDelete_ends h hfn ha ht hown hm hh hix hiy hz hb, fun h hp hb => ?_,
      fun b h hdef h16 h0 hq hb hk => ?_, fun l p h hp hl hpl hlatest => ?_⟩
    · obtain ⟨v, n, he⟩ := applyRestore_of_plain htile' hm hh hk hl hp hobs (by rw [hix, hiy]; exact himg) hsecs hroom
      obtain ⟨hrestore, -⟩ := hedit (s.readMem (o.u64 24) (o.u64 32))
      obtain ⟨t, acc, hx, hU, hend⟩ := editTile_ends h.1 ha (exec_tileRestore h hfn hb) ((hrestore h.2).trans he) hix hiy howner
      exact ⟨t, _, hx, hU, rfl, rfl, rfl, rfl, hend⟩
    · obtain ⟨-, -, hpose, -⟩ := hedit (s.readMem (o.u64 32) 36)
      have he := (hpose h.2).trans (applyPose_of_plain htile' hm hh (hbar hb) _)
      obtain ⟨t, acc, hx, hU, hend⟩ := editTile_ends h.1 ha (exec_keyframePose h hfn hp) he hix hiy howner
      exact ⟨t, _, hx, hU, rfl, rfl, hend⟩
    · subst hdef
      obtain ⟨-, -, -, hadd, -⟩ := hedit (s.readMem (o.u64 32) 144)
      have he := (hadd h.2).trans (applyLinkAdd_of_plain htile' hm hh (hbar hb) hk _)
      obtain ⟨t, acc, hx, hU, hend⟩ := editTile_ends h.1 ha (exec_linkAdd h hfn h16 h0 hq) he hix hiy howner
      exact ⟨t, _, hx, hU, rfl, rfl, hend⟩
    · obtain ⟨-, -, -, -, hdelete, -⟩ := hedit []
      have he := (hdelete h.2).trans (applyLinkDelete_of_plain htile' hm hh hp hl hpl (by rw [hix, hiy]; exact hlatest))
      obtain ⟨t, acc, hx, hU, hend⟩ := editTile_ends h.1 ha (exec_linkDelete h hfn) he hix hiy howner
      exact ⟨t, _, hx, hU, rfl, rfl, hend⟩
  · obtain ⟨-, -, -, -, -, hon, hoff⟩ := hedit []
    refine ⟨fun h hw => ?_, fun h hw => ?_⟩
    · exact quarantine_ends h ha ht hown hm hh (exec_quarantine h hfn hw) (hon h.2)
    · exact quarantine_ends h ha ht hown hm hh (exec_release h hfn hw) (hoff h.2)

end Sys2Proof.Machine

/-! # A read that another member asks for

An owner serves a MAP_READ of another member at the epoch that the message names, its first 8 bytes (R29, R101, log entry 40). The EPOCH field of the
descriptor says the same epoch in a request that a device of R22 makes, but nothing makes the two agree in a message that arrives. -/

namespace Sys2Proof.Machine

/-- The first segment of a message with all of its data: the assembly is whole. -/
theorem join_whole {r : RemoteSt} {n : Nat} {d : List Byte} (hsegs : r.segs = []) (hbad : r.bad = false) (hn : d.length ≤ n) :
    r.join n 0 d.length d = ({ r with total := d.length, segs := [(0, d)] }, false) := by
  simp [RemoteSt.join, hsegs, hbad, hn]

/-- A request that arrives whole in one segment is carried out at once (R388). -/
theorem exec_remoteReq_whole {s : State} {m : RemoteReqMsg} (hrun : s.running = true) (hsrc : m.src ∈ s.others) (hnew : ∀ r ∈ s.sound.responses, r.peer ≠ m.src)
    (h0 : m.offset = 0) (htotal : m.total = m.data.length) (hlen : m.data.length ≤ 65448) :
    exec (.remoteReq m) s = .next ((s.taken (s.portOf m.src) (fld m.desc 2 1 % 8) (72 + m.data.length)).serve m.src m.xid m.desc m.data) := by
  have hfind : (s.sound.responses.find? fun r => r.peer = m.src && r.xid = m.xid) = none :=
    List.find?_eq_none.mpr fun r hr => by simp [hnew r hr]
  have hrest : (s.sound.responses.filter fun r => !(r.peer = m.src && r.xid = m.xid)) = s.sound.responses :=
    List.filter_eq_self.mpr fun r hr => by simp [hnew r hr]
  rw [exec]
  unfold execRemoteReq
  extract_lets u is old j rest sound
  have hrun' : u.running = true := hrun
  have hsrc' : m.src ∈ u.others := hsrc
  have hj : j = ({ xid := m.xid, peer := m.src, desc := m.desc, total := m.data.length, segs := [(0, m.data)] }, false) := by
    have hold : old = { xid := m.xid, peer := m.src, desc := m.desc } := by
      have hfind' : u.sound.responses.find? is = none := hfind
      simp only [old, hfind', Option.getD_none]
    simp only [j, hold, h0, htotal]
    exact join_whole rfl rfl hlen
  have hdata : j.1.data = m.data := by simp [hj, RemoteSt.data]
  have hfull : j.1.full = true := by simp [hj, RemoteSt.full]
  have hsame : ({ u with sound := { u.sound with responses := rest } } : State) = u :=
    congrArg (fun l => ({ u with sound := { u.sound with responses := l } } : State)) hrest
  rw [if_neg (by simp [hrun', hsrc']), if_neg (by simp [hj]), if_pos hfull, hsame, hdata, hj]

/-- Member 0 of a view of two, which has published epoch 1 and holds no other; its neighbour is member 1. -/
def epochOneOwner : State :=
  { State.reset with
    power := { State.reset.power with boot := .running, options := { State.reset.power.options with dimX := 2 } }
    fabric := { State.reset.fabric with
      members := 3, coordValid := true
      ports := [{ up := true, agreed := true, neighbour := 1, neighbourKnown := true, coord := some 16, lanes := 31 }, {}, {}, {}, {}, {}] }
    map := { State.reset.map with published := 1, held := [(1, {})] } }

/-- The descriptor of a MAP_READ of the image of tile (0, 0) at epoch 1. -/
def imageAtOne : List Byte := [0x18] ++ zeros 15 ++ [1] ++ zeros 23 ++ leBytes 1 8 ++ zeros 16

/-- The request of member 1 for that read, with epoch 0 in the message. -/
def requestAtZero : RemoteReqMsg := { xid := 5, src := 1, offset := 0, total := 8, desc := imageAtOne, data := zeros 8 }

/-- Epoch 0 is gone at the owner (R225): its whole answer is one segment without data. -/
theorem exec_requestAtZero : ∃ t, exec (.remoteReq requestAtZero) epochOneOwner = .next t ∧ (t.out.fzl.map fun f => f.body.drop 32) = [[]] :=
  ⟨_, exec_remoteReq_whole (by decide) (by decide) (by decide) rfl rfl (by decide), by decide⟩

/-- The image at the epoch that the descriptor gives has bytes. -/
theorem image_of_epochOneOwner_ne_nil : epochOneOwner.readData { desc := imageAtOne } {} ≠ [] := by decide

/-- Refutes O50: the data promised is that of the epoch in the descriptor's EPOCH field where it is not 0, while the owner serves the epoch that the
message names. A request whose message names epoch 0, which is gone, and whose descriptor gives epoch 1, which is held, is answered without data. -/
theorem not_remoteRequestsAreServed : ¬ Obligations.RemoteRequestsAreServed := by
  intro h
  obtain ⟨hrequests, -⟩ := h epochOneOwner
  obtain ⟨-, hread⟩ := hrequests requestAtZero (by decide) (by decide) (by decide)
  obtain ⟨t, l, ht, hout, -, -, hdata⟩ :=
    hread { desc := imageAtOne } {} rfl rfl rfl rfl (by decide) (by decide) (by decide) rfl (by decide)
  obtain ⟨t', ht', hanswer⟩ := exec_requestAtZero
  obtain rfl : t' = t := Host.Outcome.next.inj (ht'.symm.trans ht)
  rw [hout.trans (List.append_nil l)] at hanswer
  refine image_of_epochOneOwner_ne_nil ?_
  rw [← hdata, List.map_reverse, hanswer]
  rfl

end Sys2Proof.Machine

/-! # What keeps the published epochs

What the steps of a publication after the epoch is published, and the changes of several members that come due at a boundary, leave as it was: one
lemma for each operation. Only State.complete ends an operation there; every other operation leaves the operations and the time alone too. -/

namespace Sys2Proof.Machine

/-- The views held, the last epoch published, whether a change is sealed, the barrier, and the members it waits for (R225, R393). -/
def State.epochs (s : State) : List (Nat × MapView) × Nat × Bool × Option Nat × List Nat :=
  (s.map.held, s.map.published, s.map.sealedView.isNone, s.fabric.barrier, s.others)

/-- The same, with the operations in flight and the time. -/
def State.still (s : State) : Ops × Clock × List (Nat × MapView) × Nat × Bool × Option Nat × List Nat := (s.ops, s.clock, s.epochs)

theorem epochs_of_still {s t : State} (h : s.still = t.still) : s.epochs = t.epochs := congrArg (·.2.2) h
theorem ops_of_still {s t : State} (h : s.still = t.still) : s.ops = t.ops := congrArg (·.1) h
theorem clock_of_still {s t : State} (h : s.still = t.still) : s.clock = t.clock := congrArg (·.2.1) h

theorem foldl_still {α : Type} (f : State → α → State) (h : ∀ s a, (f s a).still = s.still) (l : List α) (s : State) : (l.foldl f s).still = s.still := by
  induction l generalizing s with
  | nil => rfl
  | cons x t ih => exact (ih _).trans (h s x)

theorem foldl_epochs {α : Type} (f : State → α → State) (h : ∀ s a, (f s a).epochs = s.epochs) (l : List α) (s : State) : (l.foldl f s).epochs = s.epochs := by
  induction l generalizing s with
  | nil => rfl
  | cons x t ih => exact (ih _).trans (h s x)

/-! ## Counters, messages and accesses -/

@[simp] theorem bumpBy_still (s : State) (i j n : Nat) : (s.bumpBy i j n).still = s.still := rfl
@[simp] theorem bump_still (s : State) (i : Nat) : (s.bump i).still = s.still := rfl
@[simp] theorem setCur_still (s : State) (v : MapView) : (s.setCur v).still = s.still := rfl
@[simp] theorem setStream_still (s : State) (x : Stream) : (s.setStream x).still = s.still := rfl
@[simp] theorem updTile_still (s : State) (ix iy : Int) (f : Tile → Tile) : (s.updTile ix iy f).still = s.still := rfl
@[simp] theorem unhold_still (s : State) (peer id : Nat) : (s.unhold peer id).still = s.still := rfl
@[simp] theorem evaluate_still (s : State) : s.evaluate.still = s.still := rfl
@[simp] theorem syncPool_still (s : State) : s.syncPool.still = s.still := rfl

@[simp] theorem log_still (s : State) (a b c d e f : Nat) : (s.log a b c d e f).still = s.still := by
  have h := tallyOnly_log s a b c d e f
  unfold TallyOnly at h
  rw [h]
  rfl

@[simp] theorem sendFz_still (s : State) (type cls dst xid : Nat) (body : List Byte) : (s.sendFz type cls dst xid body).still = s.still := by
  unfold State.sendFz
  split
  · split <;> rfl
  · rfl

@[simp] theorem sendResponse_still (s : State) (peer cls xid : Nat) (r : Res) (data : List Byte) : (s.sendResponse peer cls xid r data).still = s.still :=
  foldl_still _ (fun s _ => sendFz_still s _ _ _ _ _) _ s

theorem CurOnly.still {s t : State} (h : CurOnly s t) : t.still = s.still := by
  obtain ⟨v, rfl⟩ := h
  rfl

@[simp] theorem access_still (s : State) (ix iy : Int) (dev : Nat) : (s.access ix iy dev).still = s.still := (curOnly_access s ix iy dev).still

@[simp] theorem countReads_still (s : State) (r : Int × Int × Int × Int) (dev : Nat) : (s.countReads r dev).still = s.still :=
  (curOnly_countReads s r dev).still

@[simp] theorem countSearch_still (s : State) (f : Filters) (dev : Nat) : (s.countSearch f dev).still = s.still :=
  foldl_still _ (fun s _ => access_still s _ _ _) _ s

/-! ## Reads of other members -/

@[simp] theorem searchOwn_still (s : State) (v : MapView) (x : Index) (q : List Word) (par : SearchPar) (f : Filters) (table : List (List Nat)) :
    (s.searchOwn v x q par f table).1.still = s.still := by
  unfold State.searchOwn
  dsimp only
  split <;> rfl

@[simp] theorem serveQuery_still (s : State) (m : QueryMsg) : (s.serveQuery m).still = s.still := by
  unfold State.serveQuery
  split
  · rfl
  · split
    · rfl
    · dsimp only
      split
      · simp
      · split <;> simp

@[simp] theorem serveRead_still (s : State) (peer xid : Nat) (o : Op) (data : List Byte) : (s.serveRead peer xid o data).still = s.still := by
  unfold State.serveRead
  dsimp only
  split
  · rfl
  · split <;> simp

@[simp] theorem serveGather_still (s : State) (peer xid : Nat) (o : Op) (data : List Byte) : (s.serveGather peer xid o data).still = s.still := by
  unfold State.serveGather
  dsimp only
  split
  · rfl
  · split <;> simp

@[simp] theorem serveLater_still (s : State) : s.serveLater.still = s.still := by
  unfold State.serveLater
  dsimp only
  refine (foldl_still _ (fun s r => ?_) _ _).trans (foldl_still _ (fun s m => serveQuery_still s m) _ _)
  split <;> simp

/-! ## Tiles, their streams and their handovers -/

@[simp] theorem stream_still (s : State) (ix iy : Int) : (s.stream ix iy).still = s.still :=
  foldl_still _ (fun s _ => sendFz_still (s.setStream _) _ _ _ _ _) _ s

@[simp] theorem record_still (s : State) (t : Tile) : (s.record t).still = s.still := stream_still _ _ _

@[simp] theorem startCopies_still (s : State) (recs : List PublishRec) : (s.startCopies recs).still = s.still :=
  foldl_still _ (fun s _ => stream_still s _ _) _ s

@[simp] theorem logLost_still (s : State) (recs : List PublishRec) : (s.logLost recs).still = s.still :=
  foldl_still _ (fun s _ => log_still (s.bump _) _ _ _ _ _ _) _ s

@[simp] theorem dropHandover_still (s : State) (t : Tile) : (s.dropHandover t).still = s.still := by
  unfold State.dropHandover
  dsimp only
  split <;> rfl

@[simp] theorem abortHandover_still (s : State) (t : Tile) (reason : Nat) : (s.abortHandover t reason).still = s.still := by
  unfold State.abortHandover
  split <;> simp

@[simp] theorem affinityAborts_still (s : State) : s.affinityAborts.still = s.still := foldl_still _ (fun s t => abortHandover_still s t 4) _ s

@[simp] theorem propose_still (s : State) (t : Tile) (p : Nat) : (s.propose t p).still = s.still := sendFz_still (s.updTile _ _ _) _ _ _ _ _

/-! ## Changes that come due -/

@[simp] theorem applyRestore_still (s : State) (o : Op) (data : List Byte) : (s.applyRestore o data).1.still = s.still := by
  unfold State.applyRestore
  dsimp only
  split
  · rfl
  · split
    · rfl
    · split
      · rfl
      · split
        · rfl
        · split <;> simp

@[simp] theorem purge_still (s : State) (key : Nat) (removed : List Observation) : (s.purge key removed).1.still = s.still := by
  unfold State.purge
  induction (s.map.cur.tiles.filter fun t => t.owner = s.self) using List.reverseRecOn with
  | nil => rfl
  | append_singleton l t ih =>
    rw [List.foldl_append]
    dsimp only [List.foldl_cons, List.foldl_nil]
    split
    · exact ih
    · exact (record_still _ _).trans ih

@[simp] theorem applyDelete_still (s : State) (o : Op) (data : List Byte) : (s.applyDelete o data).1.still = s.still := by
  unfold State.applyDelete
  dsimp only
  split
  · rfl
  · exact purge_still _ _ _

@[simp] theorem applyPose_still (s : State) (o : Op) (data : List Byte) : (s.applyPose o data).1.still = s.still := by
  unfold State.applyPose
  dsimp only
  split <;> simp

@[simp] theorem applyLinkAdd_still (s : State) (o : Op) (data : List Byte) : (s.applyLinkAdd o data).1.still = s.still := by
  unfold State.applyLinkAdd
  dsimp only
  split
  · rfl
  · split <;> simp

@[simp] theorem applyLinkDelete_still (s : State) (o : Op) : (s.applyLinkDelete o).1.still = s.still := by
  unfold State.applyLinkDelete
  dsimp only
  split
  · rfl
  · split <;> simp

@[simp] theorem applyQuarantine_still (s : State) (o : Op) (data : List Byte) (on : Bool) : (s.applyQuarantine o data on).1.still = s.still := by
  unfold State.applyQuarantine
  dsimp only
  refine (foldl_still _ (fun s t => ?_) _ _).trans (setCur_still s _)
  split <;> simp

@[simp] theorem applyCreate_still (s : State) (o : Op) (data : List Byte) : (s.applyCreate o data).1.still = s.still := by
  unfold State.applyCreate
  split <;> rfl

@[simp] theorem applyAffinity_still (s : State) (o : Op) : (s.applyAffinity o).1.still = s.still := rfl

@[simp] theorem recordMoves_still (s : State) (base : MapView) (moves : List PoseMove) (links : List Link) : (s.recordMoves base moves links).still = s.still := by
  unfold State.recordMoves
  dsimp only
  refine (foldl_still _ (fun s l => ?_) _ _).trans (foldl_still _ (fun s m => ?_) _ _)
  all_goals
    split
    · rfl
    · split <;> simp

/-- Completing an operation leaves the epochs. -/
@[simp] theorem complete_epochs (s : State) (id : Nat) (r : Res) : (s.complete id r).epochs = s.epochs := by
  rw [complete_frame]
  rfl

@[simp] theorem applyDrop_epochs (s : State) (o : Op) : (s.applyDrop o).1.epochs = s.epochs := by
  unfold State.applyDrop
  dsimp only
  refine (foldl_epochs _ (fun s _ => complete_epochs s _ _) _ _).trans ((foldl_epochs _ (fun s f => ?_) _ _).trans (epochs_of_still (setCur_still s _)))
  exact foldl_epochs _ (fun s _ => complete_epochs s _ _) _ s

@[simp] theorem applyEdit_epochs (s : State) (o : Op) (data : List Byte) : (s.applyEdit o data).1.epochs = s.epochs := by
  unfold State.applyEdit
  split
  case h_9 => exact applyDrop_epochs s o
  all_goals exact epochs_of_still (by simp)

@[simp] theorem carryOut_epochs (s : State) (base : MapView) (o : Op) (data : List Byte) : (s.carryOut base o data).1.epochs = s.epochs := by
  unfold State.carryOut
  split
  · exact epochs_of_still (recordMoves_still _ _ _ _)
  · exact applyEdit_epochs s o data

/-- What leaves the epochs leaves them when it is done to the sealed change. -/
theorem inSealed_epochs (s : State) (f : State → State) (h : ∀ s, (f s).epochs = s.epochs) : (s.inSealed f).epochs = s.epochs := by
  unfold State.inSealed
  split
  · rfl
  · next v hv =>
    have hf := h { s with map := { s.map with cur := v, sealedView := none } }
    simp only [State.epochs, Prod.mk.injEq] at hf ⊢
    obtain ⟨hheld, hpub, -, hbar, hothers⟩ := hf
    exact ⟨hheld, hpub, by rw [hv]; rfl, hbar, hothers⟩

@[simp] theorem applyChange_epochs (s : State) (epoch : Nat) (o : Op) (data : List Byte) : (s.applyChange epoch o data).epochs = s.epochs := by
  unfold State.applyChange
  split
  · exact (carryOut_epochs _ _ _ _).trans (inSealed_epochs s _ fun t => carryOut_epochs t _ _ _)
  · exact carryOut_epochs _ _ _ _

@[simp] theorem dueChanges_epochs (s : State) : s.dueChanges.epochs = s.epochs := by
  unfold State.dueChanges
  dsimp only
  exact foldl_epochs _ (fun s h => (applyChange_epochs _ _ _ _).trans (epochs_of_still (unhold_still s _ _))) _ s

end Sys2Proof.Machine

/-! # A publication

What State.publish leaves (R18, R27, R225, R393): the views held, the epoch, the barrier, and the operations that waited for the epoch. -/

namespace Sys2Proof.Machine

/-! ## Operations that have ended stay ended -/

section Ended

variable {s t : State} {id status count detail : Nat}

theorem ended_of_ops (ho : t.ops = s.ops) (h : s.Ended id status count detail) : t.Ended id status count detail := by
  obtain ⟨o, hf, hend⟩ := h
  exact ⟨o, (findOp_of_ops ho id).trans hf, hend⟩

theorem findOp_complete_ne {i : Nat} (hi : i ≠ id) (r : Res) : (s.complete id r).findOp i = s.findOp i := by
  unfold State.complete
  split
  · split
    · rfl
    · exact findOp_finish_ne s id i _ hi
  · rfl

/-- Completing any operation leaves an outcome that is final. -/
theorem ended_complete_of_ended (i : Nat) (r : Res) (h : s.Ended id status count detail) : (s.complete i r).Ended id status count detail := by
  obtain ⟨o, hf, hfin, hout⟩ := h
  refine ⟨o, ?_, hfin, hout⟩
  by_cases hi : id = i
  · subst hi
    rw [State.complete, hf]
    simp only [hfin, if_true, hf]
  · rw [findOp_complete_ne hi, hf]

theorem ended_foldl {α : Type} {f : State → α → State} (hf : ∀ s a, s.Ended id status count detail → (f s a).Ended id status count detail) (l : List α)
    (h : s.Ended id status count detail) : (l.foldl f s).Ended id status count detail := by
  induction l generalizing s with
  | nil => exact h
  | cons x r ih => exact ih (hf s x h)

end Ended

/-! ## The waits for an epoch -/

/-- Among operations that complete in turn, one that is in flight before its deadline point gets the outcome (R27). -/
theorem endWaits_foldl {id p : Nat} {o : Op} (hfin : o.phase ≠ .final) (l : List Op) (s : State) (hp : s.map.published = p) (hf : s.findOp id = some o)
    (hd : s.overdue o = false) (hmem : ∃ x ∈ l, x.id = id) :
    (l.foldl (fun (s : State) o => s.complete o.id (Res.ok 0 s.map.published)) s).Ended id St.ok 0 p := by
  induction l generalizing s with
  | nil => simp at hmem
  | cons x r ih =>
    rw [List.foldl_cons]
    by_cases hx : x.id = id
    · refine ended_foldl (fun s a => ended_complete_of_ended _ _) r ?_
      rw [hx, hp]
      exact ended_complete hf hfin hd rfl rfl _
    · obtain ⟨y, hy, hyid⟩ := hmem
      have hyr : y ∈ r := (List.mem_cons.mp hy).resolve_left fun e => hx (e ▸ hyid)
      have hframe := complete_frame s x.id (Res.ok 0 s.map.published)
      refine ih _ (by rw [hframe]; exact hp) ((findOp_complete_ne (Ne.symm hx) _).trans hf) (by rw [hframe]; exact hd) ⟨y, hyr, hyid⟩

theorem endEpochWaits_ends {s : State} {id : Nat} {o : Op} (hf : s.findOp id = some o) (hcode : o.opcode = 0x1A) (hph : o.phase = .waiting)
    (hd : s.overdue o = false) (hw : o.waitTarget ≤ s.map.published) : s.endEpochWaits.Ended id St.ok 0 s.map.published := by
  have hmem : o ∈ s.ops.list := List.mem_of_find?_eq_some hf
  exact endWaits_foldl (o := o) (by rw [hph]; decide) _ s rfl hf hd
    ⟨o, List.mem_filter.mpr ⟨hmem, by simp [hcode, hph, hw]⟩, findOp_id hf⟩

@[simp] theorem endEpochWaits_epochs (s : State) : s.endEpochWaits.epochs = s.epochs := foldl_epochs _ (fun s _ => complete_epochs s _ _) _ s

@[simp] theorem settlePublished_epochs (s : State) (e : Nat) : (s.settlePublished e).epochs = s.epochs := by
  unfold State.settlePublished
  dsimp only
  refine (foldl_epochs _ (fun s f => ?_) _ _).trans (epochs_of_still (setCur_still s _))
  exact foldl_epochs _ (fun s _ => complete_epochs s _ _) _ s

theorem settlePublished_keeps_ended {s : State} {id status count detail : Nat} (e : Nat) (h : s.Ended id status count detail) :
    (s.settlePublished e).Ended id status count detail := by
  unfold State.settlePublished
  dsimp only
  refine ended_foldl (fun s f hs => ?_) _ (ended_of_ops (s := s) rfl h)
  exact ended_foldl (fun s op => ended_complete_of_ended _ _) _ hs

/-! ## The steps of a publication -/

theorem tallyOnly_logLost (s : State) (recs : List PublishRec) : TallyOnly s (s.logLost recs) := by
  unfold State.logLost
  generalize (recs.filter fun r => recLost s.self s.map.cur r) = l
  induction l generalizing s with
  | nil => exact TallyOnly.refl s
  | cons r l ih => exact ((tallyOnly_bump s _).trans (tallyOnly_log _ _ _ _ _ _ _)).trans (ih _)

/-- The view that a publication holds: the sealed change, or what is recorded, with the records applied. -/
def State.nextView (s : State) (recs : List PublishRec) : MapView :=
  (s.map.sealedView.getD s.map.cur).publish s.self s.fabric.leader (s.map.published + 1) recs

/-- A publication up to its view: the epoch is published, four are held, and the barrier is closed. -/
def State.published (s : State) (recs : List PublishRec) : State :=
  let u := s.logLost recs
  { u with
    map := { u.map with cur := s.map.cur.publish s.self s.fabric.leader (s.map.published + 1) recs, sealedView := none
                        held := (s.map.published + 1, s.nextView recs) :: s.map.held.take 3, published := s.map.published + 1 }
    fabric := { u.fabric with barrier := none, readySent := false, readys := [] } }

/-- What follows once the waits for the epoch have ended. -/
def State.afterWaits (s : State) (e : Nat) : State :=
  let u := (((s.settlePublished e).serveLater).evaluate).affinityAborts.syncPool
  u.proposals.foldl (fun (s : State) p => s.propose p.1 p.2) u

theorem publish_eq (s : State) (recs : List PublishRec) :
    s.publish recs = ((s.published recs).startCopies recs).endEpochWaits.afterWaits (s.map.published + 1) := by
  have hlog := tallyOnly_logLost s recs
  unfold TallyOnly at hlog
  unfold State.publish State.published State.afterWaits
  rw [hlog]
  rfl

theorem afterWaits_epochs (s : State) (e : Nat) : (s.afterWaits e).epochs = s.epochs := by
  have hlater : (s.settlePublished e).serveLater.evaluate.affinityAborts.syncPool.still = (s.settlePublished e).still := by simp
  exact (epochs_of_still ((foldl_still _ (fun s p => propose_still s _ _) _ _).trans hlater)).trans (settlePublished_epochs s e)

theorem afterWaits_keeps_ended {s : State} {id status count detail : Nat} (e : Nat) (h : s.Ended id status count detail) :
    (s.afterWaits e).Ended id status count detail := by
  have hlater : (s.settlePublished e).serveLater.evaluate.affinityAborts.syncPool.still = (s.settlePublished e).still := by simp
  exact ended_of_ops (ops_of_still ((foldl_still _ (fun s p => propose_still s _ _) _ _).trans hlater)) (settlePublished_keeps_ended e h)

/-- After a publication the new view heads the four held, nothing is sealed, and no barrier is open (R225, R393). -/
theorem publish_epochs (s : State) (recs : List PublishRec) :
    (s.publish recs).epochs = ((s.map.published + 1, s.nextView recs) :: s.map.held.take 3, s.map.published + 1, true, none, s.others) := by
  have hothers : (s.published recs).others = s.others := congrArg (·.2.2.2.2) (epochs_of_still (logLost_still s recs))
  rw [publish_eq, afterWaits_epochs, endEpochWaits_epochs, epochs_of_still (startCopies_still _ _), State.epochs, hothers]
  rfl

/-- The fields that the epochs stand for. -/
theorem epochs_eq {s : State} {l : List (Nat × MapView)} {p : Nat} {b : Option Nat} {m : List Nat} (h : s.epochs = (l, p, true, b, m)) :
    s.map.held = l ∧ s.map.published = p ∧ s.map.sealedView = none ∧ s.fabric.barrier = b ∧ s.others = m := by
  simpa [State.epochs] using h

/-- A publication ends the waits for its epoch (R27). -/
theorem publish_ends_wait {s : State} {id : Nat} {o : Op} (recs : List PublishRec) (hf : s.findOp id = some o) (hcode : o.opcode = 0x1A)
    (hph : o.phase = .waiting) (hd : s.overdue o = false) (hw : o.waitTarget ≤ s.map.published + 1) :
    (s.publish recs).Ended id St.ok 0 (s.map.published + 1) := by
  have hcopy := startCopies_still (s.published recs) recs
  have hlog := logLost_still s recs
  have hops : ((s.published recs).startCopies recs).ops = s.ops := (ops_of_still hcopy).trans (ops_of_still (s := s.logLost recs) hlog)
  have hclock : ((s.published recs).startCopies recs).clock = s.clock := (clock_of_still hcopy).trans (clock_of_still (s := s.logLost recs) hlog)
  have hpub : ((s.published recs).startCopies recs).map.published = s.map.published + 1 := congrArg (·.2.1) (epochs_of_still hcopy)
  rw [publish_eq]
  refine afterWaits_keeps_ended _ ?_
  have hend := endEpochWaits_ends (s := (s.published recs).startCopies recs) ((findOp_of_ops hops id).trans hf) hcode hph
    (by rw [State.overdue, hclock]; exact hd) (by rw [hpub]; exact hw)
  rwa [hpub] at hend

/-! ## The records of a publication -/

theorem nextView_nil (s : State) : s.nextView [] = { s.map.sealedView.getD s.map.cur with leader := s.fabric.leader } := rfl

theorem tile_coords {v : MapView} {ix iy : Int} {t : Tile} (h : v.tile ix iy = some t) : t.ix = ix ∧ t.iy = iy := by
  simpa using List.find?_some h

theorem recTile_coords (v : MapView) (r : PublishRec) : (recTile v r).ix = r.ix ∧ (recTile v r).iy = r.iy := by
  unfold recTile
  cases h : v.tile r.ix r.iy with
  | none => exact ⟨rfl, rfl⟩
  | some t => exact tile_coords h

/-- The tile of a record has its owner and its mirror (R18, R311). -/
theorem applyRec_tile (self e : Nat) (v : MapView) (r : PublishRec) :
    ∃ U, (applyRec self e v r).tile r.ix r.iy = some U ∧ U.owner = r.owner ∧ U.mirror = recMirror r := by
  unfold applyRec
  extract_lets t mirror switched w u syncing
  have hu : u.ix = r.ix ∧ u.iy = r.iy := by
    simp only [u]
    cases h : w.tile r.ix r.iy with
    | none => exact recTile_coords v r
    | some x => exact tile_coords h
  have hset : ∀ U : Tile, U.ix = r.ix → U.iy = r.iy → (w.setTile U).tile r.ix r.iy = some U := fun U hx hy => hx ▸ hy ▸ tile_setTile w U
  exact ⟨_, hset _ hu.1 hu.2, rfl, rfl⟩

theorem nextView_single (s : State) (r : PublishRec) : ∃ U, (s.nextView [r]).tile r.ix r.iy = some U ∧ U.owner = r.owner ∧ U.mirror = recMirror r := by
  obtain ⟨U, hU, hrest⟩ := applyRec_tile s.self (s.map.published + 1) (s.map.sealedView.getD s.map.cur) r
  refine ⟨U, ?_, hrest⟩
  unfold State.nextView MapView.publish
  dsimp only [List.foldl_cons, List.foldl_nil]
  split <;> exact hU

end Sys2Proof.Machine

/-! # The epoch barrier

EPOCH_BOUNDARY, EPOCH_READY_SEND, BARRIER_READY and BARRIER_PUBLISH in each of their cases (R393, R394). -/

namespace Sys2Proof.Machine

/-! ## Messages -/

theorem sendFz_frame (s : State) (type cls dst xid : Nat) (body : List Byte) : s.sendFz type cls dst xid body =
    { s with out := (s.sendFz type cls dst xid body).out, fabric := { s.fabric with ports := (s.sendFz type cls dst xid body).fabric.ports } } := by
  unfold State.sendFz
  split
  · split <;> rfl
  · rfl

/-- A message to a member that can be reached stands first among those sent (R386). -/
theorem sendFz_out {s : State} {dst : Nat} (h : s.Sends dst) (type cls xid : Nat) (body : List Byte) :
    ∃ f, (s.sendFz type cls dst xid body).out.fzl = f :: s.out.fzl ∧ f.hdr.type = type ∧ f.hdr.dst = dst ∧ f.body = body := by
  obtain ⟨-, hup, hroute⟩ := h
  obtain ⟨p, hp⟩ := Option.isSome_iff_exists.mp hroute
  simp only [State.sendFz, hup, if_true, hp]
  exact ⟨_, rfl, rfl, rfl, rfl⟩

/-! ## The boundary -/

/-- At a boundary the EPOCH shadows are applied, and the clusters that work are noted (R433, R469). -/
def State.atBoundary (u : State) (b : Nat) : State :=
  let u := { u with clock := { u.clock with lastBoundary := b } }
  let u := { u with regs := u.regs.applyAt u.chip (fun b => b = Bnd.epoch) (fun _ => true) }
  (u.place.clusters.filter fun (c : Cluster) => u.clusterBusy c.idx).foldl (fun (s : State) (c : Cluster) => s.placed c.idx) u

/-- The device once its time has come to the next epoch boundary. -/
def State.toBoundary (s : State) : State := (s.toDev (s.nextBoundary * 1000000)).atBoundary s.nextBoundary

/-- What the steps up to a boundary's own work leave. -/
def BoundaryKept (s t : State) : Prop := t.map = s.map ∧ t.fabric = s.fabric ∧ t.tally = s.tally ∧ t.power.options = s.power.options

theorem boundaryKept_atBoundary (u : State) (b : Nat) : BoundaryKept u (u.atBoundary b) := by
  have hplaced : ∀ (l : List Cluster) (v : State), BoundaryKept u v → BoundaryKept u (l.foldl (fun (s : State) (c : Cluster) => s.placed c.idx) v) := by
    intro l
    induction l with
    | nil => exact fun v h => h
    | cons c r ih => exact fun v h => ih _ h
  exact hplaced _ _ ⟨rfl, rfl, rfl, rfl⟩

theorem boundaryKept_toBoundary (s : State) : BoundaryKept s s.toBoundary := by
  obtain ⟨hmap, hfab, htally, hopt⟩ := boundaryKept_atBoundary (s.toDev (s.nextBoundary * 1000000)) s.nextBoundary
  exact ⟨hmap.trans (toDev_map _ _), hfab.trans (toDev_fabric _ _), htally.trans (toDev_tally _ _), hopt.trans (by rw [toDev_power])⟩

/-- The changes recorded are sealed into an epoch, whose barrier opens (R393). -/
def State.sealAt (s : State) (e : Nat) : State :=
  { s with map := { s.map with sealedView := some s.map.cur }, fabric := { s.fabric with barrier := some e, readySent := false } }

/-- A switch of firmware at the boundary leaves the map, the fabric and the members (R418). -/
theorem switchFirmware_kept (s : State) (e : Nat) : (s.switchFirmware e).map = s.map ∧ (s.switchFirmware e).fabric = s.fabric ∧
    (s.switchFirmware e).power.options = s.power.options := by
  unfold State.switchFirmware
  split
  · exact ⟨rfl, rfl, rfl⟩
  · split
    · exact ⟨rfl, rfl, rfl⟩
    · dsimp only
      rw [complete_frame]
      simp

/-- With no commit epoch known nothing comes due. -/
theorem dueChanges_of_open {s : State} (h : ∀ c ∈ s.map.commits, c.epoch = none) : s.dueChanges = s := by
  have hnone : (s.map.commits.filter fun c => c.epoch.any fun e => decide (e ≤ s.nextEpoch)) = [] :=
    List.filter_eq_nil_iff.mpr fun c hc => by simp [h c hc]
  rw [State.dueChanges, hnone]
  rfl

theorem sealAt_of_kept {s u : State} (hmap : u.map = s.map) (hfab : u.fabric = s.fabric) (e : Nat) :
    (u.sealAt e).map = { s.map with sealedView := some s.map.cur } ∧
      (u.sealAt e).fabric = { s.fabric with barrier := some e, readySent := false } := by
  simp only [State.sealAt, hmap, hfab, and_self]

/-- The device once it has sealed the changes of its next epoch, before those that come due. -/
def State.sealNext (s : State) : State := (s.toBoundary.switchFirmware (s.map.published + 1)).sealAt (s.map.published + 1)

theorem sealNext_kept (s : State) : s.sealNext.map = { s.map with sealedView := some s.map.cur } ∧
    s.sealNext.fabric = { s.fabric with barrier := some (s.map.published + 1), readySent := false } ∧ s.sealNext.others = s.others := by
  obtain ⟨hmap, hfab, -, hopt⟩ := boundaryKept_toBoundary s
  obtain ⟨hmap', hfab', hopt'⟩ := switchFirmware_kept s.toBoundary (s.map.published + 1)
  obtain ⟨hm, hf⟩ := sealAt_of_kept (hmap'.trans hmap) (hfab'.trans hfab) (s.map.published + 1)
  refine ⟨hm, hf, ?_⟩
  have hopts : s.sealNext.power.options = s.power.options := hopt'.trans hopt
  rw [State.others, State.others, State.self, State.self, hopts, State.sealNext, hf]

/-- What EPOCH_BOUNDARY does at the boundary (R393). -/
theorem exec_epochBoundary {s : State} (hrun : s.running = true) : exec .epochBoundary s =
    if s.toBoundary.fabric.isolated then .next s.toBoundary
    else match s.toBoundary.fabric.barrier with
      | some _ => .next (s.toBoundary.bump Ctr.epochLate)
      | none =>
        if s.sealNext.dueChanges.others.isEmpty then .next (s.sealNext.dueChanges.publish s.sealNext.dueChanges.publishRecs) else .next s.sealNext.dueChanges := by
  obtain ⟨hmap, -⟩ := boundaryKept_toBoundary s
  rw [exec, execEpochBoundary, hrun, State.sealNext, ← hmap]
  rfl

section Boundary

variable {s : State} (hrun : s.running = true)
include hrun

/-- An isolated device seals nothing (R391). -/
theorem epochBoundary_isolated (hiso : s.fabric.isolated = true) : ∃ t, exec .epochBoundary s = .next t ∧ t.map = s.map ∧ t.fabric = s.fabric := by
  obtain ⟨hmap, hfab, -⟩ := boundaryKept_toBoundary s
  exact ⟨s.toBoundary, by rw [exec_epochBoundary hrun, hfab, hiso]; rfl, hmap, hfab⟩

/-- A boundary that finds a barrier open is counted (R393). -/
theorem epochBoundary_late (hiso : s.fabric.isolated = false) {e : Nat} (hbar : s.fabric.barrier = some e) :
    ∃ t, exec .epochBoundary s = .next t ∧ t.map = s.map ∧ t.fabric = s.fabric ∧ t.counter 0x609 0 = (s.counter 0x609 0 + 1) % 2 ^ 64 := by
  obtain ⟨hmap, hfab, htally, -⟩ := boundaryKept_toBoundary s
  refine ⟨s.toBoundary.bump Ctr.epochLate, by rw [exec_epochBoundary hrun, hfab, hiso, hbar]; rfl, hmap, hfab, ?_⟩
  rw [State.bump, counter_bumpBy _ _ _ _ _ _ (by decide) (by decide), if_pos ⟨rfl, rfl⟩, State.counter, htally, State.counter]

/-- On a member of an array the changes recorded are sealed, and the barrier opens (R393). -/
theorem epochBoundary_seals (hiso : s.fabric.isolated = false) (hbar : s.fabric.barrier = none) (hothers : s.others ≠ []) (hopen : ∀ c ∈ s.map.commits, c.epoch = none) :
    ∃ t, exec .epochBoundary s = .next t ∧ t.map = { s.map with sealedView := some s.map.cur } ∧
      t.fabric = { s.fabric with barrier := some (s.map.published + 1), readySent := false } := by
  obtain ⟨-, hfab, -⟩ := boundaryKept_toBoundary s
  obtain ⟨hm, hf, ho⟩ := sealNext_kept s
  have hdue : s.sealNext.dueChanges = s.sealNext := dueChanges_of_open (by rw [hm]; exact hopen)
  have hne : s.sealNext.others.isEmpty = false := by rw [ho]; simpa using hothers
  refine ⟨s.sealNext, ?_, hm, hf⟩
  rw [exec_epochBoundary hrun, hfab, hiso, hbar, hdue, hne]
  rfl

/-- A device alone in its view publishes the epoch at once (R393). -/
theorem epochBoundary_publishes (hiso : s.fabric.isolated = false) (hbar : s.fabric.barrier = none) (hothers : s.others = []) :
    ∃ t h, exec .epochBoundary s = .next t ∧ t.map.published = s.map.published + 1 ∧ t.map.sealedView = none ∧ t.fabric.barrier = none ∧
      t.map.held = (s.map.published + 1, h) :: s.map.held.take 3 := by
  obtain ⟨-, hfab, -⟩ := boundaryKept_toBoundary s
  obtain ⟨hm, -, ho⟩ := sealNext_kept s
  have hdue := dueChanges_epochs s.sealNext
  simp only [State.epochs, hm, Prod.mk.injEq] at hdue
  obtain ⟨hheld, hpub, -, -, hmembers⟩ := hdue
  obtain ⟨hheld', hpub', hsealed, hbarrier, -⟩ := epochs_eq (publish_epochs s.sealNext.dueChanges s.sealNext.dueChanges.publishRecs)
  refine ⟨_, _, ?_, hpub'.trans (by rw [hpub]), hsealed, hbarrier, hheld'.trans (by rw [hheld, hpub])⟩
  rw [exec_epochBoundary hrun, hfab, hiso, hbar, hmembers, ho, hothers]
  rfl

end Boundary

end Sys2Proof.Machine

/-! # READY and PUBLISH

EPOCH_READY_SEND, BARRIER_READY and BARRIER_PUBLISH, and the leader's publication once every member is ready (R394). -/

namespace Sys2Proof.Machine

/-! ## The leader -/

/-- Whether READY has arrived from every member. -/
def State.allReady (s : State) : Bool := (bitList s.fabric.members 64).all fun m => s.fabric.readys.any fun r => r.1 = m

theorem allReady_iff (s : State) : s.allReady = true ↔ ∀ m ∈ bitList s.fabric.members 64, ∃ r ∈ s.fabric.readys, r.1 = m := by
  simp [State.allReady]

/-- The leader waits while READY of a member is missing. -/
theorem tryPublish_of_missing {s : State} (h : s.allReady = false) : s.tryPublish = s := by
  unfold State.allReady at h
  unfold State.tryPublish
  split
  · rfl
  · simp [h]

/-- The leader tells the members and publishes once every member is ready. -/
theorem tryPublish_eq_publish {s : State} {e : Nat} (hbar : s.fabric.barrier = some e) (hlead : s.fabric.leader = s.self)
    (hiso : s.fabric.isolated = false) (h : s.allReady = true) : ∃ (u : State) (recs : List PublishRec), s.tryPublish = u.publish recs ∧ u.epochs = s.epochs := by
  have hguard : (s.fabric.leader ≠ s.self || s.fabric.isolated || !s.allReady : Bool) = false := by simp [hlead, hiso, h]
  rw [State.tryPublish, hbar]
  exact ⟨_, s.publishRecs, if_neg (ne_true_of_eq_false hguard), foldl_epochs _ (fun s p => epochs_of_still (sendFz_still s _ _ _ _ _)) _ s⟩

theorem tryPublish_of_ready {s : State} {e : Nat} (hbar : s.fabric.barrier = some e) (hlead : s.fabric.leader = s.self)
    (hiso : s.fabric.isolated = false) (h : s.allReady = true) :
    s.tryPublish.map.published = s.map.published + 1 ∧ s.tryPublish.fabric.barrier = none := by
  obtain ⟨u, recs, htry, hu⟩ := tryPublish_eq_publish hbar hlead hiso h
  obtain ⟨-, hp, -, hb, -⟩ := epochs_eq (publish_epochs u recs)
  have hpub : u.map.published = s.map.published := congrArg (·.2.1) hu
  rw [htry]
  exact ⟨hp.trans (by rw [hpub]), hb⟩

/-- READY of a member, with the tiles that it declares, takes the place of an earlier one (R394). -/
def State.withReady (s : State) (m : Nat) (tiles : List (Int × Int)) : State :=
  { s with fabric := { s.fabric with readys := (s.fabric.readys.filter fun (r : Nat × List (Int × Int)) => r.1 ≠ m) ++ [(m, tiles)] } }

section WithReady

variable {s : State} {m : Nat} (tiles : List (Int × Int))

/-- Of other members, READY is there as before. -/
theorem mem_withReady {x : Nat} : (∃ r ∈ (s.withReady m tiles).fabric.readys, r.1 = x) ↔ x = m ∨ ∃ r ∈ s.fabric.readys, r.1 = x := by
  simp only [State.withReady, List.mem_append, List.mem_filter, List.mem_singleton, decide_eq_true_eq]
  constructor
  · rintro ⟨r, ⟨hr, -⟩ | rfl, rfl⟩
    · exact .inr ⟨r, hr, rfl⟩
    · exact .inl rfl
  · rintro (rfl | ⟨r, hr, rfl⟩)
    · exact ⟨_, .inr rfl, rfl⟩
    · by_cases hm : r.1 = m
      · exact ⟨_, .inr rfl, hm.symm⟩
      · exact ⟨r, .inl ⟨hr, hm⟩, rfl⟩

theorem allReady_withReady_iff : (s.withReady m tiles).allReady = true ↔ ∀ x ∈ bitList s.fabric.members 64, x = m ∨ ∃ r ∈ s.fabric.readys, r.1 = x := by
  simp only [allReady_iff, mem_withReady]
  rfl

/-- While READY of another member is missing, READY is kept and the leader waits. -/
theorem tryPublish_withReady_of_missing (h : ∃ x ∈ bitList s.fabric.members 64, x ≠ m ∧ ∀ r ∈ s.fabric.readys, r.1 ≠ x) :
    (s.withReady m tiles).tryPublish = s.withReady m tiles := by
  refine tryPublish_of_missing (Bool.eq_false_iff.mpr fun hall => ?_)
  obtain ⟨x, hx, hne, hmiss⟩ := h
  obtain heq | ⟨r, hr, hrx⟩ := (allReady_withReady_iff tiles).mp hall x hx
  · exact hne heq
  · exact hmiss r hr hrx

/-- The last READY publishes the epoch. -/
theorem tryPublish_withReady_of_ready {e : Nat} (hbar : s.fabric.barrier = some e) (hlead : s.fabric.leader = s.self) (hiso : s.fabric.isolated = false)
    (h : ∀ x ∈ bitList s.fabric.members 64, x = m ∨ ∃ r ∈ s.fabric.readys, r.1 = x) :
    (s.withReady m tiles).tryPublish.map.published = s.map.published + 1 ∧ (s.withReady m tiles).tryPublish.fabric.barrier = none :=
  tryPublish_of_ready (s := s.withReady m tiles) hbar hlead hiso ((allReady_withReady_iff tiles).mpr h)

end WithReady

theorem mem_others {s : State} {m : Nat} : m ∈ s.others ↔ m ∈ bitList s.fabric.members 64 ∧ m ≠ s.self := by
  simp [State.others]

/-! ## READY -/

/-- The device that has declared READY, and counted the handovers that wait for settling (R224, R393). -/
def State.declaring (s : State) : State := { s with fabric := { s.fabric with readySent := true } }.bumpBy Ctr.settleDeferHandover 0 s.declared.2

section ReadySend

variable {s : State} {e : Nat} (hrun : s.running = true) (hiso : s.fabric.isolated = false) (hbar : s.fabric.barrier = some e)
  (hsent : s.fabric.readySent = false) (hopen : s.changeOpen e = false) (hack : s.sealedAcked e = true)
include hrun hiso hbar hsent hopen hack

theorem exec_epochReadySend : exec .epochReadySend s =
    if s.fabric.leader = s.self then .next (s.declaring.withReady s.self s.declared.1).tryPublish
    else .next (s.declaring.sendFz 0x30 1 s.fabric.leader 0
      (beBytes e 8 ++ beBytes s.fabric.viewNo 2 ++ beBytes s.declared.1.length 2 ++ s.declared.1.flatMap fun t => tileBe t.1 t.2)) := by
  have hguard : (s.fabric.readySent || s.fabric.isolated || !s.running || !s.sealedAcked e || s.changeOpen e) = false := by
    simp [hsent, hiso, hrun, hack, hopen]
  rw [exec, execEpochReadySend, hbar]
  exact if_neg (ne_true_of_eq_false hguard)

/-- A member sends READY with its tiles to the leader (R393). -/
theorem epochReadySend_member (hlead : s.fabric.leader ≠ s.self) :
    ∃ t, exec .epochReadySend s = .next t ∧ t.fabric.readySent = true ∧ t.map = s.map ∧
      (s.Sends s.fabric.leader → ∃ f, t.out.fzl = f :: s.out.fzl ∧ f.hdr.type = 0x30 ∧ f.hdr.dst = s.fabric.leader ∧
        f.body = beBytes e 8 ++ beBytes s.fabric.viewNo 2 ++ beBytes s.declared.1.length 2 ++ s.declared.1.flatMap fun t => tileBe t.1 t.2) := by
  refine ⟨_, by rw [exec_epochReadySend hrun hiso hbar hsent hopen hack, if_neg hlead], ?_, ?_, fun hs => sendFz_out (s := s.declaring) hs _ _ _ _⟩
  · rw [sendFz_frame]
    rfl
  · rw [sendFz_frame]
    rfl

/-- The leader keeps its own READY while another member's is missing (R394). -/
theorem epochReadySend_leader_waits (hlead : s.fabric.leader = s.self) (hmiss : ∃ m ∈ s.others, ∀ r ∈ s.fabric.readys, r.1 ≠ m) :
    ∃ t, exec .epochReadySend s = .next t ∧ t.fabric.readySent = true ∧ t.map = s.map ∧ (s.self, s.declared.1) ∈ t.fabric.readys := by
  obtain ⟨m, hm, hnone⟩ := hmiss
  obtain ⟨hmem, hne⟩ := mem_others.mp hm
  refine ⟨s.declaring.withReady s.self s.declared.1, ?_, rfl, rfl, by simp [State.withReady]⟩
  rw [exec_epochReadySend hrun hiso hbar hsent hopen hack, if_pos hlead, tryPublish_withReady_of_missing (s := s.declaring) _ ⟨m, hmem, hne, hnone⟩]

/-- The leader's own READY, when it is the last, publishes the epoch (R394). -/
theorem epochReadySend_leader_publishes (hlead : s.fabric.leader = s.self) (hall : ∀ m ∈ s.others, ∃ r ∈ s.fabric.readys, r.1 = m) :
    ∃ t, exec .epochReadySend s = .next t ∧ t.map.published = s.map.published + 1 ∧ t.fabric.barrier = none := by
  refine ⟨_, by rw [exec_epochReadySend hrun hiso hbar hsent hopen hack, if_pos hlead], ?_⟩
  refine tryPublish_withReady_of_ready (s := s.declaring) _ hbar hlead hiso fun x hx => ?_
  by_cases hself : x = s.self
  · exact .inl hself
  · exact .inr (hall x (mem_others.mpr ⟨hx, hself⟩))

end ReadySend

section Messages

variable {s : State} (hrun : s.running = true) (hiso : s.fabric.isolated = false)
include hrun hiso

/-- The leader takes READY of a member for the pending epoch (R394). -/
theorem exec_barrierReady {src : Nat} (tiles : List (Int × Int)) (hlead : s.fabric.leader = s.self) (hsrc : src ∈ s.others) :
    ∃ p n, exec (.barrierReady src (s.map.published + 1) s.fabric.viewNo tiles) s = .next ((s.taken p 1 n).withReady src tiles).tryPublish := by
  have hguard : (!s.running || s.fabric.isolated || s.fabric.leader ≠ s.self || !s.others.contains src || s.fabric.viewNo ≠ s.fabric.viewNo ||
      s.map.published + 1 ≠ s.map.published + 1 : Bool) = false := by
    simp [hrun, hiso, hlead, hsrc]
  exact ⟨s.portOf src, 12 + 4 * tiles.length, if_neg (ne_true_of_eq_false hguard)⟩

theorem barrierReady_waits {src : Nat} (tiles : List (Int × Int)) (hlead : s.fabric.leader = s.self) (hsrc : src ∈ s.others)
    (hmiss : ∃ m ∈ bitList s.fabric.members 64, m ≠ src ∧ ∀ r ∈ s.fabric.readys, r.1 ≠ m) :
    ∃ t, exec (.barrierReady src (s.map.published + 1) s.fabric.viewNo tiles) s = .next t ∧
      t = { s with fabric := { s.fabric with ports := t.fabric.ports, readys := (s.fabric.readys.filter fun r => r.1 ≠ src) ++ [(src, tiles)] } } := by
  obtain ⟨p, n, hexec⟩ := exec_barrierReady hrun hiso tiles hlead hsrc
  exact ⟨_, by rw [hexec, tryPublish_withReady_of_missing (s := s.taken p 1 n) tiles hmiss], rfl⟩

theorem barrierReady_publishes {src e : Nat} (tiles : List (Int × Int)) (hlead : s.fabric.leader = s.self) (hsrc : src ∈ s.others)
    (hbar : s.fabric.barrier = some e) (hall : ∀ m ∈ bitList s.fabric.members 64, m = src ∨ ∃ r ∈ s.fabric.readys, r.1 = m) :
    ∃ t, exec (.barrierReady src (s.map.published + 1) s.fabric.viewNo tiles) s = .next t ∧ t.map.published = s.map.published + 1 ∧ t.fabric.barrier = none := by
  obtain ⟨p, n, hexec⟩ := exec_barrierReady hrun hiso tiles hlead hsrc
  exact ⟨_, hexec, tryPublish_withReady_of_ready (s := s.taken p 1 n) tiles hbar hlead hiso hall⟩

/-- A member publishes the pending epoch when the leader says so (R394). -/
theorem exec_barrierPublish (recs : List PublishRec) (hlead : s.fabric.leader ≠ s.self) :
    ∃ p n, exec (.barrierPublish (s.map.published + 1) s.fabric.viewNo recs) s = .next ((s.taken p 1 n).publish recs) := by
  have hguard : (!s.running || s.fabric.isolated || s.fabric.leader = s.self || s.fabric.viewNo ≠ s.fabric.viewNo ||
      s.map.published + 1 ≠ s.map.published + 1 : Bool) = false := by
    simp [hrun, hiso, hlead]
  exact ⟨s.portOf s.fabric.leader, 12 + 8 * recs.length, if_neg (ne_true_of_eq_false hguard)⟩

theorem barrierPublish_publishes (recs : List PublishRec) (hlead : s.fabric.leader ≠ s.self) :
    ∃ t h, exec (.barrierPublish (s.map.published + 1) s.fabric.viewNo recs) s = .next t ∧ t.map.published = s.map.published + 1 ∧
      t.map.sealedView = none ∧ t.fabric.barrier = none ∧ t.map.held = (s.map.published + 1, h) :: s.map.held.take 3 ∧
      (recs = [] → h = { s.map.sealedView.getD s.map.cur with leader := s.fabric.leader }) ∧
      (∀ r, recs = [r] → ∃ U, h.tile r.ix r.iy = some U ∧ U.owner = r.owner ∧ U.mirror = recMirror r) ∧
      (∀ id o, s.findOp id = some o → o.opcode = 0x1A → o.phase = .waiting → s.overdue o = false → o.waitTarget ≤ s.map.published + 1 →
        t.Ended id St.ok 0 (s.map.published + 1)) := by
  obtain ⟨p, n, hexec⟩ := exec_barrierPublish hrun hiso recs hlead
  obtain ⟨hheld, hpub, hsealed, hbar, -⟩ := epochs_eq (publish_epochs (s.taken p 1 n) recs)
  refine ⟨_, (s.taken p 1 n).nextView recs, hexec, hpub, hsealed, hbar, hheld, ?_, ?_, ?_⟩
  · rintro rfl
    exact nextView_nil _
  · rintro r rfl
    exact nextView_single _ r
  · exact fun id o hf hcode hph hd hw => publish_ends_wait (s := s.taken p 1 n) recs hf hcode hph hd hw

end Messages

/-- Settles O56: each case of the barrier by its own lemma; a publication is followed through its steps by what they leave (`publish_epochs`). -/
theorem epochsArePublished : Obligations.EpochsArePublished := by
  unfold Obligations.EpochsArePublished
  intro s hrun
  refine ⟨epochBoundary_isolated hrun, fun hiso => ⟨?late, ?seals, ?alone, ?send, ?ready, ?publish⟩⟩
  case late => exact fun e => epochBoundary_late hrun hiso
  case seals => exact epochBoundary_seals hrun hiso
  case alone => exact epochBoundary_publishes hrun hiso
  case send =>
    intro e hbar hsent hopen hack
    exact ⟨epochReadySend_member hrun hiso hbar hsent hopen hack, epochReadySend_leader_waits hrun hiso hbar hsent hopen hack,
      epochReadySend_leader_publishes hrun hiso hbar hsent hopen hack⟩
  case ready =>
    intro src tiles hlead hsrc
    exact ⟨barrierReady_waits hrun hiso tiles hlead hsrc, fun e => barrierReady_publishes hrun hiso tiles hlead hsrc⟩
  case publish => exact barrierPublish_publishes hrun hiso

end Sys2Proof.Machine

/-! # Soundness along a step

A nanosecond without a command (log entry 8), and the invariant of a sound state (R57, R323): it holds after reset, and every command keeps it by the law
of its meaning. -/

namespace Sys2Proof.Machine

/-- A nanosecond without a command moves the clock, the spine, the fabric ports and what they sent, and nothing else (R53, R357, R383). -/
theorem idle_frame (s : State) : s.idle =
    { s with clock := s.clock.advance 1, mesh := s.idle.mesh, fabric := { s.fabric with ports := s.idle.fabric.ports },
             out := { s.out with flits := s.idle.out.flits } } := by
  unfold State.idle
  dsimp only
  split <;> rfl

theorem idle_clock (s : State) : s.idle.clock = s.clock.advance 1 := by rw [idle_frame]

/-- Device time never goes back, whatever the rate (R376). -/
theorem le_advance_dev (c : Clock) (d : Nat) : c.dev ≤ (c.advance d).dev := Nat.le_add_right _ _

/-- Settles O2: what a step does on an empty queue is by definition a nanosecond without a command. -/
theorem idleStepLetsTimePass : Obligations.IdleStepLetsTimePass := by
  intro s hqueue
  refine ⟨s.idle, by rw [step, hqueue], ?now, ?dev, ?frame⟩
  case now => rw [idle_clock]; rfl
  case dev => rw [idle_clock]; exact le_advance_dev s.clock 1
  case frame => rw [idle_clock]; exact idle_frame s

/-- Settles O3: after reset memory is canonical, no tag is in use and the queue is empty. -/
theorem resetIsSound : Obligations.ResetIsSound :=
  ⟨⟨reset_mem_wf, Nat.zero_le _, Nat.zero_le _, Nat.zero_le _⟩, rfl⟩

theorem sound_of_good {q : List Instr} {s : State} (h : Good q s.kept) : s.Sound := by
  obtain ⟨-, h0, h1, hshared, hmem⟩ := h
  exact ⟨hmem, h0, h1, hshared⟩

/-- A nanosecond without a command writes no memory and takes no tag. -/
theorem sound_idle {s : State} (h : s.Sound) : s.idle.Sound :=
  sound_of_good (q := s.pending) (by rw [State.idle_kept]; exact good_of_sound h)

/-- Settles O4: on an empty queue by `sound_idle`, and for the front command by the laws of the meanings (`good_of_exec`). -/
theorem stepKeepsSound : Obligations.StepKeepsSound := by
  intro s t hs ht
  cases hqueue : s.pending with
  | nil =>
    rw [step, hqueue] at ht
    obtain rfl : s.idle = t := Host.Outcome.next.inj ht
    exact sound_idle hs
  | cons c rest =>
    rw [step, hqueue] at ht
    exact sound_of_good (good_of_exec (s := { s with pending := rest }) hs ht)

end Sys2Proof.Machine

/-! # The spine

The route between two stops (R47, R49, R51), the grant of an arbiter (R53), what an output of a router does with it, and the virtual channels of the classes
(R50). -/

namespace Sys2Proof.Machine

/-! ## Routes -/

/-- Mesh hops between two routers: columns apart and rows apart. -/
def meshDist (r dst : Nat) : Nat :=
  (r % meshCols - dst % meshCols) + (dst % meshCols - r % meshCols) + (r / meshCols - dst / meshCols) + (dst / meshCols - r / meshCols)

/-- A move of a packet for dst along its row, or along the column of dst. -/
def rowOrColumn (dst : Nat) (p : Nat × Nat) : Prop := p.1 / 5 = p.2 / 5 ∨ p.1 % 5 = dst % 5 ∧ p.2 % 5 = dst % 5

/-- The column and row of the router to the left. -/
theorem colRow_left {r : Nat} (h : 0 < r % 5) : routerNext r 1 % 5 = r % 5 - 1 ∧ routerNext r 1 / 5 = r / 5 := by
  rw [show routerNext r 1 = r - 1 from rfl]
  omega

/-- The column and row of the router to the right. -/
theorem colRow_right {r : Nat} (h : r % 5 < 4) : routerNext r 2 % 5 = r % 5 + 1 ∧ routerNext r 2 / 5 = r / 5 := by
  rw [show routerNext r 2 = r + 1 from rfl]
  omega

/-- The column and row of the router above. -/
theorem colRow_up {r : Nat} (h : 0 < r / 5) : routerNext r 3 % 5 = r % 5 ∧ routerNext r 3 / 5 = r / 5 - 1 := by
  rw [show routerNext r 3 = r - 5 from rfl]
  omega

/-- The column and row of the router below. -/
theorem colRow_down (r : Nat) : routerNext r 4 % 5 = r % 5 ∧ routerNext r 4 / 5 = r / 5 + 1 := by
  rw [show routerNext r 4 = r + 5 from rfl]
  omega

/-- A packet leaves for its stop only at the router of its stop; elsewhere it comes one hop nearer, along its row or along the column of its stop (R49). -/
theorem routeOut_cases (r dst : Nat) :
    routeOut r dst = 0 ∧ r = dst ∨
      routeOut r dst ≠ 0 ∧ meshDist r dst = meshDist (routerNext r (routeOut r dst)) dst + 1 ∧ rowOrColumn dst (r, routerNext r (routeOut r dst)) := by
  have hdst : dst % 5 < 5 := Nat.mod_lt _ (by decide)
  unfold routeOut rowOrColumn meshDist meshCols
  split
  case isTrue hcol =>
    obtain ⟨hc, hr⟩ := colRow_left (r := r) (by omega)
    exact .inr ⟨by decide, by rw [hc, hr]; omega, .inl hr.symm⟩
  split
  case isTrue hcol =>
    obtain ⟨hc, hr⟩ := colRow_right (r := r) (by omega)
    exact .inr ⟨by decide, by rw [hc, hr]; omega, .inl hr.symm⟩
  have hcol : r % 5 = dst % 5 := by omega
  split
  case isTrue hrow =>
    obtain ⟨hc, hr⟩ := colRow_up (r := r) (by omega)
    exact .inr ⟨by decide, by rw [hc, hr]; omega, .inr ⟨hcol, hc.trans hcol⟩⟩
  split
  case isTrue hrow =>
    obtain ⟨hc, hr⟩ := colRow_down r
    exact .inr ⟨by decide, by rw [hc, hr]; omega, .inr ⟨hcol, hc.trans hcol⟩⟩
  · exact .inl ⟨rfl, by omega⟩

theorem meshRoute_ne_nil (r dst n : Nat) : meshRoute r dst n ≠ [] := by
  fun_cases meshRoute r dst n <;> simp

theorem meshRoute_head? (r dst n : Nat) : (meshRoute r dst n).head? = some r := by
  fun_cases meshRoute r dst n <;> rfl

/-- A route of enough moves ends at its stop, takes one router more than there are hops, and goes along the row, then along the column (R49). -/
theorem meshRoute_spec (dst n : Nat) : ∀ r, meshDist r dst ≤ n →
    (meshRoute r dst n).length = meshDist r dst + 1 ∧ (meshRoute r dst n).getLast? = some dst ∧
      ∀ p ∈ (meshRoute r dst n).zip (meshRoute r dst n).tail, rowOrColumn dst p := by
  induction n with
  | zero =>
    intro r hr
    obtain ⟨-, rfl⟩ | ⟨-, hdist, -⟩ := routeOut_cases r dst
    · exact ⟨by simp [meshRoute, meshDist], rfl, by simp [meshRoute]⟩
    · omega
  | succ n ih =>
    intro r hr
    obtain ⟨hout, rfl⟩ | ⟨hout, hdist, hmove⟩ := routeOut_cases r dst
    · rw [meshRoute, if_pos hout]
      exact ⟨by simp [meshDist], rfl, by simp⟩
    · obtain ⟨hlen, hlast, hmoves⟩ := ih (routerNext r (routeOut r dst)) (by omega)
      rw [meshRoute, if_neg hout]
      have hhead := meshRoute_head? (routerNext r (routeOut r dst)) dst n
      generalize meshRoute (routerNext r (routeOut r dst)) dst n = rest at hlen hlast hmoves hhead
      obtain ⟨t, rfl⟩ := List.head?_eq_some_iff.mp hhead
      refine ⟨by rw [List.length_cons, hlen, hdist], by rwa [List.getLast?_cons_cons], fun p hp => ?_⟩
      obtain rfl | hp := List.mem_cons.mp hp
      · exact hmove
      · exact hmoves p hp

/-- The 4 rows of 5 columns are at most 7 hops across (R47). -/
theorem meshDist_le {a b : Nat} (ha : a < 20) (hb : b < 20) : meshDist a b ≤ 7 := by
  unfold meshDist meshCols
  omega

/-- The crossbars add at most 3 hops at each end (R51). -/
theorem routeHops_le {a b : Nat} (ha : a < 20) (hb : b < 20) : routeHops a b ≤ 14 := by
  have hdist := meshDist_le ha hb
  obtain ⟨hlen, -⟩ := meshRoute_spec b 8 a (by omega)
  unfold routeHops meshPath crossbarHops
  rw [hlen]
  split <;> split <;> omega

/-! ## Grants -/

/-- Going round n inputs from any pointer reaches each of them. -/
theorem exists_turn {n i : Nat} (t : Nat) (hi : i < n) : ∃ k < n, (t + k) % n = i := by
  refine ⟨(i + (n - t % n)) % n, Nat.mod_lt _ (by omega), ?_⟩
  have ht : t % n < n := Nat.mod_lt _ (by omega)
  rw [Nat.add_mod_mod, ← Nat.mod_add_mod, show t % n + (i + (n - t % n)) = i + n by omega, Nat.add_mod_right, Nat.mod_eq_of_lt hi]

/-- An arbiter without a request grants nothing. -/
theorem arbGrant_nil (n : Nat) (turn : Nat → Nat) : arbGrant n turn [] = none := rfl

/-- An arbiter with requests grants one of them, of the lowest class (R53). -/
theorem arbGrant_of_ne_nil {n : Nat} (turn : Nat → Nat) {reqs : List (Nat × Nat)} (hne : reqs ≠ []) (hreqs : ∀ q ∈ reqs, q.1 < n ∧ q.2 ≤ 4) :
    ∃ g ∈ reqs, arbGrant n turn reqs = some g ∧ ∀ q ∈ reqs, g.2 ≤ q.2 := by
  -- the lowest class that asks
  obtain ⟨q, hq⟩ := List.exists_mem_of_ne_nil reqs hne
  have hsome : ((List.range 5).find? fun c => reqs.any fun q => q.2 = c).isSome := by
    rw [List.find?_isSome]
    obtain ⟨-, hcls⟩ := hreqs q hq
    exact ⟨q.2, List.mem_range.mpr (by omega), List.any_eq_true.mpr ⟨q, hq, by simp⟩⟩
  obtain ⟨c, hc⟩ := Option.isSome_iff_exists.mp hsome
  obtain ⟨hany, -, hlow⟩ := List.find?_range_eq_some.mp hc
  obtain ⟨w, hw, hwc⟩ := List.any_eq_true.mp hany
  have hmin : ∀ q ∈ reqs, c ≤ q.2 := by
    intro q hq
    by_contra hlt
    have hnot := hlow q.2 (by omega)
    simp only [Bool.not_eq_true', List.any_eq_false] at hnot
    exact hnot q hq (by simp)
  -- the first of its inputs from the pointer on
  have hround : (((List.range n).map fun k => (turn c + k) % n).find? fun i => ((reqs.filter fun q => q.2 = c).map (·.1)).contains i).isSome := by
    rw [List.find?_isSome]
    obtain ⟨hin, -⟩ := hreqs w hw
    obtain ⟨k, hk, hkw⟩ := exists_turn (turn c) hin
    exact ⟨w.1, List.mem_map.mpr ⟨k, List.mem_range.mpr hk, hkw⟩,
      List.contains_iff_mem.mpr (List.mem_map.mpr ⟨w, List.mem_filter.mpr ⟨hw, hwc⟩, rfl⟩)⟩
  obtain ⟨i, hi⟩ := Option.isSome_iff_exists.mp hround
  obtain ⟨g, hg, rfl⟩ := List.mem_map.mp (List.contains_iff_mem.mp (List.find?_some hi))
  obtain ⟨hmem, hgc⟩ := List.mem_filter.mp hg
  obtain rfl : g.2 = c := of_decide_eq_true hgc
  exact ⟨g, hmem, by simp only [arbGrant, hc, hi, Option.map_some], hmin⟩

/-- An output with no request changes nothing. -/
theorem output_of_not_asked {m : Mesh} {r out : Nat} (h : m.asking r out = []) : m.output r out = m := by
  simp only [Mesh.output, h, List.map_nil, arbGrant_nil]

/-- The spine after an output of a router has granted a packet: the pointer of its class moves past its input, and it reaches its stop or waits at the next
router (R53). -/
def Mesh.granted (m : Mesh) (r out : Nat) (w : OnMesh) : Mesh :=
  let rest := dropFirst (fun x => x = w) m.waiting
  let turn := Store.set (fun _ => 0) (turnKey r out w.pkt.cls) (turnAfter 5 w.input) m.turn
  if out = 0 then { waiting := rest, turn := turn, arrived := (w.pkt, w.hops + 1) :: m.arrived }
  else { m with waiting := rest ++ [{ pkt := w.pkt, router := routerNext r out, input := inputOf out, hops := w.hops + 1 }], turn := turn }

/-- An output with requests grants one of the lowest class. -/
theorem output_of_asked {m : Mesh} {r out : Nat} (hwait : ∀ w ∈ m.waiting, w.input < 5 ∧ w.pkt.cls ≤ 4) (h : m.asking r out ≠ []) :
    ∃ w ∈ m.asking r out, (∀ x ∈ m.asking r out, w.pkt.cls ≤ x.pkt.cls) ∧ m.output r out = m.granted r out w := by
  have hreqs : ∀ q ∈ (m.asking r out).map (fun w => (w.input, w.pkt.cls)), q.1 < 5 ∧ q.2 ≤ 4 := by
    intro q hq
    obtain ⟨w, hw, rfl⟩ := List.mem_map.mp hq
    exact hwait w (List.mem_filter.mp hw).1
  obtain ⟨g, hg, hgrant, hmin⟩ :=
    arbGrant_of_ne_nil (fun c => Store.get (fun _ => 0) (turnKey r out c) m.turn) (List.map_eq_nil_iff.not.mpr h) hreqs
  obtain ⟨v, hv, rfl⟩ := List.mem_map.mp hg
  have hfound : ((m.asking r out).find? fun w => w.input = v.input && w.pkt.cls = v.pkt.cls).isSome := by
    rw [List.find?_isSome]
    exact ⟨v, hv, by simp⟩
  obtain ⟨w, hw⟩ := Option.isSome_iff_exists.mp hfound
  obtain ⟨hinput, hcls⟩ : w.input = v.input ∧ w.pkt.cls = v.pkt.cls := by simpa using List.find?_some hw
  refine ⟨w, List.mem_of_find?_eq_some hw, fun x hx => ?_, ?_⟩
  · rw [hcls]
    exact hmin _ (List.mem_map.mpr ⟨x, hx, rfl⟩)
  · simp only [Mesh.output, hgrant, hw, Mesh.granted, hinput, hcls]

theorem granted_turn (m : Mesh) (r out : Nat) (w : OnMesh) :
    Store.get (fun _ => 0) (turnKey r out w.pkt.cls) (m.granted r out w).turn = (w.input + 1) % 5 := by
  have hset : (m.granted r out w).turn = Store.set (fun _ => 0) (turnKey r out w.pkt.cls) (turnAfter 5 w.input) m.turn := by
    unfold Mesh.granted
    dsimp only
    split <;> rfl
  rw [hset, Store.get_set, if_pos rfl, turnAfter]

/-! ## Virtual channels -/

theorem find?_filter_and {α : Type} (p q : α → Bool) (l : List α) : (l.filter q).find? p = l.find? fun x => p x && q x := by
  rw [List.find?_filter]
  exact congrArg (fun f => l.find? f) (funext fun x => by rw [Bool.decide_and, Bool.decide_eq_true, Bool.decide_eq_true, Bool.and_comm])

/-- Whether a packet of a class is first of its channel is seen on the packets of its class alone. -/
theorem first_of_class {m n : Mesh} {c : Nat} (h : (m.waiting.filter fun w => w.pkt.cls = c) = n.waiting.filter fun w => w.pkt.cls = c)
    {w : OnMesh} (hw : w.pkt.cls = c) : m.first w = n.first w := by
  have hfind : ∀ l : List OnMesh, (l.find? fun x => x.router = w.router && x.input = w.input && x.pkt.cls = w.pkt.cls) =
      (l.filter fun x => x.pkt.cls = c).find? fun x => x.router = w.router && x.input = w.input := fun l => by
    rw [find?_filter_and, hw]
  rw [Mesh.first, Mesh.first, hfind, hfind, h]

/-- So is the credit of a class. -/
theorem credit_of_class {m n : Mesh} {c : Nat} (h : (m.waiting.filter fun w => w.pkt.cls = c) = n.waiting.filter fun w => w.pkt.cls = c)
    (r out : Nat) : m.credit r out c = n.credit r out c := by
  have hfilter : ∀ l : List OnMesh, (l.filter fun x => x.router = routerNext r out && x.input = inputOf out && x.pkt.cls = c) =
      (l.filter fun x => x.pkt.cls = c).filter fun x => x.router = routerNext r out && x.input = inputOf out := fun l =>
    List.filter_filter.symm
  rw [Mesh.credit, Mesh.credit, hfilter, hfilter, h]

/-- What a class asks for is seen on its own packets (R50). -/
theorem asking_of_class {m n : Mesh} {c : Nat} (h : (m.waiting.filter fun w => w.pkt.cls = c) = n.waiting.filter fun w => w.pkt.cls = c)
    (r out : Nat) : ((m.asking r out).filter fun w => w.pkt.cls = c) = (n.asking r out).filter fun w => w.pkt.cls = c := by
  rw [Mesh.asking, Mesh.asking, List.filter_comm, List.filter_comm _ _ n.waiting, h]
  refine List.filter_congr fun w hw => ?_
  have hc : w.pkt.cls = c := of_decide_eq_true (List.mem_filter.mp hw).2
  rw [first_of_class h hc, hc, credit_of_class h]

/-- Settles O22: a route by induction on its moves (`meshRoute_spec`), a grant by what its arbiter does (`arbGrant_of_ne_nil`), and the requests of a class by
those of its packets that they look at. -/
theorem spineRoutesAndGrantsByClass : Obligations.SpineRoutesAndGrantsByClass := by
  refine ⟨fun a b ha hb => ?routes, ⟨0, 19, by decide⟩, fun m r out hwait => ⟨output_of_not_asked, fun hask => ?grants⟩, fun m n c h => asking_of_class h⟩
  case routes =>
    obtain ⟨-, hlast, hmoves⟩ := meshRoute_spec b 8 a (by have := meshDist_le ha hb; omega)
    exact ⟨routeHops_le ha hb, meshRoute_head? a b 8, hlast, hmoves⟩
  case grants =>
    obtain ⟨w, hw, hmin, hout⟩ := output_of_asked hwait hask
    refine ⟨w, hw, hmin, by rw [hout, granted_turn], fun hstop => ?_, fun hnext => ?_⟩
    · rw [hout, Mesh.granted, if_pos hstop]
      exact ⟨rfl, rfl⟩
    · rw [hout, Mesh.granted, if_neg hnext]
      exact ⟨rfl, rfl⟩

end Sys2Proof.Machine

/-! # The fetch of a descriptor

What settling result buffers, charging a tag and a completion entry, and accepting an operation change (R65 to R67, R71, R92, R100), and DESCRIPTOR_FETCH from
them. -/

namespace Sys2Proof.Machine

/-! ## Settled result buffers -/

/-- From s to t result buffers were settled: operations in flight stay the same ones, and only memory and free values change besides (R92, R100). -/
def BufsSettled (s t : State) : Prop :=
  t = { s with ops := { s.ops with list := t.ops.list }, mem := t.mem, tiers := t.tiers, free := t.free } ∧ t.ops.list.map (·.id) = s.ops.list.map (·.id)

theorem BufsSettled.refl (s : State) : BufsSettled s s := ⟨rfl, rfl⟩

theorem BufsSettled.trans {a b c : State} (h1 : BufsSettled a b) (h2 : BufsSettled b c) : BufsSettled a c := by
  obtain ⟨hframe1, hids1⟩ := h1
  obtain ⟨hframe2, hids2⟩ := h2
  refine ⟨?_, hids2.trans hids1⟩
  rw [hframe2, hframe1]

/-- A fold of steps of which each settles buffers. -/
theorem bufsSettled_foldl {α : Type} (f : State → α → State) (hf : ∀ s a, BufsSettled s (f s a)) (l : List α) (s : State) : BufsSettled s (l.foldl f s) := by
  induction l generalizing s with
  | nil => exact BufsSettled.refl s
  | cons a l ih => exact (hf s a).trans (ih (f s a))

theorem bufsSettled_blurBufs (s : State) (o : Op) : BufsSettled s (s.blurBufs o) := by
  have hwrite : ∀ (u : State) (p : Nat × Nat), BufsSettled u ((u.writeMem p.1 ((List.range p.2).map fun i => BitVec.ofNat 8 (Config.freeNat (u.free + i)))).spend p.2) :=
    fun _ _ => ⟨rfl, rfl⟩
  have hmark : ∀ u : State, BufsSettled u (u.updOp o.id fun o => { o with blurred := true }) := fun u => ⟨rfl, ids_updFirst _ _ _ fun _ => rfl⟩
  unfold State.blurBufs
  split
  · exact BufsSettled.refl s
  · exact (bufsSettled_foldl _ hwrite o.bufs s).trans (hmark _)

theorem bufsSettled_settleBufs (s : State) : BufsSettled s s.settleBufs := bufsSettled_foldl _ bufsSettled_blurBufs s.ops.list s

/-! ## The charge -/

/-- From s to t ring contexts were written, with their write-back records and counters (R71). -/
def RingsWritten (s t : State) : Prop := t = { s with rings := t.rings, mem := t.mem, tiers := t.tiers, tally := t.tally }

theorem RingsWritten.trans {a b c : State} (h1 : RingsWritten a b) (h2 : RingsWritten b c) : RingsWritten a c := by
  unfold RingsWritten at *
  rw [h2, h1]

theorem ringsWritten_readTail (s : State) (fn n : Nat) : RingsWritten s (s.readTail fn n) := by
  unfold State.readTail
  dsimp only
  split <;> rfl

theorem ringsWritten_writeRecord (s : State) (fn n : Nat) : RingsWritten s (s.writeRecord fn n) := by
  unfold State.writeRecord
  dsimp only
  split <;> rfl

theorem ringsWritten_writeBack (s : State) (fn n : Nat) : RingsWritten s (s.writeBack fn n) := by
  have hrec := ringsWritten_writeRecord s fn n
  have hread := hrec.trans (ringsWritten_readTail (s.writeRecord fn n) fn n)
  unfold State.writeBack
  dsimp only
  split
  · split
    · exact hread
    · exact hread.trans (ringsWritten_writeRecord _ fn n)
  · exact hrec

theorem ringsWritten_putSq (s : State) (fn n : Nat) (c : SqCtx) : RingsWritten s (s.putSq fn n c) := by
  unfold State.putSq
  dsimp only
  split
  · rfl
  · exact RingsWritten.trans (b := s.setSq fn n c) rfl (ringsWritten_writeBack _ fn n)

theorem tallyOnly_endStall (s : State) (fn n : Nat) (tags cq : Bool) : TallyOnly s (s.endStall fn n tags cq) := by
  unfold State.endStall
  dsimp only
  split <;> split <;> rfl

/-- A tag of the pool is taken, and the next operation has the next ID; what else a charge changes are the rings (R57, R66). -/
theorem ringsWritten_charge (s : State) (fn sq pool : Nat) :
    RingsWritten { s with ops := { s.ops.take pool with nextId := s.ops.nextId + 1 } } (s.charge fn sq pool) := by
  have hend : TallyOnly s (s.endStall fn sq false false) := tallyOnly_endStall s fn sq false false
  unfold State.charge
  dsimp only
  refine RingsWritten.trans ?_ (ringsWritten_putSq _ _ _ _)
  rw [hend]
  rfl

/-- The head moves on to the next descriptor (R66). -/
theorem charge_head (s : State) (fn sq pool : Nat) : ((s.charge fn sq pool).sq fn sq).head = ((s.sq fn sq).head + 1) % cfgSize (s.sq fn sq).cfg := by
  have hend : TallyOnly s (s.endStall fn sq false false) := tallyOnly_endStall s fn sq false false
  have hsq : (s.endStall fn sq false false).sq fn sq = s.sq fn sq := by
    rw [hend]
    rfl
  unfold State.charge
  dsimp only
  rw [hsq]
  obtain ⟨t, ht⟩ := putSq_sq _ fn sq _
  rw [ht]

/-- Taking a tag counts one more in use (R57). -/
theorem take_used (o : Ops) (pool : Nat) : (o.take pool).used0 + (o.take pool).used1 + (o.take pool).usedShared = o.used0 + o.used1 + o.usedShared + 1 := by
  unfold Ops.take
  split
  · dsimp only; omega
  · split <;> (dsimp only; omega)

@[simp] theorem take_list (o : Ops) (pool : Nat) : (o.take pool).list = o.list := by
  unfold Ops.take
  split
  · rfl
  · split <;> rfl

/-! ## The new operation -/

/-- The first element that meets p is the last where no other does. -/
theorem updFirst_append_last {α : Type} {p : α → Bool} (f : α → α) {l : List α} {a : α} (hl : ∀ x ∈ l, p x = false) (ha : p a = true) :
    updFirst p f (l ++ [a]) = l ++ [f a] := by
  induction l with
  | nil => simp [updFirst, ha]
  | cons x t ih =>
    have hx : p x = false := hl x List.mem_cons_self
    simp [updFirst, hx, ih fun y hy => hl y (List.mem_cons_of_mem x hy)]

/-- An operation with a new ID joins those in flight. -/
def State.joined (s : State) (o : Op) : State := { s with ops := { s.ops with list := s.ops.list ++ [o] } }

/-- The fences in force replaced (R100). -/
def State.withFences (s : State) (l : List Fence) : State := { s with ops := { s.ops with fences := l } }

section Joined

variable {s : State} {o : Op} (hnew : ∀ x ∈ s.ops.list, x.id ≠ o.id)
include hnew

theorem updOp_joined (f : Op → Op) : (s.joined o).updOp o.id f = s.joined (f o) := by
  have hlist : updFirst (fun x => decide (x.id = o.id)) f (s.ops.list ++ [o]) = s.ops.list ++ [f o] :=
    updFirst_append_last f (fun x hx => decide_eq_false (hnew x hx)) (decide_eq_true rfl)
  unfold State.updOp State.joined
  dsimp only
  rw [hlist]

theorem finish_joined (r : Res) : (s.joined o).finish o.id r = s.joined (o.finished (s.joined o) r) :=
  updOp_joined hnew fun x => x.finished (s.joined o) r

/-- An accepted operation joins, started or held; what else changes are the fences and a counter (R78, R100, R265). -/
theorem accept_joined (hstarted : o.phase = .started) : ∃ p u, s.accept o = u ∧ u.ops.list = s.ops.list ++ [p] ∧
    p = { o with waitedFor := p.waitedFor, bufs := p.bufs, readyAt := p.readyAt, phase := p.phase } ∧ (p.phase = .started ∨ p.phase = .held) ∧
    u = { s with ops := { s.ops with list := u.ops.list, fences := u.ops.fences }, tally := u.tally } := by
  unfold State.accept
  extract_lets f waits q fences ops u₁ u₂
  have hu₁ : u₁ = (s.withFences fences).joined q := rfl
  have hu₂ : ∃ p, u₂ = (s.withFences fences).joined p ∧ p = { q with phase := p.phase } ∧ (p.phase = .started ∨ p.phase = .held) := by
    by_cases hwait : (u₁.fenced q || u₁.orderHeld q) = true
    · have hu : u₂ = u₁.updOp q.id fun o => { o with phase := .held } := if_pos hwait
      exact ⟨{ q with phase := .held }, by rw [hu, hu₁, updOp_joined (s := s.withFences fences) (o := q) hnew], rfl, .inr rfl⟩
    · have hu : u₂ = u₁ := if_neg hwait
      exact ⟨q, hu.trans hu₁, rfl, .inl hstarted⟩
  obtain ⟨p, hu, hp, hphase⟩ := hu₂
  refine ⟨p, _, rfl, ?_, by rw [hp], hphase, ?_⟩
  · rw [hu]
    split <;> rfl
  · rw [hu]
    split <;> rfl

end Joined

/-! ## The fetch -/

section Fetch

variable {s : State} {fn sq pool : Nat} (hrun : s.running = true) (hhost : s.hostUp fn = true) (hready : (s.sq fn sq).ready = true)
  (hpool : s.pool (cfgClass (s.sq fn sq).cfg) = some pool) (hspace : (s.cq fn (cfgCq (s.sq fn sq).cfg)).space = true)
  (hrank : s.outranked (cfgClass (s.sq fn sq).cfg) pool = false)
include hrun hhost hready hpool hspace hrank

/-- With a new tail, a tag and completion space the next descriptor is taken: it joins with the result of a failed check, or is accepted (R65, R80). -/
theorem exec_descriptorFetch : exec (.descriptorFetch fn sq) s =
    match (s.settleBufs.charge fn sq pool).descCheck (s.fetched fn sq pool) with
    | some r => .next (((s.settleBufs.charge fn sq pool).joined (s.fetched fn sq pool)).finish (s.fetched fn sq pool).id r)
    | none => .next ((s.settleBufs.charge fn sq pool).accept (s.fetched fn sq pool)) := by
  have hguard : (!s.running || !s.hostUp fn || !(s.sq fn sq).ready) = false := by simp [hrun, hhost, hready]
  have hroom : (!(s.cq fn (cfgCq (s.sq fn sq).cfg)).space) = false := by simp [hspace]
  rw [exec, execDescriptorFetch]
  simp only [hguard, hpool, hroom, hrank]
  rfl

end Fetch

/-- The state that the checks of a fetched descriptor see. -/
theorem charged_frame (s : State) (fn sq pool : Nat) :
    let u := s.settleBufs.charge fn sq pool
    u.ops.list = s.settleBufs.ops.list ∧ u.ops.nextId = s.ops.nextId + 1 ∧
      u.ops.used0 + u.ops.used1 + u.ops.usedShared = s.ops.used0 + s.ops.used1 + s.ops.usedShared + 1 ∧
      (u.sq fn sq).head = ((s.sq fn sq).head + 1) % cfgSize (s.sq fn sq).cfg ∧
      u = { s with rings := u.rings, ops := u.ops, mem := u.mem, tiers := u.tiers, tally := u.tally, free := u.free } := by
  intro u
  obtain ⟨hsettled, -⟩ := bufsSettled_settleBufs s
  have hcharge : RingsWritten _ u := ringsWritten_charge s.settleBufs fn sq pool
  have hops : u.ops = { s.settleBufs.ops.take pool with nextId := s.settleBufs.ops.nextId + 1 } := by rw [hcharge]
  have hsq : s.settleBufs.sq fn sq = s.sq fn sq := by
    rw [hsettled]
    rfl
  refine ⟨by rw [hops]; exact take_list _ _, ?_, ?_, ?_, ?_⟩
  · rw [hops, hsettled]
  · rw [hops]
    refine (take_used s.settleBufs.ops pool).trans ?_
    rw [hsettled]
  · rw [show (u.sq fn sq).head = _ from charge_head s.settleBufs fn sq pool, hsq]
  · rw [hcharge, hsettled]

/-- The new ID is no operation's in flight, before and after result buffers are settled. -/
theorem fetched_new {s : State} (h : s.findOp s.ops.nextId = none) (fn sq pool : Nat) :
    ∀ x ∈ (s.settleBufs.charge fn sq pool).ops.list, x.id ≠ (s.fetched fn sq pool).id := by
  obtain ⟨-, hids⟩ := bufsSettled_settleBufs s
  obtain ⟨hlist, -⟩ := charged_frame s fn sq pool
  intro x hx
  have hmem : x.id ∈ s.ops.list.map (·.id) := hids ▸ List.mem_map.mpr ⟨x, hlist ▸ hx, rfl⟩
  obtain ⟨y, hy, hyx⟩ := List.mem_map.mp hmem
  have hne : y.id ≠ s.ops.nextId := by simpa using List.find?_eq_none.mp h y hy
  exact hyx ▸ hne

/-- The deadline of a fetched descriptor: its own DEADLINE, else its ring's, else 1 s (R93). -/
theorem fetched_deadlineAt (s : State) (fn sq pool : Nat) : (s.fetched fn sq pool).deadlineAt = s.clock.now + 1000 *
    (if (s.fetched fn sq pool).u32 8 ≠ 0 then (s.fetched fn sq pool).u32 8 else if (s.sq fn sq).deadline.toNat ≠ 0 then (s.sq fn sq).deadline.toNat else 1000000) :=
  congrArg (s.clock.now + ·) (Nat.mul_comm _ _)

/-- Settles O10: the state after the charge (`charged_frame`), in which the operation joins as final (`finish_joined`) or accepted (`accept_joined`). -/
theorem descriptorFetchAcceptsNext : Obligations.DescriptorFetchAcceptsNext := by
  intro s fn sq pool o hrun hhost hready hpool hspace hrank hid ho
  have hexec := exec_descriptorFetch hrun hhost hready hpool hspace hrank
  have hnew := fetched_new hid fn sq pool
  have hdead := fetched_deadlineAt s fn sq pool
  obtain ⟨hlist, hnext, hused, hhead, hframe⟩ := charged_frame s fn sq pool
  have hdesc : o.desc = s.readMem (ringBase (s.sq fn sq).baseLo (s.sq fn sq).baseHi + 64 * (s.sq fn sq).head) 64 := by rw [ho]; rfl
  have hphase : o.phase = .started ∧ o.began = false := by rw [ho]; exact ⟨rfl, rfl⟩
  have hids : o.id = s.ops.nextId ∧ o.fn = fn ∧ o.sq = sq ∧ o.cq = cfgCq (s.sq fn sq).cfg ∧ o.fetchedAt = s.clock.now := by
    rw [ho]
    exact ⟨rfl, rfl, rfl, rfl, rfl⟩
  rw [← ho] at hexec hnew hdead
  obtain ⟨hstarted, hbegan⟩ := hphase
  obtain ⟨hoid, hofn, hosq, hocq, hoat⟩ := hids
  generalize s.settleBufs.charge fn sq pool = u at *
  cases hcheck : u.descCheck o with
  | some r =>
    rw [hcheck] at hexec
    refine ⟨_, o.finished (u.joined o) r, hexec, ?_⟩
    rw [finish_joined hnew]
    refine ⟨by rw [← hlist]; rfl, hoid, hofn, hosq, hocq, hdesc, hoat, hdead, fun h => ?_, fun r' h => ?_, hnext, hused, hhead, by rw [hframe]; rfl⟩
    · exact absurd h (by simp)
    · obtain rfl : r = r' := Option.some.inj h
      exact ⟨rfl, rfl, rfl, rfl⟩
  | none =>
    rw [hcheck] at hexec
    obtain ⟨p, t, ht, htlist, hp, hpphase, htframe⟩ := accept_joined hnew hstarted
    refine ⟨t, p, ht ▸ hexec, by rw [htlist, hlist], ?_⟩
    have hsq : t.sq fn sq = u.sq fn sq := by
      rw [htframe]
      rfl
    rw [hp]
    refine ⟨hoid, hofn, hosq, hocq, hdesc, hoat, hdead, fun _ => ⟨hpphase, hbegan⟩, fun r h => absurd h (by simp), ?_, ?_, by rw [hsq, hhead], ?_⟩
    · rw [htframe]; exact hnext
    · rw [htframe]; exact hused
    · rw [htframe, hframe]

end Sys2Proof.Machine

/-! # Retries, replays and spares

What the shared operations of chapter 14 change: another attempt of a piece (R399, R400), a replay (R404), the cluster table, and a spare that takes the place
of a unit (R407, R408). -/

namespace Sys2Proof.Machine

/-! ## Attempts -/

/-- An operation whose piece is tried again (R400). -/
def Op.tried (o : Op) (most ends : Nat) : Op := { o with attempts := o.attempts + 1, attemptsMax := most, attemptEnds := ends, retrying := true, retried := true }

/-- The budget of another attempt in ns (R400). -/
def State.retryBudget (s : State) (o : Op) : Nat := min (s.retryLimit * 1000) ((o.deadlineAt - s.clock.now) / 2)

/-- Where attempts remain and the budget is at least 1 µs, the piece is tried again, and this is counted (R400). -/
theorem attempt_of_budget {s : State} {o : Op} {most : Nat} (hleft : o.attempts < most) (hbudget : 1000 ≤ s.retryBudget o) :
    s.attempt o most = (s.bump Ctr.retry).updOp o.id fun o' => o'.tried most (s.clock.now + s.retryBudget o) := by
  rw [State.attempt]
  exact if_pos (show o.attempts < most ∧ 1000 ≤ s.retryBudget o from ⟨hleft, hbudget⟩)

/-- Withdrawing a change tells the other members, and leaves the operations in flight. -/
theorem withdrawChange_ops (s : State) (id : Nat) : (s.withdrawChange id).ops = s.ops := by
  have htell : ∀ (u : State) (p : Nat) (desc data : List Byte), (u.tell p 2 desc data).still = u.still := fun u p desc data =>
    foldl_still _ (fun s _ => sendFz_still s _ _ _ _ _) _ u
  unfold State.withdrawChange
  split
  · rfl
  · split
    · rfl
    · exact ops_of_still (foldl_still _ (fun u p => htell u p _ _) _ (s.unhold s.self id))

/-- Otherwise the operation ends with DATA_ERROR (R400). -/
theorem attempt_of_no_budget {s : State} {o : Op} {most : Nat} (hno : most ≤ o.attempts ∨ s.retryBudget o < 1000) :
    ∃ (u : State) (d : Nat), s.attempt o most = u.finish o.id { status := St.dataError, detail := d } ∧ u.ops = s.ops := by
  rw [State.attempt]
  refine ⟨_, _, if_neg (show ¬ (o.attempts < most ∧ 1000 ≤ s.retryBudget o) by omega), ?_⟩
  exact (withdrawChange_ops _ _).trans (log_ops s _ _ _ _ _ _)

/-! ## Replays -/

/-- From s to t work was replayed: what was running starts again, and of the counters only that of replays moves (R404). -/
def Replayed (s t : State) : Prop :=
  t = { s with ops := t.ops, tally := t.tally, matrix := t.matrix, abacus := t.abacus, sess := t.sess } ∧
    ∀ i j, i ≠ Ctr.replay → j < 2 ^ 24 → t.counter i j = s.counter i j

theorem Replayed.refl (s : State) : Replayed s s := ⟨rfl, fun _ _ _ _ => rfl⟩

theorem Replayed.trans {a b c : State} (h1 : Replayed a b) (h2 : Replayed b c) : Replayed a c := by
  obtain ⟨hframe1, hctr1⟩ := h1
  obtain ⟨hframe2, hctr2⟩ := h2
  exact ⟨by rw [hframe2, hframe1], fun i j hi hj => (hctr2 i j hi hj).trans (hctr1 i j hi hj)⟩

theorem Replayed.power {s t : State} (h : Replayed s t) : t.power = s.power := by rw [h.1]
theorem Replayed.clock {s t : State} (h : Replayed s t) : t.clock = s.clock := by rw [h.1]

/-- A fold of steps that each replay work. -/
theorem replayed_foldl {α : Type} (f : State → α → State) (hf : ∀ s a, Replayed s (f s a)) (l : List α) (s : State) : Replayed s (l.foldl f s) := by
  induction l generalizing s with
  | nil => exact Replayed.refl s
  | cons a l ih => exact (hf s a).trans (ih (f s a))

theorem replayed_bumpBy (s : State) (n : Nat) : Replayed s (s.bumpBy Ctr.replay 0 n) :=
  ⟨rfl, fun i j hi hj => by rw [counter_bumpBy _ _ _ _ _ _ (by decide) hj, if_neg fun h => hi h.1]⟩

theorem replayed_replayOp (s : State) (id : Nat) : Replayed s (s.replayOp id) := by
  have hmark : ∀ f, Replayed s ((s.bump Ctr.replay).updOp id f) := fun f => (replayed_bumpBy s 1).trans ⟨rfl, fun _ _ _ _ => rfl⟩
  unfold State.replayOp
  split
  · exact Replayed.refl s
  · split
    · exact Replayed.refl s
    · dsimp only
      split
      · exact hmark _
      · split
        · exact hmark _
        · exact (hmark _).trans ⟨rfl, fun _ _ _ _ => rfl⟩

theorem replayed_replayCore (s : State) (id : Nat) : Replayed s (s.replayCore id) := by
  unfold State.replayCore
  dsimp only
  split
  · exact Replayed.refl s
  · split
    · exact replayed_foldl _ replayed_replayOp _ s
    · exact replayed_foldl _ replayed_replayOp _ s

/-- A cluster's work that is replayed where it ran. -/
theorem replayed_replayCluster (s : State) (c : Nat) : Replayed s (s.replayCluster c false) := by
  unfold State.replayCluster
  dsimp only
  refine Replayed.trans (Replayed.trans ?_ (replayed_foldl _ replayed_replayOp _ _)) (replayed_bumpBy _ _)
  exact ⟨rfl, fun _ _ _ _ => rfl⟩

/-! ## Clusters and their cores -/

theorem cluster_idx {s : State} {c : Nat} {k : Cluster} (h : s.cluster c = some k) : k.idx = c := by
  simpa using List.find?_some h

/-- The cluster that is changed. -/
theorem cluster_updCluster {s : State} {c : Nat} {k : Cluster} (h : s.cluster c = some k) (f : Cluster → Cluster) (hf : ∀ x, (f x).idx = x.idx) :
    (s.updCluster c f).cluster c = some (f k) := by
  have hfind := find_updFirst_same (fun x : Cluster => x.idx = c) f s.place.clusters fun x hx => by simpa [hf x] using hx
  exact hfind.trans (congrArg (Option.map f) h)

@[simp] theorem bitsOf_setBitsOf (k : Cluster) (kind : Nat) (b : Nat × Nat) : (k.setBitsOf kind b).bitsOf kind = b := by
  unfold Cluster.setBitsOf Cluster.bitsOf
  split <;> rfl

@[simp] theorem setBitsOf_idx (k : Cluster) (kind : Nat) (b : Nat × Nat) : (k.setBitsOf kind b).idx = k.idx := by
  unfold Cluster.setBitsOf
  split <;> rfl

@[simp] theorem setBitsOf_role (k : Cluster) (kind : Nat) (b : Nat × Nat) : (k.setBitsOf kind b).role = k.role := by
  unfold Cluster.setBitsOf
  split <;> rfl

/-- A matrix or tidy core is in service by its cluster's role and its bit (R40, R46). -/
theorem coreIn_of_bit {s : State} {id : Nat} {k : Cluster} (hk : s.cluster (id / 4096) = some k) (hrole : k.role = .inService ∨ k.role = .draining)
    (hkind : id / 256 % 16 ≤ 1) (hbit : bit (k.bitsOf (id / 256 % 16)).1 (id % 256) = true) (hn : id % 256 < coresOf (id / 256 % 16)) : s.coreIn id = true := by
  simp only [State.coreIn, hk, hkind, hbit, hn, if_true, decide_true, Bool.and_true, Bool.or_eq_true, decide_eq_true_eq]
  exact hrole

/-! ## Spares -/

/-- From s to t spares were used, exhausted or logged, and nothing else changed (R407, R409, R426). -/
def SparesTaken (s t : State) : Prop :=
  t = { s with fault := { s.fault with used := t.fault.used, exhausted := t.fault.exhausted }, tally := t.tally }

theorem SparesTaken.trans {a b c : State} (h1 : SparesTaken a b) (h2 : SparesTaken b c) : SparesTaken a c := by
  unfold SparesTaken at *
  rw [h2, h1]

theorem TallyOnly.sparesTaken {s t : State} (h : TallyOnly s t) : SparesTaken s t := by
  rw [h]
  rfl

theorem sparesTaken_useSpare (s : State) (kind : Nat) : SparesTaken s (s.useSpare kind) := by
  unfold State.useSpare
  dsimp only
  split <;> rfl

theorem sparesTaken_unitGone (s : State) (source kind spare subject : Nat) : SparesTaken s (s.unitGone source kind spare subject) :=
  TallyOnly.sparesTaken ((tallyOnly_bump s _).trans (tallyOnly_log _ _ _ _ _ _ _))

/-- An exhausted kind is marked and logged (R409, R426). -/
theorem exhaust_spec (s : State) (source kind : Nat) : SparesTaken s (s.exhaust source kind) ∧ bit (s.exhaust source kind).fault.exhausted kind = true := by
  have hlog : TallyOnly { s with fault := { s.fault with exhausted := setBit s.fault.exhausted kind true } } (s.exhaust source kind) := tallyOnly_log _ _ _ _ _ _ _
  rw [hlog]
  exact ⟨rfl, (bit_setBit _ _ _ _).trans (if_pos rfl)⟩

/-- A spare stands in for a unit that is retired. -/
theorem sparesTaken_replaced (s : State) (source kind spare subject : Nat) : SparesTaken s ((s.useSpare kind).unitGone source kind spare subject) :=
  (sparesTaken_useSpare s kind).trans (sparesTaken_unitGone _ _ _ _ _)

/-- One spare fewer is left. -/
theorem sparesLeft_useSpare (s : State) (kind : Nat) : (s.useSpare kind).sparesLeft kind = s.sparesLeft kind - 1 := by
  have hused : Store.get (fun _ => 0) kind (s.useSpare kind).fault.used = min (s.sparesFitted kind) (Store.get (fun _ => 0) kind s.fault.used + 1) := by
    have hset : (s.useSpare kind).fault.used =
        Store.set (fun _ => 0) kind (min (s.sparesFitted kind) (Store.get (fun _ => 0) kind s.fault.used + 1)) s.fault.used := by
      unfold State.useSpare
      dsimp only
      split <;> rfl
    rw [hset, Store.get_set, if_pos rfl]
  have hfitted : (s.useSpare kind).sparesFitted kind = s.sparesFitted kind := by
    rw [sparesTaken_useSpare s kind]
    rfl
  rw [State.sparesLeft, State.sparesLeft, hused, hfitted]
  omega

/-- A retired unit is counted once, and moves no other counter but TALLY_LOST (R408). -/
theorem counter_unitGone (s : State) (source kind spare subject i : Nat) (hi : i ≠ 0x706) :
    (s.unitGone source kind spare subject).counter i 0 = if i = Ctr.unitRetired then (s.counter i 0 + 1) % 2 ^ 64 else s.counter i 0 := by
  rw [State.unitGone, counter_log _ _ _ _ _ _ _ _ _ hi (by decide), State.bump, counter_bumpBy _ _ _ _ _ _ (by decide) (by decide)]
  by_cases h : i = Ctr.unitRetired
  · rw [if_pos ⟨h, rfl⟩, if_pos h, h]
  · rw [if_neg fun hh => h hh.1, if_neg h]

theorem counter_replaced (s : State) (source kind spare subject i : Nat) (hi : i ≠ 0x706) :
    ((s.useSpare kind).unitGone source kind spare subject).counter i 0 = if i = Ctr.unitRetired then (s.counter i 0 + 1) % 2 ^ 64 else s.counter i 0 := by
  have htally : (s.useSpare kind).counter i 0 = s.counter i 0 := rfl
  rw [counter_unitGone _ _ _ _ _ _ hi, htally]

/-- Entry into safe hold from running (R412). -/
theorem enterSafeHold_of_running {s : State} (h : s.running = true) (code : Nat) : (s.enterSafeHold code).fault.safeHold = true := by
  obtain ⟨hboot, hhold⟩ : s.power.boot = .running ∧ s.fault.safeHold = false := by simpa [State.running] using h
  have hguard : (s.fault.safeHold || s.power.boot != .running) = false := by simp [hboot, hhold]
  rw [State.enterSafeHold, if_neg (ne_true_of_eq_false hguard)]

end Sys2Proof.Machine

/-! # Units that fail, wear out and are replaced

PIECE_FAILURE and RETRY_BUDGET_EXPIRY (R399 to R401), retirement, wear and the reservoir (R406 to R409, R416), and the loss of a clock (R446). -/

namespace Sys2Proof.Machine

/-! ## Pieces -/

section Pieces

variable {s : State} {id : Nat} {o : Op}

/-- A failure is taken up while the operation may run and its deadline has not come (R400). -/
theorem pieceFailure_taken (hrun : s.running = true) (hfinal : o.phase ≠ .final) (hheld : o.phase ≠ .held) (hdead : s.clock.now < o.deadlineAt) :
    (!s.running || o.phase = .final || o.phase = .held || o.deadlineAt ≤ s.clock.now : Bool) = false := by
  simp [hrun, hfinal, hheld, hdead]

/-- A piece that fails while its operation may run is attempted again (R399, R400). -/
theorem exec_pieceFailure (hrun : s.running = true) (hf : s.findOp id = some o) (hfinal : o.phase ≠ .final) (hheld : o.phase ≠ .held)
    (hdead : s.clock.now < o.deadlineAt) (piece : Piece) (core : Nat) :
    exec (.pieceFailure id piece core false) s = .next (s.attempt o (pieceAttempts piece)) := by
  have hguard := pieceFailure_taken hrun hfinal hheld hdead
  simp only [exec, execPieceFailure, hf, hguard]
  rfl

/-- A piece that fails again on the same core fails the core (R401). -/
theorem exec_pieceFailure_recurs (hrun : s.running = true) (hf : s.findOp id = some o) (hfinal : o.phase ≠ .final) (hheld : o.phase ≠ .held)
    (hdead : s.clock.now < o.deadlineAt) {piece : Piece} {core : Nat} (hpiece : pieceOnCore piece = true) (hretry : o.retrying = true) (hcore : s.coreIn core = true) :
    exec (.pieceFailure id piece core true) s = exec (.unitRetired (.core core)) (s.updOp id fun o => { o with retrying := false, attempts := 0 }) := by
  have hguard := pieceFailure_taken hrun hfinal hheld hdead
  have hrun' : (s.updOp id fun o => { o with retrying := false, attempts := 0 }).running = true := hrun
  simp only [exec, execPieceFailure, execUnitRetired, hf, hguard, hpiece, hretry, hcore, hrun']
  rfl

/-- The attempt in progress fails at the end of its budget (R400). -/
theorem exec_retryBudgetExpiry (hrun : s.running = true) (hf : s.findOp id = some o) (hfinal : o.phase ≠ .final) (hretry : o.retrying = true)
    (hends : o.attemptEnds < o.deadlineAt) : exec (.retryBudgetExpiry id) s = .next ((s.toTime o.attemptEnds).attempt o o.attemptsMax) := by
  have hguard : (!s.running || o.phase = .final || !o.retrying || o.deadlineAt ≤ o.attemptEnds : Bool) = false := by simp [hrun, hfinal, hretry, hends]
  simp only [exec, execRetryBudgetExpiry, hf, hguard]
  rfl

/-- An attempt that is left is made, is counted, and changes nothing else. -/
theorem attempt_tries (hf : s.findOp id = some o) {most : Nat} (hleft : o.attempts < most) (hbudget : 1000 ≤ s.retryBudget o) :
    (s.attempt o most).findOp id = some (o.tried most (s.clock.now + s.retryBudget o)) ∧
      (s.attempt o most).counter 0x700 0 = (s.counter 0x700 0 + 1) % 2 ^ 64 ∧
      s.attempt o most = { s with ops := (s.attempt o most).ops, tally := (s.attempt o most).tally } := by
  rw [attempt_of_budget hleft hbudget]
  refine ⟨?_, ?_, rfl⟩
  · rw [findOp_id hf, findOp_updOp _ _ (fun o' => o'.tried most (s.clock.now + s.retryBudget o)) fun _ => rfl, findOp_of_ops (s := s) (s' := s.bump Ctr.retry) rfl, hf]
    rfl
  · exact (counter_bumpBy s _ _ _ _ _ (by decide) (by decide)).trans (if_pos ⟨rfl, rfl⟩)

/-- Without one the operation ends with DATA_ERROR. -/
theorem attempt_ends (hf : s.findOp id = some o) {most : Nat} (hno : most ≤ o.attempts ∨ s.retryBudget o < 1000) :
    ∃ d, (s.attempt o most).Ended id St.dataError 0 d := by
  obtain ⟨u, d, heq, hops⟩ := attempt_of_no_budget (s := s) hno
  refine ⟨d, ?_⟩
  rw [heq, findOp_id hf]
  exact ended_finish_of hf { status := St.dataError, detail := d } hops

end Pieces

/-! ## Retirement -/

/-- A cluster without one of its matrix or tidy cores, whose kind has the bitmaps b (R40). -/
def Cluster.without (k : Cluster) (id : Nat) (b : Nat × Nat) : Cluster :=
  { k.setBitsOf (id / 256 % 16) (setBit b.1 (id % 256) false, setBit b.2 (id % 256) true) with draining := k.draining.filter fun i => i ≠ id }

@[simp] theorem without_idx (k : Cluster) (id : Nat) (b : Nat × Nat) : (k.without id b).idx = k.idx := setBitsOf_idx k _ _

@[simp] theorem without_role (k : Cluster) (id : Nat) (b : Nat × Nat) : (k.without id b).role = k.role := setBitsOf_role k _ _

@[simp] theorem without_bitsOf (k : Cluster) (id : Nat) (b : Nat × Nat) :
    (k.without id b).bitsOf (id / 256 % 16) = (setBit b.1 (id % 256) false, setBit b.2 (id % 256) true) := bitsOf_setBitsOf k _ _

theorem without_draining (k : Cluster) (id : Nat) (b : Nat × Nat) : id ∉ (k.without id b).draining := fun h => by
  simpa using (List.mem_filter.mp h).2

/-- A reserve core is being powered for a time (R407). -/
def State.powered (s : State) (core ns : Nat) : State := { s with fault := { s.fault with powering := s.fault.powering ++ [(core, s.clock.now + ns)] } }

section Retire

variable {s : State} {id j : Nat} {k : Cluster} (hk : s.cluster (id / 4096) = some k) (hkind : id / 256 % 16 ≤ 1)
  (hbit : bit (k.bitsOf (id / 256 % 16)).1 (id % 256) = true) (hj : s.reserveCore k (id / 256 % 16) = some j)
include hk hkind hbit hj

/-- A core with a reserve leaves service, the retirement is counted, and the reserve core is powered (R40, R408). -/
theorem retireCore_of_reserve : s.retireCore id =
    (((s.updCluster (id / 4096) fun x => x.without id (k.bitsOf (id / 256 % 16))).useSpare (spareKind (id / 256 % 16))).unitGone id (spareKind (id / 256 % 16))
      (coreId (id / 4096) (id / 256 % 16) j) 0).powered (coreId (id / 4096) (id / 256 % 16) j) (serviceTime (id / 256 % 16)) := by
  have hj' : ∀ f, (s.updCluster (id / 4096) f).reserveCore k (id / 256 % 16) = some j := fun _ => hj
  simp only [State.retireCore, hk, if_neg (show ¬ 2 ≤ id / 256 % 16 by omega), hbit, Bool.not_true, Bool.false_eq_true, if_false, hj']
  rfl

/-- Besides the cluster, the spares and the tally nothing changes. -/
theorem retireCore_spec :
    (s.retireCore id).cluster (id / 4096) = some (k.without id (k.bitsOf (id / 256 % 16))) ∧
      (s.retireCore id).fault.powering = s.fault.powering ++ [(coreId (id / 4096) (id / 256 % 16) j, s.clock.now + serviceTime (id / 256 % 16))] ∧
      (s.retireCore id).counter 0x704 0 = (s.counter 0x704 0 + 1) % 2 ^ 64 ∧ (s.retireCore id).ops = s.ops ∧ (s.retireCore id).clock = s.clock ∧
      (s.retireCore id).fault.retireOps = s.fault.retireOps := by
  have hcluster := cluster_updCluster hk (fun x => x.without id (k.bitsOf (id / 256 % 16))) fun x => without_idx x id _
  have hctr := counter_replaced (s.updCluster (id / 4096) fun x => x.without id (k.bitsOf (id / 256 % 16))) id (spareKind (id / 256 % 16))
    (coreId (id / 4096) (id / 256 % 16) j) 0 Ctr.unitRetired (by decide)
  have hspare := sparesTaken_replaced (s.updCluster (id / 4096) fun x => x.without id (k.bitsOf (id / 256 % 16))) id (spareKind (id / 256 % 16))
    (coreId (id / 4096) (id / 256 % 16) j) 0
  rw [retireCore_of_reserve hk hkind hbit hj]
  refine ⟨?_, ?_, hctr, ?_, ?_, ?_⟩
  · rw [State.powered, hspare]
    exact hcluster
  all_goals
    rw [State.powered, hspare]
    rfl

/-- A core that fails suddenly is retired, and its work is replayed (R401, R408). -/
theorem unitRetired_core (hrun : s.running = true) (hne : id / 4096 ≠ 15) (hn : id % 256 < coresOf (id / 256 % 16)) (hrole : k.role = .inService ∨ k.role = .draining) :
    ∃ t K, exec (.unitRetired (.core id)) s = .next t ∧ t.cluster (id / 4096) = some K ∧ K.role = k.role ∧
      K.bitsOf (id / 256 % 16) = (setBit (k.bitsOf (id / 256 % 16)).1 (id % 256) false, setBit (k.bitsOf (id / 256 % 16)).2 (id % 256) true) ∧
      t.fault.powering = s.fault.powering ++ [(coreId (id / 4096) (id / 256 % 16) j, s.clock.now + serviceTime (id / 256 % 16))] ∧
      t.counter 0x704 0 = (s.counter 0x704 0 + 1) % 2 ^ 64 := by
  obtain ⟨hcluster, hpower, hctr, -⟩ := retireCore_spec hk hkind hbit hj
  obtain ⟨hframe, hctr'⟩ := replayed_replayCore (s.retireCore id) id
  have hin : s.coreIn id = true := coreIn_of_bit hk hrole hkind hbit hn
  refine ⟨(s.retireCore id).replayCore id, _, ?_, ?_, without_role k id _, without_bitsOf k id _, ?_, ?_⟩
  · rw [exec, execUnitRetired, if_pos hrun, State.unitFails, if_neg hne, if_pos hin]
  · rw [hframe]
    exact hcluster
  · rw [hframe]
    exact hpower
  · rw [hctr' _ _ (by decide) (by decide), hctr]

end Retire

/-- The RETIRE operations that a core's leaving ends (R416). -/
def State.retiring (s : State) (id : Nat) : List (Nat × Nat) := s.fault.retireOps.filter fun r => r.2 / 4096 = id / 4096 && r.2 = id

/-- The device once nothing is left for which a core was drained (R408, R416). -/
def State.drained (s : State) (id : Nat) : State :=
  { s with fault := { s.fault with
      retireOps := s.fault.retireOps.filter (fun r => !(r.2 / 4096 = id / 4096 && r.2 = id))
      wearDrains := s.fault.wearDrains.filter fun i => !(i / 4096 = id / 4096 && i = id) } }

/-- Operations that complete leave all but the list of operations. -/
theorem foldl_complete_frame (r : Res) (l : List (Nat × Nat)) (s : State) :
    l.foldl (fun (s : State) p => s.complete p.1 r) s = { s with ops := (l.foldl (fun (s : State) p => s.complete p.1 r) s).ops } := by
  induction l generalizing s with
  | nil => rfl
  | cons p l ih =>
    rw [List.foldl_cons, ih, complete_frame]

section Drain

variable {s : State} {id j : Nat} {k : Cluster} (hk : s.cluster (id / 4096) = some k)
include hk

/-- A core that drains alone leaves service once its work has left it (R408). -/
theorem exec_drainComplete (hrun : s.running = true) (hrole : k.role ≠ .draining) (hmem : id ∈ k.draining) : exec (.drainComplete id) s =
    .next (((s.retireCore id).retiring id).foldl (fun (t : State) r => t.complete r.1 (Res.ok 0 (s.spareFor id false))) ((s.retireCore id).drained id)) := by
  have hgo : (!s.running || !if k.role = .draining then
      !(s.matrix.infers.any fun i => i.cluster = id / 4096) && !(s.abacus.running.any fun r => r.cluster = id / 4096) &&
        !(s.sess.list.any fun x => x.cluster = id / 4096 && x.state != .closed) else k.draining.contains id) = false := by simp [hrun, hrole, hmem]
  simp only [exec, execDrainComplete, hk, hgo]
  simp only [hrole, decide_false, Bool.false_or, if_false, Bool.false_eq_true]
  rfl

/-- The spare that stands for a core is the reserve core of its cluster (R416). -/
theorem spareFor_core (hkind : id / 256 % 16 ≤ 1) (hj : s.reserveCore k (id / 256 % 16) = some j) :
    s.spareFor id false = coreId (id / 4096) (id / 256 % 16) j := by
  have hguard : (false || decide (2 ≤ id / 256 % 16)) = false := by simp only [Bool.false_or, decide_eq_false_iff_not]; omega
  simp only [State.spareFor, hk, hguard, hj, Bool.false_eq_true, if_false, cluster_idx hk]

/-- The drained core leaves service, and the RETIRE that drained it completes with the core ID of its spare (R408, R416). -/
theorem drainComplete_core (hkind : id / 256 % 16 ≤ 1) (hbit : bit (k.bitsOf (id / 256 % 16)).1 (id % 256) = true)
    (hj : s.reserveCore k (id / 256 % 16) = some j) (hrun : s.running = true) (hrole : k.role ≠ .draining) (hmem : id ∈ k.draining) :
    ∃ t K, exec (.drainComplete id) s = .next t ∧ t.cluster (id / 4096) = some K ∧
      K.bitsOf (id / 256 % 16) = (setBit (k.bitsOf (id / 256 % 16)).1 (id % 256) false, setBit (k.bitsOf (id / 256 % 16)).2 (id % 256) true) ∧ id ∉ K.draining ∧
      (∀ r o, s.fault.retireOps = [(r, id)] → s.findOp r = some o → o.phase ≠ .final → s.overdue o = false →
        t.Ended r St.ok 0 (coreId (id / 4096) (id / 256 % 16) j) ∧ t.fault.retireOps = []) := by
  obtain ⟨hcluster, -, -, hops, hclock, hretire⟩ := retireCore_spec hk hkind hbit hj
  refine ⟨_, k.without id _, exec_drainComplete hk hrun hrole hmem, ?_, without_bitsOf k id _, without_draining k id _, fun r o hone hf hfinal hdead => ?_⟩
  · rw [foldl_complete_frame]
    exact hcluster
  · have hmine : (s.retireCore id).retiring id = [(r, id)] := by simp [State.retiring, hretire, hone]
    have hrest : ((s.retireCore id).drained id).fault.retireOps = [] := by simp [State.drained, hretire, hone]
    rw [hmine, spareFor_core hk hkind hj]
    refine ⟨ended_complete (s' := (s.retireCore id).drained id) hf hfinal hdead hops hclock _, ?_⟩
    rw [foldl_complete_frame]
    exact hrest

end Drain

/-! ## Wear -/

/-- The last entry of the log is the one just made (R419). -/
theorem log_getLast? (s : State) (source code cls fn subject detail : Nat) :
    ∃ e, (s.log source code cls fn subject detail).tally.entries.getLast? = some e ∧ e.code = code ∧ e.source = source ∧ e.detail = detail := by
  unfold State.log
  extract_lets unset e t u
  have hlast : u.tally.entries.getLast? = some e := List.getLast?_concat
  refine ⟨e, ?_, rfl, rfl, rfl⟩
  split <;> exact hlast

/-- A worn unit is logged with its row of R406; with WEAR_ACTION = 0 this is all (R408). -/
theorem wearDetected_logs {s : State} (hrun : s.running = true) (w : WearUnit) (hoff : bit (s.reg 0x10000 0) 16 = false) :
    ∃ t e, exec (.wearDetected w) s = .next t ∧ t.tally.entries.getLast? = some e ∧ e.code = 0x0030 ∧ e.source = (wearRow w).2 ∧ e.detail = (wearRow w).1 ∧
      t = { s with tally := t.tally } := by
  obtain ⟨e, hlast, hcode, hsource, hdetail⟩ := log_getLast? s (wearRow w).2 0x0030 0 255 0 (wearRow w).1
  have hframe : TallyOnly s (s.log (wearRow w).2 0x0030 0 255 0 (wearRow w).1) := tallyOnly_log _ _ _ _ _ _ _
  have hreg : (s.log (wearRow w).2 0x0030 0 255 0 (wearRow w).1).reg 0x10000 0 = s.reg 0x10000 0 := by
    rw [hframe]
    rfl
  refine ⟨_, e, ?_, hlast, hcode, hsource, hdetail, hframe⟩
  simp only [exec, execWearDetected, hrun, hreg, hoff]
  rfl

/-- A cluster one of whose cores drains (R408). -/
def Cluster.withDrain (k : Cluster) (id : Nat) : Cluster := { k with draining := if k.draining.contains id then k.draining else k.draining ++ [id] }

theorem mem_withDrain (k : Cluster) (id : Nat) : id ∈ (k.withDrain id).draining := by
  unfold Cluster.withDrain
  by_cases hin : k.draining.contains id = true
  · rw [if_pos hin]
    exact List.contains_iff_mem.mp hin
  · rw [if_neg hin]
    exact List.mem_append_right _ List.mem_cons_self

/-- A core with a reserve drains alone (R408). -/
theorem drainCore_of_reserve {s : State} {id : Nat} {k : Cluster} (hk : s.cluster (id / 4096) = some k) (hkind : id / 256 % 16 ≤ 1)
    (hres : (s.reserveCore k (id / 256 % 16)).isSome = true) : s.drainCore id = s.updCluster (id / 4096) fun k => k.withDrain id := by
  simp only [State.drainCore, hk, hkind, hres, and_self, if_true, cluster_idx hk]
  rfl

/-- It is among the cores that drain, and its cluster keeps its role. -/
theorem drainCore_cluster {s : State} {id : Nat} {k : Cluster} (hk : s.cluster (id / 4096) = some k) (hkind : id / 256 % 16 ≤ 1)
    (hres : (s.reserveCore k (id / 256 % 16)).isSome = true) :
    ∃ K, (s.drainCore id).cluster (id / 4096) = some K ∧ id ∈ K.draining ∧ K.role = k.role := by
  rw [drainCore_of_reserve hk hkind hres]
  exact ⟨_, cluster_updCluster hk _ fun _ => rfl, mem_withDrain k id, rfl⟩

/-- With WEAR_ACTION = 1 a worn core in service starts to drain (R406, R408). -/
theorem wearDetected_drains {s : State} (hrun : s.running = true) {id : Nat} {k : Cluster} (hon : bit (s.reg 0x10000 0) 16 = true) (hin : s.coreIn id = true)
    (hk : s.cluster (id / 4096) = some k) (hkind : id / 256 % 16 ≤ 1) (hres : (s.reserveCore k (id / 256 % 16)).isSome = true) :
    ∃ t K, exec (.wearDetected (.coreMargin id)) s = .next t ∧ t.cluster (id / 4096) = some K ∧ id ∈ K.draining ∧ K.role = k.role := by
  have hframe : TallyOnly s (s.log id 0x0030 0 255 0 1) := tallyOnly_log _ _ _ _ _ _ _
  have hexec : exec (.wearDetected (.coreMargin id)) s = .next (((s.log id 0x0030 0 255 0 1).drainCore id).wearDrain id) := by
    have hreg : (s.log id 0x0030 0 255 0 1).reg 0x10000 0 = s.reg 0x10000 0 := by
      rw [hframe]
      rfl
    have hin' : (s.log id 0x0030 0 255 0 1).coreIn id = true := by
      rw [hframe]
      exact hin
    simp only [exec, execWearDetected, wearRow, hrun, hreg, hon, hin']
    rfl
  have hk' : (s.log id 0x0030 0 255 0 1).cluster (id / 4096) = some k := by
    rw [hframe]
    exact hk
  have hres' : ((s.log id 0x0030 0 255 0 1).reserveCore k (id / 256 % 16)).isSome = true := by
    rw [hframe]
    exact hres
  obtain ⟨K, hcluster, hmem, hrole⟩ := drainCore_cluster hk' hkind hres'
  exact ⟨_, K, hexec, hcluster, hmem, hrole⟩

/-! ## Spares and the reservoir -/

/-- The time has come at which a reserve core has been powered (R407). -/
def State.poweredUp (s : State) (core at_ : Nat) : State :=
  { s.toTime at_ with fault := { s.fault with powering := s.fault.powering.filter fun p => p.1 ≠ core } }

/-- A cluster with a core in service. -/
def Cluster.serving (k : Cluster) (core : Nat) : Cluster :=
  k.setBitsOf (core / 256 % 16) (setBit (k.bitsOf (core / 256 % 16)).1 (core % 256) true, (k.bitsOf (core / 256 % 16)).2)

/-- A reserve core that has been powered serves under its own ID (R40, R407). -/
theorem spareInService_serves {s : State} {core : Nat} {p : Nat × Nat} {k : Cluster} (hp : s.fault.powering.find? (fun p => p.1 = core) = some p)
    (hk : s.cluster (core / 4096) = some k) : ∃ t K, exec (.spareInService core) s = .next t ∧ t.cluster (core / 4096) = some K ∧
      bit (K.bitsOf (core / 256 % 16)).1 (core % 256) = true ∧ (∀ q ∈ t.fault.powering, q.1 ≠ core) ∧ p.2 ≤ t.clock.now := by
  have hexec : exec (.spareInService core) s = .next ((s.poweredUp core p.2).updCluster (core / 4096) fun k => k.serving core) := by
    rw [exec, execSpareInService, hp]
    rfl
  refine ⟨_, k.serving core, hexec, cluster_updCluster (s := s.poweredUp core p.2) hk _ fun x => setBitsOf_idx x _ _, ?_, fun q hq => ?_, le_toTime s p.2⟩
  · rw [Cluster.serving, bitsOf_setBitsOf, bit_setBit, if_pos rfl]
  · have hmem : q ∈ s.fault.powering.filter fun p => p.1 ≠ core := hq
    exact of_decide_eq_true (List.mem_filter.mp hmem).2

/-- The reservoir cluster takes its place, and one spare cluster fewer is left (R407). -/
theorem reservoirClusterReady_serves {s : State} {r : Cluster} (hprep : s.place.clusters.find? (fun c => c.role = .preparing) = some r)
    (hr : s.cluster r.idx = some r) : ∃ t, exec .reservoirClusterReady s = .next t ∧ t.cluster r.idx = some { r with role := .inService } ∧
      t.sparesLeft 2 = s.sparesLeft 2 - 1 := by
  have hexec : exec .reservoirClusterReady s = .next ((s.updCluster r.idx fun k => { k with role := .inService }).useSpare 2) := by
    rw [exec, execReservoirClusterReady, hprep]
  refine ⟨_, hexec, ?_, sparesLeft_useSpare (s.updCluster r.idx fun k => { k with role := .inService }) 2⟩
  rw [sparesTaken_useSpare (s.updCluster r.idx fun k => { k with role := .inService }) 2]
  exact cluster_updCluster hr _ fun _ => rfl

/-- A reservoir cluster that fails its test is retired, and its kind is exhausted (R407, R416). -/
theorem reservoirTested_fails {s : State} {r : Cluster} (hr : s.cluster r.idx = some r) :
    (s.reservoirTested r false).cluster r.idx = some { r with role := .retired } ∧ bit (s.reservoirTested r false).fault.exhausted 2 = true ∧
      (s.reservoirTested r false).ops = s.ops := by
  have hcluster := cluster_updCluster hr (fun k => { k with role := .retired }) fun _ => rfl
  obtain ⟨hspare, hbit⟩ := exhaust_spec (((s.updCluster r.idx fun k => { k with role := .retired }).useSpare 2).unitGone (coreId r.idx 0xF 0) 2 0xFFFF 0) (coreId r.idx 0xF 0) 2
  have hall : SparesTaken (s.updCluster r.idx fun k => { k with role := .retired }) (s.reservoirTested r false) := (sparesTaken_replaced _ _ _ _ _).trans hspare
  refine ⟨?_, hbit, ?_⟩
  · rw [hall]
    exact hcluster
  · rw [hall]
    rfl

section Reservoir

variable {s : State} {r : Cluster} (hres : s.reserveCluster = some r)
include hres

theorem exec_reservoirDailyTest (hrun : s.running = true) (pass : Bool) : exec (.reservoirDailyTest pass) s = .next (s.reservoirTested r pass) := by
  rw [exec, execReservoirDailyTest, hres, hrun]
  rfl

theorem exec_prepare {id : Nat} {o : Op} (h : s.RunsSub id 0x4A 3 o) (pass : Bool) :
    exec (.prepare id pass) s = .next ((s.reservoirTested r pass).finish id (Res.ok 0 (b2n (!pass)))) := by
  rw [exec, execPrepare, runSub_of h, hres]

/-- The daily test and PREPARE keep a reservoir cluster that passes, and retire one that fails (R407, R416). -/
theorem reservoir_tested (hrun : s.running = true) (hr : s.cluster r.idx = some r) :
    (exec (.reservoirDailyTest true) s = .next s) ∧
    (∃ t, exec (.reservoirDailyTest false) s = .next t ∧ t.cluster r.idx = some { r with role := .retired } ∧ bit t.fault.exhausted 2 = true) ∧
    (∀ id o, s.RunsSub id 0x4A 3 o → (∃ t, exec (.prepare id true) s = .next t ∧ JustEnded s t id (Res.ok 0 0)) ∧
      (∃ t, exec (.prepare id false) s = .next t ∧ t.Ended id St.ok 0 1 ∧ t.cluster r.idx = some { r with role := .retired })) := by
  obtain ⟨hcluster, hbit, hops⟩ := reservoirTested_fails hr
  refine ⟨exec_reservoirDailyTest hres hrun true, ⟨_, exec_reservoirDailyTest hres hrun false, hcluster, hbit⟩, fun id o h => ⟨?pass, ?fail⟩⟩
  case pass => exact ⟨_, exec_prepare hres h true, justEnded_finish h.1.1 _⟩
  case fail => exact ⟨_, exec_prepare hres h false, ended_finish_of h.1.1 _ hops, hcluster⟩

end Reservoir

/-! ## RETIRE -/

/-- A RETIRE waits until its unit has left service (R416). -/
def State.awaitRetire (s : State) (op id : Nat) : State := ({ s with fault := { s.fault with retireOps := s.fault.retireOps ++ [(op, id)] } } : State).await op

theorem awaitRetire_findOp {s u : State} {op id : Nat} {o : Op} (hf : s.findOp op = some o) (hops : u.ops = s.ops) :
    (u.awaitRetire op id).findOp op = some { o with phase := .waiting, began := true } := by
  rw [State.awaitRetire, findOp_await, findOp_of_ops (s := s) (s' := { u with fault := { u.fault with retireOps := u.fault.retireOps ++ [(op, id)] } }) hops, hf]
  rfl

section RetireOp

variable {s : State} {id : Nat} {o : Op} (h : s.RunsSub id 0x4A 1 o)
include h

/-- RETIRE of a cluster in service: it drains, or there is no spare for it (R416). -/
theorem exec_retire_cluster {k : Cluster} (hk : s.cluster (o.u16 20 / 4096) = some k) (hwhole : o.u8 18 = 1) (hrole : k.role = .inService) : exec (.retire id) s =
    .next (if s.spareFor (o.u16 20) true = 0xFFFF ∧ ¬ bit (o.u8 17) 0 then s.finish id (Res.bound 0x70)
      else (s.updCluster (o.u16 20 / 4096) fun k => { k with role := .draining }).awaitRetire id (o.u16 20)) := by
  have hthere : ((s.cluster (o.u16 20 / 4096)).any fun k => k.role = .inService || k.role = .draining) = true := by simp [hk, hrole]
  rw [exec, execRetire, runSub_of h]
  simp only [hwhole, decide_true, if_true, hthere]
  rfl

/-- RETIRE of a core in service with a spare: it drains (R416). -/
theorem exec_retire_core (hcore : o.u8 18 = 0) (hin : s.coreIn (o.u16 20) = true) (hspare : s.spareFor (o.u16 20) false ≠ 0xFFFF) :
    exec (.retire id) s = .next ((s.drainCore (o.u16 20)).awaitRetire id (o.u16 20)) := by
  rw [exec, execRetire, runSub_of h]
  simp [hcore, hin, hspare, State.awaitRetire]

/-- RETIRE of a cluster waits while it drains; without a spare it ends at once unless it is forced; RETIRE of a core waits while the core drains (R416). -/
theorem retire_drains {k : Cluster} (hk : s.cluster (o.u16 20 / 4096) = some k) :
    (o.u8 18 = 1 → k.role = .inService → (s.spareFor (o.u16 20) true ≠ 0xFFFF ∨ bit (o.u8 17) 0 = true) → ∃ t, exec (.retire id) s = .next t ∧
      t.findOp id = some { o with phase := .waiting, began := true } ∧ t.cluster (o.u16 20 / 4096) = some { k with role := .draining } ∧
      t.fault.retireOps = s.fault.retireOps ++ [(id, o.u16 20)]) ∧
    (o.u8 18 = 1 → k.role = .inService → s.spareFor (o.u16 20) true = 0xFFFF → bit (o.u8 17) 0 = false → ∃ t, exec (.retire id) s = .next t ∧
      JustEnded s t id (Res.bound 0x70)) ∧
    (o.u8 18 = 0 → s.coreIn (o.u16 20) = true → o.u16 20 / 256 % 16 ≤ 1 → (s.reserveCore k (o.u16 20 / 256 % 16)).isSome = true → s.spareFor (o.u16 20) false ≠ 0xFFFF →
      ∃ t K, exec (.retire id) s = .next t ∧ t.findOp id = some { o with phase := .waiting, began := true } ∧ t.cluster (o.u16 20 / 4096) = some K ∧
        o.u16 20 ∈ K.draining ∧ K.role = k.role ∧ t.fault.retireOps = s.fault.retireOps ++ [(id, o.u16 20)]) := by
  refine ⟨fun hwhole hrole hspare => ?_, fun hwhole hrole hnone hforce => ?_, fun hcore hin hkind hres hspare => ?_⟩
  · have hgo : ¬ (s.spareFor (o.u16 20) true = 0xFFFF ∧ ¬ bit (o.u8 17) 0 = true) := fun ⟨h1, h2⟩ => hspare.elim (fun h => h h1) h2
    have hexec := exec_retire_cluster h hk hwhole hrole
    rw [if_neg hgo] at hexec
    exact ⟨_, hexec, awaitRetire_findOp h.1.1 rfl, cluster_updCluster hk _ fun _ => rfl, rfl⟩
  · have hexec := exec_retire_cluster h hk hwhole hrole
    rw [if_pos ⟨hnone, ne_true_of_eq_false hforce⟩] at hexec
    exact ⟨_, hexec, justEnded_finish h.1.1 _⟩
  · obtain ⟨K, hcluster, hmem, hrole⟩ := drainCore_cluster hk hkind hres
    have hdrain := drainCore_of_reserve hk hkind hres
    refine ⟨_, K, exec_retire_core h hcore hin hspare, awaitRetire_findOp h.1.1 (by rw [hdrain]; rfl), hcluster, hmem, hrole, ?_⟩
    rw [hdrain]
    rfl

end RetireOp

/-! ## The loss of a clock -/

theorem getElem?_updAt {α : Type} (f : α → α) (d i : Nat) (l : List α) : (updAt d f l)[i]? = if i = d then l[i]?.map f else l[i]? := by
  induction l generalizing d i with
  | nil => simp [updAt]
  | cons x t ih =>
    cases d with
    | zero => cases i <;> simp [updAt]
    | succ d => cases i <;> simp [updAt, ih]

/-- An element after a change of several that makes no difference the second time. -/
theorem getElem?_foldl_updAt {α : Type} (f : α → α) (hf : ∀ x, f (f x) = f x) (ds : List Nat) (l : List α) (i : Nat) :
    (ds.foldl (fun l d => updAt d f l) l)[i]? = if i ∈ ds then l[i]?.map f else l[i]? := by
  induction ds generalizing l with
  | nil => simp
  | cons d ds ih =>
    rw [List.foldl_cons, ih, getElem?_updAt]
    by_cases hd : i = d
    · have hff : f ∘ f = f := funext hf
      simp [hd, hff]
    · simp [hd]

/-- The states of several power domains changed alike. -/
def State.setDomains (s : State) (ds : List Nat) (f : Domain → Domain) : State :=
  { s with power := { s.power with domains := ds.foldl (fun l d => updAt d f l) s.power.domains } }

theorem foldl_setDomain (f : Domain → Domain) (ds : List Nat) (s : State) : ds.foldl (fun (s : State) d => s.setDomain d f) s = s.setDomains ds f := by
  induction ds generalizing s with
  | nil => rfl
  | cons d ds ih => exact ih (s.setDomain d f)

theorem domOn_eq (s : State) (d : Nat) : s.domOn d = (s.power.domains[d]?).any fun x => x.state = .on && x.released := rfl

/-- A domain that re-enters reset (R438). -/
def Domain.reset (x : Domain) : Domain := { x with released := false }

/-- A domain that is released again where it is on (R446). -/
def Domain.resumed (x : Domain) : Domain := if x.state = .on then { x with released := true } else x

theorem Domain.resumed_resumed (x : Domain) : x.resumed.resumed = x.resumed := by
  unfold Domain.resumed
  by_cases h : x.state = .on
  · simp [h]
  · simp [h]

/-- The core ID that stands for a clock generator in the log (log entry 47). -/
def genSource (g : Nat) : Nat := if g < 13 then coreId g 0xF 0 else dieUnit g

/-- The loss of a clock is counted and logged (R409, R446). -/
def State.clockLogged (s : State) (g : Nat) : State := (s.bump Ctr.clockLoss).log (genSource g) 0x0033 2 255 0 g

/-- The device while the spare PLL of a generator locks: its domains are in reset and its ports down (R438, R446). -/
def State.relocking (s : State) (g : Nat) : State :=
  let u := (s.setDomains (genDomains g) Domain.reset).genPorts g
  { u with power := { u.power with clockLost := u.power.clockLost ++ [(g, u.clock.now)], pllUsed := u.power.pllUsed ++ [g] } }

/-- Ports that go down with a generator leave all but net and fabric. -/
theorem genPorts_frame (s : State) (g : Nat) : s.genPorts g = { s with net := (s.genPorts g).net, fabric := (s.genPorts g).fabric } := by
  unfold State.genPorts
  split
  · rfl
  · split <;> rfl

theorem relocking_spec (s : State) (g : Nat) :
    (s.relocking g).power.clockLost = s.power.clockLost ++ [(g, s.clock.now)] ∧ (s.relocking g).power.pllUsed = s.power.pllUsed ++ [g] ∧
      (s.relocking g).tally = s.tally ∧ ∀ d ∈ genDomains g, (s.relocking g).domOn d = false := by
  have hports := genPorts_frame (s.setDomains (genDomains g) Domain.reset) g
  have hdomains : (s.relocking g).power.domains = (genDomains g).foldl (fun l d => updAt d Domain.reset l) s.power.domains := by
    rw [State.relocking, hports]
    rfl
  refine ⟨?_, ?_, ?_, fun d hd => ?_⟩
  · rw [State.relocking, hports]
    rfl
  · rw [State.relocking, hports]
    rfl
  · rw [State.relocking, hports]
    rfl
  · rw [domOn_eq, hdomains, getElem?_foldl_updAt Domain.reset (fun _ => rfl), if_pos hd]
    cases s.power.domains[d]? with
    | none => rfl
    | some x => exact Bool.and_false _

section ClockLoss

variable {s : State} {g : Nat} (hrun : s.running = true) (hg : g < 20) (hthere : g < 13 → (s.cluster g).isSome = true) (hnot : ∀ c ∈ s.power.clockLost, c.1 ≠ g)
include hrun hg hthere hnot

/-- CLOCK_LOSS with and without a spare PLL (R446). -/
theorem exec_clockLoss : exec (.clockLoss g) s = .next (if g ∈ s.power.pllUsed then ((s.clockLogged g).exhaust (dieUnit 4) 8).deviceFault 0x0033
    else (((s.clockLogged g).useSpare 8).unitGone (genSource g) 8 0xFFFF g).relocking g) := by
  have hguard : (!s.running || decide (20 ≤ g) || (decide (g < 13) && !(s.cluster g).isSome) || (s.power.clockLost.any fun c => c.1 = g)) = false := by
    have hlost : (s.power.clockLost.any fun c => c.1 = g) = false := by simpa using hnot
    simpa [hrun, hg, hlost] using hthere
  have hpll : (s.clockLogged g).power.pllUsed.contains g = decide (g ∈ s.power.pllUsed) := by
    rw [State.clockLogged, log_power, List.contains_eq_mem]
    rfl
  simp only [exec, execClockLoss, hguard, foldl_setDomain, Bool.false_eq_true, if_false]
  by_cases hused : g ∈ s.power.pllUsed
  · rw [if_pos hused]
    exact if_pos (hpll.trans (decide_eq_true hused))
  · rw [if_neg hused]
    exact if_neg (ne_true_of_eq_false (hpll.trans (decide_eq_false hused)))

/-- With a spare PLL the generator's domains are in reset while it locks; without one the device enters safe hold (R409, R446). -/
theorem clockLoss_relocks :
    (g ∉ s.power.pllUsed → ∃ t, exec (.clockLoss g) s = .next t ∧ t.power.clockLost = s.power.clockLost ++ [(g, s.clock.now)] ∧ t.power.pllUsed = s.power.pllUsed ++ [g] ∧
      t.counter Ctr.clockLoss 0 = (s.counter Ctr.clockLoss 0 + 1) % 2 ^ 64 ∧ (∀ d ∈ genDomains g, t.domOn d = false)) ∧
    (g ∈ s.power.pllUsed → ∃ t, exec (.clockLoss g) s = .next t ∧ t.fault.safeHold = true) := by
  have hexec := exec_clockLoss hrun hg hthere hnot
  have hlogged : TallyOnly s (s.clockLogged g) := (tallyOnly_bump s _).trans (tallyOnly_log _ _ _ _ _ _ _)
  refine ⟨fun hfree => ?_, fun hused => ?_⟩
  · rw [if_neg hfree] at hexec
    have hspare := hlogged.sparesTaken.trans (sparesTaken_replaced (s.clockLogged g) (genSource g) 8 0xFFFF g)
    have hctr := counter_replaced (s.clockLogged g) (genSource g) 8 0xFFFF g Ctr.clockLoss (by decide)
    have hlogctr : (s.clockLogged g).counter Ctr.clockLoss 0 = (s.counter Ctr.clockLoss 0 + 1) % 2 ^ 64 := by
      rw [State.clockLogged, counter_log _ _ _ _ _ _ _ _ _ (by decide) (by decide), State.bump, counter_bumpBy _ _ _ _ _ _ (by decide) (by decide), if_pos ⟨rfl, rfl⟩]
    generalize ((s.clockLogged g).useSpare 8).unitGone (genSource g) 8 0xFFFF g = u at hexec hspare hctr
    obtain ⟨hlost, hpll, htally, hdark⟩ := relocking_spec u g
    refine ⟨_, hexec, ?_, ?_, ?_, hdark⟩
    · rw [hlost, hspare]
    · rw [hpll, hspare]
    · rw [State.counter, htally]
      exact hctr.trans hlogctr
  · rw [if_pos hused] at hexec
    obtain ⟨hspare, -⟩ := exhaust_spec (s.clockLogged g) (dieUnit 4) 8
    have hrun' : ((s.clockLogged g).exhaust (dieUnit 4) 8).running = true := by
      rw [hlogged.sparesTaken.trans hspare]
      exact hrun
    exact ⟨_, hexec, enterSafeHold_of_running hrun' 0x0033⟩

end ClockLoss

/-- The device when the spare PLL of a generator has locked: its domains are released (R446). -/
def State.locked (s : State) (c : Nat × Nat) : State :=
  let u := s.toTime (c.2 + 12000 + genCycles c.1)
  ({ u with power := { u.power with clockLost := u.power.clockLost.filter fun x => x.1 ≠ c.1 } } : State).setDomains (genDomains c.1) Domain.resumed

/-- What is replayed afterwards leaves power and time as they are. -/
theorem sparePllLocked_power {s : State} {c : Nat × Nat} (hc : s.power.clockLost.find? (fun x => x.1 = c.1) = some c) :
    ∃ t, exec (.sparePllLocked c.1) s = .next t ∧ t.power = (s.locked c).power ∧ t.clock = (s.locked c).clock := by
  have hops : ∀ (l : List Op), Replayed (s.locked c) (l.foldl (fun (s : State) o => s.replayOp o.id) (s.locked c)) := fun l =>
    replayed_foldl _ (fun s o => replayed_replayOp s o.id) l _
  simp only [exec, execSparePllLocked, hc, foldl_setDomain]
  split
  · have hwork := replayed_replayCluster (s.locked c) c.1
    exact ⟨_, rfl, hwork.power, hwork.clock⟩
  · split
    · exact ⟨_, rfl, (hops _).power, (hops _).clock⟩
    · split
      · exact ⟨_, rfl, (hops _).power, (hops _).clock⟩
      · exact ⟨_, rfl, rfl, rfl⟩

/-- SPARE_PLL_LOCKED: 12 µs and 64 cycles after the loss the domains that were on are on again (R446). -/
theorem sparePllLocked_releases {s : State} {c : Nat × Nat} (hc : s.power.clockLost.find? (fun x => x.1 = c.1) = some c) :
    ∃ t, exec (.sparePllLocked c.1) s = .next t ∧ (∀ x ∈ t.power.clockLost, x.1 ≠ c.1) ∧ c.2 + 12000 + genCycles c.1 ≤ t.clock.now ∧
      (∀ d ∈ genDomains c.1, ∀ x, s.power.domains[d]? = some x → x.state = .on → t.domOn d = true) := by
  obtain ⟨t, hexec, hpower, hclock⟩ := sparePllLocked_power hc
  refine ⟨t, hexec, fun x hx => ?_, ?_, fun d hd x hx hon => ?_⟩
  · rw [hpower] at hx
    exact of_decide_eq_true (List.mem_filter.mp hx).2
  · rw [hclock]
    exact le_toTime s _
  · have hdomains : (s.locked c).power.domains = (genDomains c.1).foldl (fun l d => updAt d Domain.resumed l) s.power.domains := rfl
    rw [domOn_eq, hpower, hdomains, getElem?_foldl_updAt _ Domain.resumed_resumed, if_pos hd, hx]
    simp [Domain.resumed, hon]

/-! ## The obligation -/

/-- Settles O58: each clause by the lemma of its command; what is replayed or logged besides is followed by what it leaves (`Replayed`, `SparesTaken`). -/
theorem failedPiecesAreRetriedAndUnitsReplaced : Obligations.FailedPiecesAreRetriedAndUnitsReplaced := by
  intro s hrun
  refine ⟨?failure, ?expiry, ?core, ?die, fun w => wearDetected_logs hrun w, ?wear, ?spare, ?ready, ?test, fun id o k h => retire_drains h, ?loss, ?locked⟩
  case failure =>
    rintro id o piece core n hf hfinal hheld hdead rfl
    have hexec := exec_pieceFailure hrun hf hfinal hheld hdead piece core
    refine ⟨fun hleft hbudget => ?_, fun hno => ?_, exec_pieceFailure_recurs hrun hf hfinal hheld hdead⟩
    · obtain ⟨hop, hctr, hframe⟩ := attempt_tries hf hleft hbudget
      exact ⟨_, _, hexec, hop, rfl, rfl, rfl, rfl, rfl, hctr, hframe⟩
    · obtain ⟨d, hend⟩ := attempt_ends hf hno
      exact ⟨_, d, hexec, hend⟩
  case expiry =>
    rintro id o u n hf hfinal hretry hends rfl rfl
    have hf' : (s.toTime o.attemptEnds).findOp id = some o := by rw [toTime_findOp, hf]
    have hexec := exec_retryBudgetExpiry hrun hf hfinal hretry hends
    refine ⟨fun hleft hbudget => ?_, fun hno => ?_⟩
    · obtain ⟨hop, -⟩ := attempt_tries hf' hleft hbudget
      exact ⟨_, _, hexec, hop, rfl, rfl⟩
    · obtain ⟨d, hend⟩ := attempt_ends hf' hno
      exact ⟨_, d, hexec, hend⟩
  case core =>
    rintro id _ _ _ k j rfl rfl rfl hkind hk hbit hj
    exact ⟨unitRetired_core hk hkind hbit hj hrun, drainComplete_core hk hkind hbit hj hrun⟩
  case die =>
    intro id hid
    have hexec : exec (.unitRetired (.core id)) s = .next (s.deviceFault 0x0031) := by rw [exec, execUnitRetired, if_pos hrun, State.unitFails, if_pos hid]
    exact ⟨_, hexec, enterSafeHold_of_running hrun 0x0031⟩
  case wear => exact fun id k hon hin hk hkind hres => wearDetected_drains hrun hon hin hk hkind hres
  case spare => exact fun core p k hp hk => spareInService_serves hp hk
  case ready => exact fun r hprep hr => reservoirClusterReady_serves hprep hr
  case test => exact fun r hres hr => reservoir_tested hres hrun hr
  case loss => exact fun g hg hthere hnot => clockLoss_relocks hrun hg hthere hnot
  case locked => exact fun c _ hc => sparePllLocked_releases hc

end Sys2Proof.Machine

/-! # Doorbell slots and started operations

NOP and FENCE (R83, R100), a doorbell slot read (R69, R70), WAKE_WHEN (R74) and the start of a held operation (R78, R100). -/

namespace Sys2Proof.Machine

/-! ## NOP and FENCE -/

/-- Settles O6: NOP finishes; FENCE finishes where nothing in its scope is pending, and otherwise has begun and stays started (R83, R100). -/
theorem nopAndFenceComplete : Obligations.NopAndFenceComplete := by
  refine ⟨fun s id o h => ?nop, fun s id o h => ⟨fun hdone => ?done, fun hwait => ?waits⟩⟩
  case nop => exact ⟨_, runOp_of h _, ended_finish h.1 (Res.ok 0 0), othersKept_finish s id _, finish_frame s id _⟩
  case done =>
    have hexec : exec (.fence id) s = .next (s.finish id (Res.ok 0 o.waitedFor)) := by
      rw [exec, execFence, runOp_of h, hdone]
      rfl
    exact ⟨_, hexec, ended_finish h.1 (Res.ok 0 o.waitedFor), othersKept_finish s id _, finish_frame s id _⟩
  case waits =>
    have hexec : exec (.fence id) s = .next (s.begin id) := by
      rw [exec, execFence, runOp_of h, hwait]
      rfl
    obtain ⟨hfind, hstarted, -, -⟩ := h
    refine ⟨_, hexec, ⟨{ o with began := true }, ?_, hstarted, rfl⟩, othersKept_begin s id, rfl⟩
    rw [findOp_begin, hfind]
    rfl

/-! ## Doorbell slots -/

/-- A slot with a reserved bit set or an index beyond the ring is invalid (R70). -/
theorem slotIndex_of_invalid {s : State} {addr size : Nat} (h : 65536 ≤ leNat (s.readMem addr 4) ∨ size ≤ leNat (s.readMem addr 4)) :
    slotIndex s addr size = none := by
  rw [slotIndex]
  exact if_neg (by omega)

/-- Any other slot holds its index (R69). -/
theorem slotIndex_of_valid {s : State} {addr size : Nat} (h : leNat (s.readMem addr 4) < min 65536 size) :
    slotIndex s addr size = some (leNat (s.readMem addr 4)) := by
  rw [slotIndex]
  exact if_pos (by omega)

theorem readTail_of_none {s : State} {fn n : Nat} (h : slotIndex s ((s.fncNow fn).sqSlot n) (cfgSize (s.sq fn n).cfg) = none) :
    s.readTail fn n = s.bump Ctr.doorbellInvalid := by simp only [State.readTail, h]

theorem readTail_of_some {s : State} {fn n v : Nat} (h : slotIndex s ((s.fncNow fn).sqSlot n) (cfgSize (s.sq fn n).cfg) = some v) :
    s.readTail fn n = s.setSq fn n { s.sq fn n with tail := v } := by simp only [State.readTail, h]

theorem readHead_of_none {s : State} {fn m : Nat} (h : slotIndex s ((s.fncNow fn).cqSlot m) (cfgSize (s.cq fn m).cfg) = none) :
    s.readHead fn m = s.bump Ctr.doorbellInvalid := by simp only [State.readHead, h]

theorem readHead_of_some {s : State} {fn m v : Nat} (h : slotIndex s ((s.fncNow fn).cqSlot m) (cfgSize (s.cq fn m).cfg) = some v) :
    s.readHead fn m = s.setCq fn m { s.cq fn m with hostHead := v } := by simp only [State.readHead, h]

/-- An event counted moves its counter on by one, and no ring (R423). -/
theorem bump_doorbellInvalid (s : State) : (s.bump Ctr.doorbellInvalid).rings = s.rings ∧
    (s.bump Ctr.doorbellInvalid).counter 0x102 0 = (s.counter 0x102 0 + 1) % 2 ^ 64 :=
  ⟨rfl, by rw [State.bump, counter_bumpBy _ _ _ _ _ _ (by decide) (by decide), if_pos ⟨rfl, rfl⟩]⟩

/-- Settles O7: an invalid slot gives no index, and what is left of reading it is the count. -/
theorem invalidDoorbellSlotIsIgnored : Obligations.InvalidDoorbellSlotIsIgnored := by
  intro s fn n
  constructor
  · rintro v rfl hinvalid
    rw [readTail_of_none (slotIndex_of_invalid hinvalid)]
    exact bump_doorbellInvalid s
  · rintro v rfl hinvalid
    rw [readHead_of_none (slotIndex_of_invalid hinvalid)]
    exact bump_doorbellInvalid s

/-- Settles O8: the two branches of R74, whose condition is WAKE_WHEN_EN with all descriptors fetched. -/
theorem wakeWhenFollowsHead : Obligations.WakeWhenFollowsHead := by
  intro c
  refine ⟨fun henabled hfetched => if_pos ⟨henabled, hfetched⟩, fun hother => if_neg ?_⟩
  rintro ⟨henabled, hfetched⟩
  cases hother with
  | inl hoff => exact absurd henabled (by simp [hoff])
  | inr hleft => exact hleft hfetched

/-! ## Held operations -/

/-- From s to t operations may have had their buffers marked as settled; each is otherwise the same. -/
def MarkedOnly (s t : State) : Prop := ∀ i, ∃ b : Op → Bool, t.findOp i = (s.findOp i).map fun o => { o with blurred := b o }

theorem MarkedOnly.of_ops {s t : State} (h : t.ops = s.ops) : MarkedOnly s t := fun i => ⟨fun o => o.blurred, by simp [findOp_of_ops h]⟩

theorem MarkedOnly.trans {a b c : State} (h1 : MarkedOnly a b) (h2 : MarkedOnly b c) : MarkedOnly a c := by
  intro i
  obtain ⟨m1, hm1⟩ := h1 i
  obtain ⟨m2, hm2⟩ := h2 i
  exact ⟨fun o => m2 { o with blurred := m1 o }, by rw [hm2, hm1, Option.map_map]; rfl⟩

theorem markedOnly_blurBufs (s : State) (o : Op) : MarkedOnly s (s.blurBufs o) := by
  have hwrite : ∀ (u : State) (p : Nat × Nat), MarkedOnly u ((u.writeMem p.1 ((List.range p.2).map fun i => BitVec.ofNat 8 (Config.freeNat (u.free + i)))).spend p.2) :=
    fun _ _ => .of_ops rfl
  have hmark : ∀ u : State, MarkedOnly u (u.updOp o.id fun o => { o with blurred := true }) := by
    intro u i
    by_cases hi : i = o.id
    · subst hi
      exact ⟨fun _ => true, findOp_updOp u o.id (fun o => { o with blurred := true }) fun _ => rfl⟩
    · exact ⟨fun o => o.blurred, by rw [findOp_updOp_ne u o.id i (fun o => { o with blurred := true }) (fun _ => rfl) hi]; simp⟩
  unfold State.blurBufs
  split
  · exact .of_ops rfl
  · refine MarkedOnly.trans ?_ (hmark _)
    exact List.foldlRecOn o.bufs _ (.of_ops rfl) fun u hu p _ => hu.trans (hwrite u p)

theorem markedOnly_settleBufs (s : State) : MarkedOnly s s.settleBufs :=
  List.foldlRecOn s.ops.list State.blurBufs (.of_ops rfl) fun u hu o _ => hu.trans (markedOnly_blurBufs u o)

theorem exec_operationStart {s : State} {id : Nat} {o : Op} (hfind : s.findOp id = some o) : exec (.operationStart id) s =
    if o.phase = .held ∧ ¬ s.fenced o ∧ ¬ s.orderHeld o then
      .next (s.settleBufs.updOp id fun o => { o with phase := .started, readyAt := s.clock.now }) else .next s := by
  simp only [exec, execOperationStart, hfind]

/-- Settles O11: earlier results are settled, which marks operations alone (`markedOnly_settleBufs`), and then the operation is started. -/
theorem heldOperationStarts : Obligations.HeldOperationStarts := by
  intro s id o hfind hheld
  refine ⟨fun hfence horder => ?starts, fun hstays => ?stays⟩
  case stays =>
    rw [exec_operationStart hfind]
    refine if_neg ?_
    rintro ⟨-, hfence, horder⟩
    exact hstays.elim hfence horder
  case starts =>
    have hexec := exec_operationStart hfind
    rw [if_pos ⟨hheld, by simp [hfence], by simp [horder]⟩] at hexec
    obtain ⟨hframe, -⟩ := bufsSettled_settleBufs s
    obtain ⟨mark, hmark⟩ := markedOnly_settleBufs s id
    refine ⟨_, { o with phase := .started, readyAt := s.clock.now, blurred := mark o }, hexec, ?_, rfl, fun i hi => ?_, ?_⟩
    · rw [findOp_updOp _ id (fun o => { o with phase := .started, readyAt := s.clock.now }) fun _ => rfl, hmark, hfind]
      rfl
    · obtain ⟨marks, hmarks⟩ := markedOnly_settleBufs s i
      rw [findOp_updOp_ne _ id i (fun o => { o with phase := .started, readyAt := s.clock.now }) (fun _ => rfl) hi, hmarks, Option.map_map]
      rfl
    · rw [updOp_frame, hframe]

end Sys2Proof.Machine

/-! # Sweeps

What a sweep of doorbell slots changes: the contexts of submission rings but for their configuration and head, write-back records, and the counters (R66 to
R76). The tail of a ring ends as the index in its slot where no record overlaps the slot. -/

namespace Sys2Proof.Machine

/-! ## What reading slots and writing records changes -/

/-- An address outside the write-back areas of the functions of P (R71). -/
def State.offRecords (s : State) (P : Nat → Prop) (a : Nat) : Prop := ∀ fn, P fn →
  a < ringBase (s.fncNow fn).wbLo (s.fncNow fn).wbHi ∨ ringBase (s.fncNow fn).wbLo (s.fncNow fn).wbHi + 8 * (s.fncNow fn).sqCount ≤ a

/-- From s to t submission rings of the functions of P were brought up to date: contexts keep configuration and head, and memory changes in those
functions' write-back areas alone (R71, R72). -/
structure Swept (P : Nat → Prop) (s t : State) : Prop where
  frame : t = { s with rings := { s.rings with sq := t.rings.sq }, mem := t.mem, tiers := t.tiers, tally := t.tally }
  ctx : ∀ g m, (t.sq g m).cfg = (s.sq g m).cfg ∧ (t.sq g m).head = (s.sq g m).head
  entries : ∀ e ∈ t.rings.sq, e ∈ s.rings.sq ∨ P (e.1 / 32768)
  mem : ∀ a, s.offRecords P a → t.mem.byte a = s.mem.byte a

theorem Swept.fncNow {P : Nat → Prop} {s t : State} (h : Swept P s t) (g : Nat) : t.fncNow g = s.fncNow g := by
  rw [h.frame]
  rfl

theorem Swept.cq {P : Nat → Prop} {s t : State} (h : Swept P s t) (g m : Nat) : t.cq g m = s.cq g m := by
  rw [h.frame]
  rfl

theorem Swept.refl (P : Nat → Prop) (s : State) : Swept P s s := ⟨rfl, fun _ _ => ⟨rfl, rfl⟩, fun _ => .inl, fun _ _ => rfl⟩

theorem Swept.trans {P : Nat → Prop} {a b c : State} (h1 : Swept P a b) (h2 : Swept P b c) : Swept P a c where
  frame := by rw [h2.frame, h1.frame]
  ctx g m := ⟨(h2.ctx g m).1.trans (h1.ctx g m).1, (h2.ctx g m).2.trans (h1.ctx g m).2⟩
  entries e he := (h2.entries e he).elim (h1.entries e) .inr
  mem x hx := (h2.mem x fun fn hfn => by rw [h1.fncNow]; exact hx fn hfn).trans (h1.mem x hx)

theorem TallyOnly.swept {P : Nat → Prop} {s t : State} (h : TallyOnly s t) : Swept P s t := by
  rw [h]
  exact ⟨rfl, fun _ _ => ⟨rfl, rfl⟩, fun _ => .inl, fun _ _ => rfl⟩

/-- The entries of a table after a write: those before it, and one of the key. -/
theorem Store.mem_set {β : Type} [DecidableEq β] {d : Nat → β} {k : Nat} {v : β} {l : Store β} {e : Nat × β} (h : e ∈ Store.set d k v l) : e ∈ l ∨ e.1 = k := by
  have hput : ∀ l : Store β, e ∈ Store.put k v l → e ∈ l ∨ e.1 = k := by
    intro l
    induction l with
    | nil => intro h; rw [List.mem_singleton.mp h]; exact .inr rfl
    | cons x t ih =>
      intro h
      unfold Store.put at h
      split at h
      · rcases List.mem_cons.mp h with rfl | ht
        · exact .inr rfl
        · exact .inl ht
      · split at h
        · rcases List.mem_cons.mp h with rfl | ht
          · exact .inr rfl
          · exact .inl (List.mem_cons_of_mem _ ht)
        · rcases List.mem_cons.mp h with rfl | ht
          · exact .inl List.mem_cons_self
          · exact (ih ht).imp_left (List.mem_cons_of_mem _)
  unfold Store.set at h
  split at h
  · exact .inl (List.mem_filter.mp h).1
  · exact hput l h

theorem ringKey_div {n : Nat} (fn : Nat) (h : n < 32768) : ringKey fn n / 32768 = fn := by unfold ringKey; omega

theorem record_length (c : SqCtx) : c.record.length = 8 := by simp [SqCtx.record, leBytes_length, zeros]

section Swept

variable {P : Nat → Prop} {fn n : Nat} (hP : P fn)
include hP

theorem swept_writeRecord (s : State) : Swept P s (s.writeRecord fn n) := by
  rw [State.writeRecord]
  split
  next hn =>
    refine ⟨rfl, fun _ _ => ⟨rfl, rfl⟩, fun _ => .inl, fun a ha => ?_⟩
    have hout := ha fn hP
    rw [State.writeMem, Memory.byte_write, if_neg (by rw [record_length]; omega)]
  next => exact .refl P s

variable (hn : n < 32768)
include hn

theorem swept_setSq {s : State} {c : SqCtx} (hcfg : c.cfg = (s.sq fn n).cfg) (hhead : c.head = (s.sq fn n).head) : Swept P s (s.setSq fn n c) := by
  refine ⟨rfl, fun g m => ?_, fun e he => ?_, fun _ _ => rfl⟩
  · rw [sq_setSq]
    split
    next hkey =>
      have hsame : s.sq g m = s.sq fn n := by rw [State.sq, hkey]; rfl
      exact ⟨by rw [hcfg, hsame], by rw [hhead, hsame]⟩
    next => exact ⟨rfl, rfl⟩
  · have hentry : e ∈ s.rings.sq ∨ e.1 = ringKey fn n := Store.mem_set (d := fun _ => ({} : SqCtx)) (v := c) he
    refine hentry.imp_right fun hkey => ?_
    rw [hkey, ringKey_div fn hn]
    exact hP

theorem swept_readTail (s : State) : Swept P s (s.readTail fn n) := by
  cases hslot : slotIndex s ((s.fncNow fn).sqSlot n) (cfgSize (s.sq fn n).cfg) with
  | none => rw [readTail_of_none hslot]; exact (tallyOnly_bump s _).swept
  | some v => rw [readTail_of_some hslot]; exact swept_setSq hP hn rfl rfl

theorem swept_writeBack (s : State) : Swept P s (s.writeBack fn n) := by
  have hrecord : Swept P s (s.writeRecord fn n) := swept_writeRecord hP s
  have hread := hrecord.trans (swept_readTail hP hn _)
  unfold State.writeBack
  dsimp only
  split
  · split
    · exact hread
    · exact hread.trans (swept_writeRecord hP _)
  · exact hrecord

theorem swept_putSq {s : State} {c : SqCtx} (hcfg : c.cfg = (s.sq fn n).cfg) (hhead : c.head = (s.sq fn n).head) : Swept P s (s.putSq fn n c) := by
  have hset : Swept P s (s.setSq fn n c) := swept_setSq hP hn hcfg hhead
  unfold State.putSq
  dsimp only
  split
  · exact hset
  · exact hset.trans (swept_writeBack hP hn _)

theorem swept_setStall (s : State) (tags cq : Bool) : Swept P s (s.setStall fn n tags cq) := by
  have hend : Swept P s (s.endStall fn n tags cq) := (tallyOnly_endStall s fn n tags cq).swept
  obtain ⟨hcfg, hhead⟩ := hend.ctx fn n
  exact hend.trans (swept_putSq hP hn hcfg.symm hhead.symm)

theorem swept_noteStall (s : State) : Swept P s (s.noteStall fn n) := swept_setStall hP hn s _ _

theorem swept_sweepSq (s : State) : Swept P s (s.sweepSq fn n) := by
  have hread : Swept P s (s.readTail fn n) := swept_readTail hP hn s
  unfold State.sweepSq
  dsimp only
  refine Swept.trans ?_ (swept_noteStall hP hn _)
  split
  · exact hread
  · exact hread.trans (swept_writeBack hP hn _)

end Swept

/-- A ring that waits for a tag or for completion space (R59, R67). -/
def SqCtx.stalled (c : SqCtx) : Bool := c.stalledTags || c.stalledCq

theorem swept_restall {P : Nat → Prop} {s : State} (h : ∀ e ∈ s.rings.sq, e.2.stalled = true → P (e.1 / 32768)) : Swept P s s.restall :=
  List.foldlRecOn _ _ (.refl P s) fun u hu e he =>
    hu.trans (swept_noteStall (h e (List.mem_filter.mp he).1 (List.mem_filter.mp he).2) (Nat.mod_lt _ (by decide)) u)

theorem restall_of_none {s : State} (h : ∀ e ∈ s.rings.sq, e.2.stalled = false) : s.restall = s := by
  have hnone : (s.rings.sq.filter fun e => e.2.stalledTags || e.2.stalledCq) = [] := List.filter_eq_nil_iff.mpr fun e he => by
    simpa [SqCtx.stalled] using h e he
  rw [State.restall, hnone]
  rfl

/-! ## The tail that a sweep leaves -/

/-- The slot of a submission ring holds a valid index v and lies outside the write-back area of its function (R68 to R70). -/
structure State.SlotHolds (s : State) (fn n v : Nat) : Prop where
  index : slotIndex s ((s.fncNow fn).sqSlot n) (cfgSize (s.sq fn n).cfg) = some v
  apart : ∀ a, (s.fncNow fn).sqSlot n ≤ a → a < (s.fncNow fn).sqSlot n + 4 → s.offRecords (Eq fn) a

/-- The slot holds its index still after rings of its function were swept. -/
theorem State.SlotHolds.swept {s t : State} {fn n v : Nat} (h : s.SlotHolds fn n v) (hst : Swept (Eq fn) s t) : t.SlotHolds fn n v := by
  obtain ⟨hindex, hapart⟩ := h
  have hread : t.readMem ((s.fncNow fn).sqSlot n) 4 = s.readMem ((s.fncNow fn).sqSlot n) 4 :=
    Memory.read_congr fun a hlo hhi => hst.mem a (hapart a hlo hhi)
  refine ⟨?_, fun a hlo hhi g hg => ?_⟩
  · rw [hst.fncNow, (hst.ctx fn n).1, slotIndex, hread]
    exact hindex
  · rw [hst.fncNow] at hlo hhi ⊢
    exact hapart a hlo hhi g hg

theorem ringKey_inj {fn m n : Nat} (h : ringKey fn n = ringKey fn m) : m = n := by unfold ringKey at h; omega

section Tail

variable {s : State} {fn n v : Nat} (hslot : s.SlotHolds fn n v)
include hslot

/-- A slot read of any ring of the function leaves the ring's tail at the index in its own slot, or as it was. -/
theorem readTail_tail {m : Nat} (h : m = n ∨ (s.sq fn n).tail = v) : ((s.readTail fn m).sq fn n).tail = v := by
  by_cases hm : m = n
  · subst hm
    rw [readTail_of_some hslot.index, sq_setSq_same]
  · have htail := h.resolve_left hm
    cases hread : slotIndex s ((s.fncNow fn).sqSlot m) (cfgSize (s.sq fn m).cfg) with
    | none => rw [readTail_of_none hread]; exact htail
    | some w => rw [readTail_of_some hread, sq_setSq, if_neg fun hkey => hm (ringKey_inj hkey)]; exact htail

variable (htail : (s.sq fn n).tail = v) {m : Nat} (hm : m < 32768)
include htail

theorem writeBack_tail : ((s.writeBack fn m).sq fn n).tail = v := by
  have hrecord : Swept (Eq fn) s (s.writeRecord fn m) := swept_writeRecord rfl s
  have hread : (((s.writeRecord fn m).readTail fn m).sq fn n).tail = v := readTail_tail (hslot.swept hrecord) (.inr (by rw [sq_writeRecord]; exact htail))
  unfold State.writeBack
  dsimp only
  split
  · split
    · exact hread
    · rw [sq_writeRecord]; exact hread
  · rw [sq_writeRecord]; exact htail

include hm

theorem putSq_tail {c : SqCtx} (hc : c.cfg = (s.sq fn m).cfg ∧ c.head = (s.sq fn m).head ∧ c.tail = (s.sq fn m).tail) : ((s.putSq fn m c).sq fn n).tail = v := by
  obtain ⟨hcfg, hhead, hsame⟩ := hc
  have hset : ((s.setSq fn m c).sq fn n).tail = v := by
    rw [sq_setSq]
    split
    next hkey => rw [hsame, ringKey_inj hkey]; exact htail
    next => exact htail
  unfold State.putSq
  dsimp only
  split
  · exact hset
  · exact writeBack_tail (hslot.swept (swept_setSq rfl hm hcfg hhead)) hset

theorem noteStall_tail : ((s.noteStall fn m).sq fn n).tail = v := by
  rw [noteStall_spec, State.setStall]
  generalize hu : s.endStall fn m _ _ = u
  have hend : TallyOnly s u := hu ▸ tallyOnly_endStall s fn m _ _
  have hsq : ∀ m, u.sq fn m = s.sq fn m := fun m => by rw [hend]; rfl
  exact putSq_tail (hslot.swept hend.swept) (by rw [hsq]; exact htail) hm (by rw [hsq]; exact ⟨rfl, rfl, rfl⟩)

end Tail

theorem sweepSq_tail {s : State} {fn n v : Nat} (hslot : s.SlotHolds fn n v) {m : Nat} (hm : m < 32768) (h : m = n ∨ (s.sq fn n).tail = v) :
    ((s.sweepSq fn m).sq fn n).tail = v := by
  have hread : Swept (Eq fn) s (s.readTail fn m) := swept_readTail rfl hm s
  have htail := readTail_tail hslot h
  unfold State.sweepSq
  dsimp only
  split
  · exact noteStall_tail (hslot.swept hread) htail hm
  · exact noteStall_tail ((hslot.swept hread).swept (swept_writeBack rfl hm _)) (writeBack_tail (hslot.swept hread) htail) hm

/-- Sweeping rings of the function brings the tail of each of them to the index in its slot. -/
theorem foldl_sweepSq_tail {fn n v : Nat} {l : List Nat} (hl : ∀ m ∈ l, m < 32768) {s : State} (hslot : s.SlotHolds fn n v)
    (h : n ∈ l ∨ (s.sq fn n).tail = v) : ((l.foldl (fun s m => s.sweepSq fn m) s).sq fn n).tail = v := by
  induction l generalizing s with
  | nil => exact h.resolve_left (by simp)
  | cons m l ih =>
    have hm := hl m List.mem_cons_self
    rw [List.foldl_cons]
    refine ih (fun k hk => hl k (List.mem_cons_of_mem m hk)) (hslot.swept (swept_sweepSq rfl hm s)) ?_
    rcases h with h | h
    · rcases List.mem_cons.mp h with rfl | hin
      · exact .inr (sweepSq_tail hslot hm (.inl rfl))
      · exact .inl hin
    · exact .inr (sweepSq_tail hslot hm (.inr h))

/-- Judging the waits of the function's rings anew leaves the tail. -/
theorem restall_tail {s : State} {fn n v : Nat} (hslot : s.SlotHolds fn n v) (htail : (s.sq fn n).tail = v)
    (h : ∀ e ∈ s.rings.sq, e.2.stalled = true → fn = e.1 / 32768) : (s.restall.sq fn n).tail = v := by
  refine (List.foldlRecOn (motive := fun u : State => u.SlotHolds fn n v ∧ (u.sq fn n).tail = v) _ _ ⟨hslot, htail⟩ fun u hu e he => ?_).2
  obtain ⟨huslot, hutail⟩ := hu
  have hm : e.1 % 32768 < 32768 := Nat.mod_lt _ (by decide)
  rw [← h e (List.mem_filter.mp he).1 (List.mem_filter.mp he).2]
  exact ⟨huslot.swept (swept_noteStall rfl hm u), noteStall_tail huslot hutail hm⟩

/-! ## The heads that a sweep leaves -/

/-- From s to t the slots of completion rings were read: of their contexts only the host's head moves, and invalid slots are counted (R69, R70). -/
structure HeadsRead (s t : State) : Prop where
  frame : t = { s with rings := { s.rings with cq := t.rings.cq }, tally := t.tally }
  cfg : ∀ g m, (t.cq g m).cfg = (s.cq g m).cfg

theorem HeadsRead.trans {a b c : State} (h1 : HeadsRead a b) (h2 : HeadsRead b c) : HeadsRead a c :=
  ⟨by rw [h2.frame, h1.frame], fun g m => (h2.cfg g m).trans (h1.cfg g m)⟩

/-- Reading the heads and then sweeping submission rings changes rings, memory, tiers and the tally. -/
theorem HeadsRead.frame_of_swept {P : Nat → Prop} {a b c : State} (h1 : HeadsRead a b) (h2 : Swept P b c) :
    c = { a with rings := { a.rings with sq := c.rings.sq, cq := c.rings.cq }, mem := c.mem, tiers := c.tiers, tally := c.tally } := by
  rw [h2.frame, h1.frame]

theorem headsRead_readHead (s : State) (fn m : Nat) : HeadsRead s (s.readHead fn m) := by
  cases hslot : slotIndex s ((s.fncNow fn).cqSlot m) (cfgSize (s.cq fn m).cfg) with
  | none => rw [readHead_of_none hslot]; exact ⟨rfl, fun _ _ => rfl⟩
  | some v =>
    rw [readHead_of_some hslot]
    refine ⟨rfl, fun g k => ?_⟩
    rw [cq_setCq]
    split
    next hkey => rw [State.cq, State.cq, hkey]
    next => rfl

/-- The slot of a completion ring holds a valid index v (R69, R70). -/
abbrev State.HeadSlotHolds (s : State) (fn m v : Nat) : Prop := slotIndex s ((s.fncNow fn).cqSlot m) (cfgSize (s.cq fn m).cfg) = some v

theorem HeadsRead.slot {s t : State} {fn m v : Nat} (h : HeadsRead s t) (hslot : s.HeadSlotHolds fn m v) : t.HeadSlotHolds fn m v := by
  have hcfg := h.cfg fn m
  unfold State.HeadSlotHolds at *
  rw [hcfg, h.frame]
  exact hslot

theorem readHead_hostHead {s : State} {fn m k v : Nat} (hslot : s.HeadSlotHolds fn m v) (h : k = m ∨ (s.cq fn m).hostHead = v) :
    ((s.readHead fn k).cq fn m).hostHead = v := by
  by_cases hk : k = m
  · subst hk
    rw [readHead_of_some hslot, cq_setCq_same]
  · have hhead := h.resolve_left hk
    cases hread : slotIndex s ((s.fncNow fn).cqSlot k) (cfgSize (s.cq fn k).cfg) with
    | none => rw [readHead_of_none hread]; exact hhead
    | some w => rw [readHead_of_some hread, cq_setCq, if_neg fun hkey => hk (ringKey_inj hkey)]; exact hhead

theorem foldl_readHead_hostHead {fn m v : Nat} {l : List Nat} {s : State} (hslot : s.HeadSlotHolds fn m v) (h : m ∈ l ∨ (s.cq fn m).hostHead = v) :
    ((l.foldl (fun s k => s.readHead fn k) s).cq fn m).hostHead = v := by
  induction l generalizing s with
  | nil => exact h.resolve_left (by simp)
  | cons k l ih =>
    rw [List.foldl_cons]
    refine ih ((headsRead_readHead s fn k).slot hslot) ?_
    rcases h with h | h
    · rcases List.mem_cons.mp h with rfl | hin
      · exact .inr (readHead_hostHead hslot (.inl rfl))
      · exact .inl hin
    · exact .inr (readHead_hostHead hslot (.inr h))

/-! ## A sweep as a whole -/

/-- The state in which a sweep has read the slots of the completion rings. -/
def State.headsSwept (s : State) (fn : Nat) (group : Option Nat) : State := (s.cqsOf fn group).foldl (fun s m => s.readHead fn m) s

/-- The state in which it has read those of the submission rings too. -/
def State.tailsSwept (s : State) (fn : Nat) (group : Option Nat) : State := (s.sqsOf fn group).foldl (fun s n => s.sweepSq fn n) (s.headsSwept fn group)

theorem headsRead_headsSwept (s : State) (fn : Nat) (group : Option Nat) : HeadsRead s (s.headsSwept fn group) :=
  List.foldlRecOn _ _ ⟨rfl, fun _ _ => rfl⟩ fun u hu m _ => hu.trans (headsRead_readHead u fn m)

theorem sweep_eq (s : State) (fn : Nat) (group : Option Nat) : s.sweep fn group = (s.tailsSwept fn group).restall := by
  have hsqs : (s.headsSwept fn group).sqsOf fn group = s.sqsOf fn group := by
    rw [(headsRead_headsSwept s fn group).frame]
    rfl
  rw [State.tailsSwept, ← hsqs]
  rfl

theorem lt_of_mem_sqsOf {s : State} {fn n : Nat} {group : Option Nat} (h : n ∈ s.sqsOf fn group) : n < 32768 := by
  obtain ⟨e, -, rfl⟩ := List.mem_map.mp h
  exact Nat.mod_lt _ (by decide)

theorem swept_tailsSwept (s : State) (fn : Nat) (group : Option Nat) : Swept (Eq fn) (s.headsSwept fn group) (s.tailsSwept fn group) :=
  List.foldlRecOn _ _ (.refl _ _) fun u hu _ hn => hu.trans (swept_sweepSq rfl (lt_of_mem_sqsOf hn) u)

theorem Swept.mono {P Q : Nat → Prop} {s t : State} (hPQ : ∀ g, P g → Q g) (h : Swept P s t) : Swept Q s t :=
  ⟨h.frame, h.ctx, fun e he => (h.entries e he).imp_right (hPQ _), fun a ha => h.mem a fun g hg => ha g (hPQ g hg)⟩

/-- After the completion rings' slots are read, a sweep is one of submission rings. -/
theorem swept_sweep (s : State) (fn : Nat) (group : Option Nat) : Swept (fun _ => True) (s.headsSwept fn group) (s.sweep fn group) := by
  rw [sweep_eq]
  exact ((swept_tailsSwept s fn group).mono fun _ _ => trivial).trans (swept_restall fun _ _ _ => trivial)

/-- Where no ring waited before a sweep, only rings of its function wait after it. -/
theorem sweep_tail {s : State} {fn n v : Nat} {group : Option Nat} (hn : n ∈ s.sqsOf fn group) (hslot : s.SlotHolds fn n v)
    (hnone : ∀ e ∈ s.rings.sq, e.2.stalled = false) : ((s.sweep fn group).sq fn n).tail = v := by
  have hheads := headsRead_headsSwept s fn group
  have hslot' : (s.headsSwept fn group).SlotHolds fn n v := by
    rw [hheads.frame]
    exact ⟨hslot.index, hslot.apart⟩
  have htails := swept_tailsSwept s fn group
  rw [sweep_eq]
  refine restall_tail (hslot'.swept htails) (foldl_sweepSq_tail (fun _ => lt_of_mem_sqsOf) hslot' (.inl hn)) fun e he hstalled => ?_
  refine (htails.entries e he).resolve_left fun hold => ?_
  rw [hheads.frame] at hold
  exact absurd hstalled (by simp [hnone e hold])

/-! ## NUDGE and the sweeps -/

/-- NUDGE asks for one further sweep at most (R73). -/
theorem exec_nudge {s : State} {fn : Nat} (hhost : s.hostUp fn = true) :
    exec (.nudge fn) s = .next (s.setFnc fn { s.fnc fn with nudge := if (s.fnc fn).nudge = .idle then .pending else .further }) := by
  rw [exec, execNudge, if_pos hhost, State.nudgeWrite]
  cases (s.fnc fn).nudge <;> rfl

/-- Settles O9: NUDGE by `exec_nudge`; a sweep reads the heads (`headsSwept`) and then brings the submission rings up to date (`swept_sweep`, `sweep_tail`). -/
theorem sweepsSeeNewIndices : Obligations.SweepsSeeNewIndices := by
  refine ⟨fun s fn hhost => ?nudge, fun s fn hhost hsweep hsafe => ?commands, fun s fn group =>
    ⟨fun m hm hv => ?heads, fun n hn hv hnone hapart => ?tails, fun g n => ?head, ?frame⟩⟩
  case nudge => exact ⟨_, exec_nudge hhost, rfl, by rw [fnc_setFnc_same], fun g hg => by rw [fnc_setFnc, if_neg hg]⟩
  case commands =>
    refine ⟨fun g hg => ?_, fun hnudge => ?_, fun hnudge => ?_⟩
    · simp only [exec, execDoorbellSweep, hhost, hsweep, hsafe, hg, and_self, if_true]
    · simp only [exec, execDoorbellSweep, hhost, hsweep, hsafe, hnudge, and_self, if_true]
    · simp only [exec, execDoorbellSweep, hhost, hsweep, hsafe, hnudge, and_self, if_true]
  case heads =>
    rw [(swept_sweep s fn group).cq]
    exact foldl_readHead_hostHead (slotIndex_of_valid hv) (.inl hm)
  case tails =>
    refine sweep_tail hn ⟨slotIndex_of_valid hv, fun a hlo hhi g hg => ?_⟩ fun e he => ?_
    · subst hg
      omega
    · simp [SqCtx.stalled, hnone e he]
  case head =>
    have hhead := ((swept_sweep s fn group).ctx g n).2
    rw [(headsRead_headsSwept s fn group).frame] at hhead
    exact hhead
  case frame => exact (headsRead_headsSwept s fn group).frame_of_swept (swept_sweep s fn group)

end Sys2Proof.Machine

/-! # Interrupts and completion entries

The signal of a completion ring (R96, R97) and the posting of an entry (R58, R67, R88 to R90, R92, R325). -/

namespace Sys2Proof.Machine

/-! ## Interrupts -/

theorem sendVector_of_unmasked {s : State} {fn v : Nat} (hon : s.host.msixOff.contains fn = false) (hmask : s.vectorMasked fn v = false) :
    s.sendVector fn v = { s with out := { s.out with msix := (fn, v) :: s.out.msix } } := by
  simp only [State.sendVector, hon, hmask, Bool.false_eq_true, if_false]

theorem sendVector_of_masked {s : State} {fn v : Nat} (hon : s.host.msixOff.contains fn = false) (hmask : s.vectorMasked fn v = true) :
    s.sendVector fn v = { s with host := { s.host with msixPending := (s.host.msixPending.filter fun p => p ≠ (fn, v)) ++ [(fn, v)] } } := by
  simp only [State.sendVector, hon, hmask, Bool.false_eq_true, if_false, if_true]

/-- The message of a vector moves what was sent or what is pending, and nothing else (R96). -/
theorem sendVector_frame (s : State) (fn v : Nat) :
    s.sendVector fn v = { s with host := { s.host with msixPending := (s.sendVector fn v).host.msixPending },
                                 out := { s.out with msix := (s.sendVector fn v).out.msix } } := by
  unfold State.sendVector
  split
  · rfl
  · split <;> rfl

/-- The signal of a ring whose vector the function has (R96, R458). -/
theorem signal_of_vector {s : State} {fn m : Nat} (hvector : bits (s.cq fn m).int.toNat 10 0 < vectors fn) :
    s.signal fn m = (s.setCq fn m { s.cq fn m with unsignalled := 0 }).sendVector fn (bits (s.cq fn m).int.toNat 10 0) := if_pos hvector

theorem exec_interruptTimer {s : State} {fn m : Nat} (hcount : 0 < (s.cq fn m).unsignalled) (hon : bit (s.cq fn m).int.toNat 31 = true) :
    exec (.interruptTimer fn m) s = .next ((s.toTime ((s.cq fn m).firstUnsignalled + (s.cq fn m).timer * 1000)).signal fn m) := by
  rw [exec, execInterruptTimer]
  exact if_pos ⟨hcount, hon⟩

/-- Settles O12: at the ring's time the vector is signalled, and what becomes of it is decided by its mask (`sendVector_of_unmasked`, `sendVector_of_masked`). -/
theorem interruptTimerSignalsVector : Obligations.InterruptTimerSignalsVector := by
  intro s fn m hcount hon hvector hmsix
  have hexec := exec_interruptTimer hcount hon
  have htime := le_toTime s ((s.cq fn m).firstUnsignalled + (s.cq fn m).timer * 1000)
  generalize hu : s.toTime ((s.cq fn m).firstUnsignalled + (s.cq fn m).timer * 1000) = u at hexec htime
  have hframe : u = { s with clock := u.clock } := by rw [← hu]; exact toTime_frame s _
  have hcq : u.cq fn m = s.cq fn m := by rw [hframe]; rfl
  rw [signal_of_vector (by rw [hcq]; exact hvector), hcq] at hexec
  generalize bits (s.cq fn m).int.toNat 10 0 = v at hexec ⊢
  generalize hw : u.setCq fn m { s.cq fn m with unsignalled := 0 } = w at hexec
  have hwframe : w = { s with clock := u.clock, rings := { s.rings with cq := w.rings.cq } } := by rw [← hw, hframe]; rfl
  have hwcq : (w.cq fn m).unsignalled = 0 := by rw [← hw, cq_setCq_same]
  have hoff : w.host.msixOff.contains fn = false := by rw [hwframe]; exact hmsix
  have hmasked : w.vectorMasked fn v = s.vectorMasked fn v := by rw [hwframe]; rfl
  refine ⟨_, hexec, ?_, ?_, fun hmask => ?_, fun hmask => ?_, ?_⟩
  · rw [sendVector_frame]; exact hwcq
  · rw [sendVector_frame, hwframe]; exact htime
  · rw [sendVector_of_unmasked hoff (hmasked.trans hmask), hwframe]
    exact ⟨rfl, rfl⟩
  · rw [sendVector_of_masked hoff (hmasked.trans hmask), hwframe]
    exact ⟨rfl, List.mem_append_right _ List.mem_cons_self⟩
  · rw [sendVector_frame, hwframe]

/-- From s to t completion ring m of the function may have been signalled: of its context only the entries to signal change (R96, R97). -/
structure Signalled (fn m : Nat) (s t : State) : Prop where
  frame : t = { s with rings := { s.rings with cq := t.rings.cq }, host := t.host, tally := t.tally, out := t.out }
  ctx : t.cq fn m = { s.cq fn m with unsignalled := (t.cq fn m).unsignalled, firstUnsignalled := (t.cq fn m).firstUnsignalled }

theorem Signalled.trans {fn m : Nat} {a b c : State} (h1 : Signalled fn m a b) (h2 : Signalled fn m b c) : Signalled fn m a c :=
  ⟨by rw [h2.frame, h1.frame], by rw [h2.ctx, h1.ctx]⟩

theorem signalled_setCq {s : State} {fn m : Nat} {c : CqCtx} (h : c = { s.cq fn m with unsignalled := c.unsignalled, firstUnsignalled := c.firstUnsignalled }) :
    Signalled fn m s (s.setCq fn m c) := ⟨rfl, by rw [cq_setCq_same]; exact h⟩

theorem signalled_signal (s : State) (fn m : Nat) : Signalled fn m s (s.signal fn m) := by
  refine Signalled.trans (signalled_setCq (c := { s.cq fn m with unsignalled := 0 }) rfl) ?_
  unfold State.signal
  dsimp only
  split
  · rw [sendVector_frame]
    exact ⟨rfl, rfl⟩
  · exact ⟨rfl, rfl⟩

theorem signalled_postSignal (s : State) (fn m cls : Nat) : Signalled fn m s (s.postSignal fn m cls) := by
  unfold State.postSignal
  extract_lets c c' u now
  have hcount : Signalled fn m s u := signalled_setCq rfl
  split
  · exact hcount.trans (signalled_signal u fn m)
  · exact hcount

/-! ## Parcels that are freed -/

/-- Freeing parcels clears bytes of the device range alone (R321, R325). -/
theorem freeParcels_byte (s : State) {a : Nat} (h : a < 2 ^ 63) : s.freeParcels.mem.byte a = s.mem.byte a := by
  have hfold : ∀ (l : List Parcel) (m : Memory), (l.foldl (fun (m : Memory) (q : Parcel) => m.clear (parcelPtr q.num) 65536) m).byte a = m.byte a := by
    intro l
    induction l with
    | nil => exact fun _ => rfl
    | cons q l ih =>
      intro m
      rw [List.foldl_cons, ih, Memory.byte_clear, if_neg (by unfold parcelPtr; omega)]
  exact hfold _ s.mem

theorem freeParcels_frame (s : State) : s.freeParcels = { s with tiers := { s.tiers with parcels := s.freeParcels.tiers.parcels }, mem := s.freeParcels.mem } := rfl

/-! ## Completion entries -/

theorem entry_length (o : Op) (phase : Bool) : (o.entry phase).length = 32 := by simp [Op.entry, leBytes_length]

/-- An entry's bytes 8 to 31 and then 0 to 7 are written, and the entry stands whole (R89). -/
theorem readMem_writeEntry (s : State) (addr : Nat) {e : List Byte} (h : e.length = 32) : (s.writeEntry addr e).readMem addr 32 = e := by
  have hwrite : (s.writeEntry addr e).mem = (s.mem.write (addr + 8) (e.drop 8)).write addr (e.take 8) := rfl
  have hbyte : ∀ i < 32, (s.writeEntry addr e).mem.byte (addr + i) = (s.mem.write addr e).byte (addr + i) := by
    intro i hi
    rw [hwrite, Memory.byte_write, Memory.byte_write, Memory.byte_write, if_pos (c := addr ≤ addr + i ∧ addr + i < addr + e.length) (by omega)]
    by_cases h8 : i < 8
    · rw [if_pos (by rw [List.length_take]; omega)]
      simp [h8]
    · rw [if_neg (by rw [List.length_take]; omega), if_pos (by rw [List.length_drop]; omega)]
      simp [show addr + i - (addr + 8) = i - 8 by omega, show 8 + (i - 8) = i by omega]
  have hwhole : (s.mem.write addr e).read addr 32 = e := h ▸ Memory.read_write s.mem addr e
  refine (Memory.read_congr fun a hlo hhi => ?_).trans hwhole
  obtain ⟨i, rfl⟩ := Nat.exists_eq_add_of_le hlo
  exact hbyte i (by omega)

/-- The completion ring of an operation once the operation's entry is posted and the operation has left (R67, R88, R90). -/
def CqCtx.posted (c : CqCtx) : CqCtx :=
  let next := (c.post + 1) % cfgSize c.cfg
  { c with post := next, phase := if next = 0 then !c.phase else c.phase, reserved := c.reserved - 1 }

/-- The state with the entry posted and the operation gone, before rings that waited are judged anew. -/
def State.entryPosted (s : State) (o : Op) : State := (((s.blurBufs o).touchHeld o).postEntry o).retireOp o

theorem exec_completionPost {s : State} {id : Nat} {o : Op} (hfind : s.findOp id = some o) (hfinal : o.phase = .final)
    (hfirst : (s.ops.list.any fun p => p.fn = o.fn && p.sq = o.sq && decide (p.id < o.id)) = false) (hhost : s.hostUp o.fn = true) :
    exec (.completionPost id) s = .next (((s.entryPosted o).restall.postSignal o.fn o.cq o.cls).freeParcels) := by
  have hguard : (decide (o.phase ≠ .final) || (s.ops.list.any fun p => p.fn = o.fn && p.sq = o.sq && decide (p.id < o.id)) || !s.hostUp o.fn) = false := by
    simp [hfinal, hfirst, hhost]
  simp only [exec, execCompletionPost, hfind]
  exact if_neg (ne_true_of_eq_false hguard)

theorem touchHeld_frame (s : State) (o : Op) : s.touchHeld o = { s with tiers := (s.touchHeld o).tiers } := by
  unfold State.touchHeld
  split <;> rfl

theorem cq_posted (s : State) (o : Op) : ((s.postEntry o).retireOp o).cq o.fn o.cq = (s.cq o.fn o.cq).posted := by
  have hpost : (s.postEntry o).cq o.fn o.cq = { (s.cq o.fn o.cq).posted with reserved := (s.cq o.fn o.cq).reserved } := by
    rw [State.postEntry, cq_setCq_same]
    rfl
  rw [State.retireOp, cq_setCq_same, hpost]
  rfl

theorem writeEntry_frame (s : State) (addr : Nat) (e : List Byte) :
    s.writeEntry addr e = { s with mem := (s.writeEntry addr e).mem, tiers := (s.writeEntry addr e).tiers } := rfl

/-- Posting writes memory and the ring's context. -/
theorem postEntry_frame (s : State) (o : Op) : s.postEntry o =
    { s with rings := { s.rings with cq := (s.postEntry o).rings.cq }, mem := (s.postEntry o).mem, tiers := (s.postEntry o).tiers } := by
  obtain ⟨addr, e, c, hpost⟩ : ∃ addr e c, s.postEntry o = (s.writeEntry addr e).setCq o.fn o.cq c := ⟨_, _, _, rfl⟩
  rw [hpost, writeEntry_frame]
  rfl

theorem retireOp_frame (s : State) (o : Op) : s.retireOp o = { s with rings := { s.rings with cq := (s.retireOp o).rings.cq }, ops := (s.retireOp o).ops } := rfl

theorem entryPosted_spec (s : State) (o : Op) :
    let u := s.entryPosted o
    u = { s with rings := { s.rings with cq := u.rings.cq }, ops := u.ops, mem := u.mem, tiers := u.tiers, free := u.free } ∧
      u.cq o.fn o.cq = (s.cq o.fn o.cq).posted ∧ u.ops.list.map (·.id) = (s.ops.list.map (·.id)).filter (fun i => i ≠ o.id) ∧
      u.readMem (ringBase (s.cq o.fn o.cq).baseLo (s.cq o.fn o.cq).baseHi + 32 * (s.cq o.fn o.cq).post) 32 = o.entry (s.cq o.fn o.cq).phase := by
  intro u
  obtain ⟨hblur, hids⟩ := bufsSettled_blurBufs s o
  have htouch := touchHeld_frame (s.blurBufs o) o
  generalize hw : (s.blurBufs o).touchHeld o = w at htouch
  have hu : u = (w.postEntry o).retireOp o := by rw [← hw]; rfl
  have hframe : w = { s with ops := { s.ops with list := w.ops.list }, mem := w.mem, tiers := w.tiers, free := w.free } := by rw [htouch, hblur]
  have hcq : w.cq o.fn o.cq = s.cq o.fn o.cq := by rw [hframe]; rfl
  have hlist : w.ops.list.map (·.id) = s.ops.list.map (·.id) := by rw [htouch]; exact hids
  refine ⟨?_, ?_, ?_, ?_⟩
  · have hpost := postEntry_frame w o
    have hretire := retireOp_frame (w.postEntry o) o
    rw [← hu] at hretire
    generalize w.postEntry o = v at hpost hretire
    rw [hretire, hpost, hframe]
  · rw [hu, cq_posted, hcq]
  · rw [hu, ← hlist, List.filter_map]
    rfl
  · have hmem : u.mem = (w.writeEntry (ringBase (w.cq o.fn o.cq).baseLo (w.cq o.fn o.cq).baseHi + 32 * (w.cq o.fn o.cq).post) (o.entry (w.cq o.fn o.cq).phase)).mem := by
      rw [hu]
      rfl
    rw [← hcq, State.readMem, hmem]
    exact readMem_writeEntry w _ (entry_length o _)

/-- Settles O14: the entry posted (`entryPosted_spec`); what follows moves other parts of the rings (`swept_restall`), the ring's signal
(`signalled_postSignal`) and freed parcels (`freeParcels_byte`). -/
theorem completionEntryIsPosted : Obligations.CompletionEntryIsPosted := by
  intro s id o hfind hfinal hfirst hhost
  have hexec := exec_completionPost hfind hfinal hfirst hhost
  obtain ⟨hframe, hcq, hids, hentry⟩ := entryPosted_spec s o
  rw [findOp_id hfind] at hids
  generalize s.entryPosted o = u at *
  have hstall : Swept (fun _ => True) u u.restall := swept_restall fun _ _ _ => trivial
  have hsignal := signalled_postSignal u.restall o.fn o.cq o.cls
  have hctx := hsignal.ctx
  rw [hstall.cq, hcq] at hctx
  refine ⟨_, hexec, fun hnone htop => ?_, ?_, ?_, ?_, ?_, ?_⟩
  · have hsame : u.restall = u := restall_of_none fun e he => by
      rw [hframe] at he
      simp [SqCtx.stalled, hnone e he]
    refine (Memory.read_congr fun a _ hhi => ?_).trans hentry
    rw [freeParcels_byte _ (by omega), hsignal.frame, hsame]
  · rw [freeParcels_frame, hsignal.frame, hstall.frame]
    exact hids
  · rw [freeParcels_frame]
    exact congrArg CqCtx.post hctx
  · rw [freeParcels_frame]
    exact congrArg CqCtx.phase hctx
  · rw [freeParcels_frame]
    exact congrArg CqCtx.reserved hctx
  · rw [freeParcels_frame, hsignal.frame, hstall.frame, hframe]

end Sys2Proof.Machine

/-! # Deadlines and the FUNCTION reset

What withdrawing a change and dropping an operation's work leave as they were (R87, R263), the outcome at a deadline point (R86, R94, R402), and a FUNCTION
reset (R441, R442). -/

namespace Sys2Proof.Machine

/-! ## Changes withdrawn -/

/-- From s to t messages were put on fabric ports, and nothing else changed (R386). -/
def Told (s t : State) : Prop := t = { s with out := t.out, fabric := { s.fabric with ports := t.fabric.ports } }

theorem Told.trans {a b c : State} (h1 : Told a b) (h2 : Told b c) : Told a c := by
  unfold Told at *
  rw [h2, h1]

theorem told_tell (s : State) (peer cls : Nat) (desc data : List Byte) : Told s (s.tell peer cls desc data) :=
  List.foldlRecOn _ _ rfl fun u hu _ _ => hu.trans (sendFz_frame u _ _ _ _ _)

/-- A change withdrawn is forgotten, and the other members are told. -/
theorem withdrawChange_frame (s : State) (id : Nat) : s.withdrawChange id =
    { s with map := { s.map with commits := (s.withdrawChange id).map.commits }, out := (s.withdrawChange id).out,
             fabric := { s.fabric with ports := (s.withdrawChange id).fabric.ports } } := by
  unfold State.withdrawChange
  split
  · rfl
  · split
    · rfl
    · have htold : ∀ (f : State → Nat → State), (∀ u p, Told u (f u p)) → Told (s.unhold s.self id) (s.others.foldl f (s.unhold s.self id)) := fun f hf =>
        List.foldlRecOn _ f rfl fun u hu p _ => hu.trans (hf u p)
      rw [htold _ fun u p => told_tell u p _ _ _]
      rfl

/-! ## TIMED_OUT -/

/-- What the deadline of an operation leaves as it was: operations in flight, time, memory, rings, sessions, registers and host state (R402). -/
def State.lasting (s : State) : Ops × Clock × Memory × Rings × Sess × Regs × HostIf := (s.ops, s.clock, s.mem, s.rings, s.sess, s.regs, s.host)

theorem withdrawChange_lasting (s : State) (id : Nat) : (s.withdrawChange id).lasting = s.lasting := by
  rw [withdrawChange_frame]
  rfl

theorem dropWork_lasting (s : State) (id : Nat) : (s.dropWork id).lasting = s.lasting := rfl

theorem withdrawChange_place (s : State) (id : Nat) : (s.withdrawChange id).place = s.place := by rw [withdrawChange_frame]

theorem undrain_lasting (s : State) (op : Nat) : (s.undrain op).lasting = s.lasting :=
  List.foldlRecOn (motive := fun u : State => u.lasting = s.lasting) _ _ rfl fun _ hu _ _ => hu

/-- The state in which an operation that times out has nothing left running or waiting (R402). -/
def State.timeOutReady (s : State) (o : Op) : State :=
  let u := (if bit o.timedOut.detail 1 then s.bump Ctr.retryCancelled else s).withdrawChange o.id
  (if o.opcode = 0x4A then u.undrain o.id else u).dropWork o.id

theorem timeOut_eq (s : State) (o : Op) : s.timeOut o = (s.timeOutReady o).finish o.id o.timedOut := rfl

theorem timeOutReady_lasting (s : State) (o : Op) : (s.timeOutReady o).lasting = s.lasting := by
  have hwithdraw : ((if bit o.timedOut.detail 1 then s.bump Ctr.retryCancelled else s).withdrawChange o.id).lasting = s.lasting := by
    rw [withdrawChange_lasting]
    split <;> rfl
  rw [State.timeOutReady, dropWork_lasting]
  split
  · rw [undrain_lasting, hwithdraw]
  · exact hwithdraw

/-- Only a RETIRE that times out changes the clusters (R85). -/
theorem timeOutReady_place {s : State} {o : Op} (h : o.opcode ≠ 0x4A) : (s.timeOutReady o).place = s.place := by
  have hdrop : ∀ u : State, (u.dropWork o.id).place = u.place := fun _ => rfl
  rw [State.timeOutReady, hdrop, if_neg h, withdrawChange_place]
  split <;> rfl

/-- A word of three flags in its low byte and a value in its upper half. -/
theorem flags_of_word {f n : Nat} {a c : Bool} (hf : f < 8) (ha : f % 2 = b2n a) (hc : f / 4 % 2 = b2n c) (hn : n < 2 ^ 32) :
    bit (f + n * 2 ^ 32) 0 = a ∧ bit (f + n * 2 ^ 32) 2 = c ∧ bits (f + n * 2 ^ 32) 63 32 = n := by
  have hbool : ∀ x : Bool, decide (b2n x = 1) = x := by decide
  refine ⟨?_, ?_, ?_⟩
  · rw [bit, Nat.testBit_eq_decide_div_mod_eq, show (f + n * 2 ^ 32) / 2 ^ 0 % 2 = b2n a by omega, hbool]
  · rw [bit, Nat.testBit_eq_decide_div_mod_eq, show (f + n * 2 ^ 32) / 2 ^ 2 % 2 = b2n c by omega, hbool]
  · rw [bits]
    omega

/-- The fields of the detail word of TIMED_OUT: STARTED, whether the operation was held, and the deadline in µs (R86). -/
theorem timedOut_detail {o : Op} (h : o.deadlineUs < 2 ^ 32) :
    bit o.timedOut.detail 0 = o.began ∧ bit o.timedOut.detail 2 = decide (o.phase = .held) ∧ bits o.timedOut.detail 63 32 = o.deadlineUs := by
  have hflags : ∀ a b c : Bool, b2n a + 2 * b2n b + 4 * b2n c < 8 ∧ (b2n a + 2 * b2n b + 4 * b2n c) % 2 = b2n a ∧
      (b2n a + 2 * b2n b + 4 * b2n c) / 4 % 2 = b2n c := by decide
  obtain ⟨hlt, hbegan, hheld⟩ := hflags o.began (o.replayed || (o.retrying && decide (o.deadlineAt ≤ o.attemptEnds))) (decide (o.phase = .held))
  exact flags_of_word hlt hbegan hheld h

theorem expire_of_not_committed {s : State} {o : Op} (hcommit : o.committed = false) (hcode : ¬ [0x20, 0x21, 0x22].contains o.opcode) :
    s.expire o = s.timeOut o := by
  have hcodes : o.opcode ≠ 0x20 ∧ o.opcode ≠ 0x21 ∧ o.opcode ≠ 0x22 := by simpa using hcode
  obtain ⟨hsearch, hinsert, hdelete⟩ := hcodes
  simp [State.expire, hcommit, hsearch, hinsert, hdelete]

/-- Settles O13: the operation times out (`expire_of_not_committed`), and what it leaves running is dropped (`timeOutReady_spec`). -/
theorem unfinishedOperationTimesOut : Obligations.UnfinishedOperationTimesOut := by
  intro s id o hfind hfinal hcommit hcode hdeadline
  have hid := findOp_id hfind
  have hexec : exec (.deadlineExpiry id) s = .next (((s.toTime o.deadlineAt).timeOutReady o).finish id o.timedOut) := by
    simp only [exec, execDeadlineExpiry, hfind, if_neg hfinal, expire_of_not_committed hcommit hcode, timeOut_eq, hid]
  have hlasting := timeOutReady_lasting (s.toTime o.deadlineAt) o
  have hplace : o.opcode ≠ 0x4A → ((s.toTime o.deadlineAt).timeOutReady o).place = s.place := fun h => (timeOutReady_place h).trans (toTime_place s _)
  obtain ⟨hstarted, hheld, hus⟩ := timedOut_detail hdeadline
  have htime := le_toTime s o.deadlineAt
  generalize (s.toTime o.deadlineAt).timeOutReady o = u at *
  simp only [State.lasting, Prod.mk.injEq, toTime_ops, toTime_mem, toTime_rings, toTime_sess, toTime_regs, toTime_host] at hlasting
  obtain ⟨hops, hclock, hkept⟩ := hlasting
  refine ⟨_, _, hexec, ended_finish_of hfind o.timedOut hops, hstarted, hheld, hus, ?_, othersKept_finish_of s u id _ hops, ?_⟩
  · rw [finish_frame]
    exact hclock ▸ htime
  · rw [finish_frame]
    obtain ⟨hmem, hrings, hsess, hregs, hhost⟩ := hkept
    exact ⟨hmem, hrings, hsess, hregs, hhost, hplace⟩

end Sys2Proof.Machine

/-! # The FUNCTION reset

What a FUNCTION reset takes from the function, and what it leaves to the others (R104, R441, R442). -/

namespace Sys2Proof.Machine

/-- What dropping the work of an operation leaves as it was: operations, sessions, programs, schedules, rings, extents, time, the tally, power and safe
hold (R441). -/
def State.beyondWork (s : State) : List Op × Sess × List Prog × List Sched × Rings × Store Extent × Clock × Tally × Power × Bool :=
  (s.ops.list, s.sess, s.matrix.progs, s.abacus.scheds, s.rings, s.tiers.extents, s.clock, s.tally, s.power, s.fault.safeHold)

theorem withdrawChange_beyondWork (s : State) (id : Nat) : (s.withdrawChange id).beyondWork = s.beyondWork := by
  rw [withdrawChange_frame]
  rfl

theorem dropWork_beyondWork (s : State) (id : Nat) : (s.dropWork id).beyondWork = s.beyondWork := rfl

@[simp] theorem give_list (o : Ops) (pool : Nat) : (o.give pool).list = o.list := by
  unfold Ops.give
  split
  · rfl
  · split <;> rfl

/-- An operation dropped by a FUNCTION reset: no change of it waits, nothing of it runs, and its tag is free (R58, R441). -/
def State.opDropped (s : State) (o : Op) : State := { (s.withdrawChange o.id).dropWork o.id with ops := s.ops.give o.pool }

theorem opDropped_beyondWork (s : State) (o : Op) : (s.opDropped o).beyondWork = s.beyondWork := by
  have hdrop : ((s.withdrawChange o.id).dropWork o.id).beyondWork = s.beyondWork := by rw [dropWork_beyondWork, withdrawChange_beyondWork]
  have hgive : (s.opDropped o).beyondWork = ((s.ops.give o.pool).list, ((s.withdrawChange o.id).dropWork o.id).beyondWork.2) := rfl
  rw [hgive, hdrop, give_list]
  rfl

/-- The state with all operations of a function dropped. -/
def State.opsDropped (s : State) (fn : Nat) : State := (s.ops.list.filter fun o => o.fn = fn).foldl State.opDropped s

theorem opsDropped_beyondWork (s : State) (fn : Nat) : (s.opsDropped fn).beyondWork = s.beyondWork :=
  List.foldlRecOn (motive := fun u : State => u.beyondWork = s.beyondWork) _ _ rfl fun u hu o _ => (opDropped_beyondWork u o).trans hu

/-- A read from a table of which the entries of some keys were dropped. -/
theorem Store.get_filter_keys {β : Type} (d : Nat → β) (p : Nat → Bool) (k : Nat) (l : Store β) :
    Store.get d k (l.filter fun e => p e.1) = if p k then Store.get d k l else d k := by
  induction l with
  | nil => simp [Store.get]
  | cons e l ih =>
    obtain ⟨j, v⟩ := e
    rw [List.filter_cons]
    by_cases hkj : k = j
    · subst hkj
      by_cases hp : p k = true
      · simp [Store.get, hp]
      · simp [ih, hp]
    · by_cases hp : p j = true
      · simp [Store.get, ih, hp, hkj]
      · simp [Store.get, ih, hp, hkj]

/-- The ring contexts that are left once those of a function are cleared (R441). -/
theorem Store.get_cleared {β : Type} (d : Nat → β) {fn g n : Nat} (hn : n < 32768) (l : Store β) :
    Store.get d (ringKey g n) (l.filter fun e => e.1 / 32768 ≠ fn) = if g = fn then d (ringKey g n) else Store.get d (ringKey g n) l := by
  have hget := Store.get_filter_keys d (fun k => decide (k / 32768 ≠ fn)) (ringKey g n) l
  rw [ringKey_div g hn] at hget
  rw [hget]
  by_cases hg : g = fn
  · simp [hg]
  · simp [hg]

theorem syncPool_extents (s : State) : s.syncPool.tiers.extents = s.tiers.extents :=
  List.foldlRecOn (motive := fun t : Tiers => t.extents = s.tiers.extents) _ _ rfl fun _ ht _ _ => ht

/-- What a FUNCTION reset leaves of the state with the function's operations dropped, before parcels are freed. -/
structure FunctionCleared (fn : Nat) (u v : State) : Prop where
  ops : v.ops.list = u.ops.list.filter (fun o => o.fn ≠ fn)
  sessions : v.sess.list = u.sess.list.filter (fun x => x.fn ≠ fn)
  keys : v.sess.keys = u.sess.keys.filter (fun k => k.fn ≠ fn)
  progs : v.matrix.progs = u.matrix.progs.filter (fun p => p.fn ≠ fn)
  scheds : v.abacus.scheds = u.abacus.scheds.filter (fun x => x.fn ≠ fn)
  sq : v.rings.sq = u.rings.sq.filter (fun e => e.1 / 32768 ≠ fn)
  cq : v.rings.cq = u.rings.cq.filter (fun e => e.1 / 32768 ≠ fn)
  fnc : v.fnc fn = { sqCount := (u.fnc fn).sqCount, cqCount := (u.fnc fn).cqCount }
  kept : v.clock = u.clock ∧ v.tally = u.tally ∧ v.power = u.power ∧ v.fault = u.fault ∧ v.tiers.extents = u.tiers.extents

theorem functionReset_eq (s : State) (fn : Nat) : ∃ v, s.functionReset fn = v.syncPool.freeParcels ∧ FunctionCleared fn (s.opsDropped fn) v := by
  refine ⟨_, rfl, rfl, rfl, rfl, rfl, rfl, rfl, rfl, ?_, rfl, rfl, rfl, rfl, rfl⟩
  exact fnc_setFnc_same _ fn _

/-- Settles O28: the operations are dropped (`opsDropped_beyondWork`), the function's own tables cleared (`functionReset_eq`), and only parcels freed. -/
theorem functionResetIsolatesOthers : Obligations.FunctionResetIsolatesOthers := by
  intro s fn hlink hfn
  have hexec : exec (.functionLevelReset fn) s = .next (s.functionReset fn) := by
    rw [exec, execFunctionLevelReset]
    exact if_pos ⟨hlink, hfn⟩
  have hdrop := opsDropped_beyondWork s fn
  obtain ⟨v, hv, hclear⟩ := functionReset_eq s fn
  generalize s.opsDropped fn = u at hdrop hclear
  simp only [State.beyondWork, Prod.mk.injEq] at hdrop
  obtain ⟨hops, hsess, hprogs, hscheds, hrings, hextents, hclock, htally, hpower, hsafe⟩ := hdrop
  obtain ⟨hvops, hvsess, hvkeys, hvprogs, hvscheds, hvsq, hvcq, hvfnc, hvclock, hvtally, hvpower, hvfault, hvextents⟩ := hclear
  have hfnc : u.fnc fn = s.fnc fn := by rw [State.fnc, hrings]; rfl
  have hsq : ∀ g n, n < 32768 → v.sq g n = if g = fn then {} else s.sq g n := fun g n hn => by
    rw [State.sq, hvsq, hrings]
    exact Store.get_cleared _ hn s.rings.sq
  have hcq : ∀ g n, n < 32768 → v.cq g n = if g = fn then {} else s.cq g n := fun g n hn => by
    rw [State.cq, hvcq, hrings]
    exact Store.get_cleared _ hn s.rings.cq
  rw [hv] at hexec
  refine ⟨_, hexec, ?_, ?_, ?_, ?_, ?_, fun n hn => ⟨?_, ?_⟩, fun g n hg hn => ⟨?_, ?_⟩, ?_, ?_, ?_, ?_, ?_, ?_, ?_⟩
  · exact hvops.trans (by rw [hops])
  · exact hvsess.trans (by rw [hsess])
  · exact hvkeys.trans (by rw [hsess])
  · exact hvprogs.trans (by rw [hprogs])
  · exact hvscheds.trans (by rw [hscheds])
  · exact (hsq fn n hn).trans (if_pos rfl)
  · exact (hcq fn n hn).trans (if_pos rfl)
  · exact (hsq g n hn).trans (if_neg hg)
  · exact (hcq g n hn).trans (if_neg hg)
  · exact (congrArg FnCtx.sqCount hvfnc).trans (by rw [hfnc])
  · exact (congrArg FnCtx.cqCount hvfnc).trans (by rw [hfnc])
  · exact (syncPool_extents v).trans (hvextents.trans hextents)
  · exact hvclock.trans hclock
  · exact hvtally.trans htally
  · exact hvpower.trans hpower
  · exact (congrArg FaultS.safeHold hvfault).trans hsafe

end Sys2Proof.Machine

/-! # A disable of a ring that waits for completion space

A disable that changes a locked field counts a lock violation, and it ends the ring's wait for completion space, whose time is counted too (R59, R67, R471).
A counter's key leaves 24 bits for the ring it counts for (R423). Function × 32768 + ring fits them for every function of the device, but the statement
ranges over all numbers, and at function 1536 the key of CQ_FULL_TIME is that of LOCK_VIOLATION. -/

namespace Sys2Proof.Machine

/-- Ring 0 of function 1536 is enabled and has waited for completion space since power-on, 5 ns ago. -/
def waitingRing : State :=
  { State.reset with
    clock := { State.reset.clock with now := 5 }
    host := { linkUp := true, perstLow := false }
    rings := { sq := [(ringKey 1536 0, { cfg := 0x8064, stalledCq := true })] } }

/-- The disable counts one lock violation and the 5 ns of the wait in one counter. -/
theorem exec_disable_waitingRing : ∃ t, exec (.ringDisable 1536 0x65) waitingRing = .next t ∧ t.counter 0x104 0 = 6 := by
  obtain ⟨c, hblock⟩ := blockOf_isSome waitingRing 0x1004 (by decide)
  have hwrite : waitingRing.busWrite 1536 0x1004 4 (0x65 : Word).toNat = waitingRing.writeReg 1536 0x1004 0x65 :=
    busWrite_reg ⟨by decide, rfl⟩ (by decide) (by decide) hblock (by decide)
  refine ⟨waitingRing.writeReg 1536 0x1004 0x65, ?_, by decide⟩
  rw [exec, execRingDisable, if_neg (by decide), hwrite]

/-- Refutes O21: with a number of function that the device does not have, the time of a wait is counted as lock violations. Disabling ring 0 of function 1536
with a locked field changed moves LOCK_VIOLATION from 0 to 6, where the statement promises 1. -/
theorem not_ringsEnableAndDisable : ¬ Obligations.RingsEnableAndDisable := by
  rintro ⟨-, hdisable, -⟩
  obtain ⟨hsq, -⟩ := hdisable waitingRing 1536 0 0x65 ⟨by decide, rfl⟩ (by decide)
  obtain ⟨t, ht, -, -, hcount, -⟩ := hsq (by decide) (by decide) (.inr (by decide))
  obtain ⟨t', ht', hsix⟩ := exec_disable_waitingRing
  obtain rfl : t' = t := Host.Outcome.next.inj (ht'.symm.trans ht)
  have hone : t'.counter 0x104 0 = 1 := hcount (by decide)
  omega

end Sys2Proof.Machine

/-! # Sessions and their keys

What an update of a session or of its keys leaves and changes, what an event leaves of them, and the operation of a function that owns a live session
(R109, R115, R119): the layer that the statements on sessions share. -/

namespace Sys2Proof.Machine

/-! ## Lists -/

/-- The element that a change of the first one reaches, with what stands before and after it. -/
theorem updFirst_of_find {α : Type} {p : α → Bool} {l : List α} {a : α} (ha : l.find? p = some a) :
    ∃ as bs, l = as ++ a :: bs ∧ (∀ x ∈ as, p x = false) ∧ ∀ f, updFirst p f l = as ++ f a :: bs := by
  obtain ⟨hp, as, bs, rfl, has⟩ := List.find?_eq_some_iff_append.mp ha
  have hbefore : ∀ x ∈ as, p x = false := by simpa using has
  refine ⟨as, bs, rfl, hbefore, fun f => ?_⟩
  clear ha has
  induction as with
  | nil => simp [updFirst, hp]
  | cons x as ih =>
    obtain ⟨hx, has⟩ := List.forall_mem_cons.mp hbefore
    simp [updFirst, hx, ih has]

section Found

variable {α : Type} {p : α → Bool} {f : α → α} {l : List α} {a : α} (ha : l.find? p = some a)
include ha

theorem find_updFirst_found (hf : p (f a) = true) : (updFirst p f l).find? p = some (f a) := by
  obtain ⟨as, bs, -, has, hupd⟩ := updFirst_of_find ha
  have hnone : as.find? p = none := List.find?_eq_none.mpr fun x hx => by simp [has x hx]
  simp [hupd, List.find?_append, hnone, hf]

theorem map_updFirst_found {γ : Type} {e : α → γ} (he : e (f a) = e a) : (updFirst p f l).map e = l.map e := by
  obtain ⟨as, bs, rfl, -, hupd⟩ := updFirst_of_find ha
  simp [hupd, he]

theorem updFirst_eq_self (hf : f a = a) : updFirst p f l = l := by
  obtain ⟨as, bs, rfl, -, hupd⟩ := updFirst_of_find ha
  rw [hupd, hf]

/-- Where no element of a list satisfies q, the first that p finds is the only one that can once it is changed. -/
theorem filter_updFirst_found {q : α → Bool} (hq : ∀ x ∈ l, q x = false) (hfa : q (f a) = true) : (updFirst p f l).filter q = [f a] := by
  obtain ⟨as, bs, rfl, -, hupd⟩ := updFirst_of_find ha
  have has : as.filter q = [] := List.filter_eq_nil_iff.mpr fun x hx => by simp [hq x (by simp [hx])]
  have hbs : bs.filter q = [] := List.filter_eq_nil_iff.mpr fun x hx => by simp [hq x (by simp [hx])]
  simp [hupd, hfa, has, hbs]

end Found

theorem updFirst_updFirst {α : Type} {p : α → Bool} {f g : α → α} (h : ∀ x, p x = true → p (f x) = true) (l : List α) :
    updFirst p g (updFirst p f l) = updFirst p (fun x => g (f x)) l := by
  induction l with
  | nil => rfl
  | cons x l ih => by_cases hx : p x = true <;> simp [updFirst, hx, h, ih]

/-! ## Lookup -/

theorem session_id {s : State} {sid : Nat} {x : Session} (h : s.session sid = some x) : x.id = sid := by
  simpa using List.find?_some h

theorem keySlot_sid {s : State} {sid : Nat} {k : KeySlot} (h : s.keySlot sid = some k) : k.sid = sid := by
  simpa using List.find?_some h

/-- A change of the session that is found under an ID. -/
theorem session_updSession_found {s : State} {sid : Nat} {x : Session} {f : Session → Session} (hx : s.session sid = some x)
    (hid : (f x).id = x.id := by rfl) : (s.updSession sid f).session sid = some (f x) :=
  find_updFirst_found hx (by simpa using hid.trans (session_id hx))

/-- A change of the keys that are found under an ID. -/
theorem keySlot_updKeys_found {s : State} {sid : Nat} {k : KeySlot} {f : KeySlot → KeySlot} (hk : s.keySlot sid = some k)
    (hsid : (f k).sid = k.sid := by rfl) : (s.updKeys sid f).keySlot sid = some (f k) :=
  find_updFirst_found hk (by simpa using hsid.trans (keySlot_sid hk))

theorem session_updSession_ne (s : State) {sid j : Nat} {f : Session → Session} (h : ∀ x, x.id = sid → (f x).id = sid) (hj : j ≠ sid) :
    (s.updSession sid f).session j = s.session j := by
  refine find_updFirst_other _ _ f _ fun x hx => ?_
  have hid : x.id = sid := by simpa using hx
  simp [hid, h x hid, hj.symm]

/-- Two changes of one session are one. -/
theorem updSession_updSession (s : State) {sid : Nat} {f g : Session → Session} (h : ∀ x, x.id = sid → (f x).id = sid) :
    (s.updSession sid f).updSession sid g = s.updSession sid fun x => g (f x) := by
  rw [State.updSession, State.updSession, updFirst_updFirst (by simpa using h)]
  rfl

theorem keySlot_updKeys_ne (s : State) {sid j : Nat} {f : KeySlot → KeySlot} (h : ∀ k, k.sid = sid → (f k).sid = sid) (hj : j ≠ sid) :
    (s.updKeys sid f).keySlot j = s.keySlot j := by
  refine find_updFirst_other _ _ f _ fun k hk => ?_
  have hsid : k.sid = sid := by simpa using hk
  simp [hsid, h k hsid, hj.symm]

theorem keySlot_append {s t : State} {k : KeySlot} (h : t.sess.keys = s.sess.keys ++ [k]) (sid : Nat) :
    t.keySlot sid = (s.keySlot sid).or (if k.sid = sid then some k else none) := by
  by_cases hk : k.sid = sid <;> simp [State.keySlot, h, List.find?_append, hk]

theorem session_append {s t : State} {x : Session} (h : t.sess.list = s.sess.list ++ [x]) (sid : Nat) :
    t.session sid = (s.session sid).or (if x.id = sid then some x else none) := by
  by_cases hx : x.id = sid <;> simp [State.session, h, List.find?_append, hx]

/-! ## What an event leaves of the sessions -/

section Sessions

variable {β : Type}

/-- Time, the keys, and what g sees of each session. -/
def State.sessions (g : Session → β) (s : State) : Clock × List KeySlot × List (Nat × β) := (s.clock, s.sess.keys, s.sess.list.map fun x => (x.id, g x))

variable {g : Session → β} {s t : State}

theorem clock_of_sessions (h : t.sessions g = s.sessions g) : t.clock = s.clock := congrArg (·.1) h

theorem keySlot_of_sessions (h : t.sessions g = s.sessions g) (sid : Nat) : t.keySlot sid = s.keySlot sid := by
  have hkeys : t.sess.keys = s.sess.keys := congrArg (·.2.1) h
  rw [State.keySlot, hkeys, State.keySlot]

theorem session_map_eq_find (g : Session → β) (s : State) (sid : Nat) :
    (s.session sid).map g = ((s.sessions g).2.2.find? fun p => p.1 = sid).map (·.2) := by
  simp [State.sessions, State.session, List.find?_map, Function.comp_def]

theorem session_of_sessions (h : t.sessions g = s.sessions g) {sid : Nat} {x : Session} (hx : s.session sid = some x) :
    ∃ y, t.session sid = some y ∧ g y = g x := by
  have hmap : (t.session sid).map g = some (g x) := by rw [session_map_eq_find, h, ← session_map_eq_find, hx, Option.map_some]
  simpa using hmap

theorem foldl_sessions {α : Type} {f : State → α → State} (hf : ∀ s a, (f s a).sessions g = s.sessions g) (l : List α) (s : State) :
    (l.foldl f s).sessions g = s.sessions g := by
  induction l generalizing s with
  | nil => rfl
  | cons a l ih => rw [List.foldl_cons, ih, hf]

theorem updSession_sessions {sid : Nat} {f : Session → Session} (s : State) (h : ∀ x, (f x).id = x.id ∧ g (f x) = g x := by exact fun _ => ⟨rfl, rfl⟩) :
    (s.updSession sid f).sessions g = s.sessions g := by
  rw [State.sessions, State.updSession, map_updFirst _ _ _ _ fun x => by rw [(h x).1, (h x).2]]
  rfl

/-- A change of one session that g does not see in it. -/
theorem updSession_sessions_found {sid : Nat} {x : Session} {f : Session → Session} (hx : s.session sid = some x) (h : (f x).id = x.id ∧ g (f x) = g x) :
    (s.updSession sid f).sessions g = s.sessions g := by
  rw [State.sessions, State.updSession, map_updFirst_found hx (by rw [h.1, h.2])]
  rfl

@[simp] theorem finish_sessions (s : State) (id : Nat) (r : Res) : (s.finish id r).sessions g = s.sessions g := rfl
@[simp] theorem bumpBy_sessions (s : State) (i j n : Nat) : (s.bumpBy i j n).sessions g = s.sessions g := rfl
@[simp] theorem bump_sessions (s : State) (i : Nat) : (s.bump i).sessions g = s.sessions g := rfl

variable (hg : ∀ (x : Session) l, g { x with events := l } = g x)
include hg

theorem queueEvent_sessions (s : State) (sid code data : Nat) : (s.queueEvent sid code data).sessions g = s.sessions g := by
  unfold State.queueEvent
  split
  · rfl
  · extract_lets e bumpLast lost
    have hupd : ∀ l : Session → List EventRec, (s.updSession sid fun x => { x with events := l x }).sessions g = s.sessions g := fun l =>
      updSession_sessions s fun x => ⟨rfl, hg x (l x)⟩
    split
    · exact hupd _
    · exact hupd _

theorem takeEvents_sessions (p : Session → Bool) (n : Nat) (l : List Session) :
    (takeEvents p n l).1.map (fun x => (x.id, g x)) = l.map fun x => (x.id, g x) := by
  induction l generalizing n with
  | nil => simp [takeEvents]
  | cons x l ih =>
    rw [takeEvents]
    split
    · simp [ih, hg]
    · simp [ih]

theorem serveWait_sessions (s : State) (o : Op) : (s.serveWait o).sessions g = s.sessions g := by
  unfold State.serveWait
  extract_lets r
  split
  · rfl
  · exact congrArg (fun l => (s.clock, s.sess.keys, l)) (takeEvents_sessions hg _ _ _)

theorem deliverEvents_sessions (s : State) : s.deliverEvents.sessions g = s.sessions g :=
  foldl_sessions (serveWait_sessions hg) _ s

theorem event_sessions (s : State) (sid code data : Nat) : (s.event sid code data).sessions g = s.sessions g :=
  (deliverEvents_sessions hg _).trans (queueEvent_sessions hg s sid code data)

end Sessions

/-- A session without its queue of events. -/
def Session.hushed (x : Session) : Session := { x with events := [] }

theorem hushed_events (x : Session) (l : List EventRec) : Session.hushed { x with events := l } = x.hushed := rfl

theorem eq_of_hushed {x y : Session} (h : y.hushed = x.hushed) : y = { x with events := y.events } := by
  cases x; cases y; simpa [Session.hushed] using h

/-- A state whose sessions are those of s but for their events holds each session with other events at most. -/
theorem session_of_hushed {s t : State} (h : t.sessions Session.hushed = s.sessions Session.hushed) {sid : Nat} {x : Session} (hx : s.session sid = some x) :
    ∃ l, t.session sid = some { x with events := l } := by
  obtain ⟨y, hy, hyx⟩ := session_of_sessions h hx
  exact ⟨y.events, hy.trans (congrArg some (eq_of_hushed hyx))⟩

theorem event_hushed (s : State) (sid code data : Nat) : (s.event sid code data).sessions Session.hushed = s.sessions Session.hushed :=
  event_sessions hushed_events s sid code data

theorem session_event {s : State} {sid : Nat} {x : Session} (hx : s.session sid = some x) (code data : Nat) :
    ∃ l, (s.event sid code data).session sid = some { x with events := l } :=
  session_of_hushed (event_hushed s sid code data) hx

@[simp] theorem event_clock (s : State) (sid code data : Nat) : (s.event sid code data).clock = s.clock := clock_of_sessions (event_hushed s sid code data)

/-! ## Counters and events -/

theorem foldl_counter {α : Type} {f : State → α → State} {i j : Nat} (hf : ∀ s a, (f s a).counter i j = s.counter i j) (l : List α) (s : State) :
    (l.foldl f s).counter i j = s.counter i j := by
  induction l generalizing s with
  | nil => rfl
  | cons a l ih => rw [List.foldl_cons, ih, hf]

/-- An event moves no counter but EVENT_OVERFLOW. -/
theorem counter_event (s : State) (sid code data : Nat) {i j : Nat} (hi : i ≠ 0x20b) (hj : j < 2 ^ 24) :
    (s.event sid code data).counter i j = s.counter i j := by
  have hserve : ∀ (s : State) o, (s.serveWait o).counter i j = s.counter i j := fun s o => by
    unfold State.serveWait
    extract_lets r
    split <;> rfl
  rw [State.event, State.deliverEvents, foldl_counter hserve]
  unfold State.queueEvent
  split
  · rfl
  · split
    · rfl
    · rw [State.bump, counter_bumpBy _ _ _ _ _ _ (by decide) hj, if_neg fun h => hi h.1]
      rfl

/-! ## An operation of the function that owns a live session -/

theorem useSession_of_uses {s : State} {o : Op} {x : Session} (h : s.Uses o x) : s.useSession o.fn o.handle = .ok x := by
  obtain ⟨hx, hfn, hlive⟩ := h
  simp [State.useSession, hx, hfn, hlive]

theorem State.Tunes.uses {s : State} {id sub sid : Nat} {o : Op} {x : Session} (h : s.Tunes id sub sid o x) : s.Uses o x := by
  obtain ⟨-, hx, rfl, hfn, hlive⟩ := h
  exact ⟨hx, hfn, hlive⟩

end Sys2Proof.Machine

/-! # SESSION_TUNE

A subop whose checks pass sets the next settings of the session that it names, or changes the session in one other way (R109, R117). -/

namespace Sys2Proof.Machine

section Tune

variable {s : State} {id sub sid : Nat} {o : Op} {x : Session} (h : s.Tunes id sub sid o x)
include h

theorem tune_of_tunes (f : Op → Session → State) : s.tune id sub f = .next (f o x) := by
  rw [State.tune, runSub_of h.1]
  simp only [useSession_of_uses h.uses]

/-- The session that a subop changes is the one whose settings it is said to tune. -/
theorem tuned_updSession {f : Session → Session} (hf : ∀ y, (f y).id = y.id) : Tuned s ((s.updSession sid f).finish id (Res.ok 0 0)) id sid (f x).nextCfg := by
  obtain ⟨⟨⟨hfind, -⟩, -⟩, hx, -⟩ := h
  have hid : ∀ y, y.id = sid → (f y).id = sid := fun y hy => (hf y).trans hy
  exact ⟨ended_finish_of hfind _ rfl, othersKept_finish_of s _ id _ rfl, rfl, ⟨f x, session_updSession_found hx (hf x), rfl⟩,
    fun j hj => session_updSession_ne s hid hj⟩

theorem session_updSession_finish {f : Session → Session} (hf : ∀ y, (f y).id = y.id) (r : Res) : ((s.updSession sid f).finish id r).session sid = some (f x) :=
  session_updSession_found h.2.1 (hf x)

/-- A subop of settings alone, whose check passes. -/
theorem tuned_of_check {c : Instr} {chk : Op → Session → Option Res} {f : Op → SessCfg → SessCfg} {d : SessCfg} (hrun : exec c s = s.tuneCfg id sub chk f)
    (hd : f o x.nextCfg = d) (hchk : chk o x = none) : ∃ t, exec c s = .next t ∧ Tuned s t id sid d := by
  subst hd
  refine ⟨s.setNext id x.id (f o), ?_, ?_⟩
  · rw [hrun, State.tuneCfg, tune_of_tunes h, hchk]
  · rw [session_id h.2.1]
    exact tuned_updSession h (f := fun y => { y with nextCfg := f o y.nextCfg }) fun _ => rfl

end Tune

/-- A list of field checks passes where each field is good. -/
theorem firstRes_need_cons {good : Bool} {off : Nat} (hgood : good = true) (l : List (Option Res)) : firstRes (need good off :: l) = firstRes l := by
  simp [firstRes, need, hgood]

theorem need_of_good {good : Bool} {off : Nat} (hgood : good = true) : need good off = none := by simp [need, hgood]

/-- SET_FILTER sets the preset and the mode, and marks the session, whose filter settles again from the next frame on (R117, R146). -/
theorem exec_setFilter {s : State} {id sid : Nat} {o : Op} {x : Session} (h : s.Tunes id 0x01 sid o x) (hpreset : o.u8 17 ≤ 2) (hmode : o.u8 18 ≤ 1) :
    exec (.setFilter id) s = .next ((s.updSession sid fun y =>
      { y with restartAtFrame := true, nextCfg := { y.nextCfg with base := { y.nextCfg.base with preset := o.u8 17, mode := o.u8 18 } } }).finish id (Res.ok 0 0)) := by
  rw [exec, execSetFilter, tune_of_tunes h]
  simp only [firstRes_need_cons (decide_eq_true hpreset), firstRes_need_cons (decide_eq_true hmode), session_id h.2.1]
  exact congrArg (fun u : State => Host.Outcome.next (u.finish id (Res.ok 0 0))) (updSession_updSession s fun _ hy => hy)

/-- SET_LIMITS by PF0 sets both limits at once (R117, R118). -/
theorem exec_setLimits {s : State} {id : Nat} {o : Op} (h : s.RunsSub id 0x0B 0x08 o) (hfn : o.fn = 0) (hall : o.handle = 0xFFFFFFFF) (hopen : o.u16 20 ≤ 4096)
    (hstream : o.u16 22 ≤ 81920) :
    exec (.setLimits id) s = .next (({ s with sess := { s.sess with openLimit := o.u16 20, streamLimit := o.u16 22 } }).finish id (Res.ok 0 0)) := by
  rw [exec, execSetLimits, runSub_of h]
  simp [firstRes, need, hfn, hall, hopen, hstream]

/-- Settles O39: SET_FILTER changes the session in two places, SET_LIMITS changes no session, and the other subops are settings with a check. -/
theorem tuneSetsStreamSettings : Obligations.TuneSetsStreamSettings := by
  intro s id sid o x
  refine ⟨fun h hpreset hmode => ?_, fun h hshock htip => ?_, fun h hoffset hkeep hlinger hwindow => ?_, fun h hneed hroom => ?_, fun h hhost hlo hhi hload => ?_,
    fun h hfn hall hopen hstream => ?_⟩
  · exact ⟨_, exec_setFilter h hpreset hmode, tuned_updSession h fun _ => rfl, _, session_updSession_finish h (by exact fun _ => rfl) _, rfl⟩
  · exact tuned_of_check h rfl rfl (by simp [firstRes, need, hshock, htip])
  · exact tuned_of_check h rfl rfl (by simp [firstRes, need, hoffset, hkeep, hlinger, hwindow])
  · exact tuned_of_check h rfl rfl (by simp [Nat.not_lt.mpr hneed]; exact hroom)
  · exact tuned_of_check h rfl rfl (by simp [hhost, within, hlo, hhi, Nat.not_lt.mpr hload])
  · exact ⟨_, exec_setLimits h hfn hall hopen hstream, ended_finish_of h.1.1 _ rfl, othersKept_finish_of s _ id _ rfl, rfl⟩

/-- SET_POSE from a good block: the pose waits for the next frame boundary (R193, R208). -/
theorem exec_setPose {s : State} {id sid : Nat} {o : Op} {x : Session} (h : s.Tunes id 0x24 sid o x) (hptr : o.u64 24 ≠ 0)
    (hpose : poseOk (s.readMem (o.u64 24) 36) = true) :
    exec (.setPose id) s = .next ((s.updSession sid fun y => { y with pendingPose := some (readPose (s.readMem (o.u64 24) 36)) }).finish id (Res.ok 0 0)) := by
  rw [exec, execSetPose, tune_of_tunes h]
  simp only [hptr, hpose, if_true, if_false, session_id h.2.1]

section Calibration

variable {s : State} {id sid : Nat} {o : Op} {x : Session} (h : s.Tunes id 0x30 sid o x) (hptr : o.u64 24 ≠ 0)
include h hptr

/-- SET_CALIBRATION from a block that is allowed: the block, under the next version (R153, R155). -/
theorem exec_setCalibration (hok : calibOk (s.readMem (o.u64 24) 136) = true) :
    exec (.setCalibration id) s = .next ((s.updSession sid fun y => { y with nextCfg := { y.nextCfg with
      track := { y.nextCfg.track with calib := s.readMem (o.u64 24) 136, calibVersion := (y.nextCfg.track.calibVersion + 1) % 2 ^ 32 } } }).finish id (Res.ok 0 0)) := by
  rw [exec, execSetCalibration, tune_of_tunes h]
  simp only [hptr, hok, if_true, if_false, session_id h.2.1]
  rfl

/-- SET_CALIBRATION from any other block is a bad descriptor (R153). -/
theorem exec_setCalibration_bad (hbad : calibOk (s.readMem (o.u64 24) 136) = false) : exec (.setCalibration id) s = .next (s.finish id (Res.field 24)) := by
  rw [exec, execSetCalibration, tune_of_tunes h]
  simp only [hptr, hbad, if_false, Bool.false_eq_true]

end Calibration

/-- Settles O40: SET_POSE and SET_CALIBRATION read a block, and the other subops are settings with a check. -/
theorem tuneSetsFusionAndTracking : Obligations.TuneSetsFusionAndTracking := by
  refine ⟨fun s id sid o x => ⟨fun h hcontra hrecover hgate => ?_, fun h hprec => ?_, fun h hdrop hhold => ?_, fun h hsearch => ?_, fun h hptr hpose => ?_,
    fun h henable hperiod => ?_⟩, fun s id sid o x => ⟨fun h hptr hok => ?_, fun h hptr hbad => ?_, fun h hconf hlimit => ?_, fun h hforce hwindow hmatches => ?_,
    fun h hseg hcell hcorners => ?_, fun h hdisp => ?_, fun h hmask hvalue => ?_⟩⟩
  · exact tuned_of_check h rfl rfl (by simpa [firstRes, need, hcontra, hrecover] using hgate)
  · exact tuned_of_check h rfl rfl (by simp [need, hprec])
  · exact tuned_of_check h rfl rfl (by simpa [firstRes, need, hdrop] using hhold)
  · exact tuned_of_check h rfl rfl (by simp [need, hsearch])
  · exact ⟨_, exec_setPose h hptr hpose, tuned_updSession h fun _ => rfl, _, session_updSession_finish h (by exact fun _ => rfl) _, rfl⟩
  · exact tuned_of_check h rfl rfl (by simp [firstRes, need, henable, hperiod])
  · exact ⟨_, exec_setCalibration h hptr hok, tuned_updSession h fun _ => rfl⟩
  · exact ⟨_, exec_setCalibration_bad h hptr hbad, justEnded_finish h.1.1.1 (Res.field 24)⟩
  · exact tuned_of_check h rfl rfl (by simp [firstRes, need, hconf, hlimit])
  · exact tuned_of_check h rfl rfl (by simp [firstRes, need, hforce, hwindow, hmatches])
  · exact tuned_of_check h rfl rfl (by simp [firstRes, need, hseg, hcell, hcorners])
  · exact tuned_of_check h rfl rfl (need_of_good (by simpa [or_assoc] using hdisp))
  · exact tuned_of_check h rfl rfl (by simp [firstRes, need, hmask, hvalue])

end Sys2Proof.Machine

/-! # SESSION_KEY, SESSION_OPEN and SESSION_CLOSE

What each of them stores or frees where its check passes (R110 to R116). -/

namespace Sys2Proof.Machine

/-! ## Operations and registers by the spine -/

section Spine

variable {s u : State} (hu : u.spine = s.spine)
include hu

theorem outside_of_spine : u.regs = s.regs ∧ u.rings = s.rings ∧ u.host = s.host := by
  simp only [State.spine, Prod.mk.injEq] at hu
  obtain ⟨-, -, hregs, hhost, hrings, -⟩ := hu
  exact ⟨hregs, hrings, hhost⟩

theorem findOp_of_spine {id : Nat} {o : Op} (ho : s.findOp id = some o) : ∃ p, u.findOp id = some p := by
  have hids : u.ops.list.map (·.id) = s.ops.list.map (·.id) := by
    simp only [State.spine, Prod.mk.injEq] at hu
    exact hu.2.2.2.2.2.2.2.2.2.2
  have hmem : id ∈ u.ops.list.map (·.id) := hids ▸ List.mem_map.mpr ⟨o, List.mem_of_find?_eq_some ho, findOp_id ho⟩
  obtain ⟨p, hp, hpid⟩ := List.mem_map.mp hmem
  exact Option.isSome_iff_exists.mp (List.find?_isSome.mpr ⟨p, hp, by simpa using hpid⟩)

/-- An operation that ends on a state with the operations in flight of s. -/
theorem ended_of_spine {id : Nat} {o : Op} (ho : s.findOp id = some o) (r : Res) : (u.finish id r).Ended id r.status r.count r.detail := by
  obtain ⟨p, hp⟩ := findOp_of_spine hu ho
  exact ended_finish hp r

end Spine

/-! ## SESSION_KEY -/

/-- The key that a SESSION_KEY gives, with its KEY_ID (R110). -/
def Op.key (o : Op) : Key × Nat := (BitVec.ofNat 256 (fld o.desc 16 32), o.u8 48)

section Key

variable {s : State} {id : Nat} {o : Op} (h : s.Runs id 0x0A o)
include h

theorem exec_sessionKey_refused {r : Res} (hr : keyCheck s o = some r) : exec (.sessionKey id) s = .next (s.finish id r) := by
  rw [exec, execSessionKey, runOp_of h]
  simp only [hr]

/-- The state whose keys a SESSION_KEY has stored: the next key of a session in use, the current key of an ID that is free or has no keys yet. -/
theorem exec_sessionKey (hc : keyCheck s o = none) : ∃ (u : State) (k : KeySlot), exec (.sessionKey id) s = .next (u.finish id (Res.ok 0 0)) ∧
    u = { s with sess := { s.sess with keys := u.sess.keys } } ∧ u.keySlot o.handle = some k ∧
    ((s.session o.handle).isSome = true ∧ (s.keySlot o.handle).isSome = true → k.next = some o.key) ∧
    ((s.session o.handle).isSome = false ∨ (s.keySlot o.handle).isSome = false → k.cur = some o.key ∧ k.net.txSeq = 0) ∧
    ∀ j, j ≠ o.handle → u.keySlot j = s.keySlot j := by
  rw [exec, execSessionKey, runOp_of h]
  simp only [hc]
  cases hslot : s.keySlot o.handle with
  | none =>
    refine ⟨_, { sid := o.handle, fn := o.u8 49, cur := some o.key }, rfl, rfl, ?_, fun hboth => ?_, fun _ => ⟨rfl, rfl⟩, fun j hj => ?_⟩
    · rw [keySlot_append (s := s) rfl, hslot]
      simp [Op.key]
    · simp at hboth
    · rw [keySlot_append (s := s) rfl, if_neg hj.symm, Option.or_none]
  | some slot =>
    have hsid := keySlot_sid hslot
    cases hopen : (s.session o.handle).isSome with
    | true =>
      simp only [if_true]
      refine ⟨_, { slot with next := some o.key }, rfl, rfl, ?_, fun _ => rfl, fun hfree => ?_, fun j hj => ?_⟩
      · exact keySlot_updKeys_found hslot
      · simp at hfree
      · exact keySlot_updKeys_ne s (fun k hk => hk) hj
    | false =>
      simp only [Bool.false_eq_true, if_false]
      refine ⟨_, { slot with cur := some o.key, erased := slot.erased ++ (slot.cur.map Prod.snd).toList, net := { slot.net with replay := {}, txSeq := 0 } },
        rfl, rfl, ?_, fun hboth => absurd hboth.1 (by simp), fun _ => ⟨rfl, rfl⟩, fun j hj => ?_⟩
      · exact keySlot_updKeys_found hslot
      · exact keySlot_updKeys_ne s (fun _ _ => hsid) hj

end Key

/-! ## SESSION_OPEN -/

theorem eq_none_of_firstRes {l : List (Option Res)} (h : firstRes l = none) {c : Option Res} (hc : c ∈ l) : c = none :=
  List.findSome?_eq_none_iff.mp h c hc

/-- SESSION_OPEN passes its check for an ID that is free alone (R113). -/
theorem session_none_of_openCheck {s : State} {o : Op} (h : openCheck s o = none) : s.session o.handle = none := by
  have hfree := eq_none_of_firstRes h (c := if (s.session o.handle).isSome then some (Res.bound 3) else none) (by simp)
  simpa using hfree

/-- The session that a SESSION_OPEN admits is there, and its cluster holds work. -/
def State.admitted (s : State) (o : Op) : State :=
  (({ s with sess := { s.sess with list := s.sess.list ++ [openedSession s o] } } : State).placed (openedSession s o).cluster).spend 1

/-- The admitted session with its first events, where it is OPEN at once. -/
def State.opened (s : State) (o : Op) : State :=
  if (openedSession s o).hostPath then ((s.admitted o).event o.handle 0x01 (openedSession s o).kind.code).event o.handle 0x08 0x01 else s.admitted o

theorem exec_sessionOpen {s : State} {id : Nat} {o : Op} (h : s.Runs id 0x08 o) (hc : openCheck s o = none) :
    exec (.sessionOpen id) s = .next ((s.opened o).finish id (Res.ok 0 0)) := by
  rw [exec, execSessionOpen, runOp_of h]
  simp only [hc]
  rfl

theorem exec_sessionOpen_refused {s : State} {id : Nat} {o : Op} {r : Res} (h : s.Runs id 0x08 o) (hr : openCheck s o = some r) :
    exec (.sessionOpen id) s = .next (s.finish id r) := by
  rw [exec, execSessionOpen, runOp_of h]
  simp only [hr]

theorem opened_spine (s : State) (o : Op) : (s.opened o).spine = s.spine := by
  unfold State.opened State.admitted
  split <;> simp

theorem opened_hushed (s : State) (o : Op) : (s.opened o).sessions Session.hushed = (s.admitted o).sessions Session.hushed := by
  unfold State.opened
  split
  · rw [event_hushed, event_hushed]
  · rfl

theorem session_opened {s : State} {o : Op} (hc : openCheck s o = none) : ∃ l, (s.opened o).session o.handle = some { openedSession s o with events := l } := by
  refine session_of_hushed (opened_hushed s o) ?_
  rw [session_append (s := s) (x := openedSession s o) rfl, session_none_of_openCheck hc]
  simp [openedSession]

/-! ## SESSION_CLOSE -/

theorem session_freeSession (s : State) (sid : Nat) : (s.freeSession sid).session sid = none := by
  simp [State.session, State.freeSession]

theorem keySlot_freeSession (s : State) (sid : Nat) : (s.freeSession sid).keySlot sid = none := by
  simp [State.keySlot, State.freeSession]

section Close

variable {s : State} {id : Nat} {o : Op} {x : Session} (h : s.Runs id 0x09 o) (hmode : o.u8 16 ≤ 1) (hx : s.session o.handle = some x)
include h hmode hx

theorem exec_sessionClose_denied (hfn : x.fn ≠ o.fn) : exec (.sessionClose id) s = .next (s.finish id (Res.denied 3)) := by
  rw [exec, execSessionClose, runOp_of h]
  simp only [if_neg (Nat.not_lt.mpr hmode), hx, if_pos hfn]

/-- A close by the owner ends the work of the session, frees it and reports what it discarded. -/
theorem exec_sessionClose (hfn : x.fn = o.fn) : ∃ u : State, u.spine = s.spine ∧ exec (.sessionClose id) s = .next ((u.freeSession o.handle).finish id
    (Res.ok 0 (b2n (decide (x.state = .closed)) + x.replies.length % 256 * 256 + x.reasm.length % 65536 * 65536))) := by
  rw [exec, execSessionClose, runOp_of h]
  simp only [if_neg (Nat.not_lt.mpr hmode), hx, hfn, ne_eq, not_true_eq_false, if_false, session_id hx]
  exact ⟨_, by simp, rfl⟩

end Close

/-- Settles O38: each operation that is refused ends alone; otherwise the lemmas above say which keys are stored, which session is admitted, and that both are gone
after a close. -/
theorem sessionsOpenAndClose : Obligations.SessionsOpenAndClose := by
  refine ⟨fun s id o h => ⟨fun r hr => ?_, fun hc => ?_⟩, fun s id o => ⟨fun h => ⟨fun r hr => ?_, fun hc => ?_⟩, fun h hmode x hx => ⟨fun hfn => ?_, fun hfn => ?_⟩⟩⟩
  · exact ⟨_, exec_sessionKey_refused h hr, justEnded_finish h.1 r⟩
  · obtain ⟨u, k, hrun, hu, hk, hnext, hcur, hothers⟩ := exec_sessionKey h hc
    have hops : u.ops = s.ops := by rw [hu]
    refine ⟨_, k, hrun, ended_finish_of h.1 _ hops, othersKept_finish_of s u id _ hops, hk, hnext, hcur, hothers, ?_⟩
    rw [finish_frame, hu]
  · exact ⟨_, exec_sessionOpen_refused h hr, justEnded_finish h.1 r⟩
  · obtain ⟨l, hl⟩ := session_opened hc
    have hspine := opened_spine s o
    exact ⟨_, _, exec_sessionOpen h hc, ended_of_spine hspine h.1 (Res.ok 0 0), hl, rfl, rfl, by simp [openedSession], by simp [openedSession], rfl,
      outside_of_spine (by simpa using hspine)⟩
  · exact ⟨_, exec_sessionClose_denied h hmode hx hfn, justEnded_finish h.1 (Res.denied 3)⟩
  · obtain ⟨u, hu, hrun⟩ := exec_sessionClose h hmode hx hfn
    have hfree : (u.freeSession o.handle).spine = s.spine := by simp [hu]
    exact ⟨_, hrun, ended_of_spine hfree h.1 (Res.ok _ _), session_freeSession u _, keySlot_freeSession u _, outside_of_spine (by simpa using hfree)⟩

end Sys2Proof.Machine

/-! # Session timers, calibration solves and session moves

What the events of a session in time do to it (R114, R133, R207, R306): each changes the session in one step, and what follows of it keeps that change. -/

namespace Sys2Proof.Machine

/-! ## Time -/

/-- Device time reaches the instant that it is moved to, where it runs. -/
theorem le_devNs_toDev {s : State} (hspeed : 0 < s.clock.speed) (t : Nat) : t ≤ (s.toDev t).devNs := by
  have hcover : t * devUnit - s.clock.dev ≤ (t * devUnit - s.clock.dev + s.clock.speed - 1) / s.clock.speed * s.clock.speed := by
    have hround := Nat.lt_div_mul_add hspeed (a := t * devUnit - s.clock.dev + s.clock.speed - 1)
    omega
  have hunit : 0 < devUnit := by decide
  rw [State.devNs, State.toDev, Nat.le_div_iff_mul_le hunit, Clock.advance]
  dsimp only
  omega

@[simp] theorem session_toTime (s : State) (t sid : Nat) : (s.toTime t).session sid = s.session sid := by rw [State.session, toTime_sess, State.session]
@[simp] theorem keySlot_toTime (s : State) (t sid : Nat) : (s.toTime t).keySlot sid = s.keySlot sid := by rw [State.keySlot, toTime_sess, State.keySlot]
@[simp] theorem session_toDev (s : State) (t sid : Nat) : (s.toDev t).session sid = s.session sid := by rw [State.session, toDev_sess, State.session]

/-! ## A frame that leaves reassembly -/

/-- The frames in reassembly and the highest number that has left it. -/
def Session.reassembly (x : Session) : List Reasm × Option Nat := (x.reasm, x.lastDone)

theorem reassembly_events (x : Session) (l : List EventRec) : Session.reassembly { x with events := l } = x.reassembly := rfl

theorem event_reassembly (s : State) (sid code data : Nat) : (s.event sid code data).sessions Session.reassembly = s.sessions Session.reassembly :=
  event_sessions reassembly_events s sid code data

theorem restartFilter_reassembly (s : State) (sid cause : Nat) : (s.restartFilter sid cause).sessions Session.reassembly = s.sessions Session.reassembly := by
  unfold State.restartFilter
  split
  · rfl
  · exact (event_reassembly _ _ _ _).trans (updSession_sessions s)

theorem unlockTime_reassembly (s : State) (sid cause offset : Nat) : (s.unlockTime sid cause offset).sessions Session.reassembly = s.sessions Session.reassembly :=
  (event_reassembly _ _ _ _).trans (updSession_sessions s)

theorem relockTime_reassembly (s : State) (sid : Nat) (x : Session) (run : List Int) :
    (s.relockTime sid x run).sessions Session.reassembly = s.sessions Session.reassembly := by
  unfold State.relockTime
  extract_lets mid theta u us v
  have hv : v.sessions Session.reassembly = s.sessions Session.reassembly :=
    (event_reassembly u _ _ _).trans (updSession_sessions s)
  split
  · exact hv
  · exact (restartFilter_reassembly v sid 0x02).trans hv

theorem relockStep_reassembly (s : State) (sid : Nat) (v : Int) : (s.relockStep sid v).sessions Session.reassembly = s.sessions Session.reassembly := by
  unfold State.relockStep
  split
  · rfl
  · extract_lets run
    split
    · exact relockTime_reassembly s sid _ run
    · exact updSession_sessions s

theorem arrivalAccepted_reassembly (s : State) (sid capture arrival : Nat) :
    (s.arrivalAccepted sid capture arrival).sessions Session.reassembly = s.sessions Session.reassembly := by
  unfold State.arrivalAccepted
  split
  · rfl
  · split
    · rfl
    · split
      · split
        · exact unlockTime_reassembly s sid _ _
        · rfl
      · split
        · exact relockStep_reassembly s sid _
        · rfl

theorem boundary_reassembly (x : Session) (no : Nat) : (x.boundary no).id = x.id ∧ (x.boundary no).reassembly = x.reassembly := by
  unfold Session.boundary
  extract_lets y z d w
  have hy : y.id = x.id ∧ y.reassembly = x.reassembly := ⟨rfl, rfl⟩
  have hz : z.id = x.id ∧ z.reassembly = x.reassembly := by
    simp only [z]
    split
    · split <;> exact hy
    · exact hy
  have hw : w.id = x.id ∧ w.reassembly = x.reassembly := by
    simp only [w]
    split <;> exact hz
  exact hw

theorem acceptFrame_reassembly (s : State) (sid : Nat) (f : Frame) : (s.acceptFrame sid f).sessions Session.reassembly = s.sessions Session.reassembly := by
  unfold State.acceptFrame
  split
  · rfl
  next x hx =>
    extract_lets y z g sess numbered queued moved settling
    have hqueued : queued.sessions Session.reassembly = s.sessions Session.reassembly :=
      updSession_sessions_found (s := numbered) hx (boundary_reassembly x f.frameNo)
    have hmoved : moved.sessions Session.reassembly = queued.sessions Session.reassembly := by
      simp only [moved]
      split <;> rfl
    have hsettling : settling.sessions Session.reassembly = moved.sessions Session.reassembly := by
      simp only [settling]
      split
      · exact restartFilter_reassembly moved sid 0x04
      · rfl
    calc (settling.arrivalAccepted sid f.capture f.arrival).sessions Session.reassembly
        = settling.sessions Session.reassembly := arrivalAccepted_reassembly settling sid _ _
      _ = s.sessions Session.reassembly := hsettling.trans (hmoved.trans hqueued)

theorem frameOut_reassembly {s : State} {sid : Nat} {x : Session} (hx : s.session sid = some x) (r : Reasm) :
    (s.frameOut sid r).sessions Session.reassembly = (s.updSession sid fun x =>
      { x with reasm := x.reasm.filter (fun q => q.frameNo ≠ r.frameNo), lastDone := some (max (x.lastDone.getD 0) r.frameNo) }).sessions Session.reassembly := by
  unfold State.frameOut
  simp only [hx]
  split
  · exact acceptFrame_reassembly _ _ _
  · rfl
  · rfl

/-- A frame that is abandoned is in reassembly no longer, and its number has left it. -/
theorem abandonFrame_leaves {s : State} {sid : Nat} {x : Session} (hx : s.session sid = some x) (r : Reasm) :
    ∃ y, (s.abandonFrame sid r).session sid = some y ∧ y.reasm = x.reasm.filter (fun q => q.frameNo ≠ r.frameNo) ∧
      y.lastDone = some (max (x.lastDone.getD 0) r.frameNo) ∧ (s.abandonFrame sid r).clock = s.clock := by
  have hx' : (s.bump Ctr.frameIncomplete).session sid = some x := hx
  have hout := frameOut_reassembly hx' r
  obtain ⟨y, hy, hyr⟩ := session_of_sessions hout (session_updSession_found hx')
  obtain ⟨hreasm, hlast⟩ := Prod.mk.inj hyr
  exact ⟨y, hy, hreasm, hlast, (clock_of_sessions hout).trans rfl⟩

theorem exec_reassemblyTimeout {s : State} {sid no : Nat} {x : Session} {r : Reasm} (hx : s.session sid = some x)
    (hr : x.reasm.find? (fun r => r.frameNo = no) = some r) :
    exec (.reassemblyTimeout sid no) s = .next ((s.toDev (r.capture + x.cfg.base.window * 1000000)).abandonFrame sid r) := by
  rw [exec, execReassemblyTimeout]
  simp only [hx, hr]

/-! ## Silence and linger -/

/-- A session that falls silent at an instant of device time. -/
def Session.silenced (x : Session) (at_ : Nat) : Session := { x with state := .silent, silentAt := some at_ }

theorem exec_silentTimeout {s : State} {sid : Nat} {x : Session} {k : KeySlot} (hx : s.session sid = some x) (hk : s.keySlot sid = some k)
    (hopen : x.state = .opened) (hnet : x.hostPath = false) {u : State} (hu : u = s.toTime (k.net.lastValid + 3 * x.cfg.base.keepalive * 1000000)) :
    exec (.silentTimeout sid) s = .next ((u.updSession sid fun x => x.silenced u.devNs).event sid 0x02 0) := by
  rw [exec, execSilentTimeout, hu]
  simp [hx, hk, hopen, hnet, Session.silenced]

theorem exec_lingerExpiry {s : State} {sid : Nat} {x : Session} {k : KeySlot} (hx : s.session sid = some x) (hk : s.keySlot sid = some k)
    (hsilent : x.state = .silent) :
    exec (.lingerExpiry sid) s = .next ((s.toTime (k.net.lastValid + x.cfg.base.linger * 1000000000)).closeSession sid 0x03) := by
  rw [exec, execLingerExpiry]
  simp only [hx, hk, if_pos hsilent]

/-- A session that enters CLOSED counts no load, holds no reply and no frame in reassembly, and has no keys. -/
theorem enterClosed_leaves {s : State} {sid : Nat} {x : Session} {k : KeySlot} (hx : s.session sid = some x) (hk : s.keySlot sid = some k) (reason : Nat) :
    ∃ u : State, (s.enterClosed sid reason).sessions Session.hushed = u.sessions Session.hushed ∧ u.clock = s.clock ∧
      u.session sid = some { x with replies := [], reasm := [], filter := { x.filter with running := false }, state := .closed, declLoad := 0 } ∧
      u.keySlot sid = some { k with cur := none, next := none, erased := k.erased ++ (k.cur.map (·.2)).toList ++ (k.next.map (·.2)).toList } := by
  have hquiet : (s.quiesce sid).session sid = some { x with replies := [], reasm := [], filter := { x.filter with running := false } } := by
    unfold State.quiesce
    simp only [hx]
    exact session_updSession_found hx
  have hquietKeys : (s.quiesce sid).keySlot sid = some k ∧ (s.quiesce sid).clock = s.clock := by
    unfold State.quiesce
    simp only [hx]
    exact ⟨hk, rfl⟩
  obtain ⟨hquietKey, hclock⟩ := hquietKeys
  rw [State.enterClosed]
  exact ⟨_, event_hushed _ _ _ _, hclock, session_updSession_found hquiet, keySlot_updKeys_found hquietKey⟩

theorem closeSession_hushed (s : State) (sid reason : Nat) :
    (s.closeSession sid reason).sessions Session.hushed = (s.enterClosed sid reason).sessions Session.hushed :=
  foldl_sessions (fun s (o : Op) => finish_sessions s o.id Res.lost) _ _

/-! ## Calibration solves -/

theorem exec_calibSolveQueue {s : State} {sid : Nat} {x : Session} (hx : s.session sid = some x) (hq : x.calibQueued = false) (hrun : s.running = true)
    (hon : x.cfg.fusion.calibEnable = true) (hopen : x.state = .opened) (hcalib : x.cfg.track.calib ≠ []) (hkind : x.kind ≠ .station)
    (hdue : x.cfg.fusion.calibPeriod * 1000000000 ≤ x.calibDue) :
    exec (.calibSolveQueue sid) s =
      .next (s.updSession sid fun y => { y with calibQueued := true, calibDue := y.calibDue - x.cfg.fusion.calibPeriod * 1000000000 }) := by
  rw [exec, execCalibSolveQueue]
  simp [hx, hq, hrun, hon, hopen, hcalib, hkind, hdue]

/-- An accepted result of a calibration solve goes under the next version (R155, R207). -/
theorem recalibrated_version (x : Session) (r : CalibResult) :
    (x.recalibrated r).id = x.id ∧ (x.recalibrated r).calibQueued = x.calibQueued ∧
      (x.recalibrated r).cfg.track.calibVersion = (x.cfg.track.calibVersion + 1) % 2 ^ 32 := by
  unfold Session.recalibrated
  extract_lets y
  split
  · exact ⟨rfl, rfl, rfl⟩
  · split <;> exact ⟨rfl, rfl, rfl⟩

/-- The two ends of a calibration solve: the session with its new calibration, or a counted reject (R207). -/
theorem calibSolveResult_ends {s : State} {sid : Nat} {x : Session} (hx : s.session sid = some x) (hq : x.calibQueued = true) (hrun : s.running = true)
    (hmay : s.ownSolveMay = true) : ∃ (t : State) (y : Session), exec (.calibSolveResult sid) s = .next t ∧ t.session sid = some y ∧ y.calibQueued = false ∧
      (y.cfg.track.calibVersion = (x.cfg.track.calibVersion + 1) % 2 ^ 32 ∨ (y.cfg = x.cfg ∧ t.counter 0x30D 0 = (s.counter 0x30D 0 + 1) % 2 ^ 64)) := by
  rw [exec, execCalibSolveResult]
  simp only [hx, hq, hrun, hmay]
  have hdone : (s.updSession sid fun y => { y with calibQueued := false }).session sid = some { x with calibQueued := false } := session_updSession_found hx
  generalize Config.calibSolve x (s.calibFrames sid) = w
  by_cases hacc : calibAccepted x w.1 (calibResult x w.2.1 w.2.2) = true
  · obtain ⟨hid, hqueued, hversion⟩ := recalibrated_version { x with calibQueued := false } (calibResult x w.2.1 w.2.2)
    obtain ⟨l, hl⟩ := session_event (session_updSession_found (f := fun y => y.recalibrated (calibResult x w.2.1 w.2.2)) hdone hid) 0x24
      (2 + 256 * ((x.cfg.track.calibVersion + 1) % 65536))
    simp only [if_pos hacc]
    exact ⟨_, _, rfl, hl, hqueued, .inl hversion⟩
  · obtain ⟨l, hl⟩ := session_event (s := (s.updSession sid fun y => { y with calibQueued := false }).bump Ctr.calibSolveReject) hdone 0x25 2
    simp only [if_neg hacc]
    refine ⟨_, _, rfl, hl, rfl, .inr ⟨rfl, ?_⟩⟩
    rw [counter_event _ _ _ _ (by decide) (by decide), State.bump, counter_bumpBy _ _ _ _ _ _ (by decide) (by decide), if_pos ⟨rfl, rfl⟩]
    rfl

/-- A calibration solve may start where an abacus core is free and each SOLVE of class 0 or 1 that waits has its workspace taken (R268). -/
theorem ownSolveMay_of_free {s : State} (hfree : s.freeAbacus.isSome = true)
    (hbusy : ∀ p ∈ s.ops.list, p.opcode = 0x28 → p.phase = .started → p.began = false → p.cls < 2 → s.workspaceBusy p = true) : s.ownSolveMay = true := by
  simp only [State.ownSolveMay, hfree, Bool.true_and, Bool.not_eq_true', List.any_eq_false]
  intro p hp
  simp only [Bool.and_eq_true, decide_eq_true_eq, Bool.not_eq_true', not_and, Bool.not_eq_false]
  rintro ⟨⟨⟨hcode, hphase⟩, hbegan⟩, hcls⟩
  exact hbusy p hp hcode hphase hbegan hcls

/-! ## Session moves -/

section Move

variable {s : State} {sid c : Nat} {x : Session} {a b : Cluster} (hx : s.session sid = some x) (hto : s.cluster c = some b) (hfrom : s.cluster x.cluster = some a)
  (hidle : x.frames = []) (hrole : b.role = .inService) (hne : c ≠ x.cluster) (hrun : s.running = true)
include hx hto hfrom hidle hrole hne hrun

theorem exec_sessionMove_starts (hmoving : x.moving = none) (hreason : (s.moveReason a b).isSome = true) :
    exec (.sessionMove sid c) s = .next (s.updSession sid fun y => { y with moving := some c }) := by
  rw [exec, execSessionMove]
  simp [hx, hto, hfrom, hidle, hrole, hne, hrun, hmoving, hreason]

theorem exec_sessionMove_ends (hmoving : x.moving = some c) : ∃ n, exec (.sessionMove sid c) s =
    .next { ((s.updSession sid fun y => { y with moving := none, cluster := c, moves := min 65535 (y.moves + 1) }).bump Ctr.sessionMoves).placed c with
      place := { s.place with movesDone := s.place.movesDone + 1, movesThisEpoch := n } } := by
  rw [exec, execSessionMove]
  simp only [hx, hto, hfrom, hidle, hrole, hrun, hmoving]
  refine ⟨if (s.moveReason a b).getD false then s.place.movesThisEpoch + 1 else s.place.movesThisEpoch, ?_⟩
  rw [if_neg (by simp [hne]), if_pos True.intro]
  rfl

end Move

/-- Settles O43: each command changes the session as its own lemma above says, and the event that follows leaves that change, the keys and time. -/
theorem sessionTimersAct : Obligations.SessionTimersAct := by
  intro s sid x hx
  refine ⟨fun no r hr => ?_, fun k hk hopen hnet => ?_, fun k hk hsilent => ?_, fun hq hrun hon hopen hcalib hkind hdue => ?_, fun hq hrun hfree hbusy => ?_,
    fun c a b hto hfrom hidle hrole hne hrun => ⟨fun hmoving hreason => ?_, fun hmoving => ?_⟩⟩
  · obtain rfl : r.frameNo = no := by simpa using List.find?_some hr
    obtain ⟨y, hy, hreasm, hlast, hclock⟩ := abandonFrame_leaves ((session_toDev s (r.capture + x.cfg.base.window * 1000000) sid).trans hx) r
    refine ⟨_, y, exec_reassemblyTimeout hx hr, hy, fun q hq => ?_, hlast, fun hspeed => ?_⟩
    · rw [hreasm, List.mem_filter] at hq
      simpa using hq.2
    · rw [State.devNs, hclock]
      exact le_devNs_toDev hspeed _
  · obtain ⟨u, hu⟩ : ∃ u, u = s.toTime (k.net.lastValid + 3 * x.cfg.base.keepalive * 1000000) := ⟨_, rfl⟩
    have hux : u.session sid = some x := by rw [hu, session_toTime, hx]
    obtain ⟨l, hl⟩ := session_event (session_updSession_found (f := fun x => x.silenced u.devNs) hux) 0x02 0
    refine ⟨_, _, exec_silentTimeout hx hk hopen hnet hu, hl, rfl, ?_⟩
    rw [event_clock, hu]
    exact le_toTime s _
  · obtain ⟨u, hhushed, hclock, hux, huk⟩ := enterClosed_leaves ((session_toTime s (k.net.lastValid + x.cfg.base.linger * 1000000000) sid).trans hx)
      ((keySlot_toTime s _ sid).trans hk) 0x03
    have hclosed := (closeSession_hushed _ sid 0x03).trans hhushed
    obtain ⟨l, hl⟩ := session_of_hushed hclosed hux
    refine ⟨_, _, _, exec_lingerExpiry hx hk hsilent, hl, rfl, rfl, rfl, rfl, (keySlot_of_sessions hclosed sid).trans huk, rfl, rfl, ?_⟩
    rw [clock_of_sessions hclosed, hclock]
    exact le_toTime s _
  · exact ⟨_, _, exec_calibSolveQueue hx hq hrun hon hopen hcalib hkind hdue, session_updSession_found hx, rfl, rfl, rfl⟩
  · exact calibSolveResult_ends hx hq hrun (ownSolveMay_of_free hfree hbusy)
  · exact ⟨_, _, exec_sessionMove_starts hx hto hfrom hidle hrole hne hrun hmoving hreason, session_updSession_found hx, rfl, rfl⟩
  · obtain ⟨n, hmove⟩ := exec_sessionMove_ends hx hto hfrom hidle hrole hne hrun hmoving
    refine ⟨_, _, hmove, session_updSession_found hx, rfl, rfl, rfl, rfl, ?_⟩
    exact (counter_bumpBy _ _ _ _ _ _ (by decide) (by decide)).trans (if_pos ⟨rfl, rfl⟩)

end Sys2Proof.Machine

/-! # EVENT_WAIT and TRACK_QUERY

A wait that is alone takes the oldest events that it covers, and a query that passes its field checks copies the result that it names (R119, R175 to R178). -/

namespace Sys2Proof.Machine

/-! ## Operations that write and end -/

/-- Bytes written on a state with the memory of s that holds the operation, then the operation ended. -/
theorem wroteAndEnded_finish {s u : State} {id : Nat} {o : Op} (h : u.findOp id = some o) (hm : u.mem = s.mem) (p : Nat) (b : List Byte) (r : Res) :
    WroteAndEnded s ((u.writeMem p b).finish id r) id p b r := by
  refine ⟨ended_finish_of (s := u) h r rfl, Memory.read_write u.mem p b, fun a ha => ?_⟩
  rw [finish_frame, State.writeMem, Memory.byte_write, if_neg (by omega), hm]

theorem findOp_begin_of {s : State} {id : Nat} {o : Op} (h : s.findOp id = some o) : (s.begin id).findOp id = some { o with began := true } := by
  rw [findOp_begin, h]
  rfl

/-- A change that leaves the session as it is changes nothing. -/
theorem updSession_eq_self {s : State} {sid : Nat} {x : Session} {f : Session → Session} (hx : s.session sid = some x) (hf : f x = x) : s.updSession sid f = s := by
  rw [State.updSession, updFirst_eq_self hx hf]

/-! ## EVENT_WAIT -/

/-- With no event that it covers, a wait waits. -/
theorem serveWait_none {s : State} {o : Op} (id : Nat) {r : List Session × List (List Byte)} (hr : r = takeEvents o.coversEvents (o.u16 32) s.sess.list) (hnone : r.2 = []) :
    (s.await id).serveWait { o with phase := .waiting, began := true } = s.await id := by
  have hempty : (takeEvents o.coversEvents (o.u16 32) s.sess.list).2.isEmpty = true := by rw [← hr, hnone]; rfl
  exact if_pos hempty

section Wait

variable {s : State} {id : Nat} {o : Op} (h : s.RunsSub id 0x0B 0x10 o)
include h

theorem exec_eventWait {x : Session} (hn : within 1 4096 (o.u16 32) = true) (hx : o.handle = 0xFFFFFFFF ∨ s.Uses o x) :
    exec (.eventWait id) s = .next (s.await id).deliverEvents := by
  rw [exec, execEventWait, runSub_of h]
  simp only [need_of_good hn]
  split
  · rfl
  next hone =>
    rcases hx with hall | huse
    · exact absurd hall hone
    · simp only [useSession_of_uses huse]

theorem findOp_await_of : (s.await id).findOp id = some { o with phase := .waiting, began := true } := by
  rw [findOp_await, h.1.1]
  rfl

/-- The only wait pending is served alone. -/
theorem deliverEvents_await (halone : ∀ p ∈ s.ops.list, p.phase = .waiting → p.opcode ≠ 0x0B) :
    (s.await id).deliverEvents = (s.await id).serveWait { o with phase := .waiting, began := true } := by
  obtain ⟨⟨hfind, -, hcode, -⟩, hsub⟩ := h
  have hwaits : ((s.await id).ops.list.filter fun o => o.phase = .waiting && o.opcode = 0x0B && o.u8 16 = 0x10) =
      [{ o with phase := .waiting, began := true }] := by
    refine filter_updFirst_found hfind (fun p hp => ?_) ?_
    · by_cases hwait : p.phase = .waiting
      · simp [hwait, halone p hp hwait]
      · simp [hwait]
    · have hcode' : Op.opcode { o with phase := .waiting, began := true } = 0x0B := hcode
      have hsub' : Op.u8 { o with phase := .waiting, began := true } 16 = 0x10 := hsub
      simp [hcode', hsub']
  rw [State.deliverEvents, hwaits]
  rfl

/-- With events that it covers, a wait takes the oldest and ends with them. -/
theorem serveWait_some {r : List Session × List (List Byte)} (hr : r = takeEvents o.coversEvents (o.u16 32) s.sess.list) (hsome : r.2 ≠ []) :
    (s.await id).serveWait { o with phase := .waiting, began := true } =
      ((({ s.await id with sess := { s.sess with list := r.1 } } : State).writeMem (o.u64 24) r.2.flatten).finish id (Res.ok r.2.length 0)) := by
  have hempty : ¬ (takeEvents o.coversEvents (o.u16 32) s.sess.list).2.isEmpty = true := by rw [← hr]; simpa using hsome
  rw [hr, ← findOp_id h.1.1]
  exact if_neg hempty

end Wait

/-! ## TRACK_QUERY of a list -/

/-- The field checks of a FEATURES, TRACKS or DISPARITY query (R175, R176). -/
def Op.queryFieldsOk (o : Op) : Prop :=
  (if o.u8 16 = 1 then o.u8 17 ≤ 2 else o.u8 17 = 0) ∧ o.u8 18 = 0 ∧ o.u8 19 = 0 ∧ 32 ≤ o.u32 32 ∧ o.u32 36 = 0 ∧ o.u64 40 = 0

theorem Op.queryFieldsOk.check {o : Op} (h : o.queryFieldsOk) :
    firstRes [need (if o.u8 16 = 1 then o.u8 17 ≤ 2 else o.u8 17 = 0) 17, need (o.u8 18 = 0) 18, need (o.u8 19 = 0) 19, need (32 ≤ o.u32 32) 32,
      need (o.u32 36 = 0) 36, need (o.u64 40 = 0) 40] = none := by
  obtain ⟨h17, h18, h19, h32, h36, h40⟩ := h
  simp [firstRes, need, h17, h18, h19, h32, h36, h40]

section Query

variable {s : State} {o : Op} {x : Session} (hx : s.Uses o x) (hcopy : x.copies.find? (fun c => c.1 = o.id) = none) (hfields : o.queryFieldsOk)

section Run
include hx hcopy hfields

/-- A query by a frame number, or for the latest frame with 0, that finds a result copies it. -/
theorem trackQuery_found {r : VisionResult} (hr : (if o.u32 20 = 0 then x.results.head? else x.results.find? fun r => r.frameNo = o.u32 20) = some r) :
    s.trackQuery o = s.copyResult o x r := by
  rw [State.trackQuery, useSession_of_uses hx]
  simp only [hfields.check, hcopy, Option.map_none, Option.getD_none, and_self]
  split at hr
  · next hlatest => simp only [if_pos hlatest, hr]
  · next hgiven => simp only [if_neg hgiven, hr]

/-- A query by a frame number that finds no result waits for the frame while it is in progress. -/
theorem trackQuery_missing (hno : o.u32 20 ≠ 0) (hgone : (x.results.any fun r => r.frameNo = o.u32 20) = false) : s.trackQuery o =
    if x.frames.any fun f => f.frameNo = o.u32 20 then s.begin o.id
    else s.finish o.id (Res.bound (if x.acceptedNos.contains (o.u32 20) then 0x10 else 0x12)) := by
  have hnone : x.results.find? (fun r => r.frameNo = o.u32 20) = none := List.find?_eq_none.mpr (List.any_eq_false.mp hgone)
  rw [State.trackQuery, useSession_of_uses hx]
  simp only [hfields.check, hcopy, Option.map_none, Option.getD_none, and_self, if_neg hno, hnone]
  split
  · rfl
  · split
    · rfl
    · rfl

end Run

section Copy
include hx hcopy

/-- With no frame in progress a query copies its result at once. -/
theorem copyResult_idle (hidle : x.frames = []) (r : VisionResult) : s.copyResult o x r = s.answerQuery o r := by
  have hkeep : x.copies.filter (fun c => c.1 ≠ o.id) = x.copies := by
    refine List.filter_eq_self.mpr fun c hc => ?_
    simpa using List.find?_eq_none.mp hcopy c hc
  have hsame : s.updSession x.id (fun x => { x with copies := x.copies.filter fun c => c.1 ≠ o.id }) = s := by
    rw [session_id hx.1]
    exact updSession_eq_self hx.1 (congrArg (fun l => ({ x with copies := l } : Session)) hkeep)
  rw [State.copyResult, hsame, hidle]
  rfl

/-- While a frame is in progress the copy starts, and the query comes again. -/
theorem copyResult_busy (hbusy : x.frames ≠ []) (r : VisionResult) :
    s.copyResult o x r = (s.updSession o.handle fun x => { x with copies := x.copies ++ [(o.id, r.frameNo)] }).begin o.id := by
  have hnone : (x.copies.any fun c => c.1 = o.id) = false := List.any_eq_false.mpr (List.find?_eq_none.mp hcopy)
  rw [State.copyResult, hnone, if_neg (by simpa using hbusy), session_id hx.1]

end Copy

/-- A result that the session retains is written as far as it fits. -/
theorem answerQuery_retained {r : VisionResult} (hbit : bit r.retain (o.u8 16 - 1) = true) {n : Nat} (hn : n = min (queryItems o r).1 ((o.u32 32 - 32) / itemSize o r)) :
    s.answerQuery o r = (s.writeMem (o.u64 24) (r.header (queryItems o r).1 ++ (queryItems o r).2 n)).finish o.id
      { status := if n < (queryItems o r).1 then St.okPartial else St.ok, count := n, detail := (queryItems o r).1 + r.mode * 2 ^ 32 + r.flags * 2 ^ 40 } := by
  subst hn
  simp only [State.answerQuery, hbit, Bool.not_true, Bool.false_eq_true, if_false]

theorem answerQuery_dropped {r : VisionResult} (hbit : bit r.retain (o.u8 16 - 1) = false) : s.answerQuery o r = s.finish o.id (Res.bound 0x11) := by
  simp only [State.answerQuery, hbit, Bool.not_false, if_true]

end Query

/-! ## TRACK_QUERY PROJECT -/

theorem exec_trackQueryProject {s : State} {id : Nat} {o : Op} {x : Session} (h : s.RunsSub id 0x11 4 o) (hnet : s.hasNet = true) (hx : s.Uses o x) (h17 : o.u8 17 = 0)
    (h18 : o.u8 18 ≤ 1) (h19 : o.u8 19 ≤ 1) (h20 : o.u32 20 = 0) {n : Nat} {pts : List (List Byte)} (hn : n = o.u32 36) (hwithin : within 1 1048576 n = true)
    (hpts : pts = cut 16 n (s.readMem (o.u64 40) (16 * n))) (hzero : (pts.all fun p => fld p 12 4 = 0) = true) {out : List (List Byte × Bool)}
    (hout : out = pts.map (projectPoint x.cfg.track.calib x.decl.width x.decl.height (o.u8 18 = 1) (o.u8 19 = 0))) :
    exec (.trackQueryProject id) s = .next ((s.writeMem (o.u64 24) ((out.take (min n (o.u32 32 / 12))).flatMap (·.1))).finish id
      { status := if o.u32 32 / 12 < n then St.okPartial else St.ok, count := min n (o.u32 32 / 12), detail := (out.filter (·.2)).length }) := by
  subst hn hpts hout
  rw [exec, execTrackQueryProject, runSub_of h]
  simp only [hnet, useSession_of_uses hx]
  simp [firstRes, need, h17, h18, h19, h20, hwithin, hzero]

/-- Settles O42: a wait is served alone or waits on; the queries of a list are the same run of State.trackQuery; PROJECT writes what its points project to. -/
theorem eventsAndResultsAreRead : Obligations.EventsAndResultsAreRead := by
  intro s id o x
  refine ⟨fun h hn hx halone r hr => ⟨fun hnone => ?_, fun hsome => ?_⟩, ?_,
    fun h hnet hx h17 h18 h19 h20 n pts hn hwithin hpts hzero out hout => ?_⟩
  · refine ⟨s.await id, ?_, findOp_await_of h, othersKept_await s id, rfl⟩
    rw [exec_eventWait h hn hx, deliverEvents_await h halone, serveWait_none id hr hnone]
  · have hrun := exec_eventWait h hn hx
    rw [deliverEvents_await h halone, serveWait_some h hr hsome] at hrun
    exact ⟨_, hrun, wroteAndEnded_finish (findOp_await_of h) rfl _ _ _, rfl, rfl⟩
  · intro Q
    have query : ∀ q c, exec c s = s.runSub id 0x11 q (fun o => s.trackQuery o) → Q q c := by
      intro q c hc h hx hcopy h17 h18 h19 h32 h36 h40
      have hrun : exec c s = .next (s.trackQuery o) := hc.trans (runSub_of h _)
      obtain ⟨⟨hfind, hrest⟩, rfl⟩ := h
      obtain rfl := findOp_id hfind
      have hfields : o.queryFieldsOk := ⟨h17, h18, h19, h32, h36, h40⟩
      refine ⟨fun r hr => ?_, fun hno hgone => ⟨fun hframe => ?_, fun hframe => ?_⟩⟩
      · rw [trackQuery_found hx hcopy hfields hr] at hrun
        refine ⟨fun hidle hbit n hn => ?_, fun hidle hbit => ?_, fun hbusy => ?_⟩
        · rw [copyResult_idle hx hcopy hidle, answerQuery_retained hbit hn] at hrun
          exact ⟨_, hrun, wroteAndEnded_finish hfind rfl _ _ _, rfl⟩
        · rw [copyResult_idle hx hcopy hidle, answerQuery_dropped hbit] at hrun
          exact ⟨_, hrun, justEnded_finish hfind _⟩
        · rw [copyResult_busy hx hcopy hbusy] at hrun
          exact ⟨_, _, hrun, findOp_begin_of (by exact hfind), session_updSession_found hx.1, rfl⟩
      · rw [trackQuery_missing hx hcopy hfields hno hgone, if_pos hframe] at hrun
        exact ⟨_, hrun, findOp_begin_of hfind, othersKept_begin s o.id, rfl⟩
      · rw [trackQuery_missing hx hcopy hfields hno hgone, if_neg (by rw [hframe]; exact Bool.false_ne_true)] at hrun
        exact ⟨_, hrun, justEnded_finish hfind _⟩
    exact ⟨query 1 _ rfl, query 2 _ rfl, query 3 _ rfl⟩
  · exact ⟨_, exec_trackQueryProject h hnet hx h17 h18 h19 h20 hn hwithin hpts hzero hout, wroteAndEnded_finish h.1.1 rfl _ _ _, rfl⟩

end Sys2Proof.Machine

/-! # A frame whose operation shares its ID

An operation is found by its ID alone, so that where two operations in flight have the same ID, an outcome meant for the second becomes that of the
first. The device numbers the operations that it fetches, but the statement on frames ranges over every state, also over one where two share an ID. -/

namespace Sys2Proof.Machine

/-- The FRAME_SUBMIT that handed the frame over. -/
def submittedOp : Op := { id := 7, desc := [0x10] ++ zeros 63, phase := .waiting, began := true, committed := true }

/-- A pending EVENT_WAIT of the same function for any session, for one event, with the ID of the FRAME_SUBMIT. -/
def twinWait : Op := { id := 7, desc := [0x0B] ++ zeros 11 ++ leBytes 0xFFFFFFFF 4 ++ [0x10] ++ zeros 15 ++ leBytes 1 2 ++ zeros 30, phase := .waiting, began := true }

/-- The vision result of a frame without calibration (R154). -/
def blindResult : VisionResult := { frameNo := 5, flags := 4 }

/-- The frame, with nothing for fusion to work on. -/
def blindFrame : Frame := { frameNo := 5, vision := some blindResult, op := some 7 }

/-- Its session: at S0, without motion channels. -/
def blindSession : Session := { id := 9, hostPath := true, state := .opened, frames := [blindFrame], fusion := { step := 0, held := false } }

/-- A device in service with that session and both operations. -/
def twinOps : State :=
  { State.reset with
    power := { State.reset.power with boot := .running }
    sess := { State.reset.sess with list := [blindSession] }
    ops := { State.reset.ops with list := [submittedOp, twinWait] } }

theorem exec_fusionFrame_of_ready {s : State} {sid no : Nat} {x : Session} {f : Frame} {r : VisionResult} (hx : s.session sid = some x)
    (hf : x.fusable no = some (f, r)) (hrun : s.running = true) (hready : x.motionReady f = true) : exec (.fusionFrame sid no) s = .next (s.fuseFrame x f r) := by
  rw [exec, execFusionFrame]
  simp [hx, hf, hrun, hready]

/-- The fall to S3 is an event; the wait takes it, and the first operation with its ID ends with a count of one event. -/
theorem fuseFrame_twinOps : ((twinOps.fuseFrame blindSession blindFrame blindResult).findOp 7).map (·.count) = some 1 := by decide

/-- Refutes O41: the count of a fused frame's operation is not 148 where an EVENT_WAIT with the same ID takes the event of the step change first. -/
theorem not_framesPassVisionAndFusion : ¬ Obligations.FramesPassVisionAndFusion := by
  intro h
  obtain ⟨-, -, -, hfuse, -⟩ := h twinOps
  obtain ⟨t, y, ht, -, -, -, -, hend⟩ := hfuse 9 5 blindSession blindFrame blindResult (by decide) (by decide) (by decide) (by decide)
  obtain ⟨st, d, ⟨o, ho, -, -, hcount, -⟩, -⟩ := hend 7 submittedOp rfl (by decide) (by decide) (by decide) (by decide) (by decide)
  have hrun := exec_fusionFrame_of_ready (s := twinOps) (sid := 9) (no := 5) (x := blindSession) (f := blindFrame) (r := blindResult) (by decide) (by decide) (by decide)
    (by decide)
  obtain rfl : _ = t := Host.Outcome.next.inj (hrun.symm.trans ht)
  have hone := fuseFrame_twinOps
  rw [ho, Option.map_some, hcount] at hone
  exact absurd hone (by decide)

end Sys2Proof.Machine

/-! # A NET_SEND whose launch time has passed

The operation's record says that the frame came to its port after its launch time (R369, R371), and the statement on NET_SEND leaves that record out. -/

namespace Sys2Proof.Machine

@[simp] theorem findOp_queueFrame (s : State) (port : Nat) (f : TxFrame) (i : Nat) : (s.queueFrame port f).findOp i = s.findOp i := rfl

/-- A NET_SEND whose frame is queued waits, and is late where its launch time has passed (R371). -/
theorem netSend_marks_late {s : State} {id : Nat} {o : Op} (h : s.Runs id 0x40 o) (hcheck : s.netSendCheck o = none)
    (hkept : ¬ (bit (o.u8 27) 0 = true ∧ o.lateDrop = true ∧ o.launchNs < s.txStamp (o.u8 26))) :
    ∃ t, exec (.netSend id) s = .next t ∧
      t.findOp id = some { o with phase := .waiting, began := true, late := bit (o.u8 27) 0 && decide (o.launchNs < s.txStamp (o.u8 26)) } := by
  rw [exec, execNetSend, runOp_of h]
  simp only [hcheck, if_neg hkept]
  refine ⟨_, rfl, ?_⟩
  rw [findOp_queueFrame, findOp_updOp, findOp_await, h.1]
  · rfl
  · exact fun _ => rfl

/-- A NET_SEND of 60 bytes at port 0 with launch time 0, to be sent though late. -/
def sendAtZero : Op := { id := 7, desc := [0x40] ++ zeros 23 ++ leBytes 60 2 ++ [0, 1] ++ zeros 36, deadlineAt := 1000000000, deadlineUs := 1000000 }

/-- A device in service with port 0 enabled and up, whose device time stands at 1 µs, and that operation in flight. -/
def sendingLate : State :=
  { State.reset with
    power := { State.reset.power with boot := .running }
    clock := { State.reset.clock with state := .free, dev := 1000 * devUnit }
    regs := { State.reset.regs with applied := [(regKey 0x5000 0, 1)] }
    net := { State.reset.net with ports := [{ up := true }, {}] }
    ops := { State.reset.ops with list := [sendAtZero] } }

/-- Refutes O44: a NET_SEND whose launch time has passed as it reaches its port changes its operation in LATE too, where the statement lets only PHASE and BEGAN
change. -/
theorem not_netPortsSendAndReceive : ¬ Obligations.NetPortsSendAndReceive := by
  intro h
  obtain ⟨hsend, -⟩ := h sendingLate
  obtain ⟨-, hqueue⟩ := hsend 7 sendAtZero (by decide)
  obtain ⟨t, -, -, -, ht, hop, -⟩ := hqueue (by decide) fun _ hdrop => absurd hdrop (by decide)
  obtain ⟨t', ht', hlate⟩ := netSend_marks_late (s := sendingLate) (o := sendAtZero) (id := 7) (by decide) (by decide) (by decide)
  obtain rfl : t' = t := Host.Outcome.next.inj (ht'.symm.trans ht)
  rw [hlate] at hop
  exact absurd hop (by decide)

end Sys2Proof.Machine

/-! # A query that comes before its epoch

A member may ask for an epoch that the device has not published yet. The device keeps the query until it publishes that epoch and sends nothing now (R101), and such an
epoch is no more held than one that is gone. -/

namespace Sys2Proof.Machine

/-- A query in time, at a later epoch than the last published, is kept for that epoch (R101). -/
theorem serveQuery_of_later {s : State} {m : QueryMsg} (hrun : s.running = true) (hstopped : s.fabric.stopped = false)
    (htime : s.devNs ≤ unpackTime m.peerDeadline) (hlater : s.map.published < m.epoch) :
    s.serveQuery m = { s with sound := { s.sound with laterQueries := s.sound.laterQueries ++ [m] } } := by
  rw [State.serveQuery, if_neg (by simp [hrun, hstopped, htime]), if_pos hlater]

/-- Such a query of a member that the device reaches is not answered now. -/
theorem exec_query_of_later {s : State} {m : QueryMsg} (h : s.Sends m.src) (htime : s.devNs ≤ unpackTime m.peerDeadline) (hlater : s.map.published < m.epoch) :
    ∃ t, exec (.query m) s = .next t ∧ t.out = s.out := by
  obtain ⟨hrun, hup, -⟩ := h
  obtain ⟨hstopped, -⟩ : s.fabric.stopped = false ∧ s.single = false := by simpa [State.fabricUp] using hup
  rw [exec, execQuery]
  refine ⟨_, rfl, ?_⟩
  rw [serveQuery_of_later (s := s.taken (s.portOf m.src) 2 (32 + m.filterBlock.length + m.vector.length)) hrun hstopped htime hlater]
  rfl

/-- A query of member 1 at epoch 2. -/
def queryAtTwo : QueryMsg := { src := 1, epoch := 2 }

/-- Refutes O48: an answer with result code 1 is promised for each epoch that is not held, while a query at an epoch still to be published waits. Member 1 asks a device
that has published epoch 1 for epoch 2, and the device sends nothing. -/
theorem not_searchesMergeTheirShards : ¬ Obligations.SearchesMergeTheirShards := by
  intro h
  obtain ⟨-, -, hquery, -⟩ := h epochOneOwner
  obtain ⟨hgone, -⟩ := hquery queryAtTwo (by decide) (by decide)
  obtain ⟨t, f, ht, hout, -⟩ := hgone (by decide)
  obtain ⟨t', ht', hsilent⟩ := exec_query_of_later (s := epochOneOwner) (m := queryAtTwo) (by decide) (by decide) (by decide)
  obtain rfl : t' = t := Host.Outcome.next.inj (ht'.symm.trans ht)
  rw [hsilent] at hout
  exact List.cons_ne_self _ _ hout.symm

end Sys2Proof.Machine

/-! # The shard of an index on its device

What a record leaves of its device as it enters or leaves a shard, and what the index holds after it (R223, R235 to R238): the layer of VEC_INSERT and VEC_DELETE. -/

namespace Sys2Proof.Machine

/-! ## Indexes and owners of a view -/

theorem index_handle {v : MapView} {h : Nat} {x : Index} (hx : v.index h = some x) : x.handle = h := by
  simpa using List.find?_some hx

theorem index_updIndex {v : MapView} {h : Nat} {x : Index} {f : Index → Index} (hx : v.index h = some x) (hf : (f x).handle = x.handle) :
    (v.updIndex h f).index h = some (f x) :=
  find_updFirst_found hx (by simp [hf, index_handle hx])

/-- A tile that is written leaves those at other coordinates. -/
theorem tile_setTile_ne (v : MapView) (t : Tile) {ix iy : Int} (h : ¬ (ix = t.ix ∧ iy = t.iy)) : (v.setTile t).tile ix iy = v.tile ix iy := by
  have ht : ¬ (t.ix = ix ∧ t.iy = iy) := fun ⟨hx, hy⟩ => h ⟨hx.symm, hy.symm⟩
  unfold MapView.tile MapView.setTile
  dsimp only
  induction v.tiles with
  | nil => simp [putTile, ht]
  | cons x r ih =>
    unfold putTile
    split
    · next hx =>
      obtain ⟨hx, hy⟩ := hx
      simp [ht, hx, hy]
    · split
      · simp [ht]
      · by_cases hx : x.ix = ix ∧ x.iy = iy
        · simp [hx]
        · simpa [hx] using ih

/-- A tile written with the owner that it has leaves every owner. -/
theorem ownerOf_setTile {v : MapView} {T U : Tile} (hT : v.tile U.ix U.iy = some T) (hown : U.owner = T.owner) (ix iy : Int) :
    (v.setTile U).ownerOf ix iy = v.ownerOf ix iy := by
  by_cases h : ix = U.ix ∧ iy = U.iy
  · obtain ⟨rfl, rfl⟩ := h
    rw [ownerOf_of_tile (tile_setTile v U), ownerOf_of_tile hT, hown]
  · rw [MapView.ownerOf, tile_setTile_ne v U h]
    rfl

/-! ## What a record leaves -/

/-- From s to t the map being filled, the counters, the streams and the messages sent may have changed, but no tile's owner. -/
def ShardWork (s t : State) : Prop :=
  ∃ v tally ports streams out, t = { s with map := { s.map with cur := v }, tally := tally, fabric := { s.fabric with ports := ports, outStreams := streams }, out := out } ∧
    ∀ ix iy, v.ownerOf ix iy = s.map.cur.ownerOf ix iy

theorem ShardWork.refl (s : State) : ShardWork s s := ⟨_, _, _, _, _, rfl, fun _ _ => rfl⟩

theorem ShardWork.trans {a b c : State} (h1 : ShardWork a b) (h2 : ShardWork b c) : ShardWork a c := by
  obtain ⟨v, tally, ports, streams, out, rfl, hv⟩ := h1
  obtain ⟨w, tally', ports', streams', out', rfl, hw⟩ := h2
  exact ⟨w, tally', ports', streams', out', rfl, fun ix iy => (hw ix iy).trans (hv ix iy)⟩

theorem ShardWork.ownerOf {s t : State} (h : ShardWork s t) (ix iy : Int) : t.map.cur.ownerOf ix iy = s.map.cur.ownerOf ix iy := by
  obtain ⟨v, tally, ports, streams, out, rfl, hv⟩ := h
  exact hv ix iy

theorem ShardWork.self {s t : State} (h : ShardWork s t) : t.self = s.self := by
  obtain ⟨v, tally, ports, streams, out, rfl, -⟩ := h
  rfl

theorem ShardWork.ops {s t : State} (h : ShardWork s t) : t.ops = s.ops := by
  obtain ⟨v, tally, ports, streams, out, rfl, -⟩ := h
  rfl

theorem ShardWork.mem {s t : State} (h : ShardWork s t) : t.mem = s.mem := by
  obtain ⟨v, tally, ports, streams, out, rfl, -⟩ := h
  rfl

theorem ShardWork.others {s t : State} (h : ShardWork s t) : t.others = s.others := by
  obtain ⟨v, tally, ports, streams, out, rfl, -⟩ := h
  rfl

theorem ShardWork.requestsOf {s t : State} (h : ShardWork s t) (op : Nat) : t.requestsOf op = s.requestsOf op := by
  obtain ⟨v, tally, ports, streams, out, rfl, -⟩ := h
  rfl

theorem ShardWork.latest {s t : State} (h : ShardWork s t) : t.map.latest = s.map.latest := by
  obtain ⟨v, tally, ports, streams, out, rfl, -⟩ := h
  rfl

theorem shardWork_setCur (s : State) {v : MapView} (h : ∀ ix iy, v.ownerOf ix iy = s.map.cur.ownerOf ix iy) : ShardWork s (s.setCur v) := ⟨v, _, _, _, _, rfl, h⟩

theorem shardWork_bump (s : State) (i : Nat) : ShardWork s (s.bump i) := ⟨_, _, _, _, _, rfl, fun _ _ => rfl⟩

theorem shardWork_sendFz (s : State) (type cls dst xid : Nat) (body : List Byte) : ShardWork s (s.sendFz type cls dst xid body) := by
  rw [sendFz_frame]
  exact ⟨_, _, _, _, _, rfl, fun _ _ => rfl⟩

theorem shardWork_foldl {α : Type} {f : State → α → State} (h : ∀ s a, ShardWork s (f s a)) (l : List α) (s : State) : ShardWork s (l.foldl f s) := by
  induction l generalizing s with
  | nil => exact ShardWork.refl s
  | cons a r ih => exact (h s a).trans (ih _)

theorem shardWork_stream (s : State) (ix iy : Int) : ShardWork s (s.stream ix iy) :=
  shardWork_foldl (fun s _ => ShardWork.trans (b := s.setStream _) ⟨_, _, _, _, _, rfl, fun _ _ => rfl⟩ (shardWork_sendFz _ _ _ _ _ _)) _ s

/-- A stream leaves the map (R395). -/
@[simp] theorem stream_cur (s : State) (ix iy : Int) : (s.stream ix iy).map.cur = s.map.cur := by
  unfold State.stream
  generalize (s.curTile ix iy).streamTo = l
  induction l generalizing s with
  | nil => rfl
  | cons p r ih =>
    rw [List.foldl_cons, ih, State.sendItem, sendFz_frame]
    rfl

theorem shardWork_access (s : State) (ix iy : Int) (dev : Nat) : ShardWork s (s.access ix iy dev) := by
  cases h : s.map.cur.tile ix iy with
  | none => rw [State.access, h]; exact ShardWork.refl s
  | some T =>
    obtain ⟨acc, hacc⟩ := access_of_tile h dev
    obtain ⟨rfl, rfl⟩ := tile_coords h
    rw [hacc]
    exact shardWork_setCur s (ownerOf_setTile (U := { T with accesses := acc }) h rfl)

theorem shardWork_insertEntry (s : State) (h : Nat) (e : Entry) : ShardWork s (s.insertEntry h e).1 := by
  fun_cases State.insertEntry
  case case1 | case2 | case4 => exact ShardWork.refl s
  case case3 => exact (shardWork_setCur s fun _ _ => rfl).trans (shardWork_bump _ _)
  case case5 => exact (shardWork_setCur s fun _ _ => rfl).trans (shardWork_stream _ _ _)

theorem shardWork_deleteEntry (s : State) (h key : Nat) (ix iy : Int) : ShardWork s (s.deleteEntry h key ix iy).1 := by
  fun_cases State.deleteEntry
  case case1 | case3 => exact ShardWork.refl s
  case case2 => exact (shardWork_setCur s fun _ _ => rfl).trans (shardWork_stream _ _ _)

theorem shardWork_vecRecord (s : State) (insert : Bool) (h : Nat) (x : Index) (r : List Byte) : ShardWork s (s.vecRecord insert h x r).1 := by
  fun_cases State.vecRecord
  case case1 | case2 => exact ShardWork.refl s
  case case3 => exact shardWork_insertEntry s _ _
  case case4 => exact shardWork_deleteEntry s _ _ _ _

/-! ## Outcome codes -/

theorem insertEntry_code (s : State) (h : Nat) (e : Entry) : (s.insertEntry h e).2 ≤ 6 := by
  fun_cases State.insertEntry <;> simp

theorem deleteEntry_code (s : State) (h key : Nat) (ix iy : Int) : (s.deleteEntry h key ix iy).2 ≤ 6 := by
  fun_cases State.deleteEntry <;> simp

/-- The outcome codes of R237 are 0 to 6. -/
theorem vecRecord_code (s : State) (insert : Bool) (h : Nat) (x : Index) (r : List Byte) : (s.vecRecord insert h x r).2 ≤ 6 := by
  fun_cases State.vecRecord
  case case1 | case2 => simp
  case case3 => exact insertEntry_code s _ _
  case case4 => exact deleteEntry_code s _ _ _ _

/-! ## The index after a record -/

/-- An entry that was inserted stands in the inlet list of its index (R223). -/
theorem insertEntry_done {s : State} {h : Nat} {e : Entry} (hdone : (s.insertEntry h e).2 = 0) :
    ∃ y, (s.insertEntry h e).1.map.cur.index h = some y ∧ ∃ f ∈ y.entries, f.key = e.key ∧ f.time = e.time ∧ f.code = e.code ∧ f.inlet = true ∧ f.tomb = e.tomb := by
  revert hdone
  fun_cases State.insertEntry
  case case1 | case2 | case3 | case4 => simp
  case case5 y hy _ _ _ =>
    refine fun _ => ⟨_, by rw [stream_cur]; exact index_updIndex hy rfl, _, List.mem_append_right _ (List.mem_singleton_self _), ?_⟩
    exact ⟨rfl, rfl, rfl, rfl, rfl⟩

/-- After a delete every entry of the device's shard with the key is a tombstone (R236). -/
theorem deleteEntry_done {s : State} {h key : Nat} {ix iy : Int} (hdone : (s.deleteEntry h key ix iy).2 = 0) :
    ∃ y, (s.deleteEntry h key ix iy).1.map.cur.index h = some y ∧ ∀ e ∈ y.entries, e.key = key → s.ownsIn s.map.cur e.ix e.iy = true → e.tomb = true := by
  revert hdone
  fun_cases State.deleteEntry
  case case1 | case3 => simp
  case case2 x hx _ mark =>
    refine fun _ => ⟨mark x, by rw [stream_cur]; exact index_updIndex hx rfl, fun e he hkey hown => ?_⟩
    obtain ⟨f, -, rfl⟩ := List.mem_map.mp he
    split
    · rfl
    · next hkept =>
      rw [if_neg hkept] at hkey hown
      simpa [hkey, hown] using hkept

/-- A record to insert that is done: its encoded vector stands in the inlet list (R214, R235). -/
theorem vecRecord_inserted {s : State} {h : Nat} {x : Index} {r : List Byte} (hdone : (s.vecRecord true h x r).2 = 0) :
    ∃ y, (s.vecRecord true h x r).1.map.cur.index h = some y ∧
      ∃ e ∈ y.entries, e.key = fld r 0 8 ∧ e.time = fld r 8 8 ∧ e.code = x.encode (wflds r 24 x.dim) ∧ e.inlet = true ∧ e.tomb = false := by
  revert hdone
  unfold State.vecRecord
  extract_lets t
  rw [if_pos rfl]
  split
  · simp
  · split
    · simp
    · exact insertEntry_done

end Sys2Proof.Machine

/-! # VEC_INSERT and VEC_DELETE of the device's own tiles

The records are handled in order as the operation runs, and the outcome that each had is what the end of the operation writes (R235 to R238). -/

namespace Sys2Proof.Machine

/-! ## The records in order -/

/-- What State.vecApply does with one record. -/
def vecStep (insert : Bool) (h : Nat) (x : Index) (dev : Nat) (a : State × List Nat) (r : List Byte) : State × List Nat :=
  let t := vecTile insert r
  if a.1.ownsIn a.1.map.cur t.1 t.2 then
    let b := (a.1.access t.1 t.2 dev).vecRecord insert h x r
    (b.1, a.2 ++ [b.2])
  else (a.1, a.2 ++ [5])

theorem vecApply_eq (s : State) (insert : Bool) (h : Nat) (x : Index) (recs : List (List Byte)) (dev : Nat) :
    s.vecApply insert h x recs dev = recs.foldl (vecStep insert h x dev) (s, []) := rfl

theorem vecStep_spec (insert : Bool) (h : Nat) (x : Index) (dev : Nat) (a : State × List Nat) (r : List Byte) :
    ShardWork a.1 (vecStep insert h x dev a r).1 ∧ ∃ c ≤ 6, (vecStep insert h x dev a r).2 = a.2 ++ [c] := by
  fun_cases vecStep
  case case1 => exact ⟨(shardWork_access _ _ _ _).trans (shardWork_vecRecord _ _ _ _ _), _, vecRecord_code _ _ _ _ _, rfl⟩
  case case2 => exact ⟨ShardWork.refl _, 5, by decide, rfl⟩

/-- Each record adds one outcome code, of 0 to 6. -/
theorem foldl_vecStep (insert : Bool) (h : Nat) (x : Index) (dev : Nat) (recs : List (List Byte)) (a : State × List Nat) :
    ShardWork a.1 (recs.foldl (vecStep insert h x dev) a).1 ∧
      ∃ cs, (recs.foldl (vecStep insert h x dev) a).2 = a.2 ++ cs ∧ cs.length = recs.length ∧ ∀ c ∈ cs, c ≤ 6 := by
  induction recs generalizing a with
  | nil => exact ⟨ShardWork.refl _, [], by simp⟩
  | cons r rest ih =>
    obtain ⟨hwork, c, hc, hcode⟩ := vecStep_spec insert h x dev a r
    obtain ⟨hrest, cs, hcs, hlen, hle⟩ := ih (vecStep insert h x dev a r)
    refine ⟨hwork.trans hrest, c :: cs, ?_, by simp [hlen], by simpa [hc] using hle⟩
    rw [List.foldl_cons, hcs, hcode, List.append_assoc]
    rfl

theorem vecApply_spec (s : State) (insert : Bool) (h : Nat) (x : Index) (recs : List (List Byte)) (dev : Nat) :
    ShardWork s (s.vecApply insert h x recs dev).1 ∧ (s.vecApply insert h x recs dev).2.length = recs.length ∧ ∀ c ∈ (s.vecApply insert h x recs dev).2, c ≤ 6 := by
  obtain ⟨hwork, cs, hcs, hlen, hle⟩ := foldl_vecStep insert h x dev recs (s, [])
  rw [vecApply_eq, hcs]
  exact ⟨hwork, hlen, hle⟩

/-- A single record of the device's own tile. -/
theorem vecApply_single {s : State} {insert : Bool} {r : List Byte} (hown : s.ownsIn s.map.cur (vecTile insert r).1 (vecTile insert r).2 = true)
    (h : Nat) (x : Index) (dev : Nat) :
    ∃ u b, ShardWork s u ∧ b = u.vecRecord insert h x r ∧ s.vecApply insert h x [r] dev = (b.1, [b.2]) :=
  ⟨_, _, shardWork_access s _ _ _, rfl, if_pos hown⟩

/-! ## The end of the operation -/

/-- The record bytes that a VEC operation names (R235, R236). -/
def State.vecRecords (s : State) (insert : Bool) (o : Op) (dim : Nat) : List (List Byte) :=
  cut (vecSize insert dim) (o.u32 24) (s.readMem (o.u64 16) (o.u32 24 * vecSize insert dim))

theorem cut_length (n c : Nat) (l : List Byte) : (cut n c l).length = c := by
  induction c generalizing l with
  | zero => rfl
  | succ c ih => simp [cut, ih]

/-- Codes of a byte each come back from their bytes. -/
theorem map_toNat_ofNat {codes : List Nat} (hle : ∀ c ∈ codes, c ≤ 6) : (codes.map (BitVec.ofNat 8)).map (·.toNat) = codes := by
  rw [List.map_map]
  refine (List.map_congr_left fun c hc => ?_).trans (List.map_id _)
  have := hle c hc
  simp only [Function.comp, BitVec.toNat_ofNat, id]
  omega

/-- With nothing asked of other members, the codes that stand in the buffer are the outcome (R237). -/
theorem vecDone_of_own {u : State} {o : Op} {x : Index} {insert : Bool} {codes : List Nat} (hcode : decide (o.opcode = 0x21) = insert)
    (hx : u.map.latest.index o.handle = some x)
    (hown : ∀ r ∈ u.vecRecords insert o x.dim, u.map.cur.ownerOf (vecTile insert r).1 (vecTile insert r).2 = u.self) (hreq : u.requestsOf o.id = [])
    (hbuf : u.readMem (o.u64 32) (o.u32 24) = codes.map (BitVec.ofNat 8)) (hlen : codes.length = o.u32 24) (hle : ∀ c ∈ codes, c ≤ 6) :
    u.vecDone o = ((u.dropRequests o.id).writeMem (o.u64 32) (codes.map (BitVec.ofNat 8))).complete o.id (vecRes codes) := by
  subst hcode
  unfold State.vecDone
  extract_lets insert n dim recs own answers code codes'
  have hcodes : codes' = codes := by
    have hdim : dim = x.dim := by simp only [dim, hx, Option.map_some, Option.getD_some]
    have hrecs : recs = u.vecRecords insert o x.dim := by rw [← hdim]; rfl
    have hbytes : own = codes := by rw [← map_toNat_ofNat hle, ← hbuf]
    have hlen' : recs.length = codes.length := by rw [hrecs, hlen]; exact cut_length _ _ _
    refine List.ext_getElem (by simp [codes', hlen']) fun i hi hi' => ?_
    have hself : u.map.cur.ownerOf (vecTile insert recs[i]).1 (vecTile insert recs[i]).2 = u.self := hown _ (hrecs ▸ List.getElem_mem _)
    have hnone : answers = [] := by simp only [answers, hreq, List.filter_nil]
    simp only [codes', code, List.getElem_map, List.getElem_zipIdx, hnone, List.find?_nil, hbytes, Nat.zero_add]
    simp [hself, hi']
  rw [hcodes]

/-! ## The operation -/

theorem index_of_useIndex {o : Op} {v : MapView} {x : Index} (h : useIndex o v = .ok x) : v.index o.handle = some x := by
  revert h
  fun_cases useIndex
  case case1 | case3 => exact nofun
  case case2 y hy _ => exact fun h => hy.trans (congrArg some (Except.ok.inj h))

/-- A VEC operation once it has handled its records: their outcomes stand in the buffer, and it is committed (R237). -/
def State.vecHandled (r : State × List Nat) (o : Op) : State := (r.1.writeMem (o.u64 32) (r.2.map (BitVec.ofNat 8))).commit o.id

section Own

variable {s : State} {o : Op} {x : Index} {insert : Bool} {r : State × List Nat} (hx : useIndex o s.map.latest = .ok x) (hn : within 1 4096 (o.u32 24) = true)
  (hown : ∀ r ∈ s.vecRecords insert o x.dim, s.ownsIn s.map.cur (vecTile insert r).1 (vecTile insert r).2 = true)
  (hr : r = s.vecApply insert o.handle x (s.vecRecords insert o x.dim) s.self)
include hx hown hr

include hn in
/-- On a lone device the records are all of the operation (R235). -/
theorem vecOp_of_own (ha : s.Alone) : s.vecOp o insert = (State.vecHandled r o).vecDone o := by
  obtain ⟨hothers, hiso, -⟩ := ha
  obtain ⟨hwork, -⟩ := vecApply_spec s insert o.handle x (s.vecRecords insert o x.dim) s.self
  rw [← hr] at hwork
  unfold State.vecOp
  rw [hx]
  dsimp -zeta only
  rw [if_neg (by simp [hn]), if_neg (by simp [State.canCommit, hiso])]
  extract_lets n data recs owners r' s1 s2 peers
  obtain rfl : r' = r := hr.symm
  have hmine : owners.contains s1.self = true := by
    have hlen : 0 < recs.length := by
      rw [show recs.length = o.u32 24 from cut_length _ _ _]
      simp only [within, Bool.and_eq_true, decide_eq_true_eq] at hn
      omega
    have howner : s.map.cur.ownerOf (vecTile insert recs[0]).1 (vecTile insert recs[0]).2 = s.self := of_decide_eq_true (hown recs[0] (List.getElem_mem _))
    rw [show s1.self = s.self from hwork.self, List.contains_iff_mem, List.mem_eraseDups]
    exact List.mem_map.mpr ⟨recs[0], List.getElem_mem _, howner⟩
  have hs2 : s2 = State.vecHandled r' o := if_pos hmine
  have hpeers : peers = [] := by
    have hlone : s2.others = [] := by rw [hs2]; exact hwork.others.trans hothers
    simp [peers, hlone]
  rw [hpeers, hs2]
  rfl

/-- Its end writes the outcomes again and gives their count (R237). -/
theorem vecDone_vecHandled (hcode : decide (o.opcode = 0x21) = insert) (hreq : s.requestsOf o.id = [])
    (hapart : o.u64 16 + o.u32 24 * vecSize insert x.dim ≤ o.u64 32 ∨ o.u64 32 + o.u32 24 ≤ o.u64 16) :
    (State.vecHandled r o).vecDone o =
      (((State.vecHandled r o).dropRequests o.id).writeMem (o.u64 32) (r.2.map (BitVec.ofNat 8))).complete o.id (vecRes r.2) := by
  obtain ⟨hwork, hlen, hle⟩ := vecApply_spec s insert o.handle x (s.vecRecords insert o x.dim) s.self
  rw [← hr] at hwork hlen hle
  have hlen' : r.2.length = o.u32 24 := hlen.trans (cut_length _ _ _)
  have hmem : (State.vecHandled r o).mem = s.mem.write (o.u64 32) (r.2.map (BitVec.ofNat 8)) := congrArg (fun m : Memory => m.write _ _) hwork.mem
  have hrecs : (State.vecHandled r o).vecRecords insert o x.dim = s.vecRecords insert o x.dim := by
    unfold State.vecRecords State.readMem
    rw [hmem, Memory.read_write_ne _ _ _ _ _ (by simpa [hlen'] using hapart)]
  have hlatest : (State.vecHandled r o).map.latest = s.map.latest := hwork.latest
  refine vecDone_of_own hcode (hlatest ▸ index_of_useIndex hx) (fun q hq => ?_) ((hwork.requestsOf o.id).trans hreq) ?_ hlen' hle
  · exact ((hwork.ownerOf _ _).trans (of_decide_eq_true (hown q (hrecs ▸ hq)))).trans hwork.self.symm
  · rw [State.readMem, hmem, ← hlen', ← List.length_map (BitVec.ofNat 8)]
    exact Memory.read_write _ _ _

include hn in
/-- A VEC operation on records of the device's own tiles handles them, writes their outcomes and ends with them (R235 to R238). -/
theorem vecOp_ends {id code : Nat} (h : s.Runs id code o) (hcode : decide (code = 0x21) = insert) (ha : s.Alone) (hreq : s.requestsOf id = [])
    (hapart : o.u64 16 + o.u32 24 * vecSize insert x.dim ≤ o.u64 32 ∨ o.u64 32 + o.u32 24 ≤ o.u64 16) :
    WroteAndEnded s (s.vecOp o insert) id (o.u64 32) (r.2.map (BitVec.ofNat 8)) (vecRes r.2) ∧
      (s.vecOp o insert).map = r.1.map ∧ (s.vecOp o insert).self = s.self := by
  obtain ⟨hfind, hph, rfl, -⟩ := h
  obtain rfl := findOp_id hfind
  obtain ⟨hwork, -⟩ := vecApply_spec s insert o.handle x (s.vecRecords insert o x.dim) s.self
  rw [← hr] at hwork
  have hfind' : (State.vecHandled r o).findOp o.id = some { o with committed := true } :=
    (findOp_commit _ o.id).trans (congrArg _ ((findOp_of_ops hwork.ops o.id).trans hfind))
  obtain ⟨hend, hread, hrest⟩ := wroteAndEnded_complete (s := State.vecHandled r o) (s' := (State.vecHandled r o).dropRequests o.id) hfind'
    (Op.ne_final_of_started hph) rfl rfl rfl rfl (o.u64 32) (r.2.map (BitVec.ofNat 8)) (vecRes r.2)
  rw [(vecOp_of_own hx hn hown hr ha).trans (vecDone_vecHandled hx hown hr hcode hreq hapart)]
  refine ⟨⟨hend, hread, fun a hout => (hrest a hout).trans ?_⟩, ?_, ?_⟩
  · exact ((Memory.byte_write _ _ _ _).trans (if_neg (by omega))).trans (congrArg (fun m : Memory => m.byte a) hwork.mem)
  · rw [complete_frame]
    rfl
  · rw [complete_frame]
    exact hwork.self

end Own

/-- The index after the one record of a VEC operation that is done: an entry more in the inlet list, or no live entry left of the key in the shard (R223, R236). -/
theorem vecApply_done {s t : State} {insert : Bool} {h : Nat} {x : Index} {r : List Byte}
    (hown : s.ownsIn s.map.cur (vecTile insert r).1 (vecTile insert r).2 = true) (hdone : (s.vecApply insert h x [r] s.self).2 = [0])
    (hmap : t.map = (s.vecApply insert h x [r] s.self).1.map) (hself : t.self = s.self) :
    ∃ y, t.map.cur.index h = some y ∧
      (insert = true → ∃ e ∈ y.entries, e.key = fld r 0 8 ∧ e.time = fld r 8 8 ∧ e.code = x.encode (wflds r 24 x.dim) ∧ e.inlet = true ∧ e.tomb = false) ∧
      (insert = false → ∀ e ∈ y.entries, e.key = fld r 0 8 → t.ownsIn t.map.cur e.ix e.iy = true → e.tomb = true) := by
  obtain ⟨u, b, hwork, hb, happly⟩ := vecApply_single hown h x s.self
  rw [happly] at hdone hmap
  have hzero : b.2 = 0 := List.singleton_inj.mp hdone
  subst hb
  cases insert with
  | true =>
    obtain ⟨y, hy, hentry⟩ := vecRecord_inserted hzero
    exact ⟨y, by rw [hmap]; exact hy, fun _ => hentry, nofun⟩
  | false =>
    obtain ⟨y, hy, htomb⟩ := deleteEntry_done hzero
    refine ⟨y, by rw [hmap]; exact hy, nofun, fun _ e he hkey howns => htomb e he hkey ?_⟩
    have howner := (hwork.trans (shardWork_vecRecord u false h x r)).ownerOf e.ix e.iy
    rw [State.ownsIn, hmap, hself] at howns
    rw [State.ownsIn, hwork.self, hwork.ownerOf, ← howner]
    exact howns

end Sys2Proof.Machine

/-! # Settling

What a pass makes of the entries of an index, and SETTLE, the start and the end of a pass as commands (R220, R224, R240). -/

namespace Sys2Proof.Machine

/-! ## The entries of an index once it is settled -/

/-- Entry f is entry e in the same slot, with the same key and code, and in the graph where e is. -/
def SameEntry (e f : Entry) : Prop := f.key = e.key ∧ f.code = e.code ∧ f.slot = e.slot ∧ (e.inlet = false → f.inlet = false)

theorem SameEntry.refl (e : Entry) : SameEntry e e := ⟨rfl, rfl, rfl, id⟩

theorem SameEntry.trans {a b c : Entry} (h1 : SameEntry a b) (h2 : SameEntry b c) : SameEntry a c := by
  obtain ⟨hkey, hcode, hslot, hinlet⟩ := h1
  obtain ⟨hkey', hcode', hslot', hinlet'⟩ := h2
  exact ⟨hkey'.trans hkey, hcode'.trans hcode, hslot'.trans hslot, hinlet' ∘ hinlet⟩

/-- A function that keeps each entry, and takes those of some slots out of the inlet list. -/
def Merges (slots : List Nat) (m : Entry → Entry) : Prop := ∀ e, SameEntry e (m e) ∧ (e.slot ∈ slots → (m e).inlet = false)

theorem Merges.comp {a b : List Nat} {f g : Entry → Entry} (hf : Merges a f) (hg : Merges b g) : Merges (a ++ b) (g ∘ f) := fun e => by
  obtain ⟨hsame, ha⟩ := hf e
  obtain ⟨hsame', hb⟩ := hg (f e)
  have ⟨_, _, hslot, _⟩ := hsame
  have ⟨_, _, _, hstays⟩ := hsame'
  refine ⟨hsame.trans hsame', fun hmem => ?_⟩
  rcases List.mem_append.mp hmem with h | h
  · exact hstays (ha h)
  · exact hb (hslot ▸ h)

theorem merges_id : Merges [] id := fun e => ⟨SameEntry.refl e, nofun⟩

/-- What Index.mergeOne makes of an entry (R224). -/
def Index.mergeEntry (x : Index) (own : Entry → Bool) (gens : Store Nat) (slot : Nat) (e : Entry) : Entry :=
  if e.slot = slot then { x.relink own gens e with inlet := false } else e

theorem mergeOne_entries (x : Index) (own : Entry → Bool) (gens : Store Nat) (slot : Nat) :
    (Index.mergeOne own gens x slot).entries = x.entries.map (x.mergeEntry own gens slot) := rfl

theorem merges_mergeEntry (x : Index) (own : Entry → Bool) (gens : Store Nat) (slot : Nat) : Merges [slot] (x.mergeEntry own gens slot) := fun e => by
  unfold Index.mergeEntry
  split
  · exact ⟨⟨rfl, rfl, rfl, fun _ => rfl⟩, fun _ => rfl⟩
  · next hne => exact ⟨SameEntry.refl e, fun hmem => absurd (List.mem_singleton.mp hmem) hne⟩

/-- Writing the neighbour lists of some entries again keeps each of them. -/
theorem merges_relink (x : Index) (own : Entry → Bool) (gens : Store Nat) (p : Entry → Bool) : Merges [] fun e => if p e then x.relink own gens e else e := fun e => by
  dsimp only
  split
  · exact ⟨⟨rfl, rfl, rfl, id⟩, nofun⟩
  · exact ⟨SameEntry.refl e, nofun⟩

/-- The inlet entries taken enter the graph one by one (R224). -/
theorem foldl_mergeOne (own : Entry → Bool) (gens : Store Nat) (slots : List Nat) (x : Index) :
    (slots.foldl (Index.mergeOne own gens) x).handle = x.handle ∧ ∃ m, (slots.foldl (Index.mergeOne own gens) x).entries = x.entries.map m ∧ Merges slots m := by
  induction slots generalizing x with
  | nil => exact ⟨rfl, id, (List.map_id _).symm, merges_id⟩
  | cons slot rest ih =>
    obtain ⟨hhandle, m, hm, hmerges⟩ := ih (Index.mergeOne own gens x slot)
    refine ⟨hhandle, m ∘ x.mergeEntry own gens slot, ?_, (merges_mergeEntry x own gens slot).comp hmerges⟩
    rw [List.foldl_cons, hm, mergeOne_entries, List.map_map]

/-- A pass keeps the entries that it does not take out as tombstones, and takes its inlet entries into the graph (R224). -/
theorem settle_spec (x : Index) (own : Entry → Bool) (gens : Store Nat) : (x.settle own gens).1.handle = x.handle ∧
    ∃ m, (x.settle own gens).1.entries = (x.entries.filter fun e => !x.settling.takenTomb.contains e.slot).map m ∧ Merges x.settling.takenInlet m := by
  obtain ⟨hhandle, m, hm, hmerges⟩ := foldl_mergeOne own gens x.settling.takenInlet x
  unfold Index.settle
  extract_lets st merged near gone gens' y z
  have hslots : ((fun e : Entry => !gone.contains e.slot) ∘ m) = fun e => !gone.contains e.slot := funext fun e => by
    obtain ⟨⟨-, -, hslot, -⟩, -⟩ := hmerges e
    simp only [Function.comp, hslot]
  have hy : y.entries = (x.entries.filter fun e => !gone.contains e.slot).map m := by rw [← hslots, ← List.filter_map, ← hm]
  refine ⟨hhandle, _, ?_, List.append_nil st.takenInlet ▸ hmerges.comp (merges_relink y own gens' fun e => near.contains e.slot && !e.inlet && own e)⟩
  rw [← List.map_map, ← hy]
  rfl

/-! ## The commands -/

/-- An index whose pass starts: it takes what the shard holds to settle, and the SETTLE operations that wait (R224, R240). -/
def State.passStarted (s : State) (x : Index) : Index :=
  { x with settling := { x.settling with
      asked := false, running := true, ops := x.settling.nextOps, nextOps := []
      takenInlet := ((s.shard x).filter fun e => e.inlet).map (·.slot), takenTomb := ((s.shard x).filter fun e => e.tomb).map (·.slot) } }

/-- What a pass of the device's shard makes of an index (R224). -/
def State.merged (s : State) (x : Index) : Index := (x.settle (fun e => s.ownsIn s.map.cur e.ix e.iy) s.map.cur.gens).1

/-- An index whose pass ends, to be published with the epoch being filled (R224, R240). -/
def State.passEnded (s : State) (x : Index) : Index :=
  { s.merged x with settling := { x.settling with
      running := false, ops := [], takenInlet := [], takenTomb := []
      finished := x.settling.finished ++ [(x.settling.ops, x.settling.takenInlet.length, x.settling.takenTomb.length, s.nextEpoch)] } }

section Settle

variable {s : State} {id : Nat} {o : Op} {x y : Index} (h : s.Runs id 0x23 o) (hx : useIndex o s.map.latest = .ok x) (hy : s.map.cur.index o.handle = some y)
include h hx hy

/-- SETTLE with nothing to settle ends at once (R240). -/
theorem exec_settle_idle (hidle : y.settling.running = false) (hempty : ∀ e ∈ s.shard y, e.inlet = false ∧ e.tomb = false) :
    exec (.settle id) s = .next (s.finish id (Res.ok 0 s.map.published)) := by
  have hnone : ((s.shard y).any fun e => e.inlet || e.tomb) = false := List.any_eq_false.mpr fun e he => by simp [hempty e he]
  rw [exec, execSettle, runOp_of h]
  simp only [hx, hy]
  rw [if_pos (by simp [hidle, hnone])]

/-- SETTLE with entries to settle waits for the next pass (R240). -/
theorem exec_settle_waits (hsome : ∃ e ∈ s.shard y, e.inlet = true ∨ e.tomb = true) :
    ∃ t z, exec (.settle id) s = .next t ∧ t.findOp id = some { o with phase := .waiting, began := true } ∧ t.map.cur.index o.handle = some z ∧
      z.settling.nextOps = y.settling.nextOps ++ [id] ∧ z.entries = y.entries := by
  have hany : ((s.shard y).any fun e => e.inlet || e.tomb) = true := by simpa using hsome
  rw [exec, execSettle, runOp_of h]
  simp only [hx, hy]
  rw [if_neg (by simp [hany])]
  exact ⟨_, _, rfl, (findOp_await _ id).trans (congrArg _ h.1), index_updIndex hy rfl, rfl, rfl⟩

end Settle

section Pass

variable {s : State} {h : Nat} {y : Index} (hy : s.map.cur.index h = some y)
include hy

/-- A pass that is due starts (R224). -/
theorem exec_settlingPass (hrun : s.running = true) (hdue : s.settleDue y = true) (hidle : y.settling.running = false) :
    ∃ t, exec (.settlingPass h) s = .next t ∧ t.map.cur.index h = some (s.passStarted y) := by
  have hcommit : ∀ (l : List Nat) (u : State), (l.foldl State.commit u).map = u.map := fun l => by
    induction l with
    | nil => exact fun _ => rfl
    | cons i r ih => exact fun u => ih (u.commit i)
  rw [exec, execSettlingPass, hy]
  dsimp only
  rw [if_pos ⟨hrun, hdue, by simp [hidle]⟩]
  refine ⟨_, rfl, ?_⟩
  rw [hcommit]
  exact (index_updIndex hy rfl : (s.map.cur.updIndex h fun x => { x with settling := (s.passStarted y).settling }).index h = _)

/-- A pass that runs ends (R224). -/
theorem exec_settlingPassDone (hrunning : y.settling.running = true) :
    ∃ t, exec (.settlingPassDone h) s = .next t ∧ t.map.cur.index h = some (s.passEnded y) := by
  have hstream : ∀ (l : List (Int × Int)) (u : State), (l.foldl (fun s t => s.stream t.1 t.2) u).map.cur = u.map.cur := fun l => by
    induction l with
    | nil => exact fun _ => rfl
    | cons t r ih => exact fun u => (ih _).trans (stream_cur u t.1 t.2)
  obtain ⟨hhandle, -⟩ := settle_spec y (fun e => s.ownsIn s.map.cur e.ix e.iy) s.map.cur.gens
  rw [exec, execSettlingPassDone, hy]
  dsimp only
  rw [if_pos hrunning]
  refine ⟨_, rfl, ?_⟩
  rw [hstream]
  exact (index_updIndex hy hhandle : (s.map.cur.updIndex h fun _ => s.passEnded y).index h = _)

end Pass

/-- The end of a pass: the tombstones that it took are gone, its inlet entries are in the graph, and every other entry is still there (R224). -/
theorem merged_entries (s : State) (y : Index) : (∀ e ∈ (s.merged y).entries, e.slot ∉ y.settling.takenTomb) ∧
    (∀ e ∈ (s.merged y).entries, e.slot ∈ y.settling.takenInlet → e.inlet = false) ∧
    (∀ e ∈ y.entries, e.slot ∉ y.settling.takenTomb → ∃ f ∈ (s.merged y).entries, f.key = e.key ∧ f.code = e.code ∧ f.slot = e.slot) := by
  obtain ⟨-, m, hm, hmerges⟩ := settle_spec y (fun e => s.ownsIn s.map.cur e.ix e.iy) s.map.cur.gens
  rw [State.merged, hm]
  refine ⟨List.forall_mem_map.mpr fun f hf => ?_, List.forall_mem_map.mpr fun f _ => ?_, fun e he hkept => ?_⟩
  · obtain ⟨⟨-, -, hslot, -⟩, -⟩ := hmerges f
    obtain ⟨-, hkept⟩ := List.mem_filter.mp hf
    rw [hslot]
    simpa using hkept
  · obtain ⟨⟨-, -, hslot, -⟩, htaken⟩ := hmerges f
    rw [hslot]
    exact htaken
  · obtain ⟨⟨hkey, hcode, hslot, -⟩, -⟩ := hmerges e
    exact ⟨m e, List.mem_map_of_mem (List.mem_filter.mpr ⟨he, by simpa using hkept⟩), hkey, hcode, hslot⟩

end Sys2Proof.Machine

/-! # RECALL_PROBE

The probes count alone; the operation writes 16 bytes and 4 for each query (R241). -/

namespace Sys2Proof.Machine

/-! ## The probes -/

theorem tallyOnly_searchOwn (s : State) (v : MapView) (x : Index) (q : List Word) (par : SearchPar) (f : Filters) (table : List (List Nat)) :
    TallyOnly s (s.searchOwn v x q par f table).1 := by
  unfold State.searchOwn
  dsimp only
  split
  · exact (tallyOnly_bumpBy s _ _ _).trans (tallyOnly_bump _ _)
  · exact tallyOnly_bumpBy s _ _ _

/-- Each query gives one pair of hits and exact entries, and moves counters alone. -/
theorem probes_spec (v : MapView) (x : Index) (par : SearchPar) (f : Filters) (qs : List (List Word)) (s : State) :
    TallyOnly s (State.probes v x par f qs s).1 ∧ (State.probes v x par f qs s).2.length = qs.length := by
  induction qs generalizing s with
  | nil => exact ⟨TallyOnly.refl s, rfl⟩
  | cons q rest ih =>
    obtain ⟨hrest, hlen⟩ := ih (s.probe v x par f q).1
    exact ⟨TallyOnly.trans (tallyOnly_searchOwn s v x q par f _) hrest, congrArg (· + 1) hlen⟩

/-- The queries of a RECALL_PROBE: those given, or decoded entries of the shard that it draws, none from an empty shard (R241). -/
def State.probeQueries (s : State) (o : Op) (v : MapView) (x : Index) : List (List Word) :=
  let live := x.entries.filter fun e => s.ownsIn v e.ix e.iy && !e.tomb
  let sample (i : Nat) : List Word := ((live[Config.sampleSlot (o.u32 28) i % max 1 live.length]?).map fun e => x.decode e.code).getD []
  if o.u64 16 = 0 then (if live.isEmpty then [] else (List.range (o.u32 24)).map sample)
  else (cut (4 * x.dim) (o.u32 24) (s.readMem (o.u64 16) (4 * x.dim * o.u32 24))).map fun b => wflds b 0 x.dim

theorem probeQueries_length (s : State) (o : Op) (v : MapView) (x : Index) : (s.probeQueries o v x).length ≤ o.u32 24 := by
  fun_cases State.probeQueries <;> simp [cut_length]

/-- The queries are finite where what they are taken from is. -/
theorem probeQueries_finite {s : State} {o : Op} {x : Index} (v : MapView) (hdrawn : o.u64 16 = 0 → ∀ e ∈ x.entries, (x.decode e.code).all F32.finite = true)
    (hgiven : o.u64 16 ≠ 0 → ∀ b ∈ cut (4 * x.dim) (o.u32 24) (s.readMem (o.u64 16) (4 * x.dim * o.u32 24)), (wflds b 0 x.dim).all F32.finite = true) :
    ∀ q ∈ s.probeQueries o v x, q.all F32.finite = true := by
  fun_cases State.probeQueries
  case case1 => exact nofun
  case case2 live sample hzero _ =>
    refine List.forall_mem_map.mpr fun i _ => ?_
    simp only [sample]
    cases hentry : live[Config.sampleSlot (o.u32 28) i % max 1 live.length]? with
    | none => rfl
    | some e => exact hdrawn hzero e (List.mem_of_mem_filter (List.mem_of_getElem? hentry))
  case case3 hzero => exact List.forall_mem_map.mpr (hgiven hzero)

/-! ## The result -/

/-- What RECALL_PROBE of n queries writes of the hits and exact entries of those that ran: three words, the count, and a word for each query (R241). -/
def probeResult (n : Nat) (r : List (Nat × Nat)) : List Byte :=
  let hits : Nat := (r.map (·.1)).sum
  let found : Nat := (r.map (·.2)).sum
  let ratio := if found = 0 then BitVec.ofNat 32 (Config.given 241 [(n : Int)]) else F32.div (F32.ofInt hits) (F32.ofInt found)
  let words := r ++ List.replicate (n - r.length) (0, 0)
  leBytes hits 4 ++ leBytes found 4 ++ leBytes ratio.toNat 4 ++ leBytes n 4 ++ words.flatMap fun p => leBytes (p.1 % 65536 + p.2 % 65536 * 65536) 4

theorem probeResult_length {n : Nat} {r : List (Nat × Nat)} (h : r.length ≤ n) : (probeResult n r).length = 16 + 4 * n := by
  simp only [probeResult, List.length_append, leBytes_length, List.length_flatMap, List.map_const', List.sum_replicate, List.length_replicate, smul_eq_mul]
  omega

/-- The last of the first four words is the count. -/
theorem fld_probeResult (n : Nat) (r : List (Nat × Nat)) : fld ((probeResult n r).take 16) 12 4 = n % 2 ^ 32 :=
  leNat_leBytes n 4

theorem Memory.read_take (m : Memory) {a k n : Nat} (h : k ≤ n) : (m.read a n).take k = m.read a k := by
  induction n generalizing a k with
  | zero => rw [Nat.le_zero.mp h]; rfl
  | succ n ih =>
    cases k with
    | zero => rfl
    | succ k => rw [Memory.read, Memory.read, List.take_succ_cons, ih (by omega)]

/-! ## The command -/

theorem exec_recallProbe {s : State} {id : Nat} {o : Op} {v : MapView} {x y : Index} (h : s.Runs id 0x24 o) (hx : useIndex o s.map.latest = .ok x)
    (hn : within 1 4096 (o.u32 24) = true) (hfields : searchFields o = none) (hfree : s.contextFree o = true) (hblock : blockCheck s o = none)
    (hv : s.map.at o.epochAtFetch = some v) (hy : useIndex o v = .ok y) (hfinite : ∀ q ∈ s.probeQueries o v y, q.all F32.finite = true)
    {r : State × List (Nat × Nat)} (hr : r = State.probes v y (o.searchPar 0) (filtersOf (o.u8 38) (o.u8 39) (o.block s)) (s.probeQueries o v y) s) :
    exec (.recallProbe id) s = .next ((r.1.writeMem (o.u64 48) (probeResult (o.u32 24) r.2)).finish id (Res.ok (o.u32 24) 0)) := by
  have hchecks : firstRes [need (within 1 4096 (o.u32 24)) 24, searchFields o] = none := by rw [firstRes_need_cons hn, hfields]; rfl
  have hall : ¬ (!(s.probeQueries o v y).all fun q => q.all F32.finite) = true := by simpa using hfinite
  subst hr
  rw [exec, execRecallProbe, runOp_of h]
  simp only [hx, hchecks, hblock, hv, hy]
  rw [if_neg (by simp [hfree])]
  exact congrArg _ (if_neg hall)

/-- RECALL_PROBE ends with the queries it ran, and writes no byte past their words (R241). -/
theorem recallProbe_ends {s : State} {id : Nat} {o : Op} {v : MapView} {x y : Index} (h : s.Runs id 0x24 o) (hx : useIndex o s.map.latest = .ok x)
    (hn : within 1 4096 (o.u32 24) = true) (hfields : searchFields o = none) (hfree : s.contextFree o = true) (hblock : blockCheck s o = none)
    (hv : s.map.at o.epochAtFetch = some v) (hy : useIndex o v = .ok y) (hfinite : ∀ q ∈ s.probeQueries o v y, q.all F32.finite = true) :
    ∃ t, exec (.recallProbe id) s = .next t ∧ t.Ended id St.ok (o.u32 24) 0 ∧ fld (t.readMem (o.u64 48) 16) 12 4 = o.u32 24 ∧
      (∀ a, (a < o.u64 48 ∨ o.u64 48 + 16 + 4 * o.u32 24 ≤ a) → t.mem.byte a = s.mem.byte a) := by
  obtain ⟨hcount, hlen⟩ := probes_spec v y (o.searchPar 0) (filtersOf (o.u8 38) (o.u8 39) (o.block s)) (s.probeQueries o v y) s
  have hrun := exec_recallProbe h hx hn hfields hfree hblock hv hy hfinite rfl
  generalize State.probes v y (o.searchPar 0) (filtersOf (o.u8 38) (o.u8 39) (o.block s)) (s.probeQueries o v y) s = r at hcount hlen hrun
  obtain ⟨u, words⟩ := r
  have hsize : (probeResult (o.u32 24) words).length = 16 + 4 * o.u32 24 := probeResult_length (hlen ▸ probeQueries_length s o v y)
  have hu : u.ops = s.ops ∧ u.mem = s.mem := by rw [show u = _ from hcount]; exact ⟨rfl, rfl⟩
  obtain ⟨hops, hmem⟩ := hu
  obtain ⟨hend, hread, hrest⟩ := wroteAndEnded_finish ((findOp_of_ops hops id).trans h.1) hmem (o.u64 48) (probeResult (o.u32 24) words) (Res.ok (o.u32 24) 0)
  refine ⟨_, hrun, hend, ?_, fun a ha => hrest a (by omega)⟩
  rw [State.readMem, ← Memory.read_take _ (show 16 ≤ (probeResult (o.u32 24) words).length by omega)]
  rw [State.readMem] at hread
  rw [hread, fld_probeResult]
  simp only [within, Bool.and_eq_true, decide_eq_true_eq] at hn
  omega

end Sys2Proof.Machine

/-! # Vectors enter and leave their shard

The parts above as commands (R214, R223, R224, R235 to R241). -/

namespace Sys2Proof.Machine

/-- VEC_INSERT or VEC_DELETE of the device's own tiles, as the command runs it: the outcomes are written, and a single record that is done is in the index or out
of it (R223, R235 to R238). -/
theorem vec_ends {s : State} {id code : Nat} {o : Op} {x : Index} {insert : Bool} {c : Instr} (hexec : exec c s = s.runOp id code fun o => s.vecOp o insert)
    (h : s.Runs id code o) (hcode : decide (code = 0x21) = insert) (hx : useIndex o s.map.latest = .ok x) (ha : s.Alone) (hn : within 1 4096 (o.u32 24) = true)
    (hown : ∀ r ∈ s.vecRecords insert o x.dim, s.ownsIn s.map.cur (vecTile insert r).1 (vecTile insert r).2 = true)
    (hapart : o.u64 16 + o.u32 24 * vecSize insert x.dim ≤ o.u64 32 ∨ o.u64 32 + o.u32 24 ≤ o.u64 16) (hreq : s.requestsOf id = []) {codes : List Nat}
    (hcodes : codes = (s.vecApply insert o.handle x (s.vecRecords insert o x.dim) s.self).2) :
    ∃ t, exec c s = .next t ∧ WroteAndEnded s t id (o.u64 32) (codes.map (BitVec.ofNat 8)) (vecRes codes) ∧
      (codes = [0] → ∀ r, s.vecRecords insert o x.dim = [r] → ∃ y, t.map.cur.index o.handle = some y ∧
        (insert = true → ∃ e ∈ y.entries, e.key = fld r 0 8 ∧ e.time = fld r 8 8 ∧ e.code = x.encode (wflds r 24 x.dim) ∧ e.inlet = true ∧ e.tomb = false) ∧
        (insert = false → ∀ e ∈ y.entries, e.key = fld r 0 8 → t.ownsIn t.map.cur e.ix e.iy = true → e.tomb = true)) := by
  obtain ⟨hend, hmap, hself⟩ := vecOp_ends hx hn hown rfl h hcode ha hreq hapart
  rw [← hcodes] at hend
  refine ⟨_, hexec.trans (runOp_of h _), hend, fun hdone r hr => ?_⟩
  rw [hr] at hown hcodes hmap
  exact vecApply_done (hown r (List.mem_singleton_self r)) (hcodes.symm.trans hdone) hmap hself

/-- Settles O49: VEC_INSERT and VEC_DELETE are one run on the device's own records, a pass is given by the index that it starts from and the one that it leaves, and
RECALL_PROBE writes a result of known length. -/
theorem vectorsEnterAndLeaveTheirShard : Obligations.VectorsEnterAndLeaveTheirShard := by
  intro s id o x hx
  refine ⟨?_, fun y hrun hy => ⟨fun hidle hempty => ?_, fun hsome => exec_settle_waits hrun hx hy hsome⟩, fun h y hy hrun hdue hidle => ?_, fun h y hy hrunning => ?_,
    fun v y hrun hn hfields hfree hblock hv hy hdrawn hgiven => ?_⟩
  · intro F
    have vec : ∀ insert c code, (exec c s = s.runOp id code fun o => s.vecOp o insert) → decide (code = 0x21) = insert → F insert c code := by
      intro insert c code hexec hcode n recs codes hrun ha hnum hn hrecs hown hapart hreq hcodes
      subst hnum hrecs
      exact vec_ends hexec hrun hcode hx ha hn hown hapart hreq hcodes
    exact ⟨vec true _ 0x21 rfl rfl, vec false _ 0x22 rfl rfl⟩
  · exact ⟨_, exec_settle_idle hrun hx hy hidle hempty, justEnded_finish hrun.1 _⟩
  · obtain ⟨t, ht, hz⟩ := exec_settlingPass hy hrun hdue hidle
    exact ⟨t, _, ht, hz, rfl, rfl, rfl, rfl, rfl, rfl⟩
  · obtain ⟨t, ht, hz⟩ := exec_settlingPassDone hy hrunning
    exact ⟨t, _, ht, hz, rfl, rfl, merged_entries s y⟩
  · exact recallProbe_ends hrun hx hn hfields hfree hblock hv hy (probeQueries_finite v hdrawn hgiven)

end Sys2Proof.Machine

/-! # INDEX_CREATE, INDEX_DROP and TILE_AFFINITY on a lone device

The own part of such an edit is all of it (R24): a new index in the view being filled, one less, or new settings of the tiles of a rectangle (R212, R213, R316). -/

namespace Sys2Proof.Machine

/-- On a lone device an edit that every member records completes with the outcome of its own part, where that part leaves the streams (R24, R411). -/
theorem editAll_of_alone {s t : State} {o : Op} {data : List Byte} {r : Res} (ha : s.Alone) (he : s.applyEdit o data = (t, r)) (hfab : t.fabric = s.fabric) :
    s.editAll o data = t.complete o.id r := by
  obtain ⟨hothers, hiso, hout⟩ := ha
  rw [State.editAll, if_neg (by simp [State.canCommit, hiso]), if_pos (by simp [hothers]), he]
  exact finishAcked_of_no_stream (by rw [hfab, hout]) _ _ _

/-! ## INDEX_CREATE -/

/-- The index that an INDEX_CREATE describes (R212, R213). -/
def Op.newIndex (o : Op) (data : List Byte) : Index :=
  { handle := o.handle, metric := o.u8 17, m := o.u8 18, degree := o.u8 19, dim := o.u16 20, cells := o.u16 22, codebook := wflds data 0 (data.length / 4), mask := o.u64 32 }

/-- An index in its place among rising handles. -/
def MapView.addIndex (v : MapView) (x : Index) : MapView :=
  { v with indexes := (v.indexes.filter fun y => y.handle < x.handle) ++ x :: v.indexes.filter fun y => x.handle < y.handle }

theorem index_addIndex (v : MapView) (x : Index) : (v.addIndex x).index x.handle = some x := by
  have hbefore : (v.indexes.filter fun y => y.handle < x.handle).find? (fun y => y.handle = x.handle) = none :=
    List.find?_eq_none.mpr fun y hy => by
      have hlt : y.handle < x.handle := by simpa using (List.mem_filter.mp hy).2
      simpa using hlt.ne
  rw [MapView.index, MapView.addIndex, List.find?_append, hbefore]
  simp

theorem applyEdit_create {s : State} {o : Op} (hsub : o.u8 16 = 0x20) (hnew : s.map.cur.index o.handle = none) (data : List Byte) :
    s.applyEdit o data = (s.setCur (s.map.cur.addIndex (o.newIndex data)), Res.ok 0 s.nextEpoch) := by
  simp only [State.applyEdit, hsub, State.applyCreate, hnew]
  rfl

section Create

variable {s : State} {id : Nat} {o : Op} (h : s.RunsSub id 0x19 0x20 o) (hfn : o.fn = 0) (hfields : createFields o = none) {data : List Byte}
  (hdata : data = s.readMem (o.u64 24) ((o.u16 22 + 256) * o.u16 20 * 4)) (hfinite : (wflds data 0 (data.length / 4)).all F32.finite = true)
include h hfn hfields hdata hfinite

/-- With good fields and a finite codebook the handle alone decides (R212, R213). -/
theorem exec_indexCreate : exec (.indexCreate id) s =
    .next (if (s.map.cur.index o.handle).isSome then s.finish id (Res.bound 0x20) else s.editAll o data) := by
  have hchecks : firstRes [pf0Only o, createFields o] = none := by simp [firstRes, pf0Only, hfn, hfields]
  subst hdata
  rw [exec, execIndexCreate, runSub_of h]
  simp only [hchecks]
  rw [if_neg (by simp [hfinite])]

/-- A free handle takes the index (R213). -/
theorem indexCreate_ends (ha : s.Alone) (hnew : s.map.cur.index o.handle = none) :
    ∃ t, exec (.indexCreate id) s = .next t ∧ t.map.cur = s.map.cur.addIndex (o.newIndex data) ∧ t.Ended id St.ok 0 s.nextEpoch := by
  refine edit_ends (r := Res.ok 0 s.nextEpoch) h.1 ((exec_indexCreate h hfn hfields hdata hfinite).trans (congrArg _ ?_))
  rw [if_neg (by simp [hnew])]
  exact editAll_lone ha (applyEdit_create h.2 hnew data)

/-- A handle that is taken bounds it (R213). -/
theorem indexCreate_bound (hold : (s.map.cur.index o.handle).isSome = true) : ∃ t, exec (.indexCreate id) s = .next t ∧ JustEnded s t id (Res.bound 0x20) :=
  ⟨_, (exec_indexCreate h hfn hfields hdata hfinite).trans (congrArg _ (if_pos hold)), justEnded_finish h.1.1 _⟩

end Create

/-! ## INDEX_DROP -/

/-- A view without the index of a handle. -/
def MapView.dropIndex (v : MapView) (h : Nat) : MapView := { v with indexes := v.indexes.filter fun x => x.handle ≠ h }

theorem index_dropIndex (v : MapView) (h i : Nat) : (v.dropIndex h).index i = if i = h then none else v.index i := by
  rw [MapView.index, MapView.dropIndex, List.find?_filter]
  split
  · next hi =>
    subst hi
    exact List.find?_eq_none.mpr fun x _ => by simp
  · next hi =>
    refine congrArg (fun p => v.indexes.find? p) (funext fun x => ?_)
    by_cases hx : x.handle = i
    · simp [hx, hi]
    · simp [hx]

/-- From s to t only operations other than id changed. -/
def OpKept (id : Nat) (s t : State) : Prop := t = { s with ops := t.ops } ∧ t.findOp id = s.findOp id

theorem OpKept.refl (id : Nat) (s : State) : OpKept id s s := ⟨rfl, rfl⟩

theorem OpKept.trans {id : Nat} {a b c : State} (h1 : OpKept id a b) (h2 : OpKept id b c) : OpKept id a c := by
  obtain ⟨hb, hfind⟩ := h1
  obtain ⟨hc, hfind'⟩ := h2
  refine ⟨?_, hfind'.trans hfind⟩
  rw [hc, hb]

theorem opKept_complete {id i : Nat} (hi : i ≠ id) (s : State) (r : Res) : OpKept id s (s.complete i r) := by
  refine ⟨?_, findOp_complete_ne (Ne.symm hi) r⟩
  rw [complete_frame]

theorem opKept_foldl {id : Nat} {α : Type} {f : State → α → State} {l : List α} (h : ∀ a ∈ l, ∀ s, OpKept id s (f s a)) (s : State) : OpKept id s (l.foldl f s) := by
  induction l generalizing s with
  | nil => exact OpKept.refl id s
  | cons a r ih => exact (h a List.mem_cons_self s).trans (ih (fun b hb => h b (List.mem_cons_of_mem a hb)) _)

/-- INDEX_DROP removes the index, and of the operations it ends the SETTLEs on the index alone (R213). -/
theorem applyEdit_drop {s : State} {o : Op} {x : Index} (hsub : o.u8 16 = 0x21) (hx : s.map.cur.index o.handle = some x) {id : Nat} (hops : id ∉ x.settling.ops)
    (hnext : id ∉ x.settling.nextOps) (hfinished : ∀ f ∈ x.settling.finished, id ∉ f.1) (data : List Byte) :
    ∃ t, s.applyEdit o data = (t, Res.ok 0 s.nextEpoch) ∧ OpKept id (s.setCur (s.map.cur.dropIndex o.handle)) t := by
  have hdrop : s.applyEdit o data = s.applyDrop o := by simp only [State.applyEdit, hsub]
  rw [hdrop]
  unfold State.applyDrop
  extract_lets settling cur dropped u
  have hsettling : settling = x.settling := by simp only [settling, hx, Option.map_some, Option.getD_some]
  have hpasses : OpKept id dropped u := by
    refine opKept_foldl (fun f hf _ => opKept_foldl (fun i hi s => ?_) _) dropped
    have hne : i ≠ id := fun hid => hfinished f (hsettling ▸ hf) (hid ▸ hi)
    exact opKept_complete hne s _
  have hepoch : u.nextEpoch = s.nextEpoch := by rw [hpasses.1]; rfl
  refine ⟨_, by rw [hepoch], hpasses.trans (opKept_foldl (fun i hi s => ?_) u)⟩
  have hne : i ≠ id := fun hid => (List.mem_append.mp (hsettling ▸ hid ▸ hi)).elim hops hnext
  exact opKept_complete hne s _

/-- INDEX_DROP of an index whose SETTLEs are other operations (R213). -/
theorem indexDrop_ends {s : State} {id : Nat} {o : Op} {x : Index} (h : s.RunsSub id 0x19 0x21 o) (hfn : o.fn = 0) (ha : s.Alone) (hx : s.map.cur.index o.handle = some x)
    (hops : id ∉ x.settling.ops) (hnext : id ∉ x.settling.nextOps) (hfinished : ∀ f ∈ x.settling.finished, id ∉ f.1) :
    ∃ t, exec (.indexDrop id) s = .next t ∧ t.map.cur = s.map.cur.dropIndex o.handle ∧ t.Ended id St.ok 0 s.nextEpoch := by
  have hchecks : firstRes [pf0Only o, need (s.map.cur.index o.handle).isSome 12] = none := by simp [firstRes, pf0Only, need, hfn, hx]
  obtain ⟨t, hedit, hframe, hfind⟩ := applyEdit_drop (s := s) h.2 hx hops hnext hfinished []
  have ⟨⟨hop, hph, _, hdue⟩, _⟩ := h
  have hall : s.editAll o [] = t.complete o.id (Res.ok 0 s.nextEpoch) := editAll_of_alone ha hedit (by rw [hframe]; rfl)
  have hdue' : t.overdue o = false := by rw [hframe]; exact hdue
  obtain rfl := findOp_id hop
  refine ⟨_, ?_, ?_, ended_complete (s := t) (hfind.trans hop) (Op.ne_final_of_started hph) hdue' rfl rfl (Res.ok 0 s.nextEpoch)⟩
  · rw [exec, execIndexDrop, runSub_of h]
    simp only [hchecks, hall]
  · rw [complete_frame, hframe]
    rfl

/-! ## TILE_AFFINITY -/

/-- The tile at a coordinate, or the one that stands for it while none is listed. -/
def MapView.tileOr (v : MapView) (leader : Nat) (c : Int × Int) : Tile := (v.tile c.1 c.2).getD { ix := c.1, iy := c.2, owner := leader }

theorem tileOr_coords (v : MapView) (leader : Nat) (c : Int × Int) : (v.tileOr leader c).ix = c.1 ∧ (v.tileOr leader c).iy = c.2 := by
  unfold MapView.tileOr
  cases hT : v.tile c.1 c.2 with
  | none => exact ⟨rfl, rfl⟩
  | some T => exact tile_coords hT

/-- What TILE_AFFINITY does at one tile: one that is not listed stays so where it would get no setting (R316). -/
def MapView.setAffinity (prefer : Option Nat) (hold : Bool) (leader : Nat) (v : MapView) (c : Int × Int) : MapView :=
  if (v.tile c.1 c.2).isNone && prefer.isNone && !hold then v else v.setTile { v.tileOr leader c with prefer := prefer, hold := hold }

/-- The tile at a coordinate has the preference and the hold. -/
def MapView.HasAffinity (v : MapView) (prefer : Option Nat) (hold : Bool) (c : Int × Int) : Prop := ∃ U, v.tile c.1 c.2 = some U ∧ U.prefer = prefer ∧ U.hold = hold

section Affinity

variable {prefer : Option Nat} {hold : Bool} (hset : prefer.isSome = true ∨ hold = true) (leader : Nat) {c : Int × Int}
include hset

theorem setAffinity_eq_setTile (v : MapView) (c : Int × Int) :
    v.setAffinity prefer hold leader c = v.setTile { v.tileOr leader c with prefer := prefer, hold := hold } := by
  refine if_neg fun hskip => ?_
  simp only [Bool.and_eq_true, Option.isNone_iff_eq_none, Bool.not_eq_true'] at hskip
  obtain ⟨⟨-, rfl⟩, rfl⟩ := hskip
  simp at hset

theorem hasAffinity_setAffinity_same (v : MapView) : (v.setAffinity prefer hold leader c).HasAffinity prefer hold c := by
  obtain ⟨hx, hy⟩ := tileOr_coords v leader c
  rw [setAffinity_eq_setTile hset]
  refine ⟨{ v.tileOr leader c with prefer := prefer, hold := hold }, ?_, rfl, rfl⟩
  rw [← hx, ← hy]
  exact tile_setTile v { v.tileOr leader c with prefer := prefer, hold := hold }

theorem hasAffinity_setAffinity {v : MapView} (h : v.HasAffinity prefer hold c) (d : Int × Int) : (v.setAffinity prefer hold leader d).HasAffinity prefer hold c := by
  by_cases hd : c = d
  · exact hd ▸ hasAffinity_setAffinity_same hset leader v
  · obtain ⟨hx, hy⟩ := tileOr_coords v leader d
    rw [setAffinity_eq_setTile hset, MapView.HasAffinity, tile_setTile_ne]
    · exact h
    · exact fun ⟨hcx, hcy⟩ => hd (Prod.ext (hcx.trans hx) (hcy.trans hy))

theorem hasAffinity_foldl {v : MapView} (h : v.HasAffinity prefer hold c) (l : List (Int × Int)) :
    (l.foldl (MapView.setAffinity prefer hold leader) v).HasAffinity prefer hold c := by
  induction l generalizing v with
  | nil => exact h
  | cons d r ih => exact ih (hasAffinity_setAffinity hset leader h d)

/-- Each tile of a list gets the settings (R316). -/
theorem hasAffinity_of_mem {l : List (Int × Int)} (hc : c ∈ l) (v : MapView) : (l.foldl (MapView.setAffinity prefer hold leader) v).HasAffinity prefer hold c := by
  induction l generalizing v with
  | nil => exact absurd hc List.not_mem_nil
  | cons d r ih =>
    rcases List.mem_cons.mp hc with rfl | hr
    · exact hasAffinity_foldl hset leader (hasAffinity_setAffinity_same hset leader v) r
    · exact ih hr _

end Affinity

theorem mem_rectTiles {r : Int × Int × Int × Int} {ix iy : Int} (h : inRects [r] ix iy = true) : (ix, iy) ∈ rectTiles r := by
  simp only [inRects, List.any_cons, List.any_nil, Bool.or_false, decide_eq_true_eq] at h
  obtain ⟨hx0, hx1, hy0, hy1⟩ := h
  refine List.mem_flatMap.mpr ⟨(iy - r.2.1).toNat, List.mem_range.mpr (by omega), List.mem_map.mpr ⟨(ix - r.1).toNat, List.mem_range.mpr (by omega), ?_⟩⟩
  exact Prod.ext (by dsimp only; omega) (by dsimp only; omega)

/-- The preference that TILE_AFFINITY gives: 255 clears it (R316). -/
def Op.prefer (o : Op) : Option Nat := if o.u8 17 = 255 then none else some (o.u8 17)

theorem applyEdit_affinity (s : State) {o : Op} (hsub : o.u8 16 = 0x30) (data : List Byte) :
    s.applyEdit o data = (s.setCur ((rectTiles o.rect).foldl (MapView.setAffinity o.prefer (bit (o.u8 18) 0) s.map.cur.leader) s.map.cur),
      Res.ok (rectArea o.rect) s.nextEpoch) := by
  simp only [State.applyEdit, hsub]
  rfl

/-- TILE_AFFINITY with good fields changes the settings of the rectangle's tiles (R316). -/
theorem tileAffinity_ends {s : State} {id : Nat} {o : Op} (h : s.RunsSub id 0x19 0x30 o) (hfn : o.fn = 0) (ha : s.Alone) (hprefer : within 64 254 (o.u8 17) = false)
    (hflags : bits (o.u8 18) 7 1 = 0) (hrect : rectOk o.rect = true) :
    ∃ t, exec (.tileAffinity id) s = .next t ∧
      t.map.cur = (rectTiles o.rect).foldl (MapView.setAffinity o.prefer (bit (o.u8 18) 0) s.map.cur.leader) s.map.cur ∧
      t.Ended id St.ok (rectArea o.rect) s.nextEpoch := by
  have hchecks : firstRes [pf0Only o, need (!within 64 254 (o.u8 17)) 17, if bits (o.u8 18) 7 1 = 0 then none else some (Res.bad 2 18), need (rectOk o.rect) 20] = none := by
    simp [firstRes, pf0Only, need, hfn, hprefer, hflags, hrect]
  refine edit_ends (r := Res.ok (rectArea o.rect) s.nextEpoch) h.1 ?_
  rw [← editAll_lone (data := []) ha (applyEdit_affinity s h.2 []), exec, execTileAffinity, runSub_of h]
  simp only [hchecks]

/-! ## The obligation -/

/-- Settles O47: each edit is its own part on a lone device, and the lemmas above say what that part leaves in the view. -/
theorem indexesAndAffinityAreSet : Obligations.IndexesAndAffinityAreSet := by
  intro s id o ha hfn
  refine ⟨fun h hfields hnew b hb hfinite => ?_, fun h hfields hold b hb hfinite => indexCreate_bound h hfn hfields hb hfinite hold, fun h hold hfree => ?_,
    fun h hprefer hflags hrect => ?_⟩
  · obtain ⟨t, ht, hcur, hend⟩ := indexCreate_ends h hfn hfields hb hfinite ha hnew
    exact ⟨t, o.newIndex b, ht, hcur ▸ index_addIndex _ (o.newIndex b), rfl, rfl, rfl, rfl, rfl, rfl, rfl, rfl, hcur ▸ rfl, hend⟩
  · obtain ⟨x, hx⟩ := Option.isSome_iff_exists.mp hold
    obtain ⟨hops, hnext, hfinished⟩ := hfree x hx
    obtain ⟨t, ht, hcur, hend⟩ := indexDrop_ends h hfn ha hx hops hnext hfinished
    refine ⟨t, ht, ?_, fun i hi => ?_, hcur ▸ rfl, hend⟩
    · rw [hcur, index_dropIndex, if_pos rfl]
    · rw [hcur, index_dropIndex, if_neg hi]
  · obtain ⟨t, ht, hcur, hend⟩ := tileAffinity_ends h hfn ha hprefer hflags hrect
    refine ⟨t, ht, fun ix iy hin hset => ?_, hend⟩
    have hset' : o.prefer.isSome = true ∨ bit (o.u8 18) 0 = true := hset.imp_left fun hne => by simp [Op.prefer, hne]
    rw [hcur]
    exact hasAffinity_of_mem hset' _ (mem_rectTiles hin) _

end Sys2Proof.Machine

/-! # Lists by key and the schedules held

SCHEDULE_LOAD keeps an image that passes its checks and logs one that does not; SCHEDULE_DROP forgets it and cancels the solves on it that have not started
(R247, R248, R249; log entry 103). -/

namespace Sys2Proof.Machine

/-! ## Lookup -/

/-- A list without the elements of one key finds those of the other keys. -/
theorem find_filter_key {α : Type} (key : α → Nat) (h i : Nat) (l : List α) :
    (l.filter fun x => key x ≠ h).find? (fun x => key x = i) = if i = h then none else l.find? fun x => key x = i := by
  rw [List.find?_filter]
  split
  · next hi => exact List.find?_eq_none.mpr fun x _ => by simp [hi]
  · next hi =>
    refine congrArg (fun p => l.find? p) (funext fun x => ?_)
    by_cases hx : key x = i
    · simp [hx, hi]
    · simp [hx]

theorem sched_append {s t : State} {x : Sched} (h : t.abacus.scheds = s.abacus.scheds ++ [x]) (i : Nat) :
    t.sched i = (s.sched i).or (if x.handle = i then some x else none) := by
  by_cases hx : x.handle = i <;> simp [State.sched, h, List.find?_append, hx]

theorem sched_filter {s t : State} {h : Nat} (ht : t.abacus.scheds = s.abacus.scheds.filter fun x => x.handle ≠ h) (i : Nat) :
    t.sched i = if i = h then none else s.sched i := by
  rw [State.sched, ht]
  exact find_filter_key Sched.handle h i _

/-! ## SCHEDULE_LOAD -/

/-- The schedule that a SCHEDULE_LOAD keeps of an image (R244, R247). -/
def Op.newSched (o : Op) (img : List Byte) : Sched :=
  { handle := o.handle, fn := o.fn, image := img, fingerprint := fld img 8 8, vars := fld img 16 4, slots := fld img 20 4, supernodes := fld img 24 4,
    workBytes := fld img 64 8 }

/-- A schedule is held besides those there were, its parcels placed in the pool (R247, R327). -/
def State.addSched (s : State) (x : Sched) : State := { s.syncPool with abacus := { s.abacus with scheds := s.abacus.scheds ++ [x] } }

section Load

variable {s : State} {id : Nat} {o : Op} (h : s.Runs id 0x29 o) (hhandle : within 1 4095 o.handle = true) (hfree : s.sched o.handle = none)
  (hroom : s.abacus.scheds.length < 1024)
include h hhandle hfree hroom

/-- A good image that the pool can hold is kept (R247). -/
theorem exec_scheduleLoad_good {img : List Byte} (himg : img = s.readMem (o.u64 16) (o.u32 24)) (hcheck : schedCheck img (o.u32 24) = none)
    (hfits : s.poolFits o.cls (parcelsFor (o.u32 24)) = true) :
    exec (.scheduleLoad id) s = .next ((s.addSched (o.newSched img)).finish id (Res.ok (o.u32 24) (fld img 8 8))) := by
  subst himg
  rw [exec, execScheduleLoad, runOp_of h]
  simp only [hhandle, hfree, hcheck, hfits, Nat.not_le.mpr hroom, Option.any_none, Option.isSome_none, Bool.not_true, Bool.false_eq_true, if_false]
  rfl

/-- A rejected image is logged with the row of R248 that it fails. -/
theorem exec_scheduleLoad_bad {img : List Byte} (himg : img = s.readMem (o.u64 16) (o.u32 24)) {row : Nat} {r : Res}
    (hcheck : schedCheck img (o.u32 24) = some (row, r)) :
    exec (.scheduleLoad id) s = .next ((s.log (dieUnit 0) 0x0020 4 o.fn o.handle row).finish id r) := by
  subst himg
  rw [exec, execScheduleLoad, runOp_of h]
  simp only [hhandle, hfree, hcheck, Nat.not_le.mpr hroom, Option.any_none, Option.isSome_none, Bool.not_true, Bool.false_eq_true, if_false]

end Load

/-- A schedule on a free handle stands beside those there were. -/
theorem sched_addSched {s : State} {x : Sched} (hfree : s.sched x.handle = none) (i : Nat) :
    (s.addSched x).sched i = if i = x.handle then some x else s.sched i := by
  rw [sched_append (s := s) (t := s.addSched x) rfl]
  by_cases hi : i = x.handle
  · subst hi
    simp [hfree]
  · simp [hi, Ne.symm hi]

/-- The entry that a log appends names the function and the subject too (R420). -/
theorem log_last_names (s : State) (source code cls fn subject detail : Nat) :
    ∃ e, (s.log source code cls fn subject detail).tally.entries.getLast? = some e ∧ e.code = code ∧ e.fn = fn ∧ e.subject = subject ∧ e.detail = detail := by
  unfold State.log
  extract_lets unset e t u
  have hlast : u.tally.entries.getLast? = some e := List.getLast?_concat
  refine ⟨e, ?_, rfl, rfl, rfl, rfl⟩
  split <;> exact hlast

/-! ## SCHEDULE_DROP -/

theorem ended_finish_of_ended {s : State} {i : Nat} {r : Res} (j : Nat) (h : s.Ended i r.status r.count r.detail) :
    (s.finish j r).Ended i r.status r.count r.detail := by
  obtain ⟨p, hp, hend⟩ := h
  by_cases hij : i = j
  · exact hij ▸ ended_finish hp r
  · exact ⟨p, (findOp_finish_ne s j i r hij).trans hp, hend⟩

/-- The operations of a list end with one outcome. -/
def State.finishAll (s : State) (l : List Op) (r : Res) : State := l.foldl (fun s p => s.finish p.id r) s

theorem finishAll_frame (s : State) (l : List Op) (r : Res) : s.finishAll l r = { s with ops := (s.finishAll l r).ops } :=
  List.foldlRecOn (motive := fun u : State => u = { s with ops := u.ops }) l _ rfl fun u hu p _ => by rw [finish_frame, hu]

/-- An operation in flight stays in flight while others end. -/
theorem findOp_finishAll {s : State} {i : Nat} (h : (s.findOp i).isSome = true) (l : List Op) (r : Res) : ((s.finishAll l r).findOp i).isSome = true :=
  List.foldlRecOn (motive := fun u : State => (u.findOp i).isSome = true) l _ h fun u hu p _ => by
    by_cases hi : i = p.id
    · rw [hi, findOp_finish, ← hi, Option.isSome_map, hu]
    · rw [findOp_finish_ne u p.id i r hi, hu]

theorem ended_finishAll {s : State} {l : List Op} {p : Op} (hp : p ∈ l) (hf : (s.findOp p.id).isSome = true) (r : Res) :
    (s.finishAll l r).Ended p.id r.status r.count r.detail := by
  induction l generalizing s with
  | nil => exact absurd hp List.not_mem_nil
  | cons q l ih =>
    by_cases hq : q.id = p.id
    · obtain ⟨p', hp'⟩ := Option.isSome_iff_exists.mp hf
      exact ended_foldl (fun u a hu => ended_finish_of_ended a.id hu) l (hq ▸ ended_finish hp' r)
    · refine ih ((List.mem_cons.mp hp).resolve_left fun e => hq (congrArg Op.id e.symm)) ?_
      rw [findOp_finish_ne s q.id p.id r (Ne.symm hq), hf]

/-- The SOLVEs of a function on a handle that have not started (R249). -/
def State.waitingSolves (s : State) (o : Op) : List Op :=
  s.ops.list.filter fun p => p.opcode = 0x28 && p.fn = o.fn && p.handle = o.handle && !p.began && p.phase != .final

/-- A handle's schedule is no longer held; running solves keep their image (R249). -/
def State.dropSched (s : State) (h : Nat) : State := { s with abacus := { s.abacus with scheds := s.abacus.scheds.filter fun y => y.handle ≠ h } }

theorem exec_scheduleDrop {s : State} {id : Nat} {o : Op} {x : Sched} (h : s.Runs id 0x2A o) (hx : s.sched o.handle = some x) (hfn : x.fn = o.fn) :
    exec (.scheduleDrop id) s =
      .next (((s.dropSched o.handle).finishAll (s.waitingSolves o) (Res.cancelled 2)).finish id (Res.ok 0 (s.waitingSolves o).length)) := by
  rw [exec, execScheduleDrop, runOp_of h]
  simp only [hx]
  rw [if_neg (by simp [hfn])]
  rfl

/-- A drop forgets the schedule and cancels the solves on it that have not started (R87, R249). -/
theorem scheduleDrop_ends {s : State} {id : Nat} {o : Op} {x : Sched} (h : s.Runs id 0x2A o) (hx : s.sched o.handle = some x) (hfn : x.fn = o.fn) :
    ∃ t, exec (.scheduleDrop id) s = .next t ∧ (∀ i, t.sched i = if i = o.handle then none else s.sched i) ∧
      t.Ended id St.ok 0 (s.waitingSolves o).length ∧
      ∀ i p, s.findOp i = some p → i ≠ id → p ∈ s.waitingSolves o → t.Ended i St.cancelled 0 2 := by
  have hframe := finishAll_frame (s.dropSched o.handle) (s.waitingSolves o) (Res.cancelled 2)
  refine ⟨_, exec_scheduleDrop h hx hfn, fun i => ?_, ?_, fun i p hp hi hmem => ?_⟩
  · rw [finish_frame, hframe]
    exact sched_filter (h := o.handle) rfl i
  · obtain ⟨o', ho'⟩ := Option.isSome_iff_exists.mp
      (findOp_finishAll (s := s.dropSched o.handle) (i := id) (Option.isSome_iff_exists.mpr ⟨o, h.1⟩) (s.waitingSolves o) (Res.cancelled 2))
    exact ended_finish ho' _
  · obtain rfl := findOp_id hp
    obtain ⟨q, hq, hend⟩ := ended_finishAll (s := s.dropSched o.handle) hmem (Option.isSome_iff_exists.mpr ⟨p, hp⟩) (Res.cancelled 2)
    exact ⟨q, (findOp_finish_ne _ id p.id _ hi).trans hq, hend⟩

end Sys2Proof.Machine

/-! # SOLVE

The first command starts a solve on a free abacus core; a HOST solve that is commanded again runs to its end on its inputs, and touches neither the map nor
a session (R250, R251, R262, R267; log entries 13 and 102). -/

namespace Sys2Proof.Machine

/-! ## The start -/

/-- Whether a solve first asks the other members for what they hold (R253). -/
def State.solveFar (s : State) (o : Op) : Bool := o.u8 16 = 1 && !s.others.isEmpty

/-- A solve as it starts: its warm block read, and the other members asked where it needs them (R253, R261). -/
def State.newSolve (s : State) (o : Op) (x : Sched) (c : Nat) : SolveSt :=
  let w := readWarm s o x
  { op := o.id, sched := x, cluster := c, stage := if s.solveFar o then .gather else .run, warm := w.1, warmBad := bit (o.u8 18) 0 && !w.1, warmVals := w.2.2 }

theorem dispatch_frame (s : State) (o : Op) (c : Nat) :
    s.dispatch o c = { s with place := (s.dispatch o c).place, power := (s.dispatch o c).power, mesh := (s.dispatch o c).mesh } := by
  rw [State.dispatch, sendPkt_frame]
  rfl

/-- From s to t requests were noted and sent to other members, and nothing else changed (R388). -/
def Asked (s t : State) : Prop := t = { s with sound := t.sound, out := t.out, fabric := { s.fabric with ports := t.fabric.ports } }

theorem asked_sendRequest (s : State) (op peer cls : Nat) (desc data : List Byte) : Asked s (s.sendRequest op peer cls desc data) := by
  unfold State.sendRequest
  extract_lets xid r u
  exact List.foldlRecOn (motive := Asked s) _ _ rfl fun v hv g _ => by
    rw [Asked] at hv ⊢
    rw [sendFz_frame, hv]

theorem asked_foldl {α : Type} {f : State → α → State} (hf : ∀ s a, Asked s (f s a)) (l : List α) (s : State) : Asked s (l.foldl f s) :=
  List.foldlRecOn (motive := Asked s) l f rfl fun u hu a _ => by
    have ha := hf u a
    rw [Asked] at hu ha ⊢
    rw [ha, hu]

/-- A solve that starts joins those running; its operation has begun, and waits where other members are asked. -/
theorem startSolve_eq (s : State) (o : Op) (x : Sched) (c : Nat) : ∃ u : State, u.ops = s.ops ∧ u.abacus.running = s.abacus.running ++ [s.newSolve o x c] ∧
    s.startSolve o x c = if s.solveFar o then u.await o.id else u.begin o.id := by
  unfold State.startSolve
  extract_lets w far st s1 abacus u table
  have hbump : TallyOnly s s1 := by
    unfold s1
    split
    · exact tallyOnly_bump s _
    · exact TallyOnly.refl s
  have hops : u.ops = s.ops := by
    unfold u
    rw [dispatch_frame, hbump]
  have hrunning : u.abacus.running = s.abacus.running ++ [s.newSolve o x c] := by
    unfold u
    rw [dispatch_frame, hbump]
    rfl
  have hfar : s.solveFar o = far := rfl
  rw [hfar]
  cases far
  · exact ⟨u, hops, hrunning, rfl⟩
  · have hasked := asked_foldl (fun v p => asked_sendRequest v o.id p o.cls o.desc ([0] ++ leBytes (o.epoch 56) 8 ++ leBytes x.vars 4 ++ table)) u.others u
    exact ⟨_, by rw [hasked]; exact hops, by rw [hasked]; exact hrunning, rfl⟩

/-- The solve that is last of those running is found under its operation, which had none. -/
theorem solveOf_append {s t : State} {st : SolveSt} (h : t.abacus.running = s.abacus.running ++ [st]) (hnone : s.solveOf st.op = none) : t.solveOf st.op = some st := by
  rw [State.solveOf, h, List.find?_append, ← State.solveOf, hnone]
  simp

section Start

variable {s : State} {id c : Nat} {o : Op} {x : Sched} (h : s.Runs id 0x28 o)
include h

theorem findOp_startSolve : (s.startSolve o x c).findOp id = some (if s.solveFar o then { o with began := true, phase := .waiting } else { o with began := true }) := by
  obtain ⟨u, hops, -, heq⟩ := startSolve_eq s o x c
  have hfind : u.findOp id = some o := (findOp_of_ops hops id).trans h.1
  obtain rfl := findOp_id h.1
  rw [heq]
  split
  · rw [findOp_await, hfind]
    rfl
  · exact findOp_begin_of hfind

variable (hnone : s.solveOf id = none)
include hnone

/-- A SOLVE that passes its checks, whose workspace is free and whose turn it is, starts on a free core (R250, R265, R268). -/
theorem exec_solve_start (hx : s.sched o.handle = some x) (hfn : x.fn = o.fn) (hfields : solveFields o = none) (hreach : s.reach o.fn (o.u64 48) 1 = true)
    (hwork : s.reach o.fn (o.u64 48) x.workBytes = true) (hbusy : s.workspaceBusy o = false) (hfirst : s.solveFirst o = true) (hcore : s.freeAbacus = some c) :
    exec (.solve id) s = .next (s.startSolve o x c) := by
  rw [exec, execSolve, runOp_of h]
  simp [hnone, hx, hfn, hfields, hreach, hwork, hbusy, hfirst, hcore]

theorem solveOf_startSolve : (s.startSolve o x c).solveOf id = some (s.newSolve o x c) := by
  obtain ⟨u, -, hrunning, heq⟩ := startSolve_eq s o x c
  obtain rfl := findOp_id h.1
  rw [heq, apply_ite (fun t : State => t.solveOf o.id)]
  exact (ite_self _).trans (solveOf_append hrunning hnone)

end Start

/-! ## The run of a HOST solve -/

/-- From s to t only the abacus, memory with its parcels, and the tally changed. -/
def SolveWork (s t : State) : Prop := t = { s with abacus := t.abacus, mem := t.mem, tiers := t.tiers, tally := t.tally }

theorem SolveWork.refl (s : State) : SolveWork s s := rfl

theorem SolveWork.trans {a b c : State} (h1 : SolveWork a b) (h2 : SolveWork b c) : SolveWork a c := by
  rw [SolveWork] at *
  rw [h2, h1]

theorem solveWork_writeMem (s : State) (p : Nat) (b : List Byte) : SolveWork s (s.writeMem p b) := rfl

theorem solveWork_bumpBy (s : State) (i j n : Nat) : SolveWork s (s.bumpBy i j n) := rfl

theorem solveWork_endSolve (s : State) (op : Nat) : SolveWork s (s.endSolve op) := rfl

theorem solveOf_endSolve (s : State) (op : Nat) : (s.endSolve op).solveOf op = none :=
  (find_filter_key SolveSt.op op op _).trans (if_pos rfl)

/-- An operation completes after the work of its solve, which has ended. -/
theorem solve_completes {s u : State} {id code : Nat} {o : Op} (h : s.Runs id code o) (hwork : SolveWork s u) (hended : u.solveOf id = none) (r : Res) :
    (u.complete id r).solveOf id = none ∧ (u.complete id r).map = s.map ∧ (u.complete id r).sess = s.sess ∧ (u.complete id r).mem = u.mem ∧
      (u.complete id r).Ended id r.status r.count r.detail := by
  obtain ⟨hfind, hphase, -, hdue⟩ := h
  refine ⟨?_, ?_, ?_, ?_, ended_complete hfind (Op.ne_final_of_started hphase) hdue (by rw [hwork]) (by rw [hwork]) r⟩
  · rw [complete_frame]
    exact hended
  · rw [complete_frame, hwork]
  · rw [complete_frame, hwork]
  · rw [complete_frame]

/-- A solve that commits nothing writes its result and completes with its status (R266, R267). -/
theorem solveDone_uncommitted (s : State) (o : Op) (st : SolveSt) : ∃ u n d, SolveWork s u ∧ u.solveOf o.id = none ∧
    s.solveDone o st false 0 = u.complete o.id { status := st.status, count := n, detail := d } := by
  unfold State.solveDone
  extract_lets x committed flags head cand s1 s2 warm s3 count u
  have hwarm : SolveWork s2 s3 := by
    unfold s3
    split
    · exact solveWork_writeMem _ _ _
    · exact SolveWork.refl _
  have hwork : SolveWork s u := ((solveWork_writeMem s _ _).trans (solveWork_writeMem s1 _ _)).trans (hwarm.trans (solveWork_endSolve s3 _))
  exact ⟨u, _, _, hwork, solveOf_endSolve s3 o.id, rfl⟩

/-- The statuses of a SOLVE that runs to its end (R267). -/
def SolveStatus (status : Nat) : Prop := status = St.ok ∨ status = St.okRegularised ∨ status = St.okColdStart ∨ status = St.unsolvedPartial

theorem solveStatus_ite {a b c : Prop} [Decidable a] [Decidable b] [Decidable c] :
    SolveStatus (if a then St.unsolvedPartial else if b then St.okRegularised else if c then St.okColdStart else St.ok) := by
  unfold SolveStatus
  split
  · simp
  · split
    · simp
    · split <;> simp

/-- A HOST solve commits nothing: it is done as soon as it has run (R262, R263). -/
theorem runSolve_host {o : Op} (hhost : o.u8 16 = 0) (s : State) (st : SolveSt) (pb : Problem) (epoch : Nat) :
    ∃ u st', SolveWork s u ∧ SolveStatus st'.status ∧ s.runSolve o st pb epoch = u.solveDone o st' false 0 := by
  unfold State.runSolve
  extract_lets x es vars start pb' r old it chi rejected flags candBytes res status moved link st' s1 u e r' needs data
  exact ⟨u, st', (solveWork_bumpBy s _ _ _).trans (solveWork_bumpBy s1 _ _ _), solveStatus_ite, if_pos (.inl hhost)⟩

section Host

variable {s : State} {id : Nat} {o : Op} {st : SolveSt} (h : s.Runs id 0x28 o) (hst : s.solveOf id = some st) (hstage : st.stage = .run) (hhost : o.u8 16 = 0)
include h hst hstage hhost

/-- A problem with a bad record ends a HOST solve (R252). -/
theorem exec_solve_bad (hbad : hostProblem st.sched (s.readMem (o.u64 24) (40 * st.sched.vars + 128 * st.sched.slots)) = none) :
    exec (.solve id) s = .next ((s.endSolve id).complete id (Res.field 24)) := by
  rw [exec, execSolve, runOp_of h]
  simp only [hst, hstage, if_true, State.stepSolve, hhost, hbad, findOp_id h.1]

/-- A good problem is run to its end (R254). -/
theorem exec_solve_good {pb : Problem} (hgood : hostProblem st.sched (s.readMem (o.u64 24) (40 * st.sched.vars + 128 * st.sched.slots)) = some pb) :
    exec (.solve id) s = .next (s.runSolve o st pb 0) := by
  rw [exec, execSolve, runOp_of h]
  simp only [hst, hstage, if_true, State.stepSolve, hhost, hgood]

/-- A HOST solve that is commanded again runs to its end, with one of its outcomes and nothing of the map changed (R252, R262, R267). -/
theorem solve_host_ends {p : Option Problem} (hp : p = hostProblem st.sched (s.readMem (o.u64 24) (40 * st.sched.vars + 128 * st.sched.slots))) :
    ∃ t, exec (.solve id) s = .next t ∧ t.solveOf id = none ∧ t.map = s.map ∧ t.sess = s.sess ∧
      (p = none → t.Ended id St.badDescriptor 0 0x518 ∧ t.mem = s.mem) ∧
      (p ≠ none → ∃ status n d, t.Ended id status n d ∧ SolveStatus status) := by
  cases p with
  | none =>
    obtain ⟨hnone, hmap, hsess, hmem, hend⟩ := solve_completes h (solveWork_endSolve s id) (solveOf_endSolve s id) (Res.field 24)
    exact ⟨_, exec_solve_bad h hst hstage hhost hp.symm, hnone, hmap, hsess, fun _ => ⟨hend, hmem⟩, fun hne => absurd rfl hne⟩
  | some pb =>
    have hexec := exec_solve_good h hst hstage hhost hp.symm
    obtain ⟨u, st', hrun, hstatus, heq⟩ := runSolve_host hhost s st pb 0
    obtain ⟨v, n, d, hdone, hended, heq'⟩ := solveDone_uncommitted u o st'
    obtain rfl := findOp_id h.1
    rw [heq, heq'] at hexec
    obtain ⟨hnone, hmap, hsess, -, hend⟩ := solve_completes h (hrun.trans hdone) hended { status := st'.status, count := n, detail := d }
    exact ⟨_, hexec, hnone, hmap, hsess, nofun, fun _ => ⟨_, _, _, hend, hstatus⟩⟩

end Host

end Sys2Proof.Machine

/-! # Loop closures and masks on the one tile of a device

A loop closure on a device alone in its view is rejected, in conflict or recorded (R262 to R264, R268; log entries 102, 152 and 182), and a mask that is complete
leaves the observations of the features that it does not mark (R19, R300; log entry 97). -/

namespace Sys2Proof.Machine

/-! ## One tile -/

theorem homeOf_of_single {v : MapView} {T : Tile} {key : Nat} (ht : v.tiles = [T]) (hk : (T.keyframe key).isSome = true) : v.homeOf key = some T := by
  simp [MapView.homeOf, ht, hk]

/-- A tile that is recorded over the only one is the only one; the mirrors it is streamed to leave the map (R395). -/
theorem record_of_single {s : State} {T U : Tile} (ht : s.map.cur.tiles = [T]) (hx : T.ix = U.ix) (hy : T.iy = U.iy) : (s.record U).map.cur.tiles = [U] := by
  rw [State.record, stream_cur]
  exact setTile_of_single ht hx hy

theorem record_self (s : State) (t : Tile) : (s.record t).self = s.self := (shardWork_stream (s.setCur (s.map.cur.setTile t)) t.ix t.iy).self

theorem keyframe_isSome_iff {T : Tile} {key : Nat} : (T.keyframe key).isSome = true ↔ key ∈ T.keyframes.map (·.key) := by
  simp [Tile.keyframe, List.find?_isSome]

theorem mem_putLink (l : Link) (ls : List Link) : l ∈ putLink l ls := by
  induction ls with
  | nil => simp [putLink]
  | cons x r ih =>
    unfold putLink
    split
    · simp
    · split
      · simp
      · exact List.mem_cons_of_mem x ih

/-! ## A loop closure -/

/-- A move leaves the keys of a tile's keyframes. -/
theorem keys_moved (base : MapView) (m : PoseMove) (l : List Keyframe) :
    (updFirst (fun k => k.key = m.key) (Keyframe.moved base m) l).map (·.key) = l.map (·.key) :=
  map_updFirst (·.key) _ (Keyframe.moved base m) l fun _ => rfl

/-- A tile with the pose that a solve gives one of its keyframes (R263). -/
def Tile.withMove (T : Tile) (base : MapView) (m : PoseMove) : Tile := { T with keyframes := updFirst (fun k => k.key = m.key) (Keyframe.moved base m) T.keyframes }

/-- A tile with a link that a solve adds (R263). -/
def Tile.withLink (T : Tile) (l : Link) : Tile := { T with links := putLink l T.links }

section Recorded

variable {s : State} {T : Tile} (base : MapView) (ht : s.map.cur.tiles = [T]) (hown : T.owner = s.self)
include ht hown

theorem recordMoves_move {m : PoseMove} (hm : (T.keyframe m.key).isSome = true) : s.recordMoves base [m] [] = s.record (T.withMove base m) := by
  simp only [State.recordMoves, List.foldl_cons, List.foldl_nil, homeOf_of_single ht hm]
  exact if_neg (not_not.mpr hown)

theorem recordMoves_link {l : Link} (hl : (T.keyframe l.keyA).isSome = true) : s.recordMoves base [] [l] = s.record (T.withLink l) := by
  simp only [State.recordMoves, List.foldl_cons, List.foldl_nil, homeOf_of_single ht hl]
  exact if_neg (not_not.mpr hown)

/-- A pose and a link that lie in the one tile of the device are recorded there, first the pose (R263). -/
theorem recordMoves_of_single {m : PoseMove} {l : Link} (hm : (T.keyframe m.key).isSome = true) (hl : (T.keyframe l.keyA).isSome = true) :
    (s.recordMoves base [m] [l]).map.cur.tiles = [(T.withMove base m).withLink l] := by
  have hmoved : (s.record (T.withMove base m)).map.cur.tiles = [T.withMove base m] := record_of_single ht rfl rfl
  have hl' : ((T.withMove base m).keyframe l.keyA).isSome = true := by
    rw [keyframe_isSome_iff] at hl ⊢
    exact (keys_moved base m T.keyframes).symm ▸ hl
  have hsplit : s.recordMoves base [m] [l] = (s.recordMoves base [m] []).recordMoves base [] [l] := rfl
  rw [hsplit, recordMoves_move base ht hown hm, recordMoves_link base hmoved (hown.trans (record_self s _).symm) hl']
  exact record_of_single hmoved rfl rfl

end Recorded

/-- The check of a commit looks at the keys and versions of its moves alone (R264). -/
theorem commitFits_congr (s : State) {m n : PoseMove} (hk : m.key = n.key) (hv : m.version = n.version) : s.commitFits [m] = s.commitFits [n] := by
  simp only [State.commitFits, List.filter_cons, List.filter_nil, hk]
  split <;> simp [hk, hv]

theorem counter_bump_same (s : State) {i : Nat} : (s.bump i).counter i 0 = (s.counter i 0 + 1) % 2 ^ 64 := by
  rw [State.bump, counter_bumpBy _ _ _ _ _ _ (by decide) (by decide), if_pos ⟨rfl, rfl⟩]

section Closure

variable {s : State} {sid ka kb : Nat} {a k : Keyframe}

/-- A loop closure of two keyframes on a device alone in its view: χ² and the check of the commit decide, and the second keyframe is the one
that moves (R264, R268; log entry 152). -/
theorem exec_loopClosure_alone (hses : (s.session sid).isSome = true) (hrun : s.running = true) (hcommit : s.canCommit = true) (halone : s.others = [])
    (hindex : (s.map.latest.index 1).isSome = true) (ha : s.map.latest.keyframe ka = some a) (hk : s.map.latest.keyframe kb = some k) (haq : a.quarantined = false)
    (hkq : k.quarantined = false) (haq' : s.map.latest.quar.contains ka = false) (hkq' : s.map.latest.quar.contains kb = false) (hmay : s.ownSolveMay = true)
    {chi gate : Word} (hchi : chi = Config.chiSquare [] (a.bytes ++ k.bytes) 0)
    (hgate : gate = clampF 0x3F800000 0x447A0000 0x4149999A (BitVec.ofNat 32 (s.reg 0xD004 0))) :
    ∃ (m : PoseMove) (l : Link), m.key = kb ∧ m.version = k.version ∧ l.keyA = ka ∧ l.keyB = kb ∧ exec (.loopClosure sid ka kb) s = .next
      (if !F32.finite chi || !F32.le chi gate then s.bump Ctr.loopReject
       else if !s.commitFits [m] then s.bump Ctr.solveConflict
       else (s.recordMoves s.map.base [m] [l]).correct [m] s.nextEpoch) := by
  obtain ⟨x, hx⟩ := Option.isSome_iff_exists.mp hses
  have hfinda : ((s.map.latest.keyframe ka).filter fun x => !x.quarantined && !s.map.latest.quar.contains ka) = some a := by
    rw [ha, Option.filter_some, haq, haq']
    rfl
  have hfindk : ((s.map.latest.keyframe kb).filter fun x => !x.quarantined && !s.map.latest.quar.contains kb) = some k := by
    rw [hk, Option.filter_some, hkq, hkq']
    rfl
  have hindex' : (s.map.latest.index 1).isNone = false := by simpa using hindex
  subst hchi hgate
  rw [exec, execLoopClosure]
  simp only [hx, hfinda, hfindk, hrun, hcommit, hindex', hmay, halone, Bool.not_true, Bool.or_false, Bool.false_eq_true, if_false, List.isEmpty_nil, if_true]
  rw [← apply_ite Host.Outcome.next, ← apply_ite Host.Outcome.next]
  exact ⟨_, _, rfl, rfl, rfl, rfl, rfl⟩

end Closure

/-! ## A mask that is complete -/

theorem length_putObs (o : Observation) (l : List Observation) : (putObs o l).length = l.length + 1 := by
  induction l with
  | nil => rfl
  | cons x r ih =>
    unfold putObs
    split <;> simp [ih]

/-- From T to U a tile gained n observations; points may be new, and the rest that a mask could change is as it was (R19). -/
structure Observed (n : Nat) (T U : Tile) : Prop where
  ix : U.ix = T.ix
  iy : U.iy = T.iy
  owner : U.owner = T.owner
  keyframes : U.keyframes = T.keyframes
  links : U.links = T.links
  obs : U.obs.length = T.obs.length + n

theorem Observed.refl (T : Tile) : Observed 0 T T := ⟨rfl, rfl, rfl, rfl, rfl, rfl⟩

theorem Observed.trans {m n : Nat} {T U V : Tile} (h1 : Observed m T U) (h2 : Observed n U V) : Observed (n + m) T V :=
  ⟨h2.ix.trans h1.ix, h2.iy.trans h1.iy, h2.owner.trans h1.owner, h2.keyframes.trans h1.keyframes, h2.links.trans h1.links, by rw [h2.obs, h1.obs]; omega⟩

/-- From s to t only the map being filled changed: its one tile T gained n observations. -/
def TileObserved (n : Nat) (T : Tile) (s t : State) : Prop := ∃ v U, t = s.setCur v ∧ v.tiles = [U] ∧ Observed n T U

section OneTile

variable {s : State} {T : Tile} (ht : s.map.cur.tiles = [T])
include ht

theorem curTile_of_single : s.curTile T.ix T.iy = T := curTile_of_tile (tile_of_single ht)

/-- A new point in the one tile of the device leaves its observations (R19). -/
theorem tileObserved_addPoint {p : NewPoint} (hx : p.ix = T.ix) (hy : p.iy = T.iy) : TileObserved 0 T s (s.addPoint p) := by
  unfold State.addPoint
  rw [hx, hy, curTile_of_single ht]
  exact ⟨_, _, rfl, setTile_of_single ht rfl rfl, rfl, rfl, rfl, rfl, rfl, rfl⟩

theorem tileObserved_addObs (b : Observation) : TileObserved 1 T s (s.addObs T.ix T.iy b) := by
  unfold State.addObs
  rw [curTile_of_single ht]
  exact ⟨_, _, rfl, setTile_of_single ht rfl rfl, rfl, rfl, rfl, rfl, rfl, length_putObs _ _⟩

/-- A point of the tile that is observed once more leaves the observations. -/
theorem tileObserved_points (ps : List MapPoint) : TileObserved 0 T s (s.setCur (s.map.cur.setTile { T with points := ps })) :=
  ⟨_, _, rfl, setTile_of_single ht rfl rfl, rfl, rfl, rfl, rfl, rfl, rfl⟩

end OneTile

/-- An observation after a change that left the observations of the one tile. -/
theorem TileObserved.addObs {T : Tile} {s t : State} (h : TileObserved 0 T s t) (b : Observation) : TileObserved 1 T s (t.addObs T.ix T.iy b) := by
  obtain ⟨v, U, rfl, hv, hU⟩ := h
  obtain ⟨w, W, hw, hwt, hW⟩ := tileObserved_addObs (s := s.setCur v) hv b
  rw [hU.ix, hU.iy] at hw
  exact ⟨w, W, hw, hwt, hU.trans hW⟩

/-- A feature whose point is of the tile, or would be new there, is observed once (R19, R300). -/
theorem tileObserved_observe {s : State} {T : Tile} {key : Nat} {f : Nat × Nat × List Byte} (ht : s.map.cur.tiles = [T]) (hown : T.owner = s.self)
    (hp : (s.newPoint key f).ix = T.ix ∧ (s.newPoint key f).iy = T.iy) : TileObserved 1 T s (s.observe T.ix T.iy key f).1 := by
  obtain ⟨hx, hy⟩ := hp
  have howns : s.ownsIn s.map.cur (s.newPoint key f).ix (s.newPoint key f).iy = true := by
    rw [hx, hy, State.ownsIn, ownerOf_of_tile (tile_of_single ht), hown]
    exact decide_eq_true rfl
  unfold State.observe
  rw [curTile_of_single ht]
  simp only [howns, if_true]
  split
  · exact (tileObserved_points ht _).addObs _
  · exact (tileObserved_addPoint ht hx hy).addObs _

/-- What State.addObservations does with one feature: the state after it, and the tiles that got a new point. -/
def observeOne (ix iy : Int) (key : Nat) (r : State × List (Int × Int)) (f : Nat × Nat × List Byte) : State × List (Int × Int) :=
  ((r.1.observe ix iy key f).1, r.2 ++ (r.1.observe ix iy key f).2)

/-- The features of a list are observed one by one. -/
theorem tileObserved_foldl {key : Nat} (fs : List (Nat × Nat × List Byte)) {s : State} {T : Tile} (ht : s.map.cur.tiles = [T]) (hown : T.owner = s.self)
    (hp : ∀ f ∈ fs, (s.newPoint key f).ix = T.ix ∧ (s.newPoint key f).iy = T.iy) (cs : List (Int × Int)) :
    TileObserved fs.length T s (fs.foldl (observeOne T.ix T.iy key) (s, cs)).1 := by
  induction fs generalizing s T cs with
  | nil => exact ⟨s.map.cur, T, rfl, ht, Observed.refl T⟩
  | cons f fs ih =>
    obtain ⟨hpf, hpfs⟩ := List.forall_mem_cons.mp hp
    obtain ⟨v, U, hv, hvt, hU⟩ := tileObserved_observe ht hown hpf
    have hpU : ∀ g ∈ fs, ((s.setCur v).newPoint key g).ix = U.ix ∧ ((s.setCur v).newPoint key g).iy = U.iy := fun g hg => by
      rw [hU.ix, hU.iy]
      exact hpfs g hg
    obtain ⟨w, W, hw, hwt, hW⟩ := ih (s := s.setCur v) hvt (hU.owner.trans hown) hpU (cs ++ (s.observe T.ix T.iy key f).2)
    rw [hU.ix, hU.iy] at hw
    refine ⟨w, W, ?_, hwt, hU.trans hW⟩
    rw [List.foldl_cons, observeOne, hv]
    exact hw

theorem ShardWork.sess {s t : State} (h : ShardWork s t) : t.sess = s.sess := by
  obtain ⟨v, tally, ports, streams, out, rfl, -⟩ := h
  rfl

/-- The streams of some tiles leave the map (R395). -/
theorem streams_cur (cs : List (Int × Int)) (s : State) : (cs.foldl (fun (s : State) c => s.stream c.1 c.2) s).map.cur = s.map.cur :=
  List.foldlRecOn (motive := fun u : State => u.map.cur = s.map.cur) cs _ rfl fun u hu c _ => (stream_cur u c.1 c.2).trans hu

/-- A tile in which the mask of a keyframe is complete (R300). -/
def Tile.unmasked (T : Tile) (key : Nat) : Tile := { T with keyframes := updFirst (fun k => k.key = key) (fun k => { k with maskPending := false }) T.keyframes }

theorem keyframe_unmasked {T : Tile} {key : Nat} {k : Keyframe} (hk : T.keyframe key = some k) : (T.unmasked key).keyframe key = some { k with maskPending := false } := by
  have hkey : k.key = key := by simpa using List.find?_some hk
  exact find_updFirst_found hk (by simpa using hkey)

/-- The observations are written with the mask complete, then the tiles that changed are streamed and the access is counted (R300, R308, R395). -/
theorem addObservations_eq (s : State) (ix iy : Int) (key : Nat) (fs : List (Nat × Nat × List Byte)) (dev : Nat) : s.addObservations ix iy key fs dev =
    let r := fs.foldl (observeOne ix iy key) (s.setCur (s.map.cur.setTile ((s.curTile ix iy).unmasked key)), [])
    ((((ix, iy) :: r.2).eraseDups).foldl (fun (s : State) c => s.stream c.1 c.2) r.1).access ix iy dev := rfl

/-- A mask that is complete in the one tile of the device: the keyframe's mask is no longer pending, and each feature it leaves is an observation (R300). -/
theorem addObservations_of_single {s : State} {T : Tile} {k : Keyframe} {key : Nat} {fs : List (Nat × Nat × List Byte)} (ht : s.map.cur.tiles = [T])
    (hown : T.owner = s.self) (hk : T.keyframe key = some k) (hp : ∀ f ∈ fs, (s.newPoint key f).ix = T.ix ∧ (s.newPoint key f).iy = T.iy) (dev : Nat) :
    ∃ U, (s.addObservations T.ix T.iy key fs dev).map.cur.tiles = [U] ∧ (s.addObservations T.ix T.iy key fs dev).sess = s.sess ∧
      U.keyframe key = some { k with maskPending := false } ∧ U.obs.length = T.obs.length + fs.length ∧ U.links = T.links := by
  obtain ⟨v, U, hv, hvt, hU⟩ :=
    tileObserved_foldl fs (s := s.setCur (s.map.cur.setTile (T.unmasked key))) (T := T.unmasked key) (setTile_of_single ht rfl rfl) hown hp []
  rw [addObservations_eq, curTile_of_single ht]
  extract_lets r
  have hr : r.1 = s.setCur v := hv
  rw [hr]
  generalize ((T.ix, T.iy) :: r.2).eraseDups = cs
  have hcur := streams_cur cs (s.setCur v)
  have hsess := (shardWork_foldl (fun s (c : Int × Int) => shardWork_stream s c.1 c.2) cs (s.setCur v)).sess
  generalize cs.foldl (fun (s : State) c => s.stream c.1 c.2) (s.setCur v) = u at hcur hsess ⊢
  have htiles : u.map.cur.tiles = [U] := by rw [hcur]; exact hvt
  have hUx : T.ix = U.ix := hU.ix.symm
  have hUy : T.iy = U.iy := hU.iy.symm
  rw [hUx, hUy]
  obtain ⟨acc, hacc⟩ := access_of_tile (tile_of_single htiles) dev
  refine ⟨{ U with accesses := acc }, ?_, ?_, ?_, hU.obs, hU.links⟩
  · rw [hacc]
    exact setTile_of_single htiles rfl rfl
  · rw [hacc]
    exact hsess
  · rw [Tile.keyframe, hU.keyframes]
    exact keyframe_unmasked hk

/-- KEYFRAME_MASK_COMPLETE for a keyframe of the one tile of the device (R300). -/
theorem exec_keyframeMaskComplete_own {s : State} {T : Tile} {key : Nat} {masked : List Nat} {m : Nat × List (Nat × Nat × List Byte)} (ht : s.map.cur.tiles = [T])
    (hown : T.owner = s.self) (hk : (T.keyframe key).isSome = true) (hm : s.sess.masks.find? (fun m => m.1 = key) = some m) :
    exec (.keyframeMaskComplete key masked) s =
      .next (({ s with sess := { s.sess with masks := s.sess.masks.filter fun m => m.1 ≠ key } } : State).addObservations T.ix T.iy key
        ((m.2.zipIdx.filter fun f => !masked.contains f.2).map (·.1)) s.self) := by
  rw [exec, execKeyframeMaskComplete]
  simp only [hm, homeOf_of_single ht hk]
  exact if_pos hown

end Sys2Proof.Machine

/-! # Schedules, solves, loop closures and masks

The statement on the abacus, from the lemmas of the sections above. -/

namespace Sys2Proof.Machine

/-- Settles O51: a solve starts and ends, schedules load and drop, a loop closure and a mask are carried out, each by the lemma on its command. Which keyframe a
closure moves is log entry 152, its residual a free value (log entry 102), and its start log entry 182. -/
theorem solvesRunOnSchedules : Obligations.SolvesRunOnSchedules := by
  intro s id o x
  refine ⟨?start, ?host, ?load, ?drop, ?closure, ?mask⟩
  case start =>
    intro c h hnone hx hfn hfields hreach hwork hbusy hfirst hcore
    refine ⟨_, s.newSolve o x c, exec_solve_start h hnone hx hfn hfields hreach hwork hbusy hfirst hcore, solveOf_startSolve h hnone, rfl, rfl,
      fun hnear => ?_, fun hmap hothers => ?_⟩
    · have hfar : s.solveFar o = false := by rcases hnear with hhost | halone <;> simp [State.solveFar, *]
      exact ⟨by simp [State.newSolve, hfar], by rw [findOp_startSolve h, hfar]; rfl⟩
    · have hfar : s.solveFar o = true := by simp [State.solveFar, hmap, hothers]
      exact ⟨by simp [State.newSolve, hfar], by rw [findOp_startSolve h, hfar]; rfl⟩
  case host =>
    rintro st h hst hstage hhost rfl p hp
    exact solve_host_ends h hst hstage hhost hp
  case load =>
    intro img himg h hhandle hfree hroom
    refine ⟨fun hcheck hfits => ?_, fun row r hcheck => ?_⟩
    · have hsched := sched_addSched (x := o.newSched img) hfree
      exact ⟨_, o.newSched img, exec_scheduleLoad_good h hhandle hfree hroom himg hcheck hfits, (hsched o.handle).trans (if_pos rfl), rfl, rfl, rfl, rfl,
        ended_finish_of h.1 _ rfl, fun i hi => (hsched i).trans (if_neg hi), rfl⟩
    · obtain ⟨e, hlast, hcode, hefn, hsubject, hdetail⟩ := log_last_names s (dieUnit 0) 0x0020 4 o.fn o.handle row
      exact ⟨_, e, exec_scheduleLoad_bad h hhandle hfree hroom himg hcheck, ended_finish_of h.1 r (log_ops _ _ _ _ _ _ _),
        log_abacus _ _ _ _ _ _ _, hlast, hcode, hefn, hsubject, hdetail⟩
  case drop =>
    intro h hx hfn
    obtain ⟨t, hexec, hsched, hend, hgone⟩ := scheduleDrop_ends h hx hfn
    refine ⟨t, _, hexec, (hsched _).trans (if_pos rfl), fun i hi => (hsched i).trans (if_neg hi), hend,
      fun i p hp hcode hpfn hhandle hbegan hphase => ?_⟩
    have hi : i ≠ id := by
      rintro rfl
      obtain rfl : o = p := Option.some.inj (h.1.symm.trans hp)
      exact absurd (h.2.2.1.symm.trans hcode) (by decide)
    exact hgone i p hp hi (List.mem_filter.mpr ⟨List.mem_of_find?_eq_some hp, by simp [hcode, hpfn, hhandle, hbegan, hphase]⟩)
  case closure =>
    intro sid ka kb T a k chi gate hses hrun hcommit halone hindex ha hk haq hkq haq' hkq' hmay ht hown hTa hTk hchi hgate
    obtain ⟨m, l, rfl, hversion, rfl, hkeyB, hexec⟩ := exec_loopClosure_alone hses hrun hcommit halone hindex ha hk haq hkq haq' hkq' hmay hchi hgate
    refine ⟨_, hexec, ?_⟩
    have hfits : s.commitFits [{ key := m.key, version := k.version }] = s.commitFits [m] := commitFits_congr s rfl hversion.symm
    rw [hfits]
    split
    · exact ⟨counter_bump_same s, rfl⟩
    · cases hc : s.commitFits [m] with
      | false => exact ⟨counter_bump_same s, rfl⟩
      | true => exact ⟨_, l, recordMoves_of_single s.map.base ht hown hTk hTa, mem_putLink l T.links, rfl, hkeyB, keys_moved _ m T.keyframes, rfl, rfl⟩
  case mask =>
    rintro key masked T k m fs ht hown hk hm rfl hp
    obtain ⟨U, hU, hsess, hkeyframe, hobs, hlinks⟩ := addObservations_of_single
      (s := { s with sess := { s.sess with masks := s.sess.masks.filter fun m => m.1 ≠ key } }) ht hown hk hp s.self
    refine ⟨_, U, exec_keyframeMaskComplete_own ht hown (by rw [hk]; rfl) hm, hU, hkeyframe, hobs, hlinks, fun p hp => ?_⟩
    rw [hsess] at hp
    simpa using (List.mem_filter.mp hp).2

end Sys2Proof.Machine

/-! # Programs and weight sets

PROGRAM_LOAD keeps an image that passes its checks and logs one that does not; its dropping form waits for no INFER (R287, R288, R289). A bind puts a new version of a
weight set in the place of the one before, and an unbind one without weights (R290, R291). -/

namespace Sys2Proof.Machine

/-! ## Lookup -/

theorem prog_handle {s : State} {h : Nat} {p : Prog} (hp : s.prog h = some p) : p.handle = h := by
  simpa using List.find?_some hp

theorem inferOf_op {s : State} {id : Nat} {i : InferSt} (hi : s.inferOf id = some i) : i.op = id := by
  simpa using List.find?_some hi

theorem prog_append {s t : State} {p : Prog} (h : t.matrix.progs = s.matrix.progs ++ [p]) (i : Nat) :
    t.prog i = (s.prog i).or (if p.handle = i then some p else none) := by
  by_cases hp : p.handle = i <;> simp [State.prog, h, List.find?_append, hp]

theorem prog_filter {s t : State} {h : Nat} (ht : t.matrix.progs = s.matrix.progs.filter fun p => p.handle ≠ h) (i : Nat) :
    t.prog i = if i = h then none else s.prog i := by
  rw [State.prog, ht]
  exact find_filter_key Prog.handle h i _

/-- A change of the program that is found under a handle. -/
theorem prog_updProg_found {s : State} {h : Nat} {p : Prog} {f : Prog → Prog} (hp : s.prog h = some p) (hf : (f p).handle = p.handle := by rfl) :
    (s.updProg h f).prog h = some (f p) :=
  find_updFirst_found hp (by simpa using hf.trans (prog_handle hp))

theorem prog_updProg_ne (s : State) {h i : Nat} {f : Prog → Prog} (hf : ∀ p, (f p).handle = p.handle) (hi : i ≠ h) : (s.updProg h f).prog i = s.prog i := by
  refine find_updFirst_other _ _ f _ fun p hp => ?_
  have hh : p.handle = h := by simpa using hp
  simp [hf, hh, hi.symm]

/-! ## PROGRAM_LOAD -/

/-- The program that a PROGRAM_LOAD keeps of an image (R287). -/
def Op.newProg (o : Op) (img : List Byte) : Prog := { handle := o.handle, fn := o.fn, image := img }

/-- A program is held besides those there were, its parcels placed in the pool (R287, R327). -/
def State.addProg (s : State) (p : Prog) : State := { s.syncPool with matrix := { s.matrix with progs := s.matrix.progs ++ [p] } }

/-- A program on a free handle stands beside those there were. -/
theorem prog_addProg {s : State} {p : Prog} (hfree : s.prog p.handle = none) (i : Nat) : (s.addProg p).prog i = if i = p.handle then some p else s.prog i := by
  rw [prog_append (s := s) (t := s.addProg p) rfl]
  by_cases hi : i = p.handle
  · subst hi
    simp [hfree]
  · simp [hi, Ne.symm hi]

section Load

variable {s : State} {id : Nat} {o : Op} (h : s.Runs id 0x31 o) (hload : o.u64 16 ≠ 0 ∨ o.u32 24 ≠ 0) (hhandle : within 1 4095 o.handle = true)
  (hfree : s.prog o.handle = none) (hroom : s.matrix.progs.length < 512)
include h hload hhandle hfree hroom

/-- A good image that the pool can hold is kept (R287). -/
theorem exec_programLoad_good (hcheck : progCheck (s.readMem (o.u64 16) (o.u32 24)) (o.u32 24) = none) (hfits : s.poolFits o.cls (parcelsFor (o.u32 24)) = true) :
    exec (.programLoad id) s = .next ((s.addProg (o.newProg (s.readMem (o.u64 16) (o.u32 24)))).finish id
      (Res.ok (o.u32 24) (fld (s.readMem (o.u64 16) (o.u32 24)) 8 8))) := by
  rw [exec, execProgramLoad, runOp_of h]
  simp only [if_neg (not_and_or.mpr hload), hhandle, hfree, hcheck, hfits, Nat.not_le.mpr hroom, Option.any_none, Option.isSome_none, Bool.not_true,
    Bool.false_eq_true, if_false]
  rfl

/-- A rejected image is logged with the row of R288 that it fails. -/
theorem exec_programLoad_bad {row : Nat} {r : Res} (hcheck : progCheck (s.readMem (o.u64 16) (o.u32 24)) (o.u32 24) = some (row, r)) :
    exec (.programLoad id) s = .next ((s.log (dieUnit 0) 0x0020 4 o.fn o.handle row).finish id r) := by
  rw [exec, execProgramLoad, runOp_of h]
  simp only [if_neg (not_and_or.mpr hload), hhandle, hfree, hcheck, Nat.not_le.mpr hroom, Option.any_none, Option.isSome_none, Bool.not_true,
    Bool.false_eq_true, if_false]

end Load

/-! ## The dropping form -/

/-- Whether an INFER of a function on a handle has no final outcome yet (R289). -/
def State.progUsed (s : State) (o : Op) : Bool :=
  s.ops.list.any fun q => q.opcode = 0x30 && q.handle = o.handle && q.fn = o.fn && q.phase != .final

theorem progUsed_iff (s : State) (o : Op) :
    s.progUsed o = true ↔ ∃ q ∈ s.ops.list, q.opcode = 0x30 ∧ q.handle = o.handle ∧ q.fn = o.fn ∧ q.phase ≠ .final := by
  simp [State.progUsed, and_assoc]

theorem progUsed_eq_false_iff (s : State) (o : Op) :
    s.progUsed o = false ↔ ∀ q ∈ s.ops.list, q.opcode = 0x30 → q.handle = o.handle → q.fn = o.fn → q.phase = .final := by
  simp [State.progUsed]

/-- A handle's program is no longer held, and its parcels are freed (R289, R327). -/
def State.dropProg (s : State) (h : Nat) : State :=
  State.syncPool { s with matrix := { s.matrix with progs := s.matrix.progs.filter fun p => p.handle ≠ h } }

section Drop

variable {s : State} {id : Nat} {o : Op} {p : Prog} (h : s.Runs id 0x31 o) (haddress : o.u64 16 = 0) (hbytes : o.u32 24 = 0) (hp : s.prog o.handle = some p)
  (hfn : p.fn = o.fn)
include h haddress hbytes hp hfn

/-- A program that no INFER uses is dropped. -/
theorem exec_programDrop_unused (hused : s.progUsed o = false) : exec (.programDrop id) s = .next ((s.dropProg o.handle).finish id (Res.ok 0 0)) := by
  rw [State.progUsed] at hused
  rw [exec, execProgramDrop, runOp_of h]
  simp [haddress, hbytes, hp, hfn, hused, State.dropProg]

/-- A program that an INFER uses stays. -/
theorem exec_programDrop_used (hused : s.progUsed o = true) : exec (.programDrop id) s = .next (s.finish id (Res.bound 0x45)) := by
  rw [State.progUsed] at hused
  rw [exec, execProgramDrop, runOp_of h]
  simp [haddress, hbytes, hp, hfn, hused]

end Drop

/-! ## Weight sets -/

/-- The version of a set that follows the current one, with slots of its own (R291). -/
def Prog.nextSet (p : Prog) (set : Nat) (slots : List (Option (Nat × List Byte))) : WeightSet :=
  { p.weights set with version := (p.weights set).version + 1, slots := slots }

theorem weights_set (p : Prog) (k : Nat) : (p.weights k).set = k := by
  unfold Prog.weights
  cases hw : p.sets.find? fun w => w.set = k with
  | none => rfl
  | some w => simpa using List.find?_some hw

/-- A set that is put in its place is the current one; the other sets stay. -/
theorem weights_putSet (p : Prog) (w : WeightSet) (k : Nat) : (p.putSet w).weights k = if k = w.set then w else p.weights k := by
  have hrest := find_filter_key WeightSet.set w.set k p.sets
  unfold Prog.weights Prog.putSet
  rw [List.find?_append, hrest]
  split
  · next hk => simp [hk]
  · next hk => simp [Ne.symm hk]

theorem weights_putSet_nextSet (p : Prog) (k : Nat) (slots : List (Option (Nat × List Byte))) :
    (p.putSet (p.nextSet k slots)).weights k = p.nextSet k slots :=
  (weights_putSet p _ k).trans (if_pos (weights_set p k).symm)

theorem weights_putSet_nextSet_ne (p : Prog) {k j : Nat} (slots : List (Option (Nat × List Byte))) (hj : j ≠ k) :
    (p.putSet (p.nextSet k slots)).weights j = p.weights j :=
  (weights_putSet p _ j).trans (if_neg fun e => hj (e.trans (weights_set p k)))

/-- The program on a handle switches to a set, which commits an operation that ends with it (R85, R291). -/
def State.switchSet (s : State) (id h : Nat) (w : WeightSet) (r : Res) : State :=
  ((s.updProg h fun p => p.putSet w).syncPool.commit id).finish id r

/-- From s to t, the program p of a handle switched one set to a version; the operation that did so ended, and no other program changed (R291). -/
structure SetSwitched (s t : State) (id h set : Nat) (p : Prog) (w : WeightSet) (r : Res) : Prop where
  held : t.prog h = some (p.putSet w)
  others : ∀ i, i ≠ h → t.prog i = s.prog i
  current : (p.putSet w).weights set = w
  kept : ∀ k, k ≠ set → (p.putSet w).weights k = p.weights k
  ended : t.Ended id r.status r.count r.detail

theorem switchSet_spec {s : State} {id h : Nat} {o : Op} {p : Prog} (hfind : s.findOp id = some o) (hp : s.prog h = some p) (set : Nat)
    (slots : List (Option (Nat × List Byte))) (r : Res) : SetSwitched s (s.switchSet id h (p.nextSet set slots) r) id h set p (p.nextSet set slots) r where
  held := prog_updProg_found (f := fun p' => p'.putSet (p.nextSet set slots)) hp
  others _ hi := prog_updProg_ne s (f := fun p' => p'.putSet (p.nextSet set slots)) (fun _ => rfl) hi
  current := weights_putSet_nextSet p set slots
  kept _ hk := weights_putSet_nextSet_ne p slots hk
  ended := by
    have hswitched : (s.updProg h fun p' => p'.putSet (p.nextSet set slots)).syncPool.findOp id = some o := hfind
    exact ended_finish ((findOp_commit _ id).trans (congrArg _ hswitched)) r

/-- A program that an operation may use is the one on its handle. -/
theorem prog_of_useProg {s : State} {o : Op} {p : Prog} (h : s.useProg o = .ok p) : s.prog o.handle = some p := by
  unfold State.useProg at h
  split at h
  · cases h
  · next q hq =>
    split at h
    · cases h
    · split at h
      · cases h
      · cases h
        exact hq

section Weights

variable {s : State} {id : Nat} {o : Op} {p : Prog} (h : s.Runs id 0x32 o) (hp : s.useProg o = .ok p)
include h hp

/-- A bind whose slots, length and parcels are right switches to a version with its slots replaced (R290). -/
theorem exec_weightsBind {sizes : List Nat} (hsizes : sizes = p.sizes (o.u32 20) (o.u32 24)) (hbind : bit (o.u8 17) 0 = false) (hcount : o.u32 24 ≠ 0)
    (hslots : o.u32 20 + o.u32 24 ≤ (progHead p.image).slots) (hbytes : o.u64 40 = sizes.sum) (hfits : s.poolFits o.cls (sizes.map parcelsFor).sum = true)
    {w : WeightSet} (hw : w = p.nextSet (o.u8 16) (bindSlots ((p.weights (o.u8 16)).version + 1) (o.u32 20) (cutBy sizes (s.readMem (o.u64 32) (o.u64 40)))
      (p.weights (o.u8 16)).slots)) :
    exec (.weightsBind id) s = .next (s.syncPool.switchSet id o.handle w (Res.ok w.parcels w.version)) := by
  subst hw hsizes
  have hrange : ¬(o.u32 24 = 0 ∨ (progHead p.image).slots < o.u32 20 + o.u32 24) := not_or.mpr ⟨hcount, Nat.not_lt.mpr hslots⟩
  rw [exec, execWeightsBind, runOp_of h]
  simp only [hbind, hp, if_neg hrange, ← hbytes, hfits, ne_eq, not_true_eq_false, Bool.not_true, Bool.false_eq_true, if_false]
  rfl

/-- An unbind switches to a version without weights (R290). -/
theorem exec_weightsUnbind (hunbind : bit (o.u8 17) 0 = true) {w : WeightSet} (hw : w = p.nextSet (o.u8 16) ((p.weights (o.u8 16)).slots.map fun _ => none)) :
    exec (.weightsUnbind id) s = .next (s.switchSet id o.handle w (Res.ok 0 w.version)) := by
  subst hw
  rw [exec, execWeightsUnbind, runOp_of h]
  simp only [hunbind, hp, Bool.not_true, Bool.false_eq_true, if_false]
  rfl

end Weights

end Sys2Proof.Machine

/-! # INFER

An INFER that is first in its class starts on a cluster where it fits and moves at its layers' boundaries; a layer goes on to the next, ends the operation, reports
the trap of its code, or stays unfinished while that code has not ended (R292, R293, R296; log entry 164). -/

namespace Sys2Proof.Machine

/-! ## Start and move -/

/-- An INFER as it starts on a cluster: its weights those current now, its inputs read (R292, R293). -/
def State.newInfer (s : State) (o : Op) (p : Prog) (c : Nat) : InferSt :=
  { op := o.id, handle := o.handle, fn := o.fn, weights := p.weights (o.u8 16), cluster := c, harts := startHarts p.image, bufs := s.inferBuffers o p.image }

/-- An INFER joins those running, and its operation has begun. -/
def State.startInfer (s : State) (o : Op) (i : InferSt) : State :=
  (State.dispatch { s with matrix := { s.matrix with infers := s.matrix.infers ++ [i] } } o i.cluster).begin o.id

/-- The INFER that starts is found under its operation, which had none. -/
theorem inferOf_startInfer {s : State} {o : Op} {i : InferSt} (hop : i.op = o.id) (hnone : s.inferOf o.id = none) : (s.startInfer o i).inferOf o.id = some i := by
  rw [State.inferOf] at hnone
  rw [State.startInfer, dispatch_frame]
  refine List.find?_append.trans ?_
  simp [hnone, hop]

theorem findOp_startInfer {s : State} {o : Op} (hfind : s.findOp o.id = some o) (i : InferSt) : (s.startInfer o i).findOp o.id = some { o with began := true } :=
  findOp_begin_of ((findOp_of_ops (by rw [dispatch_frame]) o.id).trans hfind)

section Start

variable {s : State} {id c : Nat} {o : Op} {p : Prog} {hd : ProgHead} {io : List (List Byte)} (h : s.Runs id 0x30 o) (hnone : s.inferOf id = none)
  (hp : s.useProg o = .ok p) (hhd : hd = progHead p.image) (hio : io = progIo p.image) (htable : s.reach o.fn (o.u64 24) (8 * io.length) = true)
  (hpointers : s.ioReach o io = true) (hnowork : hd.work = 0 → o.u64 32 = 0)
  (hwork : hd.work ≠ 0 → isDev (o.u64 32) = true ∧ s.reach o.fn (o.u64 32) 1 = true ∧ s.reach o.fn (o.u64 32) hd.work = true)
include h hnone hp hhd hio htable hpointers hnowork hwork

/-- An INFER with a slot that is not bound ends (R291). -/
theorem exec_infer_unbound (hbound : (p.weights (o.u8 16)).complete = false) : exec (.infer id c) s = .next (s.finish id (Res.bound 0x40)) := by
  subst hhd hio
  rw [exec, execInfer, runOp_of h]
  by_cases hw : (progHead p.image).work = 0
  · simp [hnone, hp, htable, hpointers, hw, hnowork hw, hbound]
  · obtain ⟨hdev, hfirst, -⟩ := hwork hw
    simp [hnone, hp, htable, hpointers, hw, hdev, hfirst, hbound]

/-- An INFER with every slot bound starts on a cluster where it fits, once none of a lower class number waits (R81, R293). -/
theorem exec_infer_start (hbound : (p.weights (o.u8 16)).complete = true) (hfits : s.inferFits id c hd = true) (hturn : s.inferFirst o = true) :
    exec (.infer id c) s = .next (s.startInfer o (s.newInfer o p c)) := by
  subst hhd hio
  obtain rfl := findOp_id h.1
  rw [exec, execInfer, runOp_of h]
  by_cases hw : (progHead p.image).work = 0
  · simp [hnone, hp, htable, hpointers, hw, hnowork hw, hbound, hfits, hturn, State.startInfer, State.newInfer]
  · obtain ⟨hdev, hfirst, hall⟩ := hwork hw
    simp [hnone, hp, htable, hpointers, hw, hdev, hfirst, hall, hbound, hfits, hturn, State.startInfer, State.newInfer]

end Start

/-- A change of the INFER that is found under an operation. -/
theorem inferOf_updInfer_found {s : State} {id : Nat} {i : InferSt} {f : InferSt → InferSt} (hi : s.inferOf id = some i) (hf : (f i).op = i.op := by rfl) :
    (s.updInfer id f).inferOf id = some (f i) :=
  find_updFirst_found hi (by simpa using hf.trans (inferOf_op hi))

theorem inferOf_endInfer (s : State) (id : Nat) : (s.endInfer id).inferOf id = none :=
  (find_filter_key InferSt.op id id _).trans (if_pos rfl)

/-- A running INFER moves to a cluster where it fits (R293). -/
theorem exec_infer_move {s : State} {id c : Nat} {o : Op} {i : InferSt} {p : Prog} (h : s.Runs id 0x30 o) (hi : s.inferOf id = some i)
    (hp : s.prog i.handle = some p) (hfits : s.inferFits id c (progHead p.image) = true) :
    exec (.infer id c) s = .next ((s.updInfer id fun i => { i with cluster := c }).placed c) := by
  rw [exec, execInfer, runOp_of h]
  simp only [hi, hp, hfits, if_true]

/-! ## A layer -/

@[simp] theorem updProg_mem (s : State) (h : Nat) (f : Prog → Prog) : (s.updProg h f).mem = s.mem := rfl
@[simp] theorem pondWork_mem (s : State) (c : Nat) (masters : List Nat) : (s.pondWork c masters).mem = s.mem := rfl
@[simp] theorem endInfer_mem (s : State) (id : Nat) : (s.endInfer id).mem = s.mem := rfl
@[simp] theorem endInfer_ops (s : State) (id : Nat) : (s.endInfer id).ops = s.ops := rfl

theorem inferOf_finish (s : State) (id : Nat) (r : Res) (i : Nat) : (s.finish id r).inferOf i = s.inferOf i := by
  rw [State.inferOf, finish_matrix, State.inferOf]

/-- From s to t, work on a layer changed the tallies, the programs' counts and memory with its parcels; neither an operation nor an INFER. -/
def LayerWork (s t : State) : Prop :=
  t = { s with matrix := { s.matrix with progs := t.matrix.progs }, mem := t.mem, tiers := t.tiers, tally := t.tally, free := t.free }

theorem LayerWork.refl (s : State) : LayerWork s s := rfl

theorem LayerWork.trans {a b c : State} (h1 : LayerWork a b) (h2 : LayerWork b c) : LayerWork a c := by
  rw [LayerWork] at *
  rw [h2, h1]

theorem LayerWork.ops {s t : State} (h : LayerWork s t) : t.ops = s.ops := by rw [h]

theorem LayerWork.inferOf {s t : State} (h : LayerWork s t) (id : Nat) : t.inferOf id = s.inferOf id := by
  rw [h]
  rfl

theorem layerWork_writeMem (s : State) (p : Nat) (b : List Byte) : LayerWork s (s.writeMem p b) := rfl

theorem layerWork_syncPool (s : State) : LayerWork s s.syncPool := rfl

theorem layerWork_updProg (s : State) (h : Nat) (f : Prog → Prog) : LayerWork s (s.updProg h f) := rfl

theorem layerWork_foldl {α : Type} {f : State → α → State} (hf : ∀ s a, LayerWork s (f s a)) (l : List α) (s : State) : LayerWork s (l.foldl f s) :=
  List.foldlRecOn (motive := LayerWork s) l f (LayerWork.refl s) fun u hu a _ => hu.trans (hf u a)

theorem layerWork_storeWork (s : State) (o : Op) (img : List Byte) (bufs : List (List Byte)) : LayerWork s (s.storeWork o img bufs) :=
  layerWork_foldl (fun u a => by
    split
    · exact layerWork_writeMem u _ _
    · exact LayerWork.refl u) _ s

/-- How long the matrix cores stalled before a layer: free, but 0 before the first (R294). -/
def State.layerStall (s : State) (i : InferSt) : Nat := if i.layer = 0 then 0 else Config.freeNat s.free

/-- A layer's use of the matrix cores and the pond is counted (R294, R344). -/
def State.countLayer (s : State) (i : InferSt) : State :=
  (((s.spend 1).bumpBy Ctr.weightLateTime i.handle (s.layerStall i)).pondWork i.cluster (s.masters i.cluster)).updProg i.handle fun p =>
    { p with lateTime := (p.lateTime + s.layerStall i) % 2 ^ 64 }

theorem layerWork_countLayer (s : State) (i : InferSt) : LayerWork s (s.countLayer i) := rfl

@[simp] theorem countLayer_mem (s : State) (i : InferSt) : (s.countLayer i).mem = s.mem := by
  simp [State.countLayer]

/-- The INFER after one more layer. -/
def State.nextLayer (s : State) (i : InferSt) (w : WeightSet) (harts : List Hart) (bufs : List (List Byte)) : InferSt :=
  { i with weights := w, layer := i.layer + 1, harts := harts, bufs := bufs, stallNs := i.stallNs + s.layerStall i }

/-- What a layer's outcome leaves (R296; log entry 164). -/
def State.afterLayer (s : State) (o : Op) (img : List Byte) (i : InferSt) (w : WeightSet) : LayerRes → State
  | .error none => s
  | .error (some cause) => ((s.countLayer i).endInfer o.id).finish o.id (Res.bound (0x44 + cause % 256 * 256 + i.layer % 65536 * 65536))
  | .ok (harts, bufs) =>
    if i.layer + 1 < (progHead img).layers then ((s.countLayer i).storeWork o img bufs).updInfer o.id fun _ => s.nextLayer i w harts bufs
    else ((s.countLayer i).storeWork o img bufs).inferDone o img (s.nextLayer i w harts bufs) bufs

/-- The next layer of an INFER whose weights are bound runs on the buffers and the workspace (R286, R291). -/
theorem exec_inferLayerStart {s : State} {id : Nat} {o : Op} {i : InferSt} {p : Prog} {w : WeightSet} (h : s.Runs id 0x30 o) (hi : s.inferOf id = some i)
    (hp : s.prog i.handle = some p) (hw : w = if i.layer = 0 ∧ ¬ o.replayed then p.weights (o.u8 16) else i.weights) (hbound : w.complete = true) :
    exec (.inferLayerStart id i.layer) s = .next (s.afterLayer o p.image i w (runLayer p.image w i.layer i.harts (s.loadWork o p.image i.bufs))) := by
  obtain rfl := findOp_id h.1
  rw [exec, execInferLayerStart, runOp_of h]
  simp only [hi, hp, ne_eq, not_true_eq_false, if_false, ← hw, hbound, Bool.not_true, Bool.false_eq_true]
  generalize runLayer p.image w i.layer i.harts (s.loadWork o p.image i.bufs) = res
  match res with
  | .error none => rfl
  | .error (some _) => rfl
  | .ok (_, _) => rfl

/-- After its last layer an INFER is gone, and its operation has the bytes of the outputs for its count (R292, R296). -/
theorem inferDone_ends {s : State} {o : Op} (hfind : s.findOp o.id = some o) (img : List Byte) (i : InferSt) (bufs : List (List Byte)) :
    (∃ d, (s.inferDone o img i bufs).Ended o.id St.ok (((progIo img).drop (progHead img).inputs).map fun r => fld r 4 4).sum d) ∧
      (s.inferDone o img i bufs).inferOf o.id = none := by
  unfold State.inferDone
  extract_lets hd io outs bad bytes u v
  have hwritten : LayerWork s u := layerWork_foldl (fun u a => layerWork_writeMem u a.1 a.2.2) outs s
  have hcounted : LayerWork (u.endInfer o.id) v := (layerWork_syncPool _).trans (layerWork_updProg _ _ _)
  have hops : v.ops = s.ops := hcounted.ops.trans hwritten.ops
  have hgone : v.inferOf o.id = none := (hcounted.inferOf o.id).trans (inferOf_endInfer u o.id)
  exact ⟨⟨_, ended_finish_of hfind _ hops⟩, (inferOf_finish v o.id _ o.id).trans hgone⟩

section Layer

variable {s : State} {o : Op} {i : InferSt} (hfind : s.findOp o.id = some o) (img : List Byte) (w : WeightSet)
include hfind

/-- A trap ends the operation with its cause and its layer; memory stays (R296). -/
theorem afterLayer_trap (cause : Nat) {t : State} (ht : t = s.afterLayer o img i w (.error (some cause))) :
    t.Ended o.id St.boundReached 0 (0x44 + cause % 256 * 256 + i.layer % 65536 * 65536) ∧ t.inferOf o.id = none ∧ t.mem = s.mem := by
  rw [State.afterLayer] at ht
  subst ht
  have hops : ((s.countLayer i).endInfer o.id).ops = s.ops := (endInfer_ops _ _).trans (layerWork_countLayer s i).ops
  exact ⟨ended_finish_of hfind (Res.bound _) hops, (inferOf_finish _ _ _ _).trans (inferOf_endInfer _ o.id), by simp⟩

/-- Before the last layer the INFER goes on with what the layer left. -/
theorem afterLayer_next (hi : s.inferOf o.id = some i) {harts : List Hart} {bufs : List (List Byte)} (hnext : i.layer + 1 < (progHead img).layers)
    {t : State} (ht : t = s.afterLayer o img i w (.ok (harts, bufs))) :
    t.inferOf o.id = some (s.nextLayer i w harts bufs) ∧ t.findOp o.id = some o := by
  have hwork : LayerWork s ((s.countLayer i).storeWork o img bufs) := (layerWork_countLayer s i).trans (layerWork_storeWork _ o img bufs)
  rw [State.afterLayer, if_pos hnext] at ht
  subst ht
  exact ⟨inferOf_updInfer_found ((hwork.inferOf o.id).trans hi), (findOp_of_ops hwork.ops o.id).trans hfind⟩

/-- The last layer ends the operation. -/
theorem afterLayer_last {harts : List Hart} {bufs : List (List Byte)} (hlast : ¬ i.layer + 1 < (progHead img).layers)
    {t : State} (ht : t = s.afterLayer o img i w (.ok (harts, bufs))) :
    (∃ d, t.Ended o.id St.ok (((progIo img).drop (progHead img).inputs).map fun r => fld r 4 4).sum d) ∧ t.inferOf o.id = none := by
  have hwork : LayerWork s ((s.countLayer i).storeWork o img bufs) := (layerWork_countLayer s i).trans (layerWork_storeWork _ o img bufs)
  rw [State.afterLayer, if_neg hlast] at ht
  subst ht
  exact inferDone_ends ((findOp_of_ops hwork.ops o.id).trans hfind) img _ bufs

end Layer

end Sys2Proof.Machine

/-! # Programs, weight sets and INFER

The statement on the matrix engines, from the lemmas of the sections above. -/

namespace Sys2Proof.Machine

/-- Settles O52: a program loads and drops, a set is bound and unbound, an INFER starts, moves and runs a layer, each by the lemma on its command. A layer whose code
has not ended stays unfinished (log entry 164). -/
theorem programsBindAndInfer : Obligations.ProgramsBindAndInfer := by
  intro s id o
  refine ⟨?load, ?drop, ?weights, ?start, ?move, ?layer⟩
  case load =>
    rintro img rfl h hload hhandle hfree hroom
    refine ⟨fun hcheck hfits => ?_, fun row r hcheck => ?_⟩
    · have hprog := prog_addProg (p := o.newProg (s.readMem (o.u64 16) (o.u32 24))) hfree
      exact ⟨_, exec_programLoad_good h hload hhandle hfree hroom hcheck hfits, (hprog o.handle).trans (if_pos rfl), ended_finish_of h.1 _ rfl,
        fun i hi => (hprog i).trans (if_neg hi), rfl⟩
    · obtain ⟨e, hlast, hcode, hefn, hsubject, hdetail⟩ := log_last_names s (dieUnit 0) 0x0020 4 o.fn o.handle row
      exact ⟨_, e, exec_programLoad_bad h hload hhandle hfree hroom hcheck, ended_finish_of h.1 r (log_ops _ _ _ _ _ _ _), log_matrix _ _ _ _ _ _ _,
        hlast, hcode, hefn, hsubject, hdetail⟩
  case drop =>
    intro p h haddress hbytes hp hfn
    refine ⟨fun hunused => ?_, fun hused => ?_⟩
    · have hprog : ∀ i, (s.dropProg o.handle).prog i = if i = o.handle then none else s.prog i := prog_filter rfl
      exact ⟨_, exec_programDrop_unused h haddress hbytes hp hfn ((progUsed_eq_false_iff s o).mpr hunused), (hprog o.handle).trans (if_pos rfl),
        fun i hi => (hprog i).trans (if_neg hi), ended_finish_of h.1 _ rfl⟩
    · exact ⟨_, exec_programDrop_used h haddress hbytes hp hfn ((progUsed_iff s o).mpr hused), justEnded_finish h.1 _⟩
  case weights =>
    rintro p old sizes h hp rfl hsizes
    have hprog := prog_of_useProg hp
    refine ⟨fun hbind hcount hslots hbytes hfits => ?_, fun hunbind => ?_⟩
    · have hset := switchSet_spec (s := s.syncPool) h.1 hprog (o.u8 16)
      obtain ⟨hheld, hothers, hcurrent, hkept, hended⟩ := hset _ _
      exact ⟨_, _, _, exec_weightsBind h hp hsizes hbind hcount hslots hbytes hfits rfl, hheld, rfl, hcurrent.symm, rfl, rfl, hended, hkept, hothers⟩
    · have hset := switchSet_spec h.1 hprog (o.u8 16)
      obtain ⟨hheld, hothers, hcurrent, hkept, hended⟩ := hset _ _
      exact ⟨_, _, _, exec_weightsUnbind h hp hunbind rfl, hheld, rfl, hcurrent.symm, rfl, rfl, hended, hkept, hothers⟩
  case start =>
    intro c p hd io h hnone hp hhd hio htable hpointers hnowork hwork hfits hturn
    refine ⟨fun hbound => ?_, fun hunbound => ?_⟩
    · have hexec := exec_infer_start h hnone hp hhd hio htable hpointers hnowork hwork hbound hfits hturn
      obtain rfl := findOp_id h.1
      exact ⟨_, s.newInfer o p c, hexec, inferOf_startInfer rfl hnone, rfl, rfl, rfl, rfl, findOp_startInfer h.1 _⟩
    · exact ⟨_, exec_infer_unbound h hnone hp hhd hio htable hpointers hnowork hwork hunbound, justEnded_finish h.1 _⟩
  case move =>
    intro c i p h hi hp hfits
    exact ⟨_, exec_infer_move h hi hp hfits, inferOf_updInfer_found (f := fun i => { i with cluster := c }) hi, rfl⟩
  case layer =>
    intro i p w h hi hp hw hbound
    refine ⟨_, exec_inferLayerStart h hi hp hw hbound, ?_⟩
    obtain rfl := findOp_id h.1
    match runLayer p.image w i.layer i.harts (s.loadWork o p.image i.bufs) with
    | .error none => exact rfl
    | .error (some cause) => exact afterLayer_trap h.1 p.image w cause rfl
    | .ok (harts, bufs) =>
      dsimp only
      split
      · next hnext =>
        obtain ⟨hinfer, hfind⟩ := afterLayer_next h.1 p.image w hi hnext rfl
        exact ⟨_, hinfer, rfl, rfl, rfl, rfl, hfind⟩
      · next hlast =>
        obtain ⟨⟨d, hend⟩, hgone⟩ := afterLayer_last h.1 p.image w hlast rfl
        exact ⟨d, hend, hgone⟩

end Sys2Proof.Machine

/-! # A report of counters during a wait

A ring's wait in progress counts up to the report (R59, R67, R423): State.countStalls adds it before the records are made. The statement on reports lists the
counters as they stand without it. -/

namespace Sys2Proof.Machine

/-- With room for its header, COUNTERS reports the counters with the waits in progress counted up to now (R318, R423). -/
theorem exec_diagCounters_of_room {s : State} {id : Nat} {o : Op} (h : s.RunsSub id 0x49 0x20 o) (hroom : 16 ≤ o.u32 32) :
    exec (.diagCounters id) s = .next (s.report o 16 (s.countStalls.counterRecs o.fn)) := by
  rw [exec, execDiagCounters, State.diag, runSub_of h, if_neg (Nat.not_lt.mpr hroom)]

/-- A report's detail is the number of records there are, whether they fit or not (R318). -/
theorem report_detail {s : State} {id : Nat} {o : Op} (h : s.findOp id = some o) (size : Nat) (recs : List (List Byte)) :
    ((s.report o size recs).findOp id).map (·.detail) = some recs.length := by
  obtain rfl := findOp_id h
  rw [State.report, findOp_finish, show (s.writeMem _ _).findOp o.id = some o from h]
  rfl

/-- A DIAG COUNTERS of function 1 with room for the header alone. -/
def countersOp : Op :=
  { id := 7, fn := 1, desc := [0x49] ++ zeros 15 ++ [0x20] ++ zeros 15 ++ leBytes 16 4 ++ zeros 28, deadlineAt := 1000000000, deadlineUs := 1000000 }

/-- A device in service with that operation in flight. Ring 0 of function 1 has a descriptor to fetch and has waited for completion space since power-on,
5 ns ago. -/
def reportedWait : State :=
  { State.reset with
    power := { State.reset.power with boot := .running }
    clock := { State.reset.clock with now := 5 }
    host := { linkUp := true, perstLow := false }
    rings := { sq := [(ringKey 1 0, { cfg := 0x8064, tail := 1, stalledCq := true })] }
    ops := { State.reset.ops with list := [countersOp] } }

/-- Function 1 has no counter yet but for the wait in progress. -/
theorem counterRecs_reportedWait :
    (reportedWait.counterRecs countersOp.fn).length = 0 ∧ (reportedWait.countStalls.counterRecs countersOp.fn).length = 1 := by decide

/-- Refutes O57: COUNTERS counts a ring's wait in progress, while the statement lists the counters without it. A function whose one ring waits, and which
has no counter yet, is told of one record where the statement promises none. -/
theorem not_reportsListTheirRecords : ¬ Obligations.ReportsListTheirRecords := by
  intro h
  obtain ⟨hnone, hone⟩ := counterRecs_reportedWait
  obtain ⟨⟨-, -, -, hcounters⟩, -⟩ := h reportedWait 7 countersOp
  have hruns : reportedWait.RunsSub 7 0x49 0x20 countersOp := by decide
  obtain ⟨-, hroom⟩ := hcounters hruns
  obtain ⟨t, ht, ⟨⟨p, hp, -, -, -, hdetail⟩, -⟩, -⟩ := hroom (by decide) _ rfl
  obtain rfl := Host.Outcome.next.inj ((exec_diagCounters_of_room hruns (by decide)).symm.trans ht)
  have hlength := report_detail hruns.1.1 16 (reportedWait.countStalls.counterRecs countersOp.fn)
  rw [hp, Option.map_some, hdetail, hone] at hlength
  exact absurd (hnone.symm.trans (Option.some.inj hlength)) (by decide)

end Sys2Proof.Machine

/-! # Messages of the fabric, streams and tiles

What receiving and sending messages leaves (R383, R386), the streams between mirrors by their peers (R395), and a recorded tile after a change of it: the
layer of the mirror streams and of handovers. -/

namespace Sys2Proof.Machine

/-! ## Messages taken and sent -/

/-- From s to t messages were taken and sent: the fabric ports and what was sent may have changed. -/
def Sent (s t : State) : Prop := ∃ ports out, t = { s with fabric := { s.fabric with ports := ports }, out := out }

theorem Sent.refl (s : State) : Sent s s := ⟨_, _, rfl⟩

theorem Sent.trans {a b c : State} (h1 : Sent a b) (h2 : Sent b c) : Sent a c := by
  obtain ⟨_, _, rfl⟩ := h1
  obtain ⟨_, _, rfl⟩ := h2
  exact ⟨_, _, rfl⟩

theorem sent_taken (s : State) (p c n : Nat) : Sent s (s.taken p c n) := ⟨_, _, rfl⟩

theorem sent_sendFz (s : State) (type cls dst xid : Nat) (body : List Byte) : Sent s (s.sendFz type cls dst xid body) :=
  ⟨_, _, sendFz_frame s type cls dst xid body⟩

theorem sent_foldl {α : Type} {f : State → α → State} (hf : ∀ s a, Sent s (f s a)) (l : List α) (s : State) : Sent s (l.foldl f s) := by
  induction l generalizing s with
  | nil => exact Sent.refl s
  | cons a r ih => exact (hf s a).trans (ih _)

theorem sent_sendSynced (s : State) (t : Tile) : Sent s (s.sendSynced t) := by
  unfold State.sendSynced
  split
  · split
    · exact sent_sendFz s _ _ _ _ _
    · exact Sent.refl s
  · exact Sent.refl s

theorem sent_sendSnapshot (s : State) (t : Tile) (peer : Nat) : Sent s (s.sendSnapshot t peer) := sent_foldl (fun s _ => sent_sendFz s _ _ _ _ _) _ s

section Sent

variable {s t : State} (h : Sent s t)
include h

theorem Sent.map : t.map = s.map := by
  obtain ⟨_, _, rfl⟩ := h
  rfl

theorem Sent.curTile (ix iy : Int) : t.curTile ix iy = s.curTile ix iy := by rw [State.curTile, State.curTile, h.map]

theorem Sent.streamFrom (peer : Nat) : t.streamFrom peer = s.streamFrom peer := by
  obtain ⟨_, _, rfl⟩ := h
  rfl

theorem Sent.counter (i j : Nat) : t.counter i j = s.counter i j := by
  obtain ⟨_, _, rfl⟩ := h
  rfl

end Sent

/-! ## Routes after a message was taken -/

theorem findSome?_updAt {α β : Type} {g : α → Option β} {f : α → α} (h : ∀ x, g (f x) = g x) (i : Nat) (l : List α) :
    (updAt i f l).findSome? g = l.findSome? g := by
  induction l generalizing i with
  | nil => rw [updAt]
  | cons x r ih =>
    cases i with
    | zero => rw [updAt, List.findSome?_cons, List.findSome?_cons, h]
    | succ j => rw [updAt, List.findSome?_cons, List.findSome?_cons, ih]

theorem any_getElem?_updAt {α : Type} {p : α → Bool} {f : α → α} (h : ∀ x, p (f x) = p x) (d i : Nat) (l : List α) :
    (updAt d f l)[i]?.any p = l[i]?.any p := by
  rw [getElem?_updAt]
  split
  · cases l[i]? <;> simp [h]
  · rfl

/-- A message that a port takes leaves every route: the port carries traffic as before, to the same neighbour (R386). -/
theorem route_taken (s : State) (p c n dst : Nat) : (s.taken p c n).route dst = s.route dst := by
  have hcoord : (s.taken p c n).coordOf dst = s.coordOf dst := by
    unfold State.coordOf
    refine congrArg (·.getD (Config.coordOf dst)) (findSome?_updAt (fun q => ?_) p s.fabric.ports)
    split <;> rfl
  have hport : ∀ k n' m d, (s.taken p c n).portIn k n' m d = s.portIn k n' m d := by
    intro k n' m d
    have hgood : ∀ i, ((s.taken p c n).fabric.ports[i]?).any FzPort.carries = (s.fabric.ports[i]?).any FzPort.carries := fun i =>
      any_getElem?_updAt (fun q => by split <;> rfl) p i s.fabric.ports
    simp only [State.portIn, hgood]
  simp only [State.route, hcoord, hport]
  rfl

theorem sends_taken {s : State} {dst : Nat} (h : s.Sends dst) (p c n : Nat) : (s.taken p c n).Sends dst := by
  obtain ⟨hrun, hup, hroute⟩ := h
  exact ⟨hrun, hup, by rw [route_taken]; exact hroute⟩

/-! ## Streams by their peers -/

/-- A stream that is written is the stream of its peer. -/
theorem find_putStream (l : List Stream) (x : Stream) :
    ((if l.any (fun y => y.peer = x.peer) then updFirst (fun y => y.peer = x.peer) (fun _ => x) l else l ++ [x]).find? fun y => y.peer = x.peer) = some x := by
  split
  · next h =>
    obtain ⟨y, hy⟩ := Option.isSome_iff_exists.mp (List.find?_isSome.mpr (List.any_eq_true.mp h))
    exact find_updFirst_found (f := fun _ => x) hy (by simp)
  · next h =>
    rw [List.find?_append, List.find?_eq_none.mpr fun y hy hp => h (List.any_eq_true.mpr ⟨y, hy, hp⟩)]
    simp

@[simp] theorem streamFrom_peer (s : State) (peer : Nat) : (s.streamFrom peer).peer = peer := by
  unfold State.streamFrom
  cases h : s.fabric.inStreams.find? fun x => x.peer = peer with
  | none => rfl
  | some x => simpa using List.find?_some h

@[simp] theorem streamTo_peer (s : State) (peer : Nat) : (s.streamTo peer).peer = peer := by
  unfold State.streamTo
  cases h : s.fabric.outStreams.find? fun x => x.peer = peer with
  | none => rfl
  | some x => simpa using List.find?_some h

theorem streamFrom_setInStream (s : State) {x : Stream} {peer : Nat} (hpeer : x.peer = peer) : (s.setInStream x).streamFrom peer = x := by
  subst hpeer
  exact congrArg (·.getD { peer := x.peer }) (find_putStream s.fabric.inStreams x)

theorem streamTo_setStream (s : State) {x : Stream} {peer : Nat} (hpeer : x.peer = peer) : (s.setStream x).streamTo peer = x := by
  subst hpeer
  exact congrArg (·.getD { peer := x.peer }) (find_putStream s.fabric.outStreams x)

/-- Once acknowledged, all that was applied of a stream is acknowledged. -/
theorem streamFrom_sendAck (s : State) {x : Stream} {peer : Nat} (hpeer : x.peer = peer) : (s.sendAck x).streamFrom peer = { x with acked := x.seq } :=
  ((sent_sendFz _ _ _ _ _ _).streamFrom peer).trans (streamFrom_setInStream s (x := { x with acked := x.seq }) hpeer)

/-! ## A recorded tile -/

theorem curTile_coords (s : State) (ix iy : Int) : (s.curTile ix iy).ix = ix ∧ (s.curTile ix iy).iy = iy := by
  unfold State.curTile
  cases h : s.map.cur.tile ix iy with
  | none => exact ⟨rfl, rfl⟩
  | some t => exact tile_coords h

theorem curTile_setTile {s : State} {ix iy : Int} {U : Tile} (hx : U.ix = ix) (hy : U.iy = iy) : (s.setCur (s.map.cur.setTile U)).curTile ix iy = U :=
  curTile_of_tile (hx ▸ hy ▸ tile_setTile s.map.cur U)

/-- A change of a tile that leaves it in its place gives the tile it says. -/
theorem curTile_updTile (s : State) (ix iy : Int) {f : Tile → Tile} (hf : ∀ t, (f t).ix = t.ix ∧ (f t).iy = t.iy) :
    (s.updTile ix iy f).curTile ix iy = f (s.curTile ix iy) := by
  obtain ⟨hx, hy⟩ := curTile_coords s ix iy
  obtain ⟨hfx, hfy⟩ := hf (s.curTile ix iy)
  exact curTile_setTile (hfx.trans hx) (hfy.trans hy)

/-- A tile with the contents that an image gives it, and its next point number. -/
def Tile.withContents (t img : Tile) (next : Nat) : Tile :=
  { t with keyframes := img.keyframes, links := img.links, points := img.points, obs := img.obs, nextPoint := next }

theorem curOnly_takeItem (s : State) (ix iy : Int) (b : List Byte) : CurOnly s (s.takeItem ix iy b) := by
  unfold State.takeItem
  split
  · exact curOnly_setCur s _
  · exact CurOnly.refl s

/-- An item whose image is sound gives its tile the contents of the image (R310, R395). -/
theorem curTile_takeItem {s : State} {ix iy : Int} {b : List Byte} {img : Tile} {secs : List (Nat × Nat × List Entry)}
    (himg : parseImage (b.take (fld b 44 4)) (fld b 44 4) s.tileSize ix iy = some (img, secs)) :
    ∃ next, (s.takeItem ix iy b).curTile ix iy = (s.curTile ix iy).withContents img next := by
  obtain ⟨hx, hy⟩ := curTile_coords s ix iy
  have himg' : parseImage (b.take (fld b 44 4)) (fld b 44 4) s.tileSize (s.curTile ix iy).ix (s.curTile ix iy).iy = some (img, secs) := by
    rw [hx, hy]; exact himg
  simp only [State.takeItem, MapView.takeItem, himg']
  exact ⟨_, curTile_setTile (U := (s.curTile ix iy).withContents img _) hx hy⟩

end Sys2Proof.Machine

/-! # The mirror stream

MIRROR_ITEM, MIRROR_ACK, the acknowledgement timer and the end of a mirror's copy, in each of their cases (R314, R395, R411). -/

namespace Sys2Proof.Machine

/-! ## Items -/

/-- What an item changes at the copy of its tile: its contents, or that the copy is complete (R310, R395). -/
def State.applyItem (s : State) (m : MirrorItemMsg) : State :=
  match m.change with
  | .objects img =>
    ((if m.epoch < s.nextEpoch then s.inSealed fun s => s.takeItem m.ix m.iy img else s).takeItem m.ix m.iy img).updTile m.ix m.iy fun t =>
      { t with handover := t.handover.map fun h => { h with streamed := true } }
  | .copyEnd => s.updTile m.ix m.iy fun t => if t.mirror = some s.self then { t with syncing := false } else t

/-- Every 64 items the stream is acknowledged (R395). -/
def State.ackItem (s : State) (x : Stream) : State := if 64 ≤ (x.seq + 2 ^ 32 - x.acked) % 2 ^ 32 then s.sendAck x else s

/-- From s to t the map may have changed, and nothing else. -/
def MapOnly (s t : State) : Prop := ∃ m, t = { s with map := m }

theorem MapOnly.streamFrom {s t : State} (h : MapOnly s t) (peer : Nat) : t.streamFrom peer = s.streamFrom peer := by
  obtain ⟨_, rfl⟩ := h
  rfl

theorem MapOnly.trans {a b c : State} (h1 : MapOnly a b) (h2 : MapOnly b c) : MapOnly a c := by
  obtain ⟨_, rfl⟩ := h1
  obtain ⟨_, rfl⟩ := h2
  exact ⟨_, rfl⟩

theorem CurOnly.mapOnly {s t : State} (h : CurOnly s t) : MapOnly s t := by
  obtain ⟨v, rfl⟩ := h
  exact ⟨_, rfl⟩

theorem mapOnly_inSealed (s : State) {f : State → State} (hf : ∀ u, MapOnly u (f u)) : MapOnly s (s.inSealed f) := by
  unfold State.inSealed
  split
  · exact ⟨_, rfl⟩
  · next v _ =>
    obtain ⟨m, hm⟩ := hf { s with map := { s.map with cur := v, sealedView := none } }
    rw [hm]
    exact ⟨_, rfl⟩

theorem mapOnly_applyItem (s : State) (m : MirrorItemMsg) : MapOnly s (s.applyItem m) := by
  unfold State.applyItem
  split
  · next img _ =>
    have htake : ∀ u : State, MapOnly u (u.takeItem m.ix m.iy img) := fun u => (curOnly_takeItem u m.ix m.iy img).mapOnly
    refine MapOnly.trans ?_ ((htake _).trans ⟨_, rfl⟩)
    split
    · exact mapOnly_inSealed s htake
    · exact ⟨_, rfl⟩
  · exact ⟨_, rfl⟩

/-- An item that says that the copy is complete. -/
theorem curTile_applyItem_copyEnd {s : State} {m : MirrorItemMsg} (hchange : m.change = .copyEnd) (hmirror : (s.curTile m.ix m.iy).mirror = some s.self) :
    (s.applyItem m).curTile m.ix m.iy = { s.curTile m.ix m.iy with syncing := false } := by
  have hupd := curTile_updTile s m.ix m.iy (f := fun t => if t.mirror = some s.self then { t with syncing := false } else t) fun t => by
    split <;> exact ⟨rfl, rfl⟩
  rw [if_pos hmirror] at hupd
  simpa only [State.applyItem, hchange] using hupd

/-- An item with a sound image: the tile has its contents, and keeps its parties. -/
theorem curTile_applyItem_objects {s : State} {m : MirrorItemMsg} {b : List Byte} {img : Tile} {secs : List (Nat × Nat × List Entry)}
    (hchange : m.change = .objects b) (himg : parseImage (b.take (fld b 44 4)) (fld b 44 4) s.tileSize m.ix m.iy = some (img, secs)) :
    ∃ next handover, (s.applyItem m).curTile m.ix m.iy = { (s.curTile m.ix m.iy).withContents img next with handover := handover } := by
  obtain ⟨u, hu, hcur, hsize⟩ : ∃ u : State, s.applyItem m = (u.takeItem m.ix m.iy b).updTile m.ix m.iy (fun t =>
      { t with handover := t.handover.map fun h => { h with streamed := true } }) ∧ u.map.cur = s.map.cur ∧ u.tileSize = s.tileSize := by
    refine ⟨if m.epoch < s.nextEpoch then s.inSealed fun s => s.takeItem m.ix m.iy b else s, by simp only [State.applyItem, hchange], ?_⟩
    split
    · obtain ⟨v, hv⟩ := mapOnly_inSealed s fun u => (curOnly_takeItem u m.ix m.iy b).mapOnly
      exact ⟨inSealed_cur s _, by rw [hv]; rfl⟩
    · exact ⟨rfl, rfl⟩
  rw [← hsize] at himg
  obtain ⟨next, hnext⟩ := curTile_takeItem himg
  refine ⟨next, (s.curTile m.ix m.iy).handover.map fun h => { h with streamed := true }, ?_⟩
  rw [hu, curTile_updTile, hnext, State.curTile, hcur]
  · rfl
  · exact fun _ => ⟨rfl, rfl⟩

theorem streamFrom_ackItem {s : State} {x : Stream} {peer : Nat} (hpeer : x.peer = peer) (h : s.streamFrom peer = x) :
    (s.ackItem x).streamFrom peer = { x with acked := if 64 ≤ (x.seq + 2 ^ 32 - x.acked) % 2 ^ 32 then x.seq else x.acked } := by
  unfold State.ackItem
  split
  · exact streamFrom_sendAck s hpeer
  · exact h

theorem curTile_ackItem (s : State) (x : Stream) (ix iy : Int) : (s.ackItem x).curTile ix iy = s.curTile ix iy := by
  unfold State.ackItem
  split
  · exact (sent_sendFz (s.setInStream { x with acked := x.seq }) _ _ _ _ _).curTile ix iy
  · rfl

/-- The stream that an item comes by, once the item is counted. -/
def State.itemStream (s : State) (m : MirrorItemMsg) : Stream := { s.streamFrom m.src with seq := m.seq }

/-- The device that has taken an item's message and counted the item. -/
def State.atItem (s : State) (m : MirrorItemMsg) : State := (s.taken (s.portOf m.src) 3 (16 + itemLen m.change)).setInStream (s.itemStream m)

/-- The device that has applied an item of a tile it mirrors, and acknowledged the stream where that is due (R395). -/
def State.takenItem (s : State) (m : MirrorItemMsg) : State := ((s.atItem m).applyItem m).ackItem (s.itemStream m)

/-- An item out of order only gives back the credits of its message (R383, R395). -/
theorem exec_mirrorItem_of_gap {s : State} {m : MirrorItemMsg} (hseq : m.seq ≠ ((s.streamFrom m.src).seq + 1) % 2 ^ 32) :
    exec (.mirrorItem m) s = .next (s.taken (s.portOf m.src) 3 (16 + itemLen m.change)) := by
  rw [exec]
  exact if_pos (Bool.or_eq_true_iff.mpr (.inr (decide_eq_true hseq)))

section Item

variable {s : State} {m : MirrorItemMsg}

/-- The next item of a member's stream, of a tile that the device mirrors, is applied and acknowledged (R395). -/
theorem exec_mirrorItem_of_next (hrun : s.running = true) (hsrc : m.src ∈ s.others) (hseq : m.seq = ((s.streamFrom m.src).seq + 1) % 2 ^ 32)
    (hmirror : (s.curTile m.ix m.iy).mirror = some s.self) :
    exec (.mirrorItem m) s = .next ((s.takenItem m).sendSynced ((s.takenItem m).curTile m.ix m.iy)) := by
  have hguard : (!s.running || !s.others.contains m.src || m.seq ≠ ((s.streamFrom m.src).seq + 1) % 2 ^ 32 : Bool) = false := by simp [hrun, hsrc, hseq]
  have hcopies : (s.atItem m).copies ((s.atItem m).curTile m.ix m.iy) m.src = true := by
    simp [State.copies, show ((s.atItem m).curTile m.ix m.iy).mirror = some (s.atItem m).self from hmirror]
  rw [exec]
  unfold execMirrorItem
  extract_lets w x y z t applied acked
  have happlied : applied = (s.atItem m).applyItem m := if_neg (by simp [show z.copies t m.src = true from hcopies])
  have hacked : acked = s.takenItem m := congrArg (·.ackItem (s.itemStream m)) happlied
  rw [hacked]
  exact if_neg (ne_true_of_eq_false hguard)

theorem streamFrom_takenItem : (s.takenItem m).streamFrom m.src =
    { s.itemStream m with acked := if 64 ≤ (m.seq + 2 ^ 32 - (s.streamFrom m.src).acked) % 2 ^ 32 then m.seq else (s.streamFrom m.src).acked } := by
  have hpeer : (s.itemStream m).peer = m.src := streamFrom_peer s m.src
  exact streamFrom_ackItem hpeer (((mapOnly_applyItem _ m).streamFrom _).trans (streamFrom_setInStream _ hpeer))

theorem curTile_takenItem : (s.takenItem m).curTile m.ix m.iy = ((s.atItem m).applyItem m).curTile m.ix m.iy := curTile_ackItem _ _ _ _

end Item

/-- The next item of the stream of a tile that the device mirrors: what it does to the stream and to the tile (R395). -/
theorem mirrorItem_applies {s : State} {m : MirrorItemMsg} (hrun : s.running = true) (hsrc : m.src ∈ s.others)
    (hseq : m.seq = ((s.streamFrom m.src).seq + 1) % 2 ^ 32) (hmirror : (s.curTile m.ix m.iy).mirror = some s.self) :
    ∃ t, exec (.mirrorItem m) s = .next t ∧ (t.streamFrom m.src).seq = m.seq ∧
      (t.streamFrom m.src).acked = (if 64 ≤ (m.seq + 2 ^ 32 - (s.streamFrom m.src).acked) % 2 ^ 32 then m.seq else (s.streamFrom m.src).acked) ∧
      (m.change = .copyEnd → t.curTile m.ix m.iy = { s.curTile m.ix m.iy with syncing := false }) ∧
      (∀ img n secs, m.change = .objects img → parseImage (img.take (fld img 44 4)) (fld img 44 4) s.tileSize m.ix m.iy = some (n, secs) →
        ∃ U, U = t.curTile m.ix m.iy ∧ U.keyframes = n.keyframes ∧ U.links = n.links ∧ U.points = n.points ∧ U.obs = n.obs ∧
          U.owner = (s.curTile m.ix m.iy).owner ∧ U.mirror = (s.curTile m.ix m.iy).mirror) := by
  have hsent := sent_sendSynced (s.takenItem m) ((s.takenItem m).curTile m.ix m.iy)
  have htile := (hsent.curTile m.ix m.iy).trans curTile_takenItem
  refine ⟨_, exec_mirrorItem_of_next hrun hsrc hseq hmirror, ?_, ?_, fun hchange => ?_, fun img n secs hchange himg => ?_⟩
  · rw [hsent.streamFrom, streamFrom_takenItem]
    rfl
  · rw [hsent.streamFrom, streamFrom_takenItem]
  · exact htile.trans (curTile_applyItem_copyEnd (s := s.atItem m) hchange hmirror)
  · obtain ⟨next, handover, happlied⟩ := curTile_applyItem_objects (s := s.atItem m) hchange himg
    refine ⟨_, rfl, ?_⟩
    rw [htile, happlied]
    exact ⟨rfl, rfl, rfl, rfl, rfl, rfl⟩

/-! ## Acknowledgements -/

/-- The device with no change that waits for an acknowledgement. -/
def State.unawaited (s : State) : State := { s with fabric := { s.fabric with ackWaits := [] } }

/-- With no change that waits, an acknowledgement ends none (R411). -/
theorem acksDone_of_none {s : State} (h : s.fabric.ackWaits = []) : s.acksDone = s := by
  have hsame : s.unawaited = s := by rw [State.unawaited, ← h]
  simp only [State.acksDone, h, List.filter_nil, List.foldl_nil]
  exact hsame

/-- The one change that waits is recorded once it is acknowledged (R411). -/
theorem acksDone_of_single {s : State} {w : AckWait} (h : s.fabric.ackWaits = [w]) (hacked : ∀ n ∈ w.needs, s.acked n = true) :
    s.acksDone = s.unawaited.ackDone w := by
  have hall : (w.needs.all fun n => s.acked n) = true := List.all_eq_true.mpr hacked
  simp only [State.acksDone, h, List.filter_cons, hall, Bool.not_true, Bool.false_eq_true, if_true, if_false, List.filter_nil, List.foldl_cons, List.foldl_nil]
  rfl

/-- An operation without requests and solves completes with its change (R411). -/
theorem ackDone_of_op {s : State} {w : AckWait} {id : Nat} {o : Op} (hop : w.op = some id) (hfind : s.findOp id = some o) (hsolve : s.solveOf id = none)
    (hreq : s.requestsOf id = []) : s.ackDone w = (s.dropRequests id).complete id { status := w.status, count := w.count, detail := w.detail } := by
  simp [State.ackDone, hop, hfind, hsolve, hreq]

/-- A peer that has no item left to acknowledge has acknowledged each. -/
theorem acked_of_items_nil {s : State} {peer : Nat} (h : (s.streamTo peer).items = []) (seq : Nat) : s.acked (peer, seq) = true := by
  simp [State.acked, h]

section Ack

variable {s : State} {src seq : Nat}

/-- The stream to a peer once it has acknowledged up to an item (R395). -/
def Stream.ackedTo (x : Stream) (seq : Nat) : Stream := { x with acked := seq, items := (x.items.dropWhile fun i => i.1 ≠ seq).drop 1 }

/-- The owner that has taken an acknowledgement, before the changes that waited for it. -/
def State.atAck (s : State) (src seq : Nat) : State := (s.taken (s.portOf src) 3 4).setStream ((s.streamTo src).ackedTo seq)

theorem exec_mirrorAck (hrun : s.running = true) (hitem : ∃ i ∈ (s.streamTo src).items, i.1 = seq) :
    exec (.mirrorAck src seq) s = .next (s.atAck src seq).acksDone := by
  have hguard : (!s.running || !((s.streamTo src).items.any fun i => i.1 = seq)) = false := by simpa [hrun] using hitem
  rw [exec]
  exact if_neg (ne_true_of_eq_false hguard)

theorem streamTo_atAck : (s.atAck src seq).streamTo src = (s.streamTo src).ackedTo seq :=
  streamTo_setStream _ (x := (s.streamTo src).ackedTo seq) (streamTo_peer s src)

/-- An acknowledgement of an item frees it and those before it (R395). -/
theorem mirrorAck_frees (hrun : s.running = true) (hitem : ∃ i ∈ (s.streamTo src).items, i.1 = seq) (hwaits : s.fabric.ackWaits = []) :
    ∃ t, exec (.mirrorAck src seq) s = .next t ∧ (t.streamTo src).acked = seq ∧
      (t.streamTo src).items = ((s.streamTo src).items.dropWhile fun i => i.1 ≠ seq).drop 1 ∧ t.ops = s.ops := by
  refine ⟨s.atAck src seq, by rw [exec_mirrorAck hrun hitem, acksDone_of_none (s := s.atAck src seq) hwaits], ?_, ?_, rfl⟩
  · rw [streamTo_atAck]
    rfl
  · rw [streamTo_atAck]
    rfl

/-- The acknowledgement of the one item that a change waits for ends the change's operation (R411). -/
theorem mirrorAck_ends (hrun : s.running = true) (hitem : ∃ i ∈ (s.streamTo src).items, i.1 = seq) {w : AckWait} {id : Nat} {o : Op}
    (hwaits : s.fabric.ackWaits = [w]) (hneeds : w.needs = [(src, seq)]) (hone : (s.streamTo src).items.length = 1) (hop : w.op = some id)
    (hfind : s.findOp id = some o) (hphase : o.phase ≠ .final) (hsolve : s.solveOf id = none) (hreq : s.requestsOf id = []) (hdue : s.overdue o = false) :
    ∃ t, exec (.mirrorAck src seq) s = .next t ∧ t.Ended id w.status w.count w.detail ∧ t.fabric.ackWaits = [] := by
  obtain ⟨i, hi⟩ := List.length_eq_one_iff.mp hone
  have hseq : i.1 = seq := by simpa [hi] using hitem
  have hleft : ((s.atAck src seq).streamTo src).items = [] := by simp [streamTo_atAck, Stream.ackedTo, hi, hseq]
  have hacked : ∀ n ∈ w.needs, (s.atAck src seq).acked n = true := by simpa [hneeds] using acked_of_items_nil hleft seq
  have hdone := (acksDone_of_single (s := s.atAck src seq) hwaits hacked).trans (ackDone_of_op (s := (s.atAck src seq).unawaited) hop hfind hsolve hreq)
  refine ⟨_, by rw [exec_mirrorAck hrun hitem, hdone], ended_complete (s' := (s.atAck src seq).unawaited.dropRequests id) hfind hphase hdue rfl rfl _, ?_⟩
  rw [complete_frame]
  rfl

end Ack

/-- The timer acknowledges what was applied since the last acknowledgement (R387, R395). -/
theorem mirrorAckTimer_acks {s : State} {src : Nat} (hrun : s.running = true) (hdue : (s.streamFrom src).seq ≠ (s.streamFrom src).acked) :
    ∃ t, exec (.mirrorAckTimer src) s = .next t ∧ (t.streamFrom src).acked = (s.streamFrom src).seq ∧
      (s.Sends src → ∃ f, t.out.fzl = f :: s.out.fzl ∧ f.hdr.type = 0x11 ∧ f.hdr.dst = src ∧ f.body = beBytes (s.streamFrom src).seq 4) := by
  have hpeer := streamFrom_peer s src
  refine ⟨s.sendAck (s.streamFrom src), by rw [exec]; exact if_pos (by simp [hrun, hdue]), ?_, fun hsends => ?_⟩
  · rw [streamFrom_sendAck s hpeer]
  · obtain ⟨f, hout, htype, hdst, hbody⟩ :=
      sendFz_out (s := s.setInStream { s.streamFrom src with acked := (s.streamFrom src).seq }) (dst := (s.streamFrom src).peer) (by rw [hpeer]; exact hsends)
        0x11 3 0 (beBytes (s.streamFrom src).seq 4)
    exact ⟨f, hout, htype, hdst.trans hpeer, hbody⟩

/-- A new mirror's copy is complete: at the mirror itself, and at the owner once no item of the tile awaits its acknowledgement (R314). -/
theorem mirrorSyncComplete_ends {s : State} {ix iy : Int} (hrun : s.running = true) (hsyncing : (s.curTile ix iy).syncing = true)
    (hsent : (s.curTile ix iy).mirror = some s.self ∨ ((s.curTile ix iy).owner = s.self ∧
      ∃ m, (s.curTile ix iy).mirror = some m ∧ ∀ i ∈ (s.streamTo m).items, (i.2.1, i.2.2.1) ≠ (ix, iy))) :
    ∃ t, exec (.mirrorSyncComplete ix iy) s = .next t ∧ t.curTile ix iy = { s.curTile ix iy with syncing := false } := by
  refine ⟨s.updTile ix iy fun t => { t with syncing := false }, ?_, curTile_updTile s ix iy fun t => ⟨rfl, rfl⟩⟩
  rw [exec, execMirrorSyncComplete]
  refine if_pos ?_
  obtain hmirror | ⟨howner, m, hmirror, hitems⟩ := hsent
  · simp [hrun, hsyncing, hmirror]
  · have hnone : ((s.streamTo m).items.any fun i => i.2.1 = ix && i.2.2.1 = iy) = false := by simpa using hitems
    simp [hrun, hsyncing, howner, hmirror, hnone]

end Sys2Proof.Machine

/-! # Handovers

The messages of a handover at its target and at its owner, its abort, and its timeout (R309, R310, R313). -/

namespace Sys2Proof.Machine

/-- The handover of a tile is changed. -/
def State.setHandover (s : State) (ix iy : Int) (h : Handover) : State := s.updTile ix iy fun t => { t with handover := some h }

theorem curTile_setHandover (s : State) (ix iy : Int) (h : Handover) : (s.setHandover ix iy h).curTile ix iy = { s.curTile ix iy with handover := some h } :=
  curTile_updTile s ix iy (f := fun t => { t with handover := some h }) fun _ => ⟨rfl, rfl⟩

/-! ## A proposal -/

/-- The code of a target's answer to a proposal (R309). -/
def State.proposalCode (s : State) (t : Tile) : Nat :=
  if s.fabric.leaving then 3 else if t.handover.isSome ∨ t.owner = s.self then 2 else if s.tileCap ≤ s.owned.length then 1 else 0

/-- The handover of a target that accepts: it is done where the target mirrors the tile (R310). -/
def State.incoming (s : State) (t : Tile) (src : Nat) : Handover :=
  { peer := src, outgoing := false, state := if t.mirror = some s.self then .synced else .copying, copyEpoch := s.map.published }

/-- The target once it has judged a proposal, before its answer. -/
def State.judged (s : State) (src : Nat) (ix iy : Int) (code : Nat) : State :=
  let u := if code = 0 then s.setHandover ix iy (s.incoming (s.curTile ix iy) src) else s
  if code = 1 then u.bump Ctr.handoverRefused else u

theorem exec_handoverPropose {s : State} {src : Nat} {ix iy : Int} (epoch : Nat) (hrun : s.running = true) (hiso : s.fabric.isolated = false)
    (hsrc : src ∈ s.others) :
    exec (.handoverPropose src ix iy epoch) s =
      .next (((s.taken (s.portOf src) 3 12).judged src ix iy (s.proposalCode (s.curTile ix iy))).sendFz 0x21 3 src 0
        (tileBe ix iy ++ beBytes (s.proposalCode (s.curTile ix iy)) 1)) := by
  have hguard : (!s.running || s.fabric.isolated || !s.others.contains src) = false := by simp [hrun, hiso, hsrc]
  have hcode : s.proposalCode (s.curTile ix iy) = if s.fabric.leaving then 3
      else if (s.curTile ix iy).handover.isSome || (s.curTile ix iy).owner = s.self then 2 else if s.tileCap ≤ s.owned.length then 1 else 0 := by
    simp [State.proposalCode]
  rw [exec, hcode]
  exact if_neg (ne_true_of_eq_false hguard)

section Judged

variable (s : State) (src : Nat) (ix iy : Int) (code : Nat)

theorem judged_frame : s.judged src ix iy code = { s with map := (s.judged src ix iy code).map, tally := (s.judged src ix iy code).tally } := by
  unfold State.judged
  dsimp only
  split <;> split <;> rfl

theorem curTile_judged (h : code = 0) : (s.judged src ix iy code).curTile ix iy = { s.curTile ix iy with handover := some (s.incoming (s.curTile ix iy) src) } := by
  subst h
  exact curTile_setHandover s ix iy _

theorem map_judged (h : code ≠ 0) : (s.judged src ix iy code).map = s.map := by
  unfold State.judged
  rw [if_neg h]
  dsimp only
  split <;> rfl

theorem counter_judged : (s.judged src ix iy code).counter 0x502 0 = if code = 1 then (s.counter 0x502 0 + 1) % 2 ^ 64 else s.counter 0x502 0 := by
  unfold State.judged
  dsimp only
  split
  · next h =>
    subst h
    exact counter_bump_same s
  · split <;> rfl

end Judged

theorem handoverPropose_answers {s : State} {src : Nat} {ix iy : Int} (epoch : Nat) {code : Nat} (hrun : s.running = true) (hiso : s.fabric.isolated = false)
    (hsrc : src ∈ s.others) (hcode : code = s.proposalCode (s.curTile ix iy)) :
    ∃ t, exec (.handoverPropose src ix iy epoch) s = .next t ∧
      (s.Sends src → ∃ f, t.out.fzl = f :: s.out.fzl ∧ f.hdr.type = 0x21 ∧ f.hdr.dst = src ∧ f.body = tileBe ix iy ++ beBytes code 1) ∧
      (code = 0 → ∃ h, t.curTile ix iy = { s.curTile ix iy with handover := some h } ∧ h.peer = src ∧ h.outgoing = false ∧
        h.state = (if (s.curTile ix iy).mirror = some s.self then .synced else .copying)) ∧
      (code ≠ 0 → t.map = s.map) ∧ t.counter 0x502 0 = (if code = 1 then (s.counter 0x502 0 + 1) % 2 ^ 64 else s.counter 0x502 0) := by
  obtain ⟨u, hu⟩ : ∃ u, u = s.taken (s.portOf src) 3 12 := ⟨_, rfl⟩
  have htaken : Sent s u := hu ▸ sent_taken s _ _ _
  have hsent := sent_sendFz (u.judged src ix iy code) 0x21 3 src 0 (tileBe ix iy ++ beBytes code 1)
  refine ⟨_, by rw [exec_handoverPropose epoch hrun hiso hsrc, ← hcode, ← hu], fun hsends => ?_, fun h0 => ?_, fun hne => ?_, ?_⟩
  · have hsends' : (u.judged src ix iy code).Sends src := by
      rw [judged_frame]
      exact hu ▸ sends_taken hsends _ _ _
    have hout : (u.judged src ix iy code).out = s.out := by rw [judged_frame, hu]; rfl
    exact hout ▸ sendFz_out hsends' 0x21 3 0 _
  · refine ⟨u.incoming (u.curTile ix iy) src, ?_, rfl, rfl, by rw [hu]; rfl⟩
    rw [hsent.curTile, curTile_judged _ _ _ _ _ h0, htaken.curTile]
  · rw [hsent.map, map_judged _ _ _ _ _ hne, htaken.map]
  · rw [hsent.counter, counter_judged, htaken.counter]

/-! ## The end of a handover that did not switch -/

/-- A tile after a handover that did not switch: it is not proposed again for HOLD_EPOCHS epochs (R313). -/
def State.barred (s : State) (t : Tile) : Tile := { t with handover := none, noProposalUntil := s.map.published + s.holdEpochs }

theorem tile_emptyTile {v : MapView} {ix iy : Int} {t : Tile} (h : v.tile ix iy = some t) : (v.emptyTile ix iy).tile ix iy = some t.emptied := by
  obtain ⟨rfl, rfl⟩ := tile_coords h
  rw [MapView.emptyTile, h]
  exact tile_setTile v t.emptied

theorem counter_dropHandover (s : State) (t : Tile) : (s.dropHandover t).counter 0x503 0 = (s.counter 0x503 0 + 1) % 2 ^ 64 := by
  unfold State.dropHandover
  extract_lets until_ u v
  have hv : v.tally = s.tally := by
    simp only [v]
    split <;> rfl
  rw [counter_bump_same, State.counter, hv]
  rfl

theorem dropHandover_frame (s : State) (t : Tile) : s.dropHandover t = { s with map := (s.dropHandover t).map, tally := (s.dropHandover t).tally } := by
  unfold State.dropHandover
  dsimp only
  split <;> rfl

section Drop

variable {s : State} {ix iy : Int}

/-- A device that owns or mirrors the tile keeps its contents (R313). -/
theorem curTile_dropHandover_kept (h : (s.curTile ix iy).owner = s.self ∨ (s.curTile ix iy).mirror = some s.self) :
    (s.dropHandover (s.curTile ix iy)).curTile ix iy = s.barred (s.curTile ix iy) := by
  obtain ⟨hx, hy⟩ := curTile_coords s ix iy
  have hkept : ((s.curTile ix iy).owner = s.self || (s.curTile ix iy).mirror = some s.self : Bool) = true := by simpa using h
  unfold State.dropHandover
  rw [hx, hy]
  extract_lets until_ u v
  rw [show v = u from if_pos hkept]
  exact curTile_updTile s ix iy (f := s.barred) fun _ => ⟨rfl, rfl⟩

/-- The target of a handover discards what it received (R313). -/
theorem curTile_dropHandover_discarded (howner : (s.curTile ix iy).owner ≠ s.self) (hmirror : (s.curTile ix iy).mirror ≠ some s.self) :
    (s.dropHandover (s.curTile ix iy)).curTile ix iy = (s.barred (s.curTile ix iy)).emptied := by
  obtain ⟨hx, hy⟩ := curTile_coords s ix iy
  have hdiscarded : ((s.curTile ix iy).owner = s.self || (s.curTile ix iy).mirror = some s.self : Bool) = false := by simp [howner, hmirror]
  unfold State.dropHandover
  rw [hx, hy]
  extract_lets until_ u v
  have htile : u.map.cur.tile ix iy = some (s.barred (s.curTile ix iy)) := by
    have hset := tile_setTile s.map.cur (s.barred (s.curTile ix iy))
    rwa [show (s.barred (s.curTile ix iy)).ix = ix from hx, show (s.barred (s.curTile ix iy)).iy = iy from hy] at hset
  rw [show v = u.setCur (u.map.cur.emptyTile ix iy) from if_neg (ne_true_of_eq_false hdiscarded)]
  exact curTile_of_tile (tile_emptyTile htile)

end Drop

/-- The other party's abort (R313). -/
theorem handoverAbort_drops {s : State} {src : Nat} {ix iy : Int} {h : Handover} (reason : Nat) (hrun : s.running = true) (hh : (s.curTile ix iy).handover = some h)
    (hpeer : h.peer = src) : ∃ t, exec (.handoverAbort src ix iy reason) s = .next t ∧ (t.curTile ix iy).handover = none ∧
      (t.curTile ix iy).noProposalUntil = s.map.published + s.holdEpochs ∧ t.counter 0x503 0 = (s.counter 0x503 0 + 1) % 2 ^ 64 ∧
      ((s.curTile ix iy).owner = s.self ∨ (s.curTile ix iy).mirror = some s.self → (t.curTile ix iy).keyframes = (s.curTile ix iy).keyframes) ∧
      ((s.curTile ix iy).owner ≠ s.self → (s.curTile ix iy).mirror ≠ some s.self → (t.curTile ix iy).keyframes = []) := by
  have hdrop : (s.running && (s.curTile ix iy).handover.any fun h => h.peer = src) = true := by simp [hrun, hh, hpeer]
  obtain ⟨u, hu⟩ : ∃ u, u = s.taken (s.portOf src) 3 5 := ⟨_, rfl⟩
  have hexec : exec (.handoverAbort src ix iy reason) s = .next (u.dropHandover (u.curTile ix iy)) := by
    rw [exec, hu]
    exact if_pos hdrop
  have hcounter : (u.dropHandover (u.curTile ix iy)).counter 0x503 0 = (s.counter 0x503 0 + 1) % 2 ^ 64 := by
    rw [counter_dropHandover, hu]
    rfl
  refine ⟨_, hexec, ?_⟩
  by_cases hkept : (s.curTile ix iy).owner = s.self ∨ (s.curTile ix iy).mirror = some s.self
  · rw [curTile_dropHandover_kept (s := u) (by rw [hu]; exact hkept)]
    exact ⟨rfl, by rw [hu]; rfl, hcounter, fun _ => by rw [hu]; rfl, fun howner hmirror => absurd hkept (not_or.mpr ⟨howner, hmirror⟩)⟩
  · obtain ⟨howner, hmirror⟩ := not_or.mp hkept
    rw [curTile_dropHandover_discarded (s := u) (by rw [hu]; exact howner) (by rw [hu]; exact hmirror)]
    exact ⟨rfl, by rw [hu]; rfl, hcounter, fun h => absurd h hkept, fun _ _ => rfl⟩

/-! ## The owner's side -/

section Owner

variable {s : State} {src : Nat} {ix iy : Int} {h : Handover} (hrun : s.running = true) (hh : (s.curTile ix iy).handover = some h) (hout : h.outgoing = true)
  (hpeer : h.peer = src)
include hrun hh hout hpeer

/-- SYNCED, once the target has applied every item sent so far (R310). -/
theorem synced_completes (hstate : h.state = .copying) : ∃ t, exec (.synced src ix iy (s.streamTo src).seq) s = .next t ∧
    t.curTile ix iy = { s.curTile ix iy with handover := some { h with state := .synced } } := by
  have hguard : (!s.running || !h.outgoing || h.peer ≠ src || h.state ≠ .copying || (s.streamTo src).seq ≠ (s.streamTo src).seq : Bool) = false := by
    simp [hrun, hout, hpeer, hstate]
  obtain ⟨u, hu⟩ : ∃ u, u = s.taken (s.portOf src) 3 8 := ⟨_, rfl⟩
  have hexec : exec (.synced src ix iy (s.streamTo src).seq) s = .next (u.setHandover ix iy { h with state := .synced }) := by
    rw [exec, hu, execSynced]
    simp only [show (s.taken (s.portOf src) 3 8).curTile ix iy = s.curTile ix iy from rfl, hh]
    exact if_neg (ne_true_of_eq_false hguard)
  exact ⟨_, hexec, (curTile_setHandover u ix iy _).trans (by rw [hu]; rfl)⟩

variable (howner : (s.curTile ix iy).owner = s.self)
include howner

/-- A reply that the owner waits for is acted on (R309). -/
theorem handoverReply_mine (hstate : h.state = .proposed) :
    (!s.running ||
      !((s.curTile ix iy).owner = s.self && (s.curTile ix iy).handover.any fun h => h.outgoing && h.peer = src && h.state = .proposed) : Bool) = false := by
  simp [hrun, howner, hh, hout, hpeer, hstate]

/-- Once the target has accepted, the handover is COPYING, or done where the target mirrors the tile (R310). -/
theorem handoverReply_accepted (hstate : h.state = .proposed) : ∃ t u, exec (.handoverReply src ix iy 0) s = .next t ∧
    t.curTile ix iy = { s.curTile ix iy with handover := some u } ∧ u.peer = src ∧ u.outgoing = true ∧
    u.state = (if (s.curTile ix iy).mirror = some src then .synced else .copying) ∧ u.copyEpoch = s.map.published := by
  have hmine := handoverReply_mine hrun hh hout hpeer howner hstate
  obtain ⟨u, hu⟩ : ∃ u, u = s.taken (s.portOf src) 3 5 := ⟨_, rfl⟩
  have htile : u.curTile ix iy = s.curTile ix iy := by rw [hu]; rfl
  by_cases hmirror : (s.curTile ix iy).mirror = some src
  · have hexec : exec (.handoverReply src ix iy 0) s = .next (u.setHandover ix iy { peer := src, state := .synced, copyEpoch := u.map.published }) := by
      rw [exec, hu]
      exact (if_neg (ne_true_of_eq_false hmine)).trans ((if_pos rfl).trans (if_pos hmirror))
    refine ⟨_, { peer := src, state := .synced, copyEpoch := u.map.published }, hexec, ?_, rfl, rfl, (if_pos hmirror).symm, by rw [hu]; rfl⟩
    rw [curTile_setHandover, htile]
  · have hexec : exec (.handoverReply src ix iy 0) s =
        .next (((u.setHandover ix iy { peer := src, state := .copying, copyEpoch := u.map.published }).sendSnapshot (u.curTile ix iy) src).stream ix iy) := by
      rw [exec, hu]
      exact (if_neg (ne_true_of_eq_false hmine)).trans ((if_pos rfl).trans (if_neg hmirror))
    refine ⟨_, { peer := src, state := .copying, copyEpoch := u.map.published }, hexec, ?_, rfl, rfl, (if_neg hmirror).symm, by rw [hu]; rfl⟩
    rw [State.curTile, stream_cur, ← State.curTile, (sent_sendSnapshot _ _ src).curTile, curTile_setHandover, htile]

/-- A refusal at TILE_CAP ends the handover and bars the target for HOLD_EPOCHS epochs (R309). -/
theorem handoverReply_refused (hstate : h.state = .proposed) : ∃ t, exec (.handoverReply src ix iy 1) s = .next t ∧ (t.curTile ix iy).handover = none ∧
    (src, s.map.published + s.holdEpochs) ∈ (t.curTile ix iy).refusedBy := by
  have hmine := handoverReply_mine hrun hh hout hpeer howner hstate
  obtain ⟨u, hu⟩ : ∃ u, u = s.taken (s.portOf src) 3 5 := ⟨_, rfl⟩
  have hexec : exec (.handoverReply src ix iy 1) s = .next (u.updTile ix iy fun t =>
      { t with handover := none, refusedBy := (t.refusedBy.filter fun r => r.1 ≠ src) ++ [(src, u.map.published + u.holdEpochs)] }) := by
    rw [exec, hu]
    exact (if_neg (ne_true_of_eq_false hmine)).trans (if_neg Nat.one_ne_zero)
  refine ⟨_, hexec, ?_⟩
  rw [curTile_updTile]
  · exact ⟨rfl, by rw [hu]; exact List.mem_append_right _ (List.mem_singleton.mpr rfl)⟩
  · exact fun _ => ⟨rfl, rfl⟩

/-- A copy that takes 4 epochs is aborted, and the target told (R313). -/
theorem handoverCopyTimeout_aborts (hstate : h.state = .copying) (hlate : h.copyEpoch + 4 ≤ s.map.published) :
    ∃ t, exec (.handoverCopyTimeout ix iy) s = .next t ∧ (t.curTile ix iy).handover = none ∧
    (t.curTile ix iy).noProposalUntil = s.map.published + s.holdEpochs ∧ t.counter 0x503 0 = (s.counter 0x503 0 + 1) % 2 ^ 64 ∧
    (s.Sends src → ∃ f, t.out.fzl = f :: s.out.fzl ∧ f.hdr.type = 0x24 ∧ f.hdr.dst = src ∧ f.body = tileBe ix iy ++ beBytes 3 1) := by
  obtain ⟨hx, hy⟩ := curTile_coords s ix iy
  have hexec : exec (.handoverCopyTimeout ix iy) s = .next ((s.dropHandover (s.curTile ix iy)).sendFz 0x24 3 src 0 (tileBe ix iy ++ beBytes 3 1)) := by
    have habort : s.abortHandover (s.curTile ix iy) 3 = (s.dropHandover (s.curTile ix iy)).sendFz 0x24 3 src 0 (tileBe ix iy ++ beBytes 3 1) := by
      simp only [State.abortHandover, hh, hpeer, hx, hy]
    rw [exec, ← habort]
    exact if_pos (by simp [hrun, howner, hh, hout, hstate, hlate])
  have hsent := sent_sendFz (s.dropHandover (s.curTile ix iy)) 0x24 3 src 0 (tileBe ix iy ++ beBytes 3 1)
  refine ⟨_, hexec, ?_, ?_, by rw [hsent.counter, counter_dropHandover], fun hsends => ?_⟩
  · rw [hsent.curTile, curTile_dropHandover_kept (.inl howner)]
    rfl
  · rw [hsent.curTile, curTile_dropHandover_kept (.inl howner)]
    rfl
  · have hout' : (s.dropHandover (s.curTile ix iy)).out = s.out := by rw [dropHandover_frame]
    exact hout' ▸ sendFz_out (s := s.dropHandover (s.curTile ix iy)) (by rw [dropHandover_frame]; exact hsends) 0x24 3 0 _

end Owner

/-! ## The target's side -/

/-- The target with the whole snapshot: the tile has the contents of the image, unless the stream has already brought later ones (R310). -/
def State.withSnapshot (s : State) (ix iy : Int) (h : Handover) (data : List Byte) : State :=
  (if h.streamed then s else s.takeItem ix iy (h.received ++ data)).setHandover ix iy { h with received := [], state := .synced }

section Target

variable {s : State} {src : Nat} {ix iy : Int} {h : Handover} (data : List Byte) (hrun : s.running = true) (hh : (s.curTile ix iy).handover = some h)
  (hout : h.outgoing = false) (hpeer : h.peer = src) (hstate : h.state = .copying)
include hrun hh hout hpeer hstate

/-- The segment that the target waits for is taken (R310). -/
theorem exec_snapshot (last : Bool) {u : State} (hu : u = s.taken (s.portOf src) 3 (16 + data.length)) : exec (.snapshot src ix iy h.received.length last data) s =
    if !last then .next (u.setHandover ix iy { h with received := h.received ++ data })
    else .next ((u.withSnapshot ix iy h data).sendSynced ((u.withSnapshot ix iy h data).curTile ix iy)) := by
  have hguard : (!s.running || h.outgoing || h.peer ≠ src || h.state ≠ .copying || h.received.length ≠ h.received.length : Bool) = false := by
    simp [hrun, hout, hpeer, hstate]
  rw [exec, execSnapshot, hu]
  simp only [show (s.taken (s.portOf src) 3 (16 + data.length)).curTile ix iy = s.curTile ix iy from rfl, hh]
  exact if_neg (ne_true_of_eq_false hguard)

theorem snapshot_segment : ∃ t, exec (.snapshot src ix iy h.received.length false data) s = .next t ∧
    t.curTile ix iy = { s.curTile ix iy with handover := some { h with received := h.received ++ data } } :=
  ⟨_, exec_snapshot data hrun hh hout hpeer hstate false rfl, curTile_setHandover _ ix iy _⟩

theorem snapshot_last : ∃ t u, exec (.snapshot src ix iy h.received.length true data) s = .next t ∧ (t.curTile ix iy).handover = some u ∧ u.peer = src ∧
    u.state = .synced ∧ (h.streamed = true → t.curTile ix iy = { s.curTile ix iy with handover := some u }) ∧
    (∀ img n secs, h.streamed = false → img = h.received ++ data → parseImage (img.take (fld img 44 4)) (fld img 44 4) s.tileSize ix iy = some (n, secs) →
      (t.curTile ix iy).keyframes = n.keyframes ∧ (t.curTile ix iy).links = n.links ∧ (t.curTile ix iy).points = n.points ∧ (t.curTile ix iy).obs = n.obs) := by
  obtain ⟨u, hu⟩ : ∃ u, u = s.taken (s.portOf src) 3 (16 + data.length) := ⟨_, rfl⟩
  have htile : ((u.withSnapshot ix iy h data).sendSynced ((u.withSnapshot ix iy h data).curTile ix iy)).curTile ix iy =
      { (if h.streamed then u else u.takeItem ix iy (h.received ++ data)).curTile ix iy with handover := some { h with received := [], state := .synced } } :=
    ((sent_sendSynced _ _).curTile ix iy).trans (curTile_setHandover _ ix iy _)
  refine ⟨_, { h with received := [], state := .synced }, exec_snapshot data hrun hh hout hpeer hstate true hu, ?_, hpeer, rfl, fun hstreamed => ?_, ?_⟩
  · rw [htile]
  · rw [htile, if_pos hstreamed, hu]
    rfl
  · rintro img n secs hstreamed rfl himg
    obtain ⟨next, hnext⟩ := curTile_takeItem (s := u) (by rw [hu]; exact himg)
    rw [htile, if_neg (ne_true_of_eq_false hstreamed), hnext]
    exact ⟨rfl, rfl, rfl, rfl⟩

end Target

/-! ## The statement -/

/-- Settles O55: each message of the mirror stream and of a handover by the lemma on its case. The form of the bytes that an item carries is log entry 149. -/
theorem tilesAreMirroredAndHandedOver : Obligations.TilesAreMirroredAndHandedOver := by
  unfold Obligations.TilesAreMirroredAndHandedOver
  rintro s src ix iy T hrun rfl
  refine ⟨?item, ?ack, mirrorAckTimer_acks hrun, mirrorSyncComplete_ends hrun, ?propose, ?owner, ?target, ?abort⟩
  case item =>
    rintro m x rfl rfl rfl rfl hsrc
    exact ⟨exec_mirrorItem_of_gap, fun hseq hmirror => mirrorItem_applies hrun hsrc hseq hmirror⟩
  case ack =>
    intro seq hitem
    exact ⟨mirrorAck_frees hrun hitem, fun w id o hwaits hneeds hone hop hfind hphase hsolve hreq hdue =>
      mirrorAck_ends hrun hitem hwaits hneeds hone hop hfind hphase hsolve hreq hdue⟩
  case propose =>
    intro epoch code hiso hsrc hcode
    exact handoverPropose_answers epoch hrun hiso hsrc hcode
  case owner =>
    intro h howner hh hout hpeer
    exact ⟨handoverReply_accepted hrun hh hout hpeer howner, handoverReply_refused hrun hh hout hpeer howner, synced_completes hrun hh hout hpeer,
      handoverCopyTimeout_aborts hrun hh hout hpeer howner⟩
  case target =>
    intro h data hh hout hpeer hstate
    exact ⟨snapshot_segment data hrun hh hout hpeer hstate, snapshot_last data hrun hh hout hpeer hstate⟩
  case abort => exact fun h reason hh hpeer => handoverAbort_drops reason hrun hh hpeer

end Sys2Proof.Machine

/-! # Sleep and wake of clusters, and the refresh of a stack

What a change of one power domain leaves of the others, and each command by which a cluster or its matrix cores sleep and wake (R430, R432 to R434), with
the refresh rate of a basin stack (R495). -/

namespace Sys2Proof.Machine

/-! ## Power domains -/

theorem domains_setDomain_same {s : State} {d : Nat} {x : Domain} (h : s.power.domains[d]? = some x) (f : Domain → Domain) :
    (s.setDomain d f).power.domains[d]? = some (f x) := by
  rw [State.setDomain, getElem?_updAt, if_pos rfl, h]
  rfl

theorem domains_setDomain_ne {d i : Nat} (s : State) (h : i ≠ d) (f : Domain → Domain) : (s.setDomain d f).power.domains[i]? = s.power.domains[i]? := by
  rw [State.setDomain, getElem?_updAt, if_neg h]

theorem dark_state {x : Domain} (h : x.state ≠ .fused) : x.dark.state = .off := by rw [Domain.dark, if_neg h]

theorem lit_of_not_fused {x : Domain} (h : x.state ≠ .fused) : x.lit = { x with state := .on, released := true, wakeEnds := none } := if_neg h

theorem domOn_of {s : State} {d : Nat} {x : Domain} (h : s.power.domains[d]? = some x) (hon : x.state = .on) (hrel : x.released = true) : s.domOn d = true := by
  simp [domOn_eq, h, hon, hrel]

/-- SLEEP_IDLE is at least 20 µs (R456). -/
theorem le_sleepIdle (s : State) : 20000 ≤ s.sleepIdle := Nat.mul_le_mul_right 1000 (le_max_left 20 _)

/-- The wait for the window of wakes leaves every domain as it is (R434). -/
theorem wakeWindow_domains (s : State) : s.wakeWindow.power.domains = s.power.domains := by
  unfold State.wakeWindow
  split
  · simp only [toTime_power]
  · rfl

/-! ## The commands on a cluster -/

section Cluster

variable {s : State} {c : Nat} {k : Domain} (hk : s.power.domains[15 + c]? = some k)
include hk

/-- CLUSTER_RETENTION: the cluster has been idle for SLEEP_IDLE, and its state and memory are kept (R433). -/
theorem clusterRetention_retains (hsleep : s.maySleep c = true) (hon : k.state = .on) (hrel : k.released = true) (hen : bit (s.reg 0x13008 0) 10 = true) :
    ∃ t, exec (.clusterRetention c) s = .next t ∧ t.power.domains[15 + c]? = some { k with state := .retention, released := false } ∧
      s.clock.now + 20000 ≤ t.clock.now ∧ t.place = s.place ∧ t.sess = s.sess ∧ t.mem = s.mem := by
  have hgo : (s.maySleep c && s.domOn (15 + c) && bit (s.reg 0x13008 0) 10) = true := by simp [hsleep, domOn_of hk hon hrel, hen]
  obtain ⟨u, hu⟩ : ∃ u, u = s.toTime (s.clock.now + s.sleepIdle) := ⟨_, rfl⟩
  have hexec : exec (.clusterRetention c) s =
      .next ((u.setDomain (15 + c) fun d => { d with state := .retention, released := false }).setDomain (28 + c) Domain.dark) := by
    rw [exec, execClusterRetention, if_pos hgo, hu]
  have hdomain : u.power.domains[15 + c]? = some k := by rw [hu, toTime_power, hk]
  have hnow : s.clock.now + s.sleepIdle ≤ u.clock.now := hu ▸ le_toTime s _
  refine ⟨_, hexec, ?_, (Nat.add_le_add_left (le_sleepIdle s) _).trans hnow, ?_, ?_, ?_⟩
  · rw [domains_setDomain_ne _ (by omega), domains_setDomain_same hdomain]
  all_goals simp [hu]

/-- CLUSTER_OFF: the parcels of the pond are at home, and memory and the clusters' roles are kept (R346, R433, R434). -/
theorem clusterOff_darkens (hsleep : s.maySleep c = true) (hidle : s.clusterBusy c = false)
    (hepochs : Store.get (fun _ => 0) c s.power.idleSince + max 1 (s.regF 0x13008 0 23 16) ≤ s.map.published) (hon : k.state = .on) (hends : k.wakeEnds = none)
    (hen : bit (s.reg 0x13008 0) 11 = true) (hother : s.otherAwake c = true) :
    ∃ t d, exec (.clusterOff c) s = .next t ∧ t.power.domains[15 + c]? = some d ∧ d.state = .off ∧ t.mem = s.mem ∧ t.place = s.place := by
  have hup : ((s.power.domains[15 + c]?).any fun d => (d.state = .on || d.state = .retention) && d.wakeEnds.isNone) = true := by simp [hk, hon, hends]
  have hexec : exec (.clusterOff c) s = .next (((s.pondGone c).setDomain (15 + c) Domain.dark).setDomain (28 + c) Domain.dark) := by
    rw [exec, execClusterOff]
    exact if_pos (by simp only [hsleep, hidle, hup, hen, hother, decide_eq_true hepochs, Bool.not_false, Bool.and_self])
  have hdomain : (s.pondGone c).power.domains[15 + c]? = some k := hk
  refine ⟨_, k.dark, hexec, ?_, dark_state (by simp [hon]), rfl, rfl⟩
  rw [domains_setDomain_ne _ (by omega), domains_setDomain_same hdomain]

/-- MATRIX_DOMAIN_OFF: the matrix cores go off, and the cluster stays as it is (R433). -/
theorem matrixDomainOff_darkens {m : Domain} (hm : s.power.domains[28 + c]? = some m) (hrun : s.running = true) (hserves : s.serving.contains c = true)
    (hon : m.state = .on) (hrel : m.released = true) (hnone : (s.matrix.infers.any fun i => i.cluster = c) = false) :
    ∃ t d, exec (.matrixDomainOff c) s = .next t ∧ t.power.domains[28 + c]? = some d ∧ d.state = .off ∧ t.power.domains[15 + c]? = some k := by
  have hgo : (s.running && s.serving.contains c && s.domOn (28 + c) && !(s.matrix.infers.any fun i => i.cluster = c)) = true := by
    rw [hrun, hserves, hnone, domOn_of hm hon hrel]
    rfl
  obtain ⟨u, hu⟩ : ∃ u, u = s.toTime (s.clock.now + s.sleepIdle) := ⟨_, rfl⟩
  have hexec : exec (.matrixDomainOff c) s = .next (u.setDomain (28 + c) Domain.dark) := by rw [exec, execMatrixDomainOff, if_pos hgo, hu]
  have hpower : u.power = s.power := by rw [hu, toTime_power]
  refine ⟨_, m.dark, hexec, domains_setDomain_same (by rw [hpower, hm]) _, dark_state (by simp [hon]), ?_⟩
  rw [domains_setDomain_ne _ (by omega), hpower, hk]

/-- CLUSTER_WAKE from OFF: the wake takes 50 µs and is counted (R432, R434). -/
theorem clusterWake_begins (hrun : s.running = true) (hserves : s.serving.contains c = true) (hoff : k.state = .off) (hends : k.wakeEnds = none) :
    ∃ t d, exec (.clusterWake c false) s = .next t ∧ t.power.domains[15 + c]? = some d ∧ d.wakeEnds = some (t.clock.now + 50000) ∧
      d.wakes = (k.wakes + 1) % 65536 := by
  have hexec : exec (.clusterWake c false) s = .next ((s.wakeWindow.setDomain (15 + c) fun d =>
      { d with wakeEnds := some (s.wakeWindow.clock.now + 50000), wakes := (d.wakes + 1) % 65536 }).placed c) := by
    simp only [exec, execClusterWake, hk, hrun, hserves, hoff, hends, Bool.not_true, Option.isSome_none, reduceCtorEq, decide_false, Bool.or_self,
      Bool.false_and, Bool.false_eq_true, if_false]
  exact ⟨_, _, hexec, domains_setDomain_same (s := s.wakeWindow) (by rw [wakeWindow_domains, hk]) _, rfl, rfl⟩

/-- CLUSTER_WAKE_COMPLETE: the cluster is released when its wake has ended (R432). -/
theorem clusterWakeComplete_releases {e : Nat} (hc : c < 13) (hends : k.wakeEnds = some e) (hfused : k.state ≠ .fused) :
    ∃ t d, exec (.clusterWakeComplete c) s = .next t ∧ t.power.domains[15 + c]? = some d ∧ d.state = .on ∧ d.released = true ∧ d.wakeEnds = none ∧
      e ≤ t.clock.now := by
  have hexec : ∃ u : State, u.power = s.power ∧ exec (.clusterWakeComplete c) s = .next ((u.toTime e).setDomain (15 + c) Domain.lit) := by
    simp only [exec, execClusterWakeComplete, if_neg (Nat.not_le.mpr hc), hk, Option.bind_some, hends]
    split
    · exact ⟨s.updCluster c fun k => { k with pondTwin := bit (s.reg 0x3020 0) 0 }, rfl, rfl⟩
    · exact ⟨s, rfl, rfl⟩
  obtain ⟨u, hpower, hexec⟩ := hexec
  have hdomain : (u.toTime e).power.domains[15 + c]? = some k := by rw [toTime_power, hpower, hk]
  exact ⟨_, _, hexec, (domains_setDomain_same hdomain _).trans (congrArg some (lit_of_not_fused hfused)), rfl, rfl, rfl, le_toTime u e⟩

end Cluster

/-! ## The refresh of a stack -/

/-- HBM_REFRESH_RATE marks the one stack hot or not (R495). -/
theorem hbmRefreshRate_marks {s : State} {stack : Nat} (hot : Bool) (hstack : stack < s.chip.part.basinGb / 16) :
    ∃ t, exec (.hbmRefreshRate stack hot) s = .next t ∧ t.tiers.hotStacks.contains stack = hot ∧
      (∀ i, i ≠ stack → t.tiers.hotStacks.contains i = s.tiers.hotStacks.contains i) ∧ t = { s with tiers := { s.tiers with hotStacks := t.tiers.hotStacks } } := by
  refine ⟨_, if_pos hstack, ?_, fun i hi => ?_, rfl⟩
  · cases hot <;> simp
  · cases hot <;> simp [hi]

/-- Settles O30: each command by its lemma. The refresh of a hot stack follows R495, and the wake R432 and R434. -/
theorem powerFollowsWorkAndHeat : Obligations.PowerFollowsWorkAndHeat := by
  unfold Obligations.PowerFollowsWorkAndHeat
  refine ⟨fun s c k m hk hm => ⟨?retention, ?off, ?matrixOff, ?wake, ?complete⟩, fun s stack hot => hbmRefreshRate_marks hot⟩
  case retention => exact clusterRetention_retains hk
  case off => exact clusterOff_darkens hk
  case matrixOff => exact matrixDomainOff_darkens hk hm
  case wake => exact clusterWake_begins hk
  case complete => exact fun e => clusterWakeComplete_releases hk

end Sys2Proof.Machine

/-! # Parcels between the tiers

What a change of one parcel leaves of the others and of the free frames, the hints that wait on parcels, and each move of a parcel between its home and an
upper tier (R335 to R338, R351 to R353). -/

namespace Sys2Proof.Machine

/-! ## Parcels by their numbers -/

theorem length_filter_updFirst_found {α : Type} {p r : α → Bool} {f : α → α} {l : List α} {a : α} (ha : l.find? p = some a) (hr : r (f a) = r a) :
    ((updFirst p f l).filter r).length = (l.filter r).length := by
  obtain ⟨as, bs, rfl, -, hupd⟩ := updFirst_of_find ha
  cases hra : r a <;> simp [hupd, hr, hra]

theorem parcel_num {s : State} {n : Nat} {q : Parcel} (h : s.parcel n = some q) : q.num = n := by
  simpa using List.find?_some h

/-- A change of the parcel that is found under a number. -/
theorem parcel_updParcel_found {s : State} {n : Nat} {q : Parcel} {f : Parcel → Parcel} (hq : s.parcel n = some q) (hnum : (f q).num = q.num := by rfl) :
    (s.updParcel n f).parcel n = some (f q) :=
  find_updFirst_found hq (by simpa using hnum.trans (parcel_num hq))

theorem parcel_updParcel_ne (s : State) {n m : Nat} {f : Parcel → Parcel} (h : ∀ q, (f q).num = q.num) (hm : m ≠ n) :
    (s.updParcel n f).parcel m = s.parcel m := by
  refine find_updFirst_other _ _ f _ fun q hq => ?_
  have hnum : q.num = n := by simpa using hq
  simp [h q, hnum, hm.symm]

theorem leave_num (q : Parcel) : q.leave.num = q.num := by
  unfold Parcel.leave
  split <;> rfl

theorem leave_of_dirty {q : Parcel} (h : q.dirty = true) : q.leave = { q with state := .demoting } := if_pos h

/-- A parcel that keeps its frames leaves as many free in each tier. -/
theorem tierFree_updParcel {s : State} {n : Nat} {q : Parcel} {f : Parcel → Parcel} (hq : s.parcel n = some q) (hnum : (f q).num = q.num)
    (howner : (f q).owner = q.owner) (hupper : (f q).upper = q.upper) (hnew : (f q).newUpper = q.newUpper) (tier : UpperTier) :
    (s.updParcel n f).tierFree tier = s.tierFree tier := by
  cases tier with
  | basin =>
    refine congrArg (s.chip.part.basinParcels - s.tiers.retiredBasin.length - ·) (length_filter_updFirst_found hq ?_)
    simp only [Parcel.inUpperBasin, State.inBasin, hnum, howner, hupper, hnew]
  | pond c =>
    refine congrArg (112 - _ - ·) (length_filter_updFirst_found hq ?_)
    simp [hupper, hnew]

/-! ## Promotion -/

/-- The device after it has made room for a parcel in a tier, where it can (R337, R338). -/
def State.roomFor (s : State) (n : Nat) (tier : UpperTier) : State :=
  if s.tierFree tier = 0 then s.evict ((s.victims tier).filter fun v => v.num ≠ n) else s

section Promote

variable {s u : State} {n : Nat} {tier : UpperTier} {q : Parcel} (hu : u = s.syncPool) (hq : u.parcel n = some q) (hrun : s.running = true)
  (hstate : q.state = .home ∨ (q.state = .up ∧ q.upper ≠ some tier)) (hfor : u.tierFor q tier = true)
include hu hq hrun hstate hfor

theorem exec_parcelPromote : exec (.parcelPromote n tier) s = .next (if (u.roomFor n tier).tierFree tier = 0 then u.roomFor n tier
    else (u.roomFor n tier).updParcel n fun q => { q with state := .promoting, newUpper := some tier }) := by
  have hgo : (!(q.state = .home || (q.state = .up && q.upper ≠ some tier)) || !u.tierFor q tier : Bool) = false := by
    rcases hstate with hhome | ⟨hup, hother⟩
    · simp [hhome, hfor]
    · simp [hup, hother, hfor]
  simp only [exec, execParcelPromote, ← hu, hq, hrun, hgo, Bool.not_true, Bool.false_eq_true, if_false]
  exact (apply_ite Host.Outcome.next _ _ _).symm

/-- Into a free frame the copy begins at once (R335). -/
theorem parcelPromote_begins (hfree : 0 < u.tierFree tier) : ∃ t, exec (.parcelPromote n tier) s = .next t ∧
    t.parcel n = some { q with state := .promoting, newUpper := some tier } ∧ ∀ m, m ≠ n → t.parcel m = u.parcel m := by
  have hexec := exec_parcelPromote hu hq hrun hstate hfor
  have hroom : u.roomFor n tier = u := if_neg hfree.ne'
  rw [hroom, if_neg hfree.ne'] at hexec
  exact ⟨_, hexec, parcel_updParcel_found hq, fun m hm => parcel_updParcel_ne u (fun _ => rfl) hm⟩

/-- A dirty victim is written back first: it keeps its frame until then, and the parcel stays where it is (R335, R337; log entry 116). -/
theorem parcelPromote_writesBack {v : Parcel} {rest : List Parcel} (hfull : u.tierFree tier = 0)
    (hvictims : (u.victims tier).filter (fun v => v.num ≠ n) = v :: rest) (hv : u.parcel v.num = some v) (hup : v.state = .up) (hdirty : v.dirty = true) :
    ∃ t, exec (.parcelPromote n tier) s = .next t ∧ t.parcel v.num = some { v with state := .demoting } ∧ t.parcel n = some q := by
  have hexec := exec_parcelPromote hu hq hrun hstate hfor
  have hleave := leave_of_dirty hdirty
  have hroom : u.roomFor n tier = u.updParcel v.num Parcel.leave := by
    rw [State.roomFor, if_pos hfull, hvictims, State.evict, if_neg (by simp [hup])]
  have hstill : (u.updParcel v.num Parcel.leave).tierFree tier = 0 := by
    rw [tierFree_updParcel hv, hfull] <;> rw [hleave]
  rw [hroom, if_pos hstill] at hexec
  have hne : v.num ≠ n := by
    have hmem : v ∈ (u.victims tier).filter (fun v => v.num ≠ n) := hvictims ▸ List.mem_cons_self
    simpa using (List.mem_filter.mp hmem).2
  refine ⟨_, hexec, ?_, ?_⟩
  · rw [parcel_updParcel_found hv (leave_num v), hleave]
  · rw [parcel_updParcel_ne u leave_num hne.symm, hq]

end Promote

/-! ## Hints that wait -/

/-- Operations that complete, each with its own outcome, leave all but the list of operations. -/
theorem foldl_completeEach_frame {α : Type} (id : α → Nat) (r : α → Res) (l : List α) (s : State) :
    l.foldl (fun (s : State) a => s.complete (id a) (r a)) s = { s with ops := (l.foldl (fun (s : State) a => s.complete (id a) (r a)) s).ops } := by
  induction l generalizing s with
  | nil => rfl
  | cons a l ih => rw [List.foldl_cons, ih, complete_frame]

/-- The hints that end change no parcel (R353). -/
theorem hintCheck_parcel (s : State) (n : Nat) : s.hintCheck.parcel n = s.parcel n := by
  unfold State.hintCheck
  dsimp only
  rw [foldl_completeEach_frame]
  rfl

/-- The one hint that waits, for the one parcel that now has what it wishes, ends OK (R353). -/
theorem hintCheck_ends {s : State} {id n : Nat} {o : Op} {q : Parcel} (hhint : s.tiers.hintOps = [(id, [n])]) (hfind : s.findOp id = some o)
    (hphase : o.phase ≠ .final) (hdue : s.overdue o = false) (hq : s.parcel n = some q) (hmet : s.wishMet q = true) : s.hintCheck.Ended id St.ok 1 1 := by
  have hdone : (s.tiers.hintOps.filter fun h => h.2.all fun n => (s.parcel n).all fun q => s.wishMet q) = [(id, [n])] := by
    simp [hhint, hq, hmet]
  have hcomplete := complete_eq_finish hfind hphase hdue (s' := s) rfl rfl (Res.ok 1 1)
  have hended : (s.complete id (Res.ok 1 1)).Ended id St.ok 1 1 := hcomplete ▸ ended_finish hfind (Res.ok 1 1)
  unfold State.hintCheck
  dsimp only
  rw [hdone]
  exact hended

/-! ## Copies, demotions and write-backs that end -/

/-- A parcel whose copy has ended: the frame it was copied to is its upper frame (R335). -/
def Parcel.arrived (q : Parcel) : Parcel := { q with state := .up, upper := q.newUpper, newUpper := none, deferred := false }

/-- A parcel whose copy has ended, once its deferred eviction is evaluated anew (R338). -/
def Parcel.promoted (q : Parcel) : Parcel := if q.deferred = true ∧ q.wish = some .cold then q.arrived.leave else q.arrived

theorem promoted_num (q : Parcel) : q.promoted.num = q.num := by
  unfold Parcel.promoted
  split
  · rw [leave_num, Parcel.arrived]
  · rfl

section Parcel

variable {s : State} {n : Nat} {q : Parcel} (hq : s.parcel n = some q)
include hq

theorem exec_promotionCopyEnd (hstate : q.state = .promoting) : exec (.promotionCopyEnd n) s = .next (s.updParcel n Parcel.promoted).hintCheck := by
  have hsame : (fun q : Parcel => if (q.deferred && q.wish = some .cold : Bool) then q.arrived.leave else q.arrived) = Parcel.promoted := by
    funext q
    simp [Parcel.promoted]
  simp only [exec, execPromotionCopyEnd, hq, hstate, ne_eq, not_true_eq_false, if_false]
  rw [← hsame]
  rfl

/-- PROMOTION_COPY_END: the parcel is up, or leaves again where it has become COLD (R335, R338). -/
theorem promotionCopyEnd_arrives (hstate : q.state = .promoting) : ∃ t, exec (.promotionCopyEnd n) s = .next t ∧ t.parcel n = some q.promoted ∧
    (∀ id o, s.tiers.hintOps = [(id, [n])] → s.findOp id = some o → o.phase ≠ .final → s.overdue o = false →
      (q.wish = some .holdBasin ∨ q.wish = some .preferBasin) → q.newUpper = some .basin → t.Ended id St.ok 1 1) := by
  have hparcel : (s.updParcel n Parcel.promoted).parcel n = some q.promoted := parcel_updParcel_found hq (promoted_num q)
  refine ⟨_, exec_promotionCopyEnd hq hstate, (hintCheck_parcel _ n).trans hparcel, fun id o hhint hfind hphase hdue hwish hbasin => ?_⟩
  have harrived : q.promoted = q.arrived := if_neg fun h => by rcases hwish with hw | hw <;> simp [hw] at h
  refine hintCheck_ends hhint hfind hphase hdue hparcel ?_
  have hsame : q.arrived.wish = q.wish := rfl
  rw [harrived, State.wishMet, hsame]
  rcases hwish with hw | hw <;> simp [hw, Parcel.arrived, hbasin]

/-- PARCEL_DEMOTE of a parcel that no basin wish keeps there: a clean one is home at once, a dirty one is written back (R335, R352). -/
theorem parcelDemote_leaves (hstate : q.state = .up) (hrun : s.running = true)
    (hwish : (q.wish = some .holdBasin ∨ q.wish = some .preferBasin) → q.upper ≠ some .basin) :
    ∃ t, exec (.parcelDemote n) s = .next t ∧ t.parcel n = some (if q.dirty then { q with state := .demoting } else { q with state := .home, upper := none }) := by
  have hgo : (!s.running || q.state ≠ .up || ((q.wish = some .holdBasin || q.wish = some .preferBasin) && q.upper = some .basin) : Bool) = false := by
    simpa [hrun, hstate] using hwish
  have hexec : exec (.parcelDemote n) s = .next (s.updParcel n Parcel.leave).hintCheck := by
    simp only [exec, execParcelDemote, hq]
    exact if_neg (ne_true_of_eq_false hgo)
  exact ⟨_, hexec, (hintCheck_parcel _ n).trans (parcel_updParcel_found hq (leave_num q))⟩

/-- DEMOTION_WRITE_BACK_END: the parcel is home and clean (R335). -/
theorem demotionWriteBackEnd_home (hstate : q.state = .demoting) :
    ∃ t, exec (.demotionWriteBackEnd n) s = .next t ∧ t.parcel n = some { q with state := .home, upper := none, dirty := false } := by
  have hexec : exec (.demotionWriteBackEnd n) s =
      .next (s.updParcel n fun q => { q with state := .home, upper := none, dirty := false }).hintCheck := by
    simp only [exec, execDemotionWriteBackEnd, hq, hstate, ne_eq, not_true_eq_false, if_false]
  exact ⟨_, hexec, (hintCheck_parcel _ n).trans (parcel_updParcel_found hq)⟩

end Parcel

/-! ## RESIDENCY_HINT -/

/-- The tiers once a function's wish stands on each parcel that a hint names (R352). -/
def Tiers.wished (t : Tiers) (ps : List Nat) (fn : Nat) (w : Option Wish) : Tiers :=
  { t with parcels := t.parcels.map fun q => if ps.contains q.num then q.setWish fn w else q }

/-- Whether a hint finds a parcel in PROMOTING that it makes COLD (R338). -/
def Parcel.cooled (ps : List Nat) (w : Option Wish) (q : Parcel) : Bool := w = some .cold && q.state = .promoting && ps.contains q.num

/-- The tiers with the evictions of those parcels deferred (R338). -/
def Tiers.cooled (t : Tiers) (ps : List Nat) (w : Option Wish) : Tiers :=
  { t with parcels := t.parcels.map fun q => if q.cooled ps w then { q with deferred := true } else q }

/-- The device once a hint's wishes are recorded, which is its commit point (R353). -/
def State.hinted (s : State) (id : Nat) (t : Tiers) (ps : List Nat) (w : Option Wish) : State :=
  (State.bumpBy { s with tiers := t.cooled ps w } Ctr.evictDeferred 0 (t.parcels.filter (Parcel.cooled ps w)).length).commit id

/-- The parcels of a list that are in the state they wish (R353). -/
def State.metAmong (s : State) (ps : List Nat) : Nat := (ps.filter fun n => (s.parcel n).any fun q => s.wishMet q).length

/-- A hint with WAIT waits for its parcels (R353). -/
def State.awaitParcels (s : State) (id : Nat) (ps : List Nat) : State :=
  State.await { s with tiers := { s.tiers with hintOps := s.tiers.hintOps ++ [(id, ps)] } } id

theorem findOp_awaitParcels (s : State) (id : Nat) (ps : List Nat) :
    (s.awaitParcels id ps).findOp id = (s.findOp id).map fun o => { o with phase := .waiting, began := true } := findOp_await _ id

/-- Each parcel that a hint names holds the function's new wish and is in the state it was in. -/
theorem cooled_wished (t : Tiers) (ps : List Nat) (fn : Nat) (w : Option Wish) {q : Parcel} (hq : q ∈ t.parcels) (hps : q.num ∈ ps) :
    ∃ r ∈ ((t.wished ps fn w).cooled ps w).parcels, r.num = q.num ∧ r.wishes = (q.setWish fn w).wishes ∧ r.state = q.state := by
  have hwished : q.setWish fn w ∈ (t.wished ps fn w).parcels :=
    List.mem_map.mpr ⟨q, hq, if_pos (List.contains_iff_mem.mpr hps)⟩
  refine ⟨_, List.mem_map_of_mem hwished, ?_⟩
  split <;> exact ⟨rfl, rfl, rfl⟩

section Hint

variable {s u : State} {id : Nat} {o : Op} {ps : List Nat} {w : Option Wish} (h : s.Runs id 0x39 o) (hfields : s.hintCheckFields o = none)
  (hu : u = s.syncPool) (hps : ps = u.hintParcels o) (hw : w = wishOf (o.u8 17))
include h hfields hu hps hw

/-- A hint of HOLD_BASIN that holds too many parcels ends with BOUND_REACHED; another is recorded, and ends or waits (R353). -/
theorem exec_residencyHint : exec (.residencyHint id) s = .next (
    if w = some .holdBasin ∧ u.holdTooMany (u.tiers.wished ps o.fn w) = true then u.finish id (Res.bound 0x50)
    else if bit (o.u8 18) 0 ∧ (u.hinted id (u.tiers.wished ps o.fn w) ps w).metAmong ps < ps.length then
      (u.hinted id (u.tiers.wished ps o.fn w) ps w).awaitParcels id ps
    else (u.hinted id (u.tiers.wished ps o.fn w) ps w).finish id
      (Res.ok ps.length ((u.hinted id (u.tiers.wished ps o.fn w) ps w).metAmong ps))) := by
  rw [exec, execResidencyHint, runOp_of h]
  simp only [hfields, ← hu, ← hps, ← hw]
  rfl

theorem residencyHint_refused (hhold : w = some .holdBasin) (hmany : u.holdTooMany (u.tiers.wished ps o.fn w) = true) :
    ∃ t, exec (.residencyHint id) s = .next t ∧ t.Ended id St.boundReached 0 0x50 ∧ t.tiers = u.tiers := by
  have hexec := exec_residencyHint h hfields hu hps hw
  rw [if_pos ⟨hhold, hmany⟩] at hexec
  exact ⟨_, hexec, ended_finish_of h.1 (Res.bound 0x50) (by rw [hu]; rfl), rfl⟩

theorem residencyHint_records (hfit : w = some .holdBasin → u.holdTooMany (u.tiers.wished ps o.fn w) = false) :
    ∃ t p, exec (.residencyHint id) s = .next t ∧
      (∀ q ∈ u.tiers.parcels, q.num ∈ ps → ∃ r ∈ t.tiers.parcels, r.num = q.num ∧ r.wishes = (q.setWish o.fn w).wishes ∧ r.state = q.state) ∧
      t.findOp id = some p ∧ p.committed = true ∧ (p.phase = .final → p.status = St.ok ∧ p.count = ps.length ∧ p.detail ≤ ps.length) ∧
      (p.phase ≠ .final → p.phase = .waiting ∧ bit (o.u8 18) 0 = true ∧ (id, ps) ∈ t.tiers.hintOps) := by
  have hexec := exec_residencyHint h hfields hu hps hw
  rw [if_neg fun ⟨hhold, hmany⟩ => ne_true_of_eq_false (hfit hhold) hmany] at hexec
  have hrecords := fun q => cooled_wished u.tiers ps o.fn w (q := q)
  have hfind : (u.hinted id (u.tiers.wished ps o.fn w) ps w).findOp id = some { o with committed := true } := by
    rw [State.hinted, findOp_commit, findOp_of_ops (s := s) (by rw [hu]; rfl), h.1]
    rfl
  have htiers : (u.hinted id (u.tiers.wished ps o.fn w) ps w).tiers = (u.tiers.wished ps o.fn w).cooled ps w := rfl
  generalize u.hinted id (u.tiers.wished ps o.fn w) ps w = v at hexec hfind htiers
  rw [← htiers] at hrecords
  by_cases hwait : bit (o.u8 18) 0 = true ∧ v.metAmong ps < ps.length
  · rw [if_pos hwait] at hexec
    have hop : (v.awaitParcels id ps).findOp id = some { o with committed := true, phase := .waiting, began := true } := by
      rw [findOp_awaitParcels, hfind]
      rfl
    exact ⟨_, _, hexec, fun q => hrecords q, hop, rfl, fun hfinal => Phase.noConfusion hfinal,
      fun _ => ⟨rfl, hwait.1, List.mem_append_right _ (List.mem_singleton.mpr rfl)⟩⟩
  · rw [if_neg hwait] at hexec
    have hop : (v.finish id (Res.ok ps.length (v.metAmong ps))).findOp id =
        some (Op.finished { o with committed := true } v (Res.ok ps.length (v.metAmong ps))) := by
      rw [findOp_finish, hfind]
      rfl
    exact ⟨_, _, hexec, fun q => hrecords q, hop, rfl, fun _ => ⟨rfl, rfl, List.length_filter_le _ _⟩, fun hfinal => absurd rfl hfinal⟩

end Hint

/-- Settles O53: each command by its lemma. That a dirty victim is written back before the promotion is asked for again, and the bound on the parcels
held, are log entry 116. -/
theorem parcelsMoveBetweenTiers : Obligations.ParcelsMoveBetweenTiers := by
  unfold Obligations.ParcelsMoveBetweenTiers
  refine fun s n => ⟨?promote, ?copied, fun q hq hstate hrun => parcelDemote_leaves hq hstate hrun, fun q hq => demotionWriteBackEnd_home hq, ?hint⟩
  case promote =>
    intro tier u q hu hq hrun hstate hfor
    exact ⟨parcelPromote_begins hu hq hrun hstate hfor, fun v rest => parcelPromote_writesBack hu hq hrun hstate hfor⟩
  case copied =>
    intro q hq hstate
    obtain ⟨t, hexec, hparcel, hends⟩ := promotionCopyEnd_arrives hq hstate
    exact ⟨t, hexec, fun p hp => hp ▸ hparcel, hends⟩
  case hint =>
    rintro id o u ps w T hruns hfields hu hps hw rfl
    exact ⟨residencyHint_refused hruns hfields hu hps hw, residencyHint_records hruns hfields hu hps hw⟩

end Sys2Proof.Machine

/-! # MOVE and the upkeep of the tiers

A chunk of MOVE, which copies or fills (R349, R350), and the commands that count late accesses, scrub frames, test ponds and repair basin lanes (R334, R339,
R340, R345). -/

namespace Sys2Proof.Machine

/-! ## MOVE -/

/-- A chunk writes memory, and what the write touches in the tiers, and changes the operation (R350). -/
theorem moveChunk_frame (s : State) (o : Op) (data : List Byte) : s.moveChunk o data =
    { s with ops := (s.moveChunk o data).ops, mem := s.mem.write (o.u64 24 + o.count) data, tiers := (s.moveChunk o data).tiers } := by
  unfold State.moveChunk
  dsimp only
  split <;> rfl

section Chunk

variable {s : State} {o : Op} (hfind : s.findOp o.id = some o) (data : List Byte)
include hfind

/-- The operation once its chunk is written and committed. -/
theorem findOp_chunkWritten :
    (((s.writeMem (o.u64 24 + o.count) data).commit o.id).begin o.id).findOp o.id = some { o with committed := true, began := true } := by
  rw [findOp_begin, findOp_commit, findOp_of_ops (writeMem_ops _ _ _), hfind]
  rfl

/-- The last chunk ends the operation (R350). -/
theorem moveChunk_ends (hlast : o.u64 32 ≤ o.count + data.length) : (s.moveChunk o data).Ended o.id St.ok (o.u64 32) 0 := by
  rw [State.moveChunk, if_pos hlast]
  exact ended_finish (findOp_chunkWritten hfind data) (Res.ok (o.u64 32) 0)

/-- Another leaves the operation running, with the bytes written counted (R350). -/
theorem moveChunk_goesOn (hmore : o.count + data.length < o.u64 32) :
    (s.moveChunk o data).findOp o.id = some { o with count := o.count + data.length, committed := true, began := true } := by
  rw [State.moveChunk, if_neg (Nat.not_le.mpr hmore), findOp_updOp _ _ (fun p => { p with count := o.count + data.length }) fun _ => rfl,
    findOp_chunkWritten hfind data]
  rfl

end Chunk

/-- A command that writes a chunk changes no other byte, and ends the operation or counts the bytes (R350). -/
theorem writes_chunk {s : State} {id : Nat} {o : Op} (hfind : s.findOp id = some o) (data : List Byte) {c : Instr} (hexec : exec c s = .next (s.moveChunk o data)) : ∃ t, exec c s = .next t ∧
    t.readMem (o.u64 24 + o.count) data.length = data ∧
    (∀ a, (a < o.u64 24 + o.count ∨ o.u64 24 + o.count + data.length ≤ a) → t.mem.byte a = s.mem.byte a) ∧
    (o.u64 32 ≤ o.count + data.length → t.Ended id St.ok (o.u64 32) 0) ∧
    (o.count + data.length < o.u64 32 → t.findOp id = some { o with count := o.count + data.length, committed := true, began := true }) ∧
    t = { s with ops := t.ops, mem := t.mem, tiers := t.tiers } := by
  obtain rfl := findOp_id hfind
  have hframe := moveChunk_frame s o data
  refine ⟨_, hexec, ?_, fun a ha => ?_, moveChunk_ends hfind data, moveChunk_goesOn hfind data, ?_⟩
  · rw [hframe]
    exact Memory.read_write _ _ _
  · rw [hframe, Memory.byte_write, if_neg (by omega)]
  · rw [hframe]

section Move

variable {s : State} {id : Nat} {o : Op} (h : s.Runs id 0x38 o)
include h

theorem exec_move (hfill : bit (o.u8 40) 0 = false) (hcheck : moveCheck o false = none) :
    exec (.move id) s = .next (s.moveChunk o (s.readMem (o.u64 16 + o.count) (min 4096 (o.u64 32 - o.count)))) := by
  rw [exec, execMove, runOp_of h, if_neg (ne_true_of_eq_false hfill), hcheck]

theorem exec_moveFill (hfill : bit (o.u8 40) 0 = true) (hcheck : moveCheck o true = none) :
    exec (.moveFill id) s = .next (s.moveChunk o (patternBytes (o.u64 16) o.count (min 4096 (o.u64 32 - o.count)))) := by
  rw [exec, execMoveFill, runOp_of h, hfill, if_neg (by decide), hcheck]

end Move

/-! ## Late accesses -/

/-- An access that is late in a tier that is there is counted (R339). -/
theorem tierAccessLate_counts {s : State} {tier : LateTier} (hrun : s.running = true) (hthere : tier = .basin → s.hasBasin = true) :
    ∃ t, exec (.tierAccessLate tier false) s = .next t ∧
      t.counter (if tier = .basin then Ctr.basinLate else Ctr.lakeLate) 0 = (s.counter (if tier = .basin then Ctr.basinLate else Ctr.lakeLate) 0 + 1) % 2 ^ 64 ∧
      t = { s with tally := t.tally } := by
  have hgo : (!s.running || (tier = .basin && !s.hasBasin) : Bool) = false := by simpa [hrun] using hthere
  have hexec : exec (.tierAccessLate tier false) s = .next (s.bump (if tier = .basin then Ctr.basinLate else Ctr.lakeLate)) := by
    rw [exec, execTierAccessLate]
    exact if_neg (ne_true_of_eq_false hgo)
  exact ⟨_, hexec, counter_bump_same s, tallyOnly_bump s _⟩

/-! ## The scrub -/

/-- The retired frames of the lake or the basin (R334). -/
def State.retiredFrames (s : State) (lake : Bool) : List Nat := if lake then s.tiers.retiredLake else s.tiers.retiredBasin

theorem TallyOnly.tiers {s t : State} (h : TallyOnly s t) : t.tiers = s.tiers := by rw [h]

/-- A frame that is retired joins the retired frames of its tier (R334). -/
theorem retiredFrames_retireFrame (s : State) (lake : Bool) (frame : Nat) : (s.retireFrame lake frame).retiredFrames lake = s.retiredFrames lake ++ [frame] := by
  unfold State.retireFrame State.retiredFrames
  cases lake <;> simp [State.bump]

/-- It is counted once, and moves no other counter but TALLY_LOST (R334). -/
theorem counter_retireFrame (s : State) (lake : Bool) (frame i : Nat) (hi : i ≠ 0x706) :
    (s.retireFrame lake frame).counter i 0 = if i = Ctr.frameRetired then (s.counter i 0 + 1) % 2 ^ 64 else s.counter i 0 := by
  rw [State.retireFrame, counter_log _ _ _ _ _ _ _ _ _ hi (by decide), State.bump, counter_bumpBy _ _ _ _ _ _ (by decide) (by decide)]
  by_cases h : i = Ctr.frameRetired
  · rw [if_pos ⟨h, rfl⟩, if_pos h, h]
    rfl
  · rw [if_neg fun hh => h hh.1, if_neg h]
    rfl

theorem tallyOnly_eccCorrected (s : State) (source addr : Nat) : TallyOnly s (s.eccCorrected source addr) :=
  (tallyOnly_bump s _).trans (tallyOnly_logLimited _ _ _ _ _ _ _ _)

theorem counter_eccCorrected (s : State) (source addr : Nat) :
    (s.eccCorrected source addr).counter Ctr.correctedError 0 = (s.counter Ctr.correctedError 0 + 1) % 2 ^ 64 := by
  rw [State.eccCorrected, counter_logLimited _ _ _ _ _ _ _ _ _ _ (by decide) (by decide), counter_bump_same]

/-- The corrected errors of a frame since it last came to four (R334). -/
def State.scrubCount (s : State) (lake : Bool) (frame : Nat) : Nat := Store.get (fun _ => 0) (2 * frame + b2n lake) s.tiers.scrubCounts

/-- The device after an error of a frame was corrected, before the frame is retired (R334). -/
def State.scrubCorrected (s : State) (lake : Bool) (frame : Nat) : State :=
  let u := s.eccCorrected (dieUnit (if lake then 14 else 9)) (frame * 65536)
  let n := s.scrubCount lake frame + 1
  { u with tiers := { u.tiers with scrubCounts := Store.set (fun _ => 0) (2 * frame + b2n lake) (if 4 ≤ n then 0 else n) u.tiers.scrubCounts } }

theorem retiredFrames_scrubCorrected (s : State) (lake : Bool) (frame : Nat) : (s.scrubCorrected lake frame).retiredFrames lake = s.retiredFrames lake := by
  have htiers := (tallyOnly_eccCorrected s (dieUnit (if lake then 14 else 9)) (frame * 65536)).tiers
  simp only [State.scrubCorrected, State.retiredFrames, htiers]

theorem counter_scrubCorrected (s : State) (lake : Bool) (frame : Nat) :
    (s.scrubCorrected lake frame).counter Ctr.correctedError 0 = (s.counter Ctr.correctedError 0 + 1) % 2 ^ 64 := counter_eccCorrected s _ _

section Scrub

variable {s : State} {lake : Bool} {frame : Nat} (hrun : s.running = true) (hen : bit (s.reg 0x3024 0) 8 = true)
  (hframe : frame < if lake then s.lakeFrames else s.chip.part.basinParcels) (hin : (s.retiredFrames lake).contains frame = false)
include hrun hen hframe hin

/-- The scrub of a frame in service: an uncorrectable error retires it, the fourth corrected one too, and a frame without error stays (R334). -/
theorem exec_scrubPass (corrected uncorrectable : Bool) : exec (.scrubPass lake frame corrected uncorrectable) s = .next (
    if uncorrectable then (s.log (dieUnit (if lake then 14 else 9)) 0x0002 1 255 0 (frame * 65536)).retireFrame lake frame
    else if !corrected then s
    else if 4 ≤ s.scrubCount lake frame + 1 then (s.scrubCorrected lake frame).retireFrame lake frame else s.scrubCorrected lake frame) := by
  have hgo : (!s.running || !bit (s.reg 0x3024 0) 8 || (if lake then s.lakeFrames else s.chip.part.basinParcels) ≤ frame ||
      (if lake then s.tiers.retiredLake else s.tiers.retiredBasin).contains frame : Bool) = false := by
    rw [hrun, hen, decide_eq_false (Nat.not_le.mpr hframe)]
    exact hin
  rw [exec, execScrubPass]
  refine (if_neg (ne_true_of_eq_false hgo)).trans ?_
  cases uncorrectable
  · cases corrected <;> rfl
  · rfl

theorem scrubPass_uncorrectable (corrected : Bool) : ∃ t, exec (.scrubPass lake frame corrected true) s = .next t ∧
    t.retiredFrames lake = s.retiredFrames lake ++ [frame] ∧ t.counter Ctr.frameRetired 0 = (s.counter Ctr.frameRetired 0 + 1) % 2 ^ 64 := by
  refine ⟨_, exec_scrubPass hrun hen hframe hin corrected true, ?_, ?_⟩
  · rw [if_pos rfl, retiredFrames_retireFrame, State.retiredFrames, log_tiers, State.retiredFrames]
  · rw [if_pos rfl, counter_retireFrame _ _ _ _ (by decide), if_pos rfl, counter_log _ _ _ _ _ _ _ _ _ (by decide) (by decide)]

theorem scrubPass_corrected : ∃ t, exec (.scrubPass lake frame true false) s = .next t ∧
    t.counter Ctr.correctedError 0 = (s.counter Ctr.correctedError 0 + 1) % 2 ^ 64 ∧
    t.retiredFrames lake = s.retiredFrames lake ++ (if 3 ≤ s.scrubCount lake frame then [frame] else []) := by
  have hexec := exec_scrubPass hrun hen hframe hin true false
  simp only [Bool.false_eq_true, Bool.not_true, if_false] at hexec
  by_cases hfourth : 3 ≤ s.scrubCount lake frame
  · rw [if_pos (Nat.succ_le_succ hfourth)] at hexec
    refine ⟨_, hexec, ?_, ?_⟩
    · rw [counter_retireFrame _ _ _ _ (by decide), if_neg (by decide), counter_scrubCorrected]
    · rw [retiredFrames_retireFrame, retiredFrames_scrubCorrected, if_pos hfourth]
  · rw [if_neg (mt Nat.le_of_succ_le_succ hfourth)] at hexec
    refine ⟨_, hexec, counter_scrubCorrected s lake frame, ?_⟩
    rw [retiredFrames_scrubCorrected, if_neg hfourth, List.append_nil]

end Scrub

/-! ## Ponds and lanes -/

/-- A bank that fails its test is recorded and counted (R345). -/
theorem pondTestStep_records {s : State} {cluster bank : Nat} (hrun : s.running = true) (hen : bit (s.reg 0x3020 0) 1 = true)
    (hthere : (s.place.clusters.any fun c => c.idx = cluster) = true ∨ 13 ≤ cluster ∧ cluster ≤ 15) (hbank : bank < 28) :
    ∃ t, exec (.pondTestStep cluster bank true) s = .next t ∧ t.tiers = { s.tiers with pondFails := s.tiers.pondFails ++ [(cluster, bank)] } ∧
      t.counter Ctr.pondTestFail 0 = (s.counter Ctr.pondTestFail 0 + 1) % 2 ^ 64 := by
  obtain ⟨u, hu⟩ : ∃ u : State, u = { s with tiers := { s.tiers with pondFails := s.tiers.pondFails ++ [(cluster, bank)] } } := ⟨_, rfl⟩
  have hpond : ((s.place.clusters.any fun c => c.idx = cluster) || decide (13 ≤ cluster ∧ cluster ≤ 15)) = true := by
    rwa [Bool.or_eq_true, decide_eq_true_eq]
  have hexec : exec (.pondTestStep cluster bank true) s = .next (u.bump Ctr.pondTestFail) := by
    rw [exec, execPondTestStep, hu]
    exact if_neg (by simp only [hrun, hen, hpond, decide_eq_false (Nat.not_le.mpr hbank), Bool.not_true, Bool.or_self, Bool.false_eq_true, not_false_eq_true])
  refine ⟨_, hexec, ?_, ?_⟩
  · rw [(tallyOnly_bump u _).tiers, hu]
  · rw [counter_bump_same, hu]
    rfl

/-- A lane repair marks its pseudo-channel (R340). -/
theorem laneRepairWalk_marks {s : State} {pc : Nat} (lane : Nat) (hrun : s.running = true) (hpc : pc < s.chip.part.pcs)
    (hspare : s.tiers.spareUsed.contains pc = false) (hidle : ∀ r ∈ s.tiers.repairing, r.1 ≠ pc) : ∃ t, exec (.laneRepairWalk pc lane) s = .next t ∧
    t.tiers = { s.tiers with repairing := s.tiers.repairing ++ [(pc, lane)] } ∧ t = { s with tiers := t.tiers } := by
  have hnone : (s.tiers.repairing.any fun r => r.1 = pc) = false := by simpa using hidle
  have hexec : exec (.laneRepairWalk pc lane) s = .next { s with tiers := { s.tiers with repairing := s.tiers.repairing ++ [(pc, lane)] } } := by
    rw [exec, execLaneRepairWalk]
    exact if_neg (by simp only [hrun, hspare, hnone, decide_eq_false (Nat.not_le.mpr hpc), Bool.not_true, Bool.or_self, Bool.false_eq_true, not_false_eq_true])
  exact ⟨_, hexec, rfl, rfl⟩

/-- The device whose pseudo-channel reads through its spare lane (R340). -/
def State.onSpareLane (s : State) (pc : Nat) : State :=
  { s with tiers := { s.tiers with repairing := s.tiers.repairing.filter fun r => r.1 ≠ pc, spareUsed := s.tiers.spareUsed ++ [pc] } }

/-- The switch of a lane repair uses the spare lane, and counts a retired unit (R340, R408). -/
theorem laneRepairSwitch_usesSpare {s : State} {pc lane : Nat} (hmem : (pc, lane) ∈ s.tiers.repairing) : ∃ t, exec (.laneRepairSwitch pc) s = .next t ∧
    t.tiers.spareUsed = s.tiers.spareUsed ++ [pc] ∧ (∀ r ∈ t.tiers.repairing, r.1 ≠ pc) ∧
    t.counter Ctr.unitRetired 0 = (s.counter Ctr.unitRetired 0 + 1) % 2 ^ 64 := by
  have hrepair : (s.tiers.repairing.any fun r => r.1 = pc) = true := List.any_eq_true.mpr ⟨_, hmem, decide_eq_true rfl⟩
  have hexec : exec (.laneRepairSwitch pc) s = .next (((s.onSpareLane pc).useSpare 5).unitGone (dieUnit 9) 5 0xFFFF pc) := by
    rw [exec, execLaneRepairSwitch, if_pos hrepair]
    rfl
  have htiers : (((s.onSpareLane pc).useSpare 5).unitGone (dieUnit 9) 5 0xFFFF pc).tiers = (s.onSpareLane pc).tiers := by
    rw [sparesTaken_replaced (s.onSpareLane pc) (dieUnit 9) 5 0xFFFF pc]
  refine ⟨_, hexec, by rw [htiers, State.onSpareLane], fun r hr => ?_, ?_⟩
  · rw [htiers] at hr
    exact of_decide_eq_true (List.mem_filter.mp hr).2
  · rw [counter_replaced _ _ _ _ _ _ (by decide), if_pos rfl]
    rfl

/-- Settles O54: each command by its lemma. That the switch of a lane counts a retired unit is R408's. -/
theorem movesAndTierUpkeep : Obligations.MovesAndTierUpkeep := by
  unfold Obligations.MovesAndTierUpkeep
  refine fun s => ⟨?move, ?running, fun pc lane => laneRepairSwitch_usesSpare⟩
  case move =>
    intro id o
    exact ⟨fun h hfill hcheck => writes_chunk h.1 _ (exec_move h hfill hcheck), fun h hfill hcheck => writes_chunk h.1 _ (exec_moveFill h hfill hcheck)⟩
  case running =>
    refine fun hrun => ⟨?lake, ?basin, ?scrub, fun cluster bank => pondTestStep_records hrun, fun pc lane => laneRepairWalk_marks lane hrun⟩
    case lake => exact tierAccessLate_counts hrun nofun
    case basin => exact fun hthere => tierAccessLate_counts hrun fun _ => hthere
    case scrub =>
      rintro lake frame total retired rfl rfl hen hframe hin
      exact ⟨scrubPass_uncorrectable hrun hen hframe hin, scrubPass_corrected hrun hen hframe hin, exec_scrubPass hrun hen hframe hin false false⟩

end Sys2Proof.Machine

/-! # Steps, measurements and the outputs of device time

What a step and a measured offset do to device time (R358, R360), what the boundaries of a register leave of the writes that wait (R469, R470), and the
commands of PPS, the triggers, holdover and the tick (R361, R373 to R375). -/

namespace Sys2Proof.Machine

/-! ## Steps -/

theorem stepBy_clock (s : State) (d : Int) : (s.stepBy d).clock = { s.clock with dev := ((s.clock.dev : Int) + d * devUnit).toNat } := log_clock _ _ _ _ _ _ _

/-- A step that does not lead before 0 moves device time by so many ns (R360). -/
theorem dev_stepBy {s : State} {d : Int} (h : 0 ≤ (s.clock.dev : Int) + d * devUnit) : ((s.stepBy d).clock.dev : Int) = s.clock.dev + d * devUnit := by
  rw [stepBy_clock]
  exact Int.toNat_of_nonneg h

/-- A step is counted (R360). -/
theorem counter_stepBy (s : State) (d : Int) : (s.stepBy d).counter Ctr.timeStep 0 = (s.counter Ctr.timeStep 0 + 1) % 2 ^ 64 := by
  unfold State.stepBy
  rw [counter_log _ _ _ _ _ _ _ _ _ (by decide) (by decide), State.bump, counter_bumpBy _ _ _ _ _ _ (by decide) (by decide), if_pos ⟨rfl, rfl⟩]
  rfl

theorem stepBy_fabric (s : State) (d : Int) : (s.stepBy d).fabric = s.fabric := log_fabric _ _ _ _ _ _ _

theorem toDev_frame (s : State) (t : Nat) : s.toDev t = { s with clock := (s.toDev t).clock } := by rw [State.toDev]

theorem advance_state (c : Clock) (d : Nat) : (c.advance d).state = c.state := rfl

theorem toDev_state (s : State) (t : Nat) : (s.toDev t).clock.state = s.clock.state := by
  rw [State.toDev]
  exact advance_state _ _

theorem devNs_le_dev (s : State) : (s.devNs : Int) * devUnit ≤ s.clock.dev := by
  exact_mod_cast Nat.div_mul_le_self s.clock.dev devUnit

/-- A step back by at most device time does not lead before 0. -/
theorem step_nonneg {s : State} {d : Int} (h : -(s.devNs : Int) ≤ d) : 0 ≤ (s.clock.dev : Int) + d * devUnit := by
  have hle := devNs_le_dev s
  have hmul : -(s.devNs : Int) * devUnit ≤ d * devUnit := Int.mul_le_mul_of_nonneg_right h (Int.natCast_nonneg _)
  rw [Int.neg_mul] at hmul
  omega

/-! ## Measured offsets -/

/-- The state of device time once an offset was measured: 16 in a row within 1 µs lock, and a larger one ends LOCKED (R358). -/
def Clock.judged (c : Clock) (off : Int) : TimeState :=
  if off.natAbs ≤ 1000 ∧ 15 ≤ c.goodRun then .locked else if c.state = .locked ∧ 1000 < off.natAbs then .free else c.state

/-- The device with a measured offset noted, before it is removed (R358, R360). -/
def State.noted (s : State) (off : Int) : State :=
  { s with clock := { s.clock with lastOffset := off, sourceLost := false, holdoverSince := s.clock.now, state := s.clock.judged off,
                                   goodRun := min 16 (if off.natAbs ≤ 1000 then s.clock.goodRun + 1 else 0) } }

/-- An offset of a time that is set is removed by a step beyond STEP_LIMIT, and by the rate within it (R360). -/
theorem measured_of_set {s : State} (hset : s.clock.state ≠ .unset) (off : Int) : s.measured off =
    if s.stepLimit < off.natAbs then (s.noted off).stepBy (-off)
    else { s.noted off with clock := { (s.noted off).clock with rate := clampI (-512000000) 512000000 (Config.slewRate off s.free) }, free := s.free + 1 } := by
  unfold State.measured
  refine (if_neg hset).trans ?_
  by_cases hgood : off.natAbs ≤ 1000
  · by_cases hrun : 15 ≤ s.clock.goodRun
    · simp only [State.noted, Clock.judged, hgood, hrun, decide_true, if_true, and_self, show 16 ≤ s.clock.goodRun + 1 by omega]
      rfl
    · simp only [State.noted, Clock.judged, hgood, hrun, decide_true, if_true, and_false, if_false, show ¬ 16 ≤ s.clock.goodRun + 1 by omega,
        Bool.not_true, Bool.false_eq_true, show ¬ 1000 < off.natAbs by omega]
      rfl
  · simp only [State.noted, Clock.judged, hgood, decide_false, Bool.false_eq_true, if_false, false_and, show ¬ 16 ≤ 0 by omega, Bool.not_false, and_true,
      show 1000 < off.natAbs by omega]
    rfl

/-- The first offset measured is a step, and sets device time (R358). -/
theorem measured_of_unset {s : State} (hunset : s.clock.state = .unset) (off : Int) : ∃ u : State, s.measured off = u ∧ u.clock.state = .free ∧
    u.fabric = s.fabric ∧ (-(s.devNs : Int) ≤ -off → (u.clock.dev : Int) = s.clock.dev - off * devUnit) := by
  obtain ⟨v, hv⟩ : ∃ v : State, v = { s with clock := { s.clock with lastOffset := off, sourceLost := false, holdoverSince := s.clock.now } } := ⟨_, rfl⟩
  have hdev : v.clock.dev = s.clock.dev := by rw [hv]
  refine ⟨_, (if_pos hunset).trans (by rw [← hv]), rfl, ?_, fun h => ?_⟩
  · exact (stepBy_fabric v (-off)).trans (by rw [hv])
  · have hstep := dev_stepBy (step_nonneg (s := v) (d := -off) (by rwa [State.devNs, hdev]))
    rw [hdev] at hstep
    refine hstep.trans ?_
    rw [Int.neg_mul, Int.sub_eq_add_neg]

theorem natAbs_clampI_le (v : Int) : (clampI (-512000000) 512000000 v).natAbs ≤ 512000000 := by
  unfold clampI
  omega

/-- The offset of the nearest second is at most the time since the last one. -/
theorem secondOffset_le (s : State) : s.secondOffset ≤ s.devNs := by
  unfold State.secondOffset
  dsimp only
  split <;> omega

/-! ## PPS -/

/-- The device at an edge of PPS (R375). -/
def State.atPps (s : State) : State := { s with clock := { s.clock with ppsSeen := true, lastPps := s.clock.now } }

/-- An edge of a PPS source with no pending SET measures the offset from the nearest second (R375). -/
theorem exec_ppsInEdge {s : State} (hnet : s.hasNet = true) (hboot : s.power.boot = .running) (hpps : s.timeSource = .pps)
    (hpending : s.clock.ppsSetPending = false) (hset : s.clock.state ≠ .unset) : exec .ppsInEdge s = .next (s.atPps.measured s.secondOffset) := by
  rw [exec, execPpsInEdge]
  refine (if_pos (by simp [hnet, hboot])).trans ((if_pos hpps).trans ((if_neg ?_).trans (if_neg hset)))
  exact ne_true_of_eq_false hpending

theorem ppsInEdge_measures {s : State} (hset : s.clock.state ≠ .unset) {off : Int} (hle : off ≤ s.devNs) {t : State} (ht : t = s.atPps.measured off) :
    t.clock.lastOffset = off ∧ t.clock.ppsSeen = true ∧
      (s.stepLimit < off.natAbs → (t.clock.dev : Int) = s.clock.dev - off * devUnit ∧ t.counter Ctr.timeStep 0 = (s.counter Ctr.timeStep 0 + 1) % 2 ^ 64) ∧
      (off.natAbs ≤ s.stepLimit → t.clock.dev = s.clock.dev ∧ t.clock.rate.natAbs ≤ 512000000) ∧ t.clock.state = s.clock.judged off := by
  have hlimit : s.atPps.stepLimit = s.stepLimit := rfl
  rw [measured_of_set (s := s.atPps) hset, hlimit] at ht
  by_cases hbig : s.stepLimit < off.natAbs
  · rw [if_pos hbig] at ht
    subst ht
    refine ⟨?_, ?_, fun _ => ⟨?_, ?_⟩, fun h => absurd hbig (Nat.not_lt.mpr h), ?_⟩
    · rw [stepBy_clock]; rfl
    · rw [stepBy_clock]; rfl
    · rw [Int.sub_eq_add_neg, ← Int.neg_mul]
      exact dev_stepBy (s := s.atPps.noted off) (step_nonneg (s := s) (Int.neg_le_neg hle))
    · exact counter_stepBy _ _
    · rw [stepBy_clock]; rfl
  · rw [if_neg hbig] at ht
    subst ht
    exact ⟨rfl, rfl, fun h => absurd h hbig, fun _ => ⟨rfl, natAbs_clampI_le _⟩, rfl⟩

/-- The loss of the source ends LOCKED, and moves neither time nor the state of PPS (R358). -/
theorem lostSource_clock (s : State) : s.lostSource.clock.state = (if s.clock.state = .locked then .holdover else s.clock.state) ∧
    s.lostSource.clock.now = s.clock.now ∧ s.lostSource.clock.ppsSeen = s.clock.ppsSeen ∧ s.lostSource.clock.ptpParent = s.clock.ptpParent ∧
    s.lostSource.clock.ptpMaster = s.clock.ptpMaster := by
  unfold State.lostSource
  dsimp only
  split <;> exact ⟨rfl, rfl, rfl, rfl, rfl⟩

/-- 1.5 s after an edge PPS is no longer seen, which is the loss of a PPS source (R358, R375). -/
theorem ppsSeenTimeout_loses {s : State} (hseen : s.clock.ppsSeen = true) : ∃ t, exec .ppsSeenTimeout s = .next t ∧ t.clock.ppsSeen = false ∧
    s.clock.lastPps + 1500000000 ≤ t.clock.now ∧
    t.clock.state = (if s.timeSource = .pps ∧ s.clock.state = .locked then .holdover else s.clock.state) ∧ t = { s with clock := t.clock } := by
  obtain ⟨d, hd⟩ : ∃ d, d = (s.toTime (s.clock.lastPps + 1500000000)).clock := ⟨_, rfl⟩
  have hnow : s.clock.lastPps + 1500000000 ≤ d.now := by rw [hd]; exact le_toTime s (s.clock.lastPps + 1500000000)
  have hstate : d.state = s.clock.state := by rw [hd]; exact toTime_state s _
  obtain ⟨c, hc⟩ : ∃ c, c = { d with ppsSeen := false } := ⟨_, rfl⟩
  have hexec : exec .ppsSeenTimeout s = .next (if s.timeSource = .pps then State.lostSource { s with clock := c } else { s with clock := c }) := by
    rw [exec, execPpsSeenTimeout, if_pos hseen, toTime_frame, ← hd, hc]
    rfl
  obtain ⟨hseen', hnow, hstate⟩ : c.ppsSeen = false ∧ s.clock.lastPps + 1500000000 ≤ c.now ∧ c.state = s.clock.state := hc ▸ ⟨rfl, hnow, hstate⟩
  refine ⟨_, hexec, ?_⟩
  by_cases hpps : s.timeSource = .pps
  · obtain ⟨hlost, hnow', hkept, -, -⟩ := lostSource_clock { s with clock := c }
    rw [if_pos hpps, hkept, hnow', hlost, hstate]
    refine ⟨hseen', hnow, ?_, rfl⟩
    simp only [hpps, true_and]
  · rw [if_neg hpps]
    refine ⟨hseen', hnow, ?_, rfl⟩
    simp only [hpps, false_and, if_false]
    exact hstate

/-- PPS_OUT rises once device time is at a whole second (R375). -/
theorem ppsOutRise_rises {s : State} (hnet : s.hasNet = true) (hrun : s.running = true) (hen : bit (s.reg 0x6000 0) 4 = true)
    (hset : s.clock.state ≠ .unset) (hlow : s.net.ppsOut = false) : ∃ t, exec .ppsOutRise s = .next t ∧
    t = { s with clock := t.clock, net := { s.net with ppsOut := true, ppsRoseAt := t.clock.now } } ∧
    (0 < s.clock.speed → (s.devNs + 999999999) / 1000000000 * 1000000000 ≤ t.devNs) := by
  have hgo : (s.hasNet && s.running && bit (s.reg 0x6000 0) 4 && s.clock.state != .unset && !s.net.ppsOut) = true := by simp [hnet, hrun, hen, hset, hlow]
  obtain ⟨e, he⟩ : ∃ e, e = (s.devNs + 999999999) / 1000000000 * 1000000000 := ⟨_, rfl⟩
  obtain ⟨c, hc⟩ : ∃ c, c = (s.toDev e).clock := ⟨_, rfl⟩
  have hexec : exec .ppsOutRise s = .next { s with clock := c, net := { s.net with ppsOut := true, ppsRoseAt := c.now } } := by
    rw [exec, execPpsOutRise, if_pos hgo, ← he, toDev_frame, ← hc]
  refine ⟨_, hexec, rfl, fun hspeed => ?_⟩
  rw [← he, State.devNs, hc]
  exact le_devNs_toDev hspeed e

theorem ppsOutFall_falls {s : State} (hhigh : s.net.ppsOut = true) : ∃ t, exec .ppsOutFall s = .next t ∧
    t = { s with clock := t.clock, net := { s.net with ppsOut := false } } ∧ s.net.ppsRoseAt + 10000000 ≤ t.clock.now := by
  obtain ⟨c, hc⟩ : ∃ c, c = (s.toTime (s.net.ppsRoseAt + 10000000)).clock := ⟨_, rfl⟩
  have hexec : exec .ppsOutFall s = .next { s with clock := c, net := { s.net with ppsOut := false } } := by
    rw [exec, execPpsOutFall, if_pos hhigh, toTime_frame, ← hc]
  refine ⟨_, hexec, rfl, ?_⟩
  rw [hc]
  exact le_toTime s _

/-! ## Triggers and holdover -/

/-- A trigger whose edge has come: its pulse begins unless a step holds the output inactive (R361, R373). -/
def Trig.risen (g : Trig) (now e : Nat) : Trig :=
  if now < g.idleUntil then { g with lastEdge := some e } else { g with level := true, endsAt := now + g.width, lastEdge := some e }

section Trigger

variable {s : State} {n : Nat} {g : Trig} (hg : s.net.trigs[n]? = some g)
include hg

theorem trigs_updAt (f : Trig → Trig) : (updAt n f s.net.trigs)[n]? = some (f g) := by rw [getElem?_updAt, if_pos rfl, hg, Option.map_some]

theorem triggerEdge_rises (hgo : g.running = true) (hlow : g.level = false) (hset : s.clock.state ≠ .unset) (hnet : s.hasNet = true) (hrun : s.running = true) :
    ∃ t, exec (.triggerEdge n) s = .next t ∧ t = { s with clock := t.clock, net := { s.net with trigs := t.net.trigs } } ∧
      t.net.trigs[n]? = some (g.risen t.clock.now (s.nextEdge g)) := by
  have hguard : (g.running && !g.level && s.clock.state != .unset && s.hasNet && s.running) = true := by simp [hgo, hlow, hset, hnet, hrun]
  obtain ⟨e, he⟩ : ∃ e, e = s.nextEdge g := ⟨_, rfl⟩
  obtain ⟨c, hc⟩ : ∃ c, c = (s.toDev e).clock := ⟨_, rfl⟩
  have hexec : exec (.triggerEdge n) s = .next { s with clock := c, net := { s.net with trigs := updAt n (fun g => g.risen c.now e) s.net.trigs } } := by
    rw [exec, execTriggerEdge, hg]
    refine (if_pos hguard).trans ?_
    dsimp only
    rw [← he, toDev_frame, ← hc]
    rfl
  exact ⟨_, hexec, rfl, he ▸ trigs_updAt hg _⟩

theorem triggerPulseEnd_falls (hhigh : g.level = true) : ∃ t, exec (.triggerPulseEnd n) s = .next t ∧
    t = { s with clock := t.clock, net := { s.net with trigs := t.net.trigs } } ∧ t.net.trigs[n]? = some { g with level := false } ∧ g.endsAt ≤ t.clock.now := by
  obtain ⟨c, hc⟩ : ∃ c, c = (s.toTime g.endsAt).clock := ⟨_, rfl⟩
  have hexec : exec (.triggerPulseEnd n) s = .next { s with clock := c, net := { s.net with trigs := updAt n (fun g => { g with level := false }) s.net.trigs } } := by
    rw [exec, execTriggerPulseEnd, hg]
    refine (if_pos hhigh).trans ?_
    dsimp only
    rw [toTime_frame, ← hc]
  refine ⟨_, hexec, rfl, trigs_updAt hg _, ?_⟩
  rw [hc]
  exact le_toTime s _

end Trigger

theorem holdoverLimit_ends {s : State} (hstate : s.clock.state = .holdover) : ∃ t, exec .holdoverLimit s = .next t ∧ t.clock.state = .free ∧
    s.clock.holdoverSince + 600000000000 ≤ t.clock.now ∧ t = { s with clock := t.clock } := by
  obtain ⟨c, hc⟩ : ∃ c, c = (s.toTime (s.clock.holdoverSince + 600000000000)).clock := ⟨_, rfl⟩
  have hexec : exec .holdoverLimit s = .next { s with clock := { c with state := .free } } := by
    rw [exec, execHoldoverLimit, if_pos hstate, toTime_frame, ← hc]
    rfl
  refine ⟨_, hexec, rfl, ?_, rfl⟩
  rw [hc]
  exact le_toTime s _

/-! ## Boundaries of registers -/

/-- Whether a write that waits in a selected offset range has a field of a selected boundary (R470). -/
def dueAt (p : Bnd → Bool) (q : Nat → Bool) (w : Nat × Nat) : Bool := q w.1 && ((rowOf w.1).any fun row => row.fields.any fun f => p f.at_)

/-- A write that waits is applied where its boundary is selected, and waits no more (R469, R470). -/
def Regs.applyDue (c : Chip) (p : Bnd → Bool) (q : Nat → Bool) (r : Regs) (w : Nat × Nat) : Regs :=
  if dueAt p q w then
    match rowOf w.1 with
    | none => r
    | some row =>
      { r.setApplied c w.1 w.2 (BitVec.ofNat 32 (row.apply p (r.appliedOf c w.1 w.2).toNat (r.shadowOf c w.1 w.2).toNat)) with
        waiting := r.waiting.filter fun x => x ≠ w }
  else r

theorem applyAt_eq (c : Chip) (p : Bnd → Bool) (q : Nat → Bool) (r : Regs) : r.applyAt c p q = r.waiting.foldl (Regs.applyDue c p q) r := rfl

theorem waiting_applyDue (c : Chip) (p : Bnd → Bool) (q : Nat → Bool) (r : Regs) (w : Nat × Nat) :
    (r.applyDue c p q w).waiting = if dueAt p q w then r.waiting.filter fun x => x ≠ w else r.waiting := by
  unfold Regs.applyDue
  split
  · next hdue =>
    cases hrow : rowOf w.1 with
    | none => simp [dueAt, hrow] at hdue
    | some row => rfl
  · rfl

/-- What waits after some writes were applied waited before, and is none of them that was due. -/
theorem mem_waiting_foldl_applyDue (c : Chip) (p : Bnd → Bool) (q : Nat → Bool) (l : List (Nat × Nat)) (r : Regs) (w : Nat × Nat)
    (h : w ∈ (l.foldl (Regs.applyDue c p q) r).waiting) : w ∈ r.waiting ∧ (w ∈ l → dueAt p q w = false) := by
  induction l generalizing r with
  | nil => exact ⟨h, nofun⟩
  | cons x l ih =>
    obtain ⟨hmem, hrest⟩ := ih (r.applyDue c p q x) h
    rw [waiting_applyDue] at hmem
    split at hmem
    · obtain ⟨hw, hne⟩ := List.mem_filter.mp hmem
      exact ⟨hw, fun hl => hrest ((List.mem_cons.mp hl).resolve_left (of_decide_eq_true hne))⟩
    · next hnot =>
      refine ⟨hmem, fun hl => (List.mem_cons.mp hl).elim (fun e => ?_) hrest⟩
      rw [e]
      exact eq_false_of_ne_true hnot

/-- No write that waits after a boundary was due at it. -/
theorem not_dueAt_applyAt {c : Chip} {p : Bnd → Bool} {q : Nat → Bool} {r : Regs} {w : Nat × Nat} (h : w ∈ (r.applyAt c p q).waiting) : dueAt p q w = false := by
  obtain ⟨hmem, hdue⟩ := mem_waiting_foldl_applyDue c p q r.waiting r w (applyAt_eq c p q r ▸ h)
  exact hdue hmem

/-! ## The tick -/

theorem takeTriggers_frame (l : List Nat) (s : State) : l.foldl (fun (s : State) t => s.takeTrigger t) s =
    { s with net := (l.foldl (fun (s : State) t => s.takeTrigger t) s).net } := by
  induction l generalizing s with
  | nil => rfl
  | cons n l ih => exact ih (s.takeTrigger n)

/-- A tick applies what waits for it (R361, R469). -/
theorem tick_applies (s : State) : ∃ t, exec .tick s = .next t ∧ t.clock.lastTick = max ((s.devNs + 999999) / 1000000) (s.clock.lastTick + 1) ∧
    t.clock.state = s.clock.state ∧ (∀ w ∈ t.regs.waiting, ∀ r, rowOf w.1 = some r → ∀ f ∈ r.fields, f.at_ ≠ .tick) ∧ t.ops = s.ops ∧ t.rings = s.rings ∧
    t.mem = s.mem := by
  obtain ⟨n, hn⟩ : ∃ n, n = max ((s.devNs + 999999) / 1000000) (s.clock.lastTick + 1) := ⟨_, rfl⟩
  obtain ⟨regs, hregs⟩ : ∃ regs, regs = s.regs.applyAt s.chip (fun b => b = .tick || b = .frame) fun _ => true := ⟨_, rfl⟩
  obtain ⟨c, hc⟩ : ∃ c, c = (s.toDev (n * 1000000)).clock := ⟨_, rfl⟩
  have hstate : c.state = s.clock.state := by rw [hc, toDev_state]
  obtain ⟨power, free, net, hexec⟩ : ∃ power free net, exec .tick s =
      .next { s with regs := regs, clock := { c with lastTick := n }, power := power, free := free, net := net } := by
    rw [exec, execTick, ← hn]
    dsimp only
    rw [toDev_frame, ← hc, ← hregs]
    split
    · rw [takeTriggers_frame]
      exact ⟨_, _, _, rfl⟩
    · exact ⟨_, _, _, rfl⟩
  refine ⟨_, hexec, hn, hstate, fun w hw r hr f hf htick => ?_, rfl, rfl, rfl⟩
  have hdue := not_dueAt_applyAt (hregs ▸ hw)
  simp only [dueAt, hr, Bool.true_and, Option.any_some, List.any_eq_false] at hdue
  exact hdue f hf (by simp [htick])

/-- Settles O36: each command by its lemma. PPS follows R375, triggers R373 and R374, and a step R360; the sign of an offset, the counted steps and the
hold of a trigger after a step are those of log entries 24 to 26. -/
theorem ppsAndTriggersFollowDeviceTime : Obligations.PpsAndTriggersFollowDeviceTime := by
  unfold Obligations.PpsAndTriggersFollowDeviceTime
  intro s
  refine ⟨?edge, ppsSeenTimeout_loses, ppsOutRise_rises, ppsOutFall_falls, ?triggers, holdoverLimit_ends, tick_applies s⟩
  case edge =>
    rintro hnet hboot hpps hpending hset _ rfl
    exact ⟨_, exec_ppsInEdge hnet hboot hpps hpending hset, ppsInEdge_measures hset (secondOffset_le s) rfl⟩
  case triggers => exact fun n g hg => ⟨triggerEdge_rises hg, triggerPulseEnd_falls hg⟩

end Sys2Proof.Machine

/-! # Time from the array and from PTP

What a message leaves of a port of the fabric, the parent that is followed (R396), and the commands of time across the array (R358, R387, R396) and of the
ordinary clock of PTP (R362). -/

namespace Sys2Proof.Machine

/-! ## Ports of the fabric -/

theorem updAt_updAt {α : Type} (f g : α → α) (i : Nat) (l : List α) : updAt i f (updAt i g l) = updAt i (fun x => f (g x)) l := by
  induction l generalizing i with
  | nil => rw [updAt, updAt, updAt]
  | cons x l ih =>
    cases i with
    | zero => rfl
    | succ j => exact congrArg (x :: ·) (ih j)

theorem map_updAt_congr {α β : Type} {k : α → β} {f g : α → α} (h : ∀ x, k (f x) = k (g x)) (i : Nat) (l : List α) :
    (updAt i f l).map k = (updAt i g l).map k := by
  induction l generalizing i with
  | nil => rw [updAt, updAt]
  | cons x l ih =>
    cases i with
    | zero => rw [updAt, updAt, List.map_cons, List.map_cons, h]
    | succ j => rw [updAt, updAt, List.map_cons, List.map_cons, ih]

theorem fzPort_of {s : State} {p : Nat} {q : FzPort} (h : s.fabric.ports[p]? = some q) : s.fzPort p = q := by rw [State.fzPort, h, Option.getD_some]

theorem ports_updPort {s : State} {p : Nat} {q : FzPort} (h : s.fabric.ports[p]? = some q) (f : FzPort → FzPort) :
    (s.updPort p f).fabric.ports[p]? = some (f q) := by
  rw [State.updPort, getElem?_updAt, if_pos rfl, h, Option.map_some]

/-- A message that a port takes leaves the port but for the flits it counts and the credits it owes (R383). -/
theorem ports_taken {s : State} {p : Nat} {q : FzPort} (h : s.fabric.ports[p]? = some q) (cls n : Nat) :
    ∃ x flits, (s.taken p cls n).fabric.ports[p]? = some { q with rxNext := x, flits := flits } := by
  rw [State.taken, getElem?_updAt, if_pos rfl, h, Option.map_some]
  split
  · exact ⟨_, _, rfl⟩
  · exact ⟨q.rxNext, q.flits, rfl⟩

/-- A message that is sent by a port leaves the port but for the flits that wait (R383). -/
theorem ports_sendOn {s : State} {p : Nat} {q : FzPort} (h : s.fabric.ports[p]? = some q) (type cls dst xid : Nat) (body : List Byte) :
    ∃ flits, (s.sendOn p type cls dst xid body).fabric.ports[p]? = some { q with flits := flits } := by
  rw [State.sendOn, State.putFlits, getElem?_updAt, if_pos rfl, h, Option.map_some]
  exact ⟨_, rfl⟩

/-! ## The parent -/

/-- The better of the parent found so far and a port with an index: what it last heard of the master, and whether it carries traffic (R396). -/
def betterParent (b : Option (Nat × Nat × Nat)) (q : (Option (Nat × Nat) × Bool) × Nat) : Option (Nat × Nat × Nat) :=
  match q.1.1, b with
  | some m, none => if q.1.2 then some (q.2, m.1, m.2) else none
  | some m, some c => if q.1.2 && decide (m.1 < c.2.1) then some (q.2, m.1, m.2) else some c
  | none, b => b

/-- The parent depends on what the ports heard of the master and on whether they carry traffic. -/
theorem bestParent_eq (s : State) : s.bestParent = (s.fabric.ports.map fun q => (q.masterSeen, q.carries)).zipIdx.foldl betterParent none := by
  rw [List.zipIdx_map, List.foldl_map]
  rfl

/-- What a message taken by a port leaves there plays no part in the choice of the parent. -/
theorem bestParent_taken (s : State) (p cls n : Nat) (m : Nat × Nat) (l : Nat × Nat) :
    ((s.taken p cls n).updPort p fun q => { q with masterSeen := some m, lastSync := some l }).bestParent =
      (s.updPort p fun q => { q with masterSeen := some m, lastSync := some l }).bestParent := by
  rw [bestParent_eq, bestParent_eq, State.updPort, State.updPort, State.taken, updAt_updAt]
  refine congrArg (fun l : List (Option (Nat × Nat) × Bool) => l.zipIdx.foldl betterParent none) (map_updAt_congr (fun q => ?_) p s.fabric.ports)
  split <;> rfl

/-- A best parent found among ports is one that heard of a master. -/
theorem heard_of_foldl_betterParent (l : List ((Option (Nat × Nat) × Bool) × Nat)) (c : Option (Nat × Nat × Nat)) {b : Nat × Nat × Nat}
    (h : l.foldl betterParent c = some b) : c = some b ∨ ∃ x, (x, b.1) ∈ l ∧ x.1.isSome = true := by
  induction l generalizing c with
  | nil => exact .inl h
  | cons q l ih =>
    obtain hq | ⟨x, hx, hsome⟩ := ih _ h
    · obtain ⟨⟨heard, carries⟩, i⟩ := q
      cases heard with
      | none => exact .inl hq
      | some m =>
        have hcase : betterParent c ((some m, carries), i) = c ∨ betterParent c ((some m, carries), i) = some (i, m.1, m.2) := by
          cases c with
          | none => exact (ite_eq_or_eq _ _ _).symm
          | some c => exact (ite_eq_or_eq _ _ _).symm
        obtain e | e := hcase
        · exact .inl (e ▸ hq)
        · obtain rfl : (i, m.1, m.2) = b := Option.some.inj (e ▸ hq)
          exact .inr ⟨_, List.mem_cons_self, rfl⟩
    · exact .inr ⟨x, List.mem_cons_of_mem _ hx, hsome⟩

/-- A port that heard of no master is not the best parent (R396). -/
theorem bestParent_heard {s : State} {b : Nat × Nat × Nat} (h : s.bestParent = some b) : ∃ q, s.fabric.ports[b.1]? = some q ∧ q.masterSeen.isSome = true := by
  obtain hnone | ⟨x, hx, hsome⟩ := heard_of_foldl_betterParent _ _ (bestParent_eq s ▸ h)
  · exact nomatch hnone
  · have hget := List.mem_zipIdx_iff_getElem?.mp hx
    rw [List.getElem?_map, Option.map_eq_some_iff] at hget
    obtain ⟨q, hq, rfl⟩ := hget
    exact ⟨q, hq, hsome⟩

theorem chooseParent_of_best {s : State} (hfabric : s.timeSource = .fabric) {b : Nat × Nat × Nat} (h : s.bestParent = some b) :
    s.chooseParent = { s with fabric := { s.fabric with parentPort := some b.1, timeHops := b.2.1 + 1, timeMaster := b.2.2 } } := by
  unfold State.chooseParent
  rw [if_pos hfabric, h]

theorem chooseParent_clock (s : State) : s.chooseParent.clock = s.clock := by
  unfold State.chooseParent
  split <;> rfl

/-- A port that no longer hears of a master is not followed (R396). -/
theorem chooseParent_leaves (s : State) (p : Nat) : (s.updPort p fun q => { q with masterSeen := none }).chooseParent.fabric.parentPort ≠ some p := by
  obtain ⟨u, hu⟩ : ∃ u, u = s.updPort p fun q => { q with masterSeen := none } := ⟨_, rfl⟩
  rw [← hu]
  unfold State.chooseParent
  split
  · next b hb =>
    intro hp
    obtain rfl : b.1 = p := Option.some.inj hp
    have hbest : u.bestParent = some b := by
      by_cases hsource : u.timeSource = .fabric
      · rwa [if_pos hsource] at hb
      · rw [if_neg hsource] at hb
        exact nomatch hb
    obtain ⟨q, hq, hheard⟩ := bestParent_heard hbest
    rw [hu, State.updPort, getElem?_updAt, if_pos rfl, Option.map_eq_some_iff] at hq
    obtain ⟨x, -, rfl⟩ := hq
    exact Bool.false_ne_true hheard
  · exact nofun

/-! ## Time across the array -/

/-- The device once a neighbour's TIME_SYNC has come by a port: its master and hops are noted there (R396). -/
def State.heard (s : State) (p stamp hops master : Nat) : State :=
  (s.taken p 0 10).updPort p fun q => { q with masterSeen := some (hops, master), lastSync := some (stamp, s.devNs) }

theorem exec_timeSync (s : State) (p stamp hops master : Nat) : exec (.timeSync p stamp hops master) s =
    if !((s.taken p 0 10).fzPort p).carries || !s.running || !s.fabricUp || master = s.self then .next (s.taken p 0 10)
    else
      let u := (s.heard p stamp hops master).chooseParent
      if u.fabric.parentPort = some p then
        .next (State.measured { u with fabric := { u.fabric with lastParentSync := u.clock.now } } ((s.devNs : Int) - ((stamp : Int) + (u.fzPort p).delay)))
      else .next u := rfl

section Port

variable {s : State} {p : Nat} {q : FzPort} (hrun : s.running = true) (hq : s.fabric.ports[p]? = some q)

section Carries

variable (hup : s.fabricUp = true) (hcarries : q.carries = true)
include hrun hq hup hcarries

/-- TIME_SYNC from the best parent, on a device whose time is not set: it is followed, and its time is taken (R358, R396). -/
theorem timeSync_sets {stamp hops master : Nat} (hmaster : master ≠ s.self) (hfabric : s.timeSource = .fabric) (hunset : s.clock.state = .unset)
    (hbest : (s.updPort p fun q => { q with masterSeen := some (hops, master), lastSync := some (stamp, s.devNs) }).bestParent = some (p, hops, master))
    (hpos : 0 ≤ (stamp : Int) + q.delay) : ∃ t, exec (.timeSync p stamp hops master) s = .next t ∧ t.clock.state = .free ∧
      (t.clock.dev : Int) = s.clock.dev - (s.devNs - (stamp + q.delay)) * devUnit ∧
      t.fabric.parentPort = some p ∧ t.fabric.timeHops = hops + 1 ∧ t.fabric.timeMaster = master ∧ t.fabric.lastParentSync = s.clock.now := by
  obtain ⟨x, flits, htaken⟩ := ports_taken hq 0 10
  have hguard : (!((s.taken p 0 10).fzPort p).carries || !s.running || !s.fabricUp || decide (master = s.self)) = false := by
    rw [fzPort_of htaken, hrun, hup, decide_eq_false hmaster]
    simpa [FzPort.carries] using hcarries
  have hchoose : (s.heard p stamp hops master).chooseParent = { s.heard p stamp hops master with fabric :=
      { (s.heard p stamp hops master).fabric with parentPort := some p, timeHops := hops + 1, timeMaster := master } } :=
    chooseParent_of_best (s := s.heard p stamp hops master) hfabric ((bestParent_taken s p 0 10 _ _).trans hbest)
  obtain ⟨u, hu⟩ : ∃ u, u = (s.heard p stamp hops master).chooseParent := ⟨_, rfl⟩
  obtain ⟨hclock, hparent, hhops, hmasteris⟩ : u.clock = s.clock ∧ u.fabric.parentPort = some p ∧ u.fabric.timeHops = hops + 1 ∧ u.fabric.timeMaster = master := by
    rw [hu, hchoose]
    exact ⟨rfl, rfl, rfl, rfl⟩
  have hdelay : (u.fzPort p).delay = q.delay := by
    have hport : u.fabric.ports[p]? = some { { q with rxNext := x, flits := flits } with masterSeen := some (hops, master), lastSync := some (stamp, s.devNs) } := by
      rw [hu, hchoose]
      exact ports_updPort htaken _
    rw [fzPort_of hport]
  obtain ⟨v, hv⟩ : ∃ v : State, v = { u with fabric := { u.fabric with lastParentSync := u.clock.now } } := ⟨_, rfl⟩
  have hvclock : v.clock = s.clock := by rw [hv]; exact hclock
  obtain ⟨w, hw, hfree, hfabricis, hdev⟩ := measured_of_unset (s := v) (by rw [hvclock]; exact hunset) ((s.devNs : Int) - ((stamp : Int) + q.delay))
  have hexec : exec (.timeSync p stamp hops master) s = .next w := by
    rw [exec_timeSync, ← hu]
    dsimp only
    rw [if_neg (ne_true_of_eq_false hguard), if_pos hparent, ← hv, hdelay, hw]
  rw [State.devNs, hvclock] at hdev
  refine ⟨w, hexec, hfree, hdev (by rw [State.devNs]; omega), ?_⟩
  rw [hfabricis, hv]
  exact ⟨hparent, hhops, hmasteris, congrArg Clock.now hclock⟩

/-- DELAY_REQ from a child is answered with device time (R387, R396). -/
theorem delayReq_answers (stamp : Nat) : ∃ t m, exec (.delayReq p stamp) s = .next t ∧ t.out.fzl = m :: s.out.fzl ∧ m.hdr.type = 0x42 ∧ m.port = p ∧
    m.body = beBytes (packTime s.devNs) 8 := by
  obtain ⟨x, flits, htaken⟩ := ports_taken hq 0 8
  have hgo : (((s.taken p 0 8).fzPort p).carries && s.running && s.fabricUp) = true := by
    rw [fzPort_of htaken, hrun, hup]
    simpa [FzPort.carries] using hcarries
  have hexec : exec (.delayReq p stamp) s =
      .next ((s.taken p 0 8).sendOn p 0x42 0 ((s.taken p 0 8).fzPort p).neighbour 0 (beBytes (packTime s.devNs) 8)) := if_pos hgo
  exact ⟨_, _, hexec, rfl, rfl, rfl, rfl⟩

/-- A child asks its parent for the delay, and notes when it did (R396). -/
theorem delayReqTimer_asks (hparent : s.fabric.parentPort = some p) : ∃ t m r, exec .delayReqTimer s = .next t ∧ t.out.fzl = m :: s.out.fzl ∧
    m.hdr.type = 0x41 ∧ m.port = p ∧ m.body = beBytes (packTime s.devNs) 8 ∧ t.fabric.ports[p]? = some r ∧ r.reqTx = some s.devNs := by
  have hgo : ((s.fzPort p).carries && s.running && s.fabricUp) = true := by rw [fzPort_of hq, hcarries, hrun, hup]; rfl
  have hexec : exec .delayReqTimer s = .next ((s.sendOn p 0x41 0 (s.fzPort p).neighbour 0 (beBytes (packTime s.devNs) 8)).updPort p
      fun q => { q with reqTx := some s.devNs }) := by
    rw [exec, execDelayReqTimer, hparent]
    exact if_pos hgo
  obtain ⟨flits, hsent⟩ := ports_sendOn hq 0x41 0 (s.fzPort p).neighbour 0 (beBytes (packTime s.devNs) 8)
  exact ⟨_, _, _, hexec, rfl, rfl, rfl, rfl, ports_updPort hsent _, rfl⟩

end Carries

include hq

/-- DELAY_RESP gives the link delay of the last TIME_SYNC and this exchange (R396). -/
theorem delayResp_resolves {t1 t2 t3 : Nat} (stamp : Nat) (hreq : q.reqTx = some t3) (hsync : q.lastSync = some (t1, t2)) :
    ∃ t r, exec (.delayResp p stamp) s = .next t ∧ t.fabric.ports[p]? = some r ∧ r.reqTx = none ∧
      r.delay = (((t2 : Int) - t1) + ((stamp : Int) - t3)) / 2 ∧ t = { s with fabric := { s.fabric with ports := t.fabric.ports } } := by
  obtain ⟨x, flits, htaken⟩ := ports_taken hq 0 8
  have hexec : exec (.delayResp p stamp) s = .next ((s.taken p 0 8).updPort p fun q =>
      { q with reqTx := none, delay := (((t2 : Int) - (t1 : Int)) + ((stamp : Int) - (t3 : Int))) / 2 }) := by
    rw [exec, execDelayResp, fzPort_of htaken]
    dsimp only
    rw [hreq, hsync]
  exact ⟨_, _, hexec, ports_updPort htaken _, rfl, rfl, rfl⟩

end Port

/-- TIME_SYNC leaves by one port (R396). -/
def State.sendSync (s : State) (hops master p : Nat) : State :=
  s.sendOn p 0x40 0 (s.fzPort p).neighbour 0 (beBytes (packTime s.devNs) 8 ++ beBytes hops 1 ++ beBytes master 1)

/-- TIME_SYNC sent by some ports: one message by each of them, with the same device time (R387, R396). -/
theorem out_sendSyncs (hops master : Nat) (ports : List Nat) (s : State) : ∃ l, (ports.foldl (fun (s : State) p => s.sendSync hops master p) s).out.fzl = l ++ s.out.fzl ∧
    (∀ m ∈ l, m.hdr.type = 0x40 ∧ m.body = beBytes (packTime s.devNs) 8 ++ beBytes hops 1 ++ beBytes master 1) ∧ ∀ p, p ∈ ports ↔ ∃ m ∈ l, m.port = p := by
  induction ports generalizing s with
  | nil => exact ⟨[], rfl, nofun, fun p => by simp⟩
  | cons a ports ih =>
    obtain ⟨l, hout, hall, hports⟩ := ih (s.sendSync hops master a)
    obtain ⟨m, hm, htype, hport, hbody⟩ : ∃ m, (s.sendSync hops master a).out.fzl = m :: s.out.fzl ∧ m.hdr.type = 0x40 ∧ m.port = a ∧
        m.body = beBytes (packTime s.devNs) 8 ++ beBytes hops 1 ++ beBytes master 1 := ⟨_, rfl, rfl, rfl, rfl⟩
    refine ⟨l ++ [m], ?_, fun x hx => ?_, fun p => ?_⟩
    · rw [List.foldl_cons, hout, hm, List.append_assoc, List.singleton_append]
    · obtain hx | hx := List.mem_append.mp hx
      · exact hall x hx
      · obtain rfl := List.mem_singleton.mp hx
        exact ⟨htype, hbody⟩
    · rw [List.mem_cons, hports]
      simp only [List.mem_append, List.mem_singleton, or_and_right, exists_or, exists_eq_left, hport]
      rw [or_comm, eq_comm]

/-- A device that sends time and follows no parent sends TIME_SYNC as the master by each port that carries traffic (R396). -/
theorem timeSyncTimer_sends {s : State} (hrun : s.running = true) (hup : s.fabricUp = true) (hsends : s.sendsTime = true) (hnone : s.fabric.parentPort = none) :
    ∃ t l, exec .timeSyncTimer s = .next t ∧ t.out.fzl = l ++ s.out.fzl ∧
      (∀ m ∈ l, m.hdr.type = 0x40 ∧ m.body = beBytes (packTime s.devNs) 8 ++ beBytes 0 1 ++ beBytes s.self 1) ∧
      ∀ p, p < 6 → ((s.fzPort p).carries = true ↔ ∃ m ∈ l, m.port = p) := by
  obtain ⟨ports, hports⟩ : ∃ ports, ports = (List.range 6).filter fun p => (s.fzPort p).carries && s.fabric.parentPort ≠ some p := ⟨_, rfl⟩
  have hgo : (s.running && s.fabricUp && s.sendsTime) = true := by rw [hrun, hup, hsends]; rfl
  have hexec : exec .timeSyncTimer s = .next (ports.foldl (fun (t : State) p => t.sendSync 0 s.self p) s) := by
    rw [exec, execTimeSyncTimer, if_pos hgo, ← hports, hnone]
    rfl
  obtain ⟨l, hout, hall, hmem⟩ := out_sendSyncs 0 s.self ports s
  refine ⟨_, l, hexec, hout, hall, fun p hp => ?_⟩
  rw [← hmem, hports, List.mem_filter, hnone]
  simp [hp]

/-- TIME_SYNC absent from the parent is the loss of the source, and the parent is left (R358, R396). -/
theorem timeSyncTimeout_holds {s : State} {p : Nat} (hparent : s.fabric.parentPort = some p) (hfabric : s.timeSource = .fabric) (hlocked : s.clock.state = .locked) :
    ∃ t, exec .timeSyncTimeout s = .next t ∧ t.clock.state = .holdover ∧ t.fabric.parentPort ≠ some p ∧
      s.fabric.lastParentSync + s.memberTimeout * 1000000 ≤ t.clock.now := by
  obtain ⟨e, he⟩ : ∃ e, e = s.fabric.lastParentSync + s.memberTimeout * 1000000 := ⟨_, rfl⟩
  obtain ⟨u, hu⟩ : ∃ u, u = s.toTime e := ⟨_, rfl⟩
  have hsource : u.timeSource = .fabric := by rw [hu, toTime_frame]; exact hfabric
  have hexec : exec .timeSyncTimeout s = .next (u.lostSource.updPort p fun q => { q with masterSeen := none }).chooseParent := by
    rw [exec, execTimeSyncTimeout, hparent]
    dsimp only
    rw [← he, ← hu, if_pos hsource]
  obtain ⟨hstate, hnow, -⟩ := lostSource_clock u
  refine ⟨_, hexec, ?_, chooseParent_leaves _ _, ?_⟩
  · rw [chooseParent_clock]
    refine hstate.trans (if_pos ?_)
    rw [hu, toTime_state, hlocked]
  · rw [chooseParent_clock, ← he]
    exact (hu ▸ le_toTime s e : e ≤ u.clock.now).trans_eq hnow.symm

/-! ## PTP -/

section SendPtp

variable (s : State) (m : PtpMsg)

theorem sendPtp_reg (off idx : Nat) : (s.sendPtp m).reg off idx = s.reg off idx := rfl

theorem sendPtp_clock : (s.sendPtp m).clock = s.clock := rfl

theorem sendPtp_ptpPeer : (s.sendPtp m).ptpPeer = s.ptpPeer := rfl

end SendPtp

section Ptp

variable {s : State} (hon : s.ptpOn = true)
include hon

/-- A better ANNOUNCE than the device's own dataset is followed (R362). -/
theorem announce_follows {p1 cc p2 id : Nat} (hid : id ≠ s.clockIdentity) (hnone : s.clock.ptpParent = none) (hbetter : datasetBetter [p1, cc, p2, id] s.ownDataset = true) :
    ∃ t, exec (.ptpMessage (.announce p1 cc p2 id)) s = .next t ∧ t.clock.ptpParent = some id ∧ t.clock.ptpSet = [p1, cc, p2, id] ∧
      t.clock.ptpMaster = false ∧ t = { s with clock := t.clock } := by
  have hexec : exec (.ptpMessage (.announce p1 cc p2 id)) s = .next { s with clock := { s.clock with
      ptpParent := some id, ptpSet := [p1, cc, p2, id], ptpMaster := false, ptpDelay := none, ptpSyncRx := none, ptpReqTx := none, ptpLastSync := none } } := by
    rw [exec, execPtpMessage, if_pos hon, State.ptpReceive, if_neg hid, State.ptpAnnounce]
    simp only [hnone, hbetter, reduceCtorEq, if_false, Bool.or_true, Option.isNone_none, Bool.true_or, Bool.and_self, if_true]
  exact ⟨_, hexec, rfl, rfl, rfl, rfl⟩

/-- With no other master qualified the source is lost, and the device becomes master unless it only follows (R358, R362). -/
theorem announceTimeout_ends : ∃ t, exec .ptpAnnounceTimeout s = .next t ∧ t.clock.ptpParent = none ∧ t.clock.ptpMaster = !bit (s.reg 0x5000 0) 13 ∧
    t.clock.state = (if s.clock.ptpParent.isSome ∧ s.timeSource = .ptp ∧ s.clock.state = .locked then .holdover else s.clock.state) ∧ t = { s with clock := t.clock } := by
  have hexec : exec .ptpAnnounceTimeout s =
      .next (if s.clock.ptpParent.isSome && s.timeSource = .ptp then s.becomeMaster.lostSource else s.becomeMaster) := by
    rw [exec, execPtpAnnounceTimeout, if_pos hon]
    rfl
  refine ⟨_, hexec, ?_⟩
  by_cases hlost : s.clock.ptpParent.isSome = true ∧ s.timeSource = .ptp
  · obtain ⟨hstate, -, -, hparent, hmaster⟩ := lostSource_clock s.becomeMaster
    rw [if_pos (by simp [hlost]), hstate, hparent, hmaster]
    refine ⟨rfl, rfl, ?_, rfl⟩
    simp only [hlost, true_and]
    rfl
  · rw [if_neg (by simpa using hlost)]
    refine ⟨rfl, rfl, ?_, rfl⟩
    rw [if_neg fun h => hlost ⟨h.1, h.2.1⟩]
    rfl

/-- The master announces itself and sends its time (R362). -/
theorem messageInterval_leads (hmaster : s.clock.ptpMaster = true) (hpeer : s.ptpPeer = false) (hnone : s.clock.ptpParent = none) :
    ∃ t, exec .ptpMessageInterval s = .next t ∧
      (bit (s.reg 0x5000 0) 9 = true → t.out.ptp = [{ port := s.ptpPort, msg := .sync s.clockIdentity (s.txStamp s.ptpPort) false },
        { port := s.ptpPort, msg := .announce (s.regF 0x5004 0 15 8) (s.regF 0x5004 0 31 24) (s.regF 0x5004 0 23 16) s.clockIdentity }] ++ s.out.ptp) ∧
      t = { s with out := { s.out with ptp := t.out.ptp } } := by
  cases hone : bit (s.reg 0x5000 0) 9 with
  | false =>
    have hexec : ∃ l, exec .ptpMessageInterval s = .next { s with out := { s.out with ptp := l } } := by
      rw [exec, execPtpMessageInterval, if_pos hon]
      simp only [hmaster, if_true, sendPtp_reg, hone, Bool.false_eq_true, if_false, sendPtp_ptpPeer, hpeer, sendPtp_clock, hnone, Option.isSome_none]
      exact ⟨_, rfl⟩
    obtain ⟨l, hexec⟩ := hexec
    exact ⟨_, hexec, nofun, rfl⟩
  | true =>
    have hexec : exec .ptpMessageInterval s =
        .next ((s.sendPtp (.announce (s.regF 0x5004 0 15 8) (s.regF 0x5004 0 31 24) (s.regF 0x5004 0 23 16) s.clockIdentity)).sendPtp
          (.sync s.clockIdentity (s.txStamp s.ptpPort) false)) := by
      rw [exec, execPtpMessageInterval, if_pos hon]
      simp only [hmaster, if_true, sendPtp_reg, hone, sendPtp_ptpPeer, hpeer, Bool.false_eq_true, if_false, sendPtp_clock, hnone, Option.isSome_none]
    exact ⟨_, hexec, fun _ => rfl, rfl⟩

end Ptp

/-- Settles O37: each command by its lemma. The sign of an offset is that of log entry 24, the comparison of masters and the clock identity those of log
entry 27, and who follows a parent that of log entry 37. -/
theorem timeMessagesAreAnswered : Obligations.TimeMessagesAreAnswered := by
  unfold Obligations.TimeMessagesAreAnswered
  intro s hrun
  refine ⟨fun hup p q hq hcarries => ⟨?sync, delayReq_answers hrun hq hup hcarries, delayReqTimer_asks hrun hq hup hcarries⟩, ?resp,
    timeSyncTimer_sends hrun, ?timeout, fun hon => ⟨?announce, announceTimeout_ends hon, messageInterval_leads hon⟩⟩
  case sync => exact fun stamp hops master => timeSync_sets hrun hq hup hcarries
  case resp => exact fun p q t1 t2 t3 stamp hq => delayResp_resolves hq stamp
  case timeout => exact fun p hparent hfabric _ _ => timeSyncTimeout_holds hparent hfabric
  case announce => exact fun p1 cc p2 id => announce_follows hon

end Sys2Proof.Machine

/-! # Reads with an effect and the commands of device time

The value of a read of a whole register (R459), the reads that acknowledge, clear or latch (R376, R475), and TIME_CMD and TIME_RATE (R360, R361, R376). -/

namespace Sys2Proof.Machine

/-! ## Reads of whole registers -/

theorem privileged_zero {s : State} (h : s.host.privileged = true) : s.privileged 0 = true := by rw [State.privileged, h]; rfl

section Read

variable {s : State} {fn off : Nat} {c : Cap} (hblock : s.blockOf off = some c) (haccess : isGuarded off = true → s.privileged fn = true)
include hblock haccess

theorem readWord_reg : s.readWord fn off = s.readReg fn off := by
  rw [State.readWord, hblock]
  refine if_neg fun h => ?_
  rw [Bool.and_eq_true] at h
  rw [haccess h.1] at h
  exact nomatch h.2

variable (halign : off % 4 = 0) (hlow : off < 0x40000)
include halign hlow

theorem busValue_word : s.busValue fn off 4 = s.readReg fn off % 2 ^ 32 := by
  have hoff : off / 4 * 4 = off := by omega
  rw [State.busValue, if_neg (by decide), if_neg (by omega), hoff, halign, State.readBar, if_pos hlow, readWord_reg hblock haccess, pow_zero, Nat.div_one]
  rfl

/-- A read of 4 or 8 bytes answers the register in its low word (R459). -/
theorem busValue_low {size : Nat} (hsize : size = 4 ∨ size = 8) : s.busValue fn off size % 2 ^ 32 = s.readReg fn off % 2 ^ 32 := by
  obtain rfl | rfl := hsize
  · rw [busValue_word hblock haccess halign hlow, Nat.mod_mod]
  · rw [State.busValue, if_pos rfl, if_pos halign, Nat.add_mul_mod_self_right, State.readBar, if_pos hlow, readWord_reg hblock haccess]

end Read

theorem toNat_ofNat_mod (n : Nat) : (BitVec.ofNat 64 n).toNat % 2 ^ 32 = n % 2 ^ 32 := by
  rw [BitVec.toNat_ofNat, Nat.mod_mod_of_dvd _ (by decide)]

theorem readReg_tallyHead (s : State) (fn : Nat) : s.readReg fn 0x11004 = s.tally.head := by
  rw [State.readReg, show rowOf 0x11004 = none from rfl]
  rfl

theorem readReg_eventSummary (s : State) (fn : Nat) : s.readReg fn 0x1100C = s.tally.summary % 32 := by
  rw [State.readReg, show rowOf 0x1100C = none from rfl]
  rfl

theorem readReg_timeNs (s : State) (fn : Nat) : s.readReg fn 0x6008 = s.devNs % 1000000000 := by
  rw [State.readReg, show rowOf 0x6008 = none from rfl]
  rfl

/-- The device with the value of a read noted (R459). -/
def State.read (s : State) (fn off size : Nat) : State :=
  { s with regs := { s.regs with lastRead := BitVec.ofNat 64 (s.busValue fn off size) } }

/-- A read of TALLY_HEAD with ACK answers the head, and marks the entries before it as read (R421, R475). -/
theorem tallyHeadAckRead_acks {s : State} {size : Nat} (hreach : s.Reaches 0) (hpriv : s.host.privileged = true) (hsize : size = 4 ∨ size = 8) :
    ∃ t, exec (.tallyHeadAckRead 0 size) s = .next t ∧ t.tally = { s.tally with ackedTo := s.tally.head } ∧
      t.regs.lastRead.toNat % 2 ^ 32 = s.tally.head % 2 ^ 32 ∧ t = { s with regs := { s.regs with lastRead := t.regs.lastRead }, tally := t.tally } := by
  obtain ⟨c, hblock⟩ := blockOf_isSome s 0x11004 (by decide)
  have haccess : isGuarded 0x11004 = true → s.privileged 0 = true := fun _ => privileged_zero hpriv
  have hexec : exec (.tallyHeadAckRead 0 size) s = .next { s.read 0 0x11004 size with tally := { s.tally with ackedTo := s.tally.head } } :=
    congrArg _ (busRead_reg _ hreach rfl (by omega) hblock haccess)
  refine ⟨_, hexec, rfl, (toNat_ofNat_mod _).trans ?_, rfl⟩
  rw [busValue_low hblock haccess rfl (by decide) hsize, readReg_tallyHead]

/-- A read of EVENT_SUMMARY answers the class bits, and clears them (R475). -/
theorem eventSummaryRead_clears {s : State} {size : Nat} (hreach : s.Reaches 0) (hpriv : s.host.privileged = true) (hsize : size = 4 ∨ size = 8) :
    ∃ t, exec (.eventSummaryRead 0 size) s = .next t ∧ t.tally = { s.tally with summary := 0 } ∧ t.regs.lastRead.toNat % 2 ^ 32 = s.tally.summary % 32 ∧
      t = { s with regs := { s.regs with lastRead := t.regs.lastRead }, tally := t.tally } := by
  obtain ⟨c, hblock⟩ := blockOf_isSome s 0x1100C (by decide)
  have haccess : isGuarded 0x1100C = true → s.privileged 0 = true := fun _ => privileged_zero hpriv
  have hexec : exec (.eventSummaryRead 0 size) s = .next { s.read 0 0x1100C size with tally := { s.tally with summary := 0 } } :=
    congrArg _ (busRead_reg _ hreach rfl (by omega) hblock haccess)
  refine ⟨_, hexec, rfl, (toNat_ofNat_mod _).trans ?_, rfl⟩
  rw [busValue_low hblock haccess rfl (by decide) hsize, readReg_eventSummary, Nat.mod_eq_of_lt (by omega)]

/-- A read of TIME_NS answers the nanoseconds, and latches the seconds of the same instant (R376). -/
theorem timeNsRead_latches {s : State} {fn : Nat} (hreach : s.Reaches fn) : ∃ t, exec (.timeNsRead fn) s = .next t ∧
    t.regs.lastRead.toNat = s.devNs % 1000000000 ∧ t.clock = { s.clock with latchSec := s.devNs / 1000000000 } ∧
    t = { s with regs := { s.regs with lastRead := t.regs.lastRead }, clock := t.clock } := by
  obtain ⟨c, hblock⟩ := blockOf_isSome s 0x6008 (by decide)
  have haccess : isGuarded 0x6008 = true → s.privileged fn = true := fun h => absurd h (by decide)
  have hexec : exec (.timeNsRead fn) s = .next (s.read fn 0x6008 4).latchSeconds := congrArg _ (busRead_reg _ hreach rfl le_rfl hblock haccess)
  refine ⟨_, hexec, ?_, rfl, rfl⟩
  refine (BitVec.toNat_ofNat _ _).trans ?_
  rw [busValue_word hblock haccess rfl (by decide), readReg_timeNs]
  omega

/-! ## TIME_CMD and TIME_RATE -/

theorem sext_toNat (v : Word) : sext 32 v.toNat = v.toInt := by
  rw [sext, BitVec.toInt_eq_toNat_cond, Nat.mod_eq_of_lt v.isLt]
  rfl

/-- A register that holds no parity fault any more leaves the value of every other register (R479). -/
theorem reg_mend (s : State) {off idx o i : Nat} (h : (o, i) ≠ (off, idx)) : (s.mend off idx).reg o i = s.reg o i := by
  have hfaulted : (s.mend off idx).regs.faulted o i = s.regs.faulted o i := by
    rw [State.mend, Regs.faulted, Regs.faulted, Bool.eq_iff_iff, List.contains_iff_mem, List.contains_iff_mem, List.mem_filter]
    simp [h]
  rw [State.reg, hfaulted]
  rfl

theorem timeLocked_mend (s : State) : (s.mend 0x6028 0).timeLocked = s.timeLocked := by
  have hsource : (s.mend 0x6028 0).timeSource = s.timeSource := by
    rw [State.timeSource, State.regF, reg_mend s (by decide)]
    rfl
  rw [State.timeLocked, hsource]
  rfl

section Time

variable {s : State} (hreach : s.Reaches 0) (hpriv : s.host.privileged = true) (hfree : s.timeLocked = false)
include hreach hpriv

theorem exec_timeCmdSet : exec (.timeCmdSet 0) s = .next (s.timeSet 0) := by
  obtain ⟨c, hblock⟩ := blockOf_isSome s 0x6020 (by decide)
  exact congrArg Host.Outcome.next (busWrite_reg hreach rfl (by decide) hblock fun _ => privileged_zero hpriv)

theorem exec_timeCmdStep : exec (.timeCmdStep 0) s = .next (s.timeStep 0) := by
  obtain ⟨c, hblock⟩ := blockOf_isSome s 0x6020 (by decide)
  exact congrArg Host.Outcome.next (busWrite_reg hreach rfl (by decide) hblock fun _ => privileged_zero hpriv)

include hfree

theorem exec_timeRateWrite (v : Word) : exec (.timeRateWrite 0 v) s = .next ((s.mend 0x6028 0).timeRate 0 v.toNat) := by
  obtain ⟨c, hblock⟩ := blockOf_isSome s 0x6028 (by decide)
  have hwrite := busWrite_reg (v := v.toNat) hreach rfl (by decide) hblock fun _ => privileged_zero hpriv
  rw [BitVec.ofNat_toNat, BitVec.setWidth_eq] at hwrite
  refine congrArg Host.Outcome.next (hwrite.trans ?_)
  change (if s.timeLocked then s else s.mend 0x6028 0).timeRate 0 v.toNat = _
  rw [hfree]
  rfl

/-- SET steps device time to TIME_SET, where PPS is not the source (R360, R376). -/
theorem timeCmdSet_sets (hsource : s.timeSource ≠ .pps) : ∃ t, exec (.timeCmdSet 0) s = .next t ∧ t.clock.state = .free ∧
    (t.clock.dev : Int) = s.clock.dev + ((s.timeSetNs (s.regF 0x6014 0 29 0) : Int) - s.devNs) * devUnit ∧
    t.counter Ctr.timeStep 0 = (s.counter Ctr.timeStep 0 + 1) % 2 ^ 64 := by
  obtain ⟨d, hd⟩ : ∃ d, d = (s.timeSetNs (s.regF 0x6014 0 29 0) : Int) - s.devNs := ⟨_, rfl⟩
  obtain ⟨u, hu⟩ : ∃ u, u = s.stepBy d := ⟨_, rfl⟩
  have hset : s.timeSet 0 = { u with clock := { u.clock with state := .free, goodRun := 0 } } := by
    rw [State.timeSet, hfree, if_neg Bool.false_ne_true, if_neg hsource, State.stepTo, ← hd, ← hu]
    rfl
  refine ⟨_, (exec_timeCmdSet hreach hpriv).trans (congrArg _ hset), rfl, ?_, ?_⟩
  · rw [← hd]
    refine (congrArg (fun v : State => (v.clock.dev : Int)) hu).trans (dev_stepBy (step_nonneg ?_))
    omega
  · exact (congrArg (fun v : State => v.counter Ctr.timeStep 0) hu).trans (counter_stepBy s d)

/-- SET waits for the next edge, where PPS is the source (R359, R376). -/
theorem timeCmdSet_waits (hsource : s.timeSource = .pps) : ∃ t, exec (.timeCmdSet 0) s = .next t ∧
    t = { s with clock := { s.clock with ppsSetPending := true } } := by
  refine ⟨_, (exec_timeCmdSet hreach hpriv).trans (congrArg _ ?_), rfl⟩
  rw [State.timeSet, hfree, if_neg Bool.false_ne_true, if_pos hsource]

/-- STEP moves device time by TIME_STEP, and ends LOCKED (R358, R360, R376). -/
theorem timeCmdStep_steps (hpos : 0 ≤ (s.clock.dev : Int) + sext 32 (s.reg 0x6024 0) * devUnit) : ∃ t, exec (.timeCmdStep 0) s = .next t ∧
    (t.clock.dev : Int) = s.clock.dev + sext 32 (s.reg 0x6024 0) * devUnit ∧
    t.clock.state = (if s.clock.state = .locked then .free else s.clock.state) ∧ t.counter Ctr.timeStep 0 = (s.counter Ctr.timeStep 0 + 1) % 2 ^ 64 := by
  obtain ⟨d, hd⟩ : ∃ d, d = sext 32 (s.reg 0x6024 0) := ⟨_, rfl⟩
  rw [← hd] at hpos ⊢
  obtain ⟨u, hu⟩ : ∃ u, u = s.stepBy d := ⟨_, rfl⟩
  have hstep : s.timeStep 0 = if u.clock.state = .locked then { u with clock := { u.clock with state := .free, goodRun := 0 } } else u := by
    rw [State.timeStep, ← hd]
    dsimp only
    rw [hfree, if_neg Bool.false_ne_true, if_neg (Int.not_lt.mpr hpos), ← hu]
  have hstate : u.clock.state = s.clock.state := by rw [hu, stepBy_clock]
  have hdev : (u.clock.dev : Int) = s.clock.dev + d * devUnit := hu ▸ dev_stepBy hpos
  have hcounter : u.counter Ctr.timeStep 0 = (s.counter Ctr.timeStep 0 + 1) % 2 ^ 64 := hu ▸ counter_stepBy s d
  refine ⟨_, (exec_timeCmdStep hreach hpriv).trans (congrArg _ hstep), ?_⟩
  rw [hstate]
  split
  · exact ⟨hdev, rfl, hcounter⟩
  · exact ⟨hdev, hstate, hcounter⟩

/-- TIME_RATE is brought into its range, and a rewrite ends a parity fault (R376, R479). -/
theorem timeRateWrite_clamps (v : Word) : ∃ t, exec (.timeRateWrite 0 v) s = .next t ∧ t.regs.faulted 0x6028 0 = false ∧
    t = { s with clock := { s.clock with rate := max (-512000000) (min 512000000 v.toInt) }, regs := { s.regs with faults := t.regs.faults } } := by
  have hrate : (s.mend 0x6028 0).timeRate 0 v.toNat =
      { s with clock := { s.clock with rate := max (-512000000) (min 512000000 v.toInt) }, regs := { s.regs with faults := s.regs.faults.filter fun f => f ≠ (0x6028, 0) } } := by
    rw [State.timeRate, sext_toNat]
    exact if_neg (ne_true_of_eq_false ((timeLocked_mend s).trans hfree))
  refine ⟨_, (exec_timeRateWrite hreach hpriv hfree v).trans (congrArg _ hrate), ?_, rfl⟩
  simp [Regs.faulted]

end Time

/-- Settles O20: each read and each command by its lemma. The reads with an effect are R475's, and a step is R360's, counted where it is commanded as log
entry 24 says. -/
theorem readsAndTimeCommandsTakeEffect : Obligations.ReadsAndTimeCommandsTakeEffect := by
  unfold Obligations.ReadsAndTimeCommandsTakeEffect
  refine ⟨fun s size => ⟨fun hreach hpriv hsize => ⟨tallyHeadAckRead_acks hreach hpriv hsize, eventSummaryRead_clears hreach hpriv hsize⟩,
    fun fn => timeNsRead_latches⟩, fun s hreach hpriv hfree => ⟨?set, ?wait, ?step, ?rate⟩⟩
  case set => exact timeCmdSet_sets hreach hpriv hfree
  case wait => exact timeCmdSet_waits hreach hpriv hfree
  case step => exact timeCmdStep_steps hreach hpriv hfree
  case rate => exact timeRateWrite_clamps hreach hpriv hfree

end Sys2Proof.Machine

/-! # FORCE_VIEW, LEAVE and the LINK fields

A forced view keeps the members that are named (R391), LEAVE writes no field of FZL_CTRL (R392, R477), and a LINK boundary takes the affected ports down
before the fields apply (R469, R470). -/

namespace Sys2Proof.Machine

/-! ## FORCE_VIEW -/

theorem view_of_spine {s t : State} (h : s.spine = t.spine) : s.fabric.viewNo = t.fabric.viewNo ∧ s.fabric.members = t.fabric.members := by
  simp only [State.spine, Prod.mk.injEq] at h
  obtain ⟨-, -, -, -, -, -, -, hview, hmembers, -⟩ := h
  exact ⟨hview, hmembers⟩

/-- A view that is taken has its number and its members (R390). -/
theorem view_adopt (s : State) (viewNo members : Nat) : (s.adopt viewNo members).fabric.viewNo = viewNo % 65536 ∧ (s.adopt viewNo members).fabric.members = members := by
  unfold State.adopt
  extract_lets gone beats f u v lost w x
  obtain ⟨hview, hmembers⟩ : u.fabric.viewNo = viewNo % 65536 ∧ u.fabric.members = members := ⟨rfl, rfl⟩
  have hspine : ((x.membersLost gone).resendStreams).acksDone.spine = u.spine := by
    simp only [State.acksDone_spine, State.resendStreams_spine, State.membersLost_spine]
    refine (foldl_spine _ _ _ fun s i => State.peerGone_spine s i).trans ((foldl_spine _ _ _ fun s t => State.dropHandover_spine s t).trans ?_)
    exact State.log_spine _ _ _ _ _ _ _
  obtain ⟨h1, h2⟩ := view_of_spine hspine
  exact ⟨h1.trans hview, h2.trans hmembers⟩

/-- Bits set in turn, each as its number says: those listed are as they say, the others stay. -/
theorem bit_foldl_setBit (b : Nat → Bool) (l : List Nat) (v i : Nat) : bit (l.foldl (fun v i => setBit v i (b i)) v) i = if i ∈ l then b i else bit v i := by
  induction l generalizing v with
  | nil => simp
  | cons x l ih =>
    rw [List.foldl_cons, ih, bit_setBit]
    by_cases hl : i ∈ l
    · simp [hl]
    · by_cases hx : i = x
      · simp [hx]
      · simp [hl, hx]

theorem mem_bitList {v n i : Nat} : i ∈ bitList v n ↔ i < n ∧ bit v i = true := by rw [bitList, List.mem_filter, List.mem_range]

/-- The members of a forced view: those that are reached, and the device (R391). -/
def State.forced (s : State) (r : Nat) : Nat := setBit ((bitList s.fabric.members 64).foldl (fun v i => setBit v i (bit r i)) 0) s.self true

theorem bit_forced_self (s : State) (r : Nat) : bit (s.forced r) s.self = true := by rw [State.forced, bit_setBit, if_pos rfl]

theorem bit_forced {s : State} {i : Nat} (hi : i < 64) (hself : i ≠ s.self) (r : Nat) : bit (s.forced r) i = (bit s.fabric.members i && bit r i) := by
  rw [State.forced, bit_setBit, if_neg hself, bit_foldl_setBit]
  simp only [mem_bitList, hi, true_and]
  cases bit s.fabric.members i with
  | true => rfl
  | false => exact Nat.zero_testBit i

theorem view_forceView (s : State) (r : Nat) : (s.forceView r).fabric.viewNo = (s.fabric.viewNo + 1) % 65536 ∧ (s.forceView r).fabric.members = s.forced r := by
  unfold State.forceView
  extract_lets members n body
  obtain ⟨hview, hmembers⟩ := view_adopt (((bitList members 64).filter fun i => i ≠ s.self).foldl (fun (s : State) p => s.sendFz 0x53 0 p 0 body) s) n members
  exact ⟨hview.trans (Nat.mod_mod _ _), hmembers⟩

theorem writeWord_of_access {s : State} {fn off : Nat} {c : Cap} (hblock : s.blockOf off = some c) (haccess : isGuarded off = true → s.privileged fn = true)
    (f : State → State) : s.writeWord fn off f = f s := by
  rw [State.writeWord, hblock]
  refine if_neg fun h => ?_
  rw [Bool.and_eq_true] at h
  rw [haccess h.1] at h
  exact nomatch h.2

theorem springReady_of_none {s : State} (h : s.regs.springStalled = []) (fn : Nat) : s.springReady fn s.regs.springStalled.length = s := by
  rw [h]
  rfl

/-- FORCE_VIEW forms the next view from the members named (R391). -/
theorem forceView_forms {s : State} (hreach : s.Reaches 0) (hpriv : s.host.privileged = true) (r : Nat) : ∃ t, exec (.forceView 0 r) s = .next t ∧
    t.fabric.viewNo = (s.fabric.viewNo + 1) % 65536 ∧ bit t.fabric.members s.self = true ∧
    ∀ i, i < 64 → i ≠ s.self → bit t.fabric.members i = (bit s.fabric.members i && bit r i) := by
  obtain ⟨hhost, hstalled⟩ := hreach
  obtain ⟨c, hblock⟩ := blockOf_isSome s 0x8004 (by decide)
  have hexec : exec (.forceView 0 r) s = .next (s.forceView r) := by
    rw [exec, execForceView, hhost, springReady_of_none hstalled, writeWord_of_access hblock fun _ => privileged_zero hpriv]
    rfl
  obtain ⟨hview, hmembers⟩ := view_forceView s r
  refine ⟨_, hexec, hview, ?_, fun i hi hself => ?_⟩
  · rw [hmembers, bit_forced_self]
  · rw [hmembers, bit_forced hi hself]

/-! ## LEAVE -/

/-- From s to t registers were applied and power domains woken: no shadow and nothing else changed. -/
def Applied (s t : State) : Prop := ∃ applied faults waiting domains,
  t = { s with regs := { s.regs with applied := applied, faults := faults, waiting := waiting }, power := { s.power with domains := domains } }

theorem Applied.refl (s : State) : Applied s s := ⟨_, _, _, _, rfl⟩

theorem Applied.trans {a b c : State} (h1 : Applied a b) (h2 : Applied b c) : Applied a c := by
  obtain ⟨_, _, _, _, rfl⟩ := h1
  obtain ⟨_, _, _, _, rfl⟩ := h2
  exact ⟨_, _, _, _, rfl⟩

theorem Applied.ite {s a b : State} {p : Prop} [Decidable p] (ha : Applied s a) (hb : Applied s b) : Applied s (if p then a else b) := by
  split
  · exact ha
  · exact hb

/-- From s to t power domains were woken. -/
def Woken (s t : State) : Prop := ∃ domains, t = { s with power := { s.power with domains := domains } }

theorem woken_foldl {α : Type} {f : State → α → State} (hf : ∀ s a, Woken s (f s a)) (l : List α) (s : State) : Woken s (l.foldl f s) := by
  induction l generalizing s with
  | nil => exact ⟨_, rfl⟩
  | cons a l ih =>
    obtain ⟨d, hd⟩ := hf s a
    obtain ⟨e, he⟩ := ih (f s a)
    rw [hd] at he
    exact ⟨e, by rw [List.foldl_cons, hd, he]⟩

/-- The domains of enabled ports wake, and nothing else changes (R431). -/
theorem woken_wakePorts (s : State) : Woken s s.wakePorts := by
  unfold State.wakePorts
  extract_lets wake u
  have hwake : ∀ t d n, Woken t (wake t d n) := fun t d n => ⟨_, rfl⟩
  obtain ⟨d, hd⟩ : Woken s u := by
    simp only [u]
    split
    · exact hwake _ _ _
    · exact ⟨_, rfl⟩
  obtain ⟨e, he⟩ := woken_foldl (f := fun (t : State) p => wake t (5 + p) 200000) (fun t p => hwake t _ _) ((List.range u.fzPorts).filter fun p => bit (u.reg 0x8004 0) p && !u.single) u
  rw [hd] at he
  exact ⟨e, by rw [hd]; exact he⟩

theorem applied_applied (s : State) (off : Nat) : Applied s (s.applied off) := by
  unfold State.applied
  refine Applied.ite ?_ (Applied.refl s)
  obtain ⟨d, hd⟩ := woken_wakePorts s
  exact ⟨_, _, _, d, hd⟩

/-- The shadow that a write of a row's register leaves (R461, R469). -/
def State.shadowed (s : State) (fn : Nat) (r : Row) (val : Nat) : State :=
  { s with regs := s.regs.setShadow s.chip r.off (s.instOf fn r) (BitVec.ofNat 32 (r.newShadow (s.regs.shadowOf s.chip r.off (s.instOf fn r)).toNat val)) }

/-- A write of a row's register sets its shadow; what else it does is to apply fields and to wake domains (R469). -/
theorem applied_writeRow (s : State) (fn : Nat) (r : Row) (val : Nat) : Applied (s.shadowed fn r val) (s.writeRow fn r val) := by
  unfold State.writeRow
  extract_lets i new u now link late v w wait regs x
  have hu : Applied (s.shadowed fn r val) u := Applied.refl _
  have hv : Applied u v := Applied.ite (Applied.refl u) ⟨_, _, _, _, rfl⟩
  have hw : Applied v w := Applied.ite ⟨_, _, _, _, rfl⟩ (Applied.refl v)
  have hx : Applied w x := Applied.ite ⟨_, _, _, _, rfl⟩ (Applied.refl w)
  exact (((hu.trans hv).trans hw).trans hx).trans (applied_applied x r.off)

/-- The row of FZL_CTRL (R397). -/
def fzlCtrl : Row :=
  { off := 0x8004, guarded := true, fields := [rw 5 0 0 .link, rw 6 6 0, { hi := 7, lo := 7, acc := .w1s }, { hi := 8, lo := 8, acc := .w1s }, rsv 31 9] }

theorem rowOf_fzlCtrl : rowOf 0x8004 = some fzlCtrl := by decide

/-- The word that a write of LEAVE as one bit becomes: FZL_CTRL as it reads, with LEAVE alone of the bits that act (R477). -/
def State.leaveWord (s : State) : Word := BitVec.ofNat 32 (setBit (setBit (setBit (s.readReg 0 0x8004) 7 false) 8 false) 7 true)

theorem bit_leaveWord (s : State) {i : Nat} (hi : i < 32) : bit s.leaveWord.toNat i =
    if i = 7 then true else if i = 8 then false else bit (s.regs.shadowOf s.chip 0x8004 0).toNat i := by
  have hread : s.readReg 0 0x8004 = setBit (setBit (s.regs.shadowOf s.chip 0x8004 0).toNat 7 s.fabric.leaving) 8 false := by
    rw [State.readReg, rowOf_fzlCtrl]
    rfl
  rw [State.leaveWord, BitVec.toNat_ofNat, bit, Nat.testBit_mod_two_pow, decide_eq_true hi, Bool.true_and]
  change bit _ i = _
  rw [bit_setBit, bit_setBit, bit_setBit, hread, bit_setBit, bit_setBit]
  by_cases h7 : i = 7
  · simp [h7]
  · by_cases h8 : i = 8
    · simp [h8]
    · simp [h7, h8]

/-- LEAVE leaves the shadow of FZL_CTRL: every read-write bit is written as it reads. -/
theorem newShadow_leaveWord (s : State) : fzlCtrl.newShadow (s.regs.shadowOf s.chip 0x8004 0).toNat s.leaveWord.toNat = (s.regs.shadowOf s.chip 0x8004 0).toNat := by
  refine Nat.eq_of_testBit_eq fun i => ?_
  refine (bit_mergeFields _ _ _ _ i).trans ?_
  split
  · next hcovered =>
    have hi : i < 32 ∧ i ≠ 7 ∧ i ≠ 8 := by
      simp only [fzlCtrl, rw, rsv, Bool.decide_and, List.any_cons, decide_true, zero_le, Bool.true_and, reduceCtorEq, decide_false, Bool.false_and, List.any_nil,
        Bool.or_false, Bool.false_or, Bool.or_eq_true, decide_eq_true_eq, Bool.and_eq_true] at hcovered
      omega
    obtain ⟨hi, h7, h8⟩ := hi
    rw [bit_leaveWord s hi, if_neg h7, if_neg h8]
    rfl
  · rfl

theorem busWrite_bitRegion {s : State} {fn off v : Nat} (h : s.Reaches fn) (halign : off % 4 = 0) (hlow : 0x800000 ≤ off) (hhigh : off < 0x1000000) :
    s.busWrite fn off 4 v = s.writeAlias fn off (BitVec.ofNat 32 v) := by
  obtain ⟨hhost, hstalled⟩ := h
  have hmsix : ¬ (0x400000 ≤ off ∧ off < 0x800000) := fun h => absurd hlow (Nat.not_le.mpr h.2)
  have hdirect : ¬ off < 0x40000 := by omega
  rw [State.busWrite, hhost, springReady_of_none hstalled]
  simp only [Bool.not_true, Bool.false_eq_true, if_false, halign, and_true, if_true, State.write4, hdirect, hmsix, hlow, hhigh, and_self]
  rfl

/-- A W1S bit written alone is a write of its register with no other W1S bit of it (R477). -/
theorem writeAlias_w1s (s : State) (fn : Nat) {a i : Nat} (halign : a % 4 = 0) (hi : i < 32) (hkind : aliasKind a i = (false, true)) :
    s.writeAlias fn (0x800000 + (a * 8 + i) * 4) 1 =
      s.writeWord fn a fun s => s.writeReg fn a (BitVec.ofNat 32 (setBit (setBit (setBit (s.readReg fn a) 7 false) 8 false) i true)) := by
  have ha : (0x800000 + (a * 8 + i) * 4 - 0x800000) / 4 / 32 * 4 = a := by omega
  have hbit : (0x800000 + (a * 8 + i) * 4 - 0x800000) / 4 % 32 = i := by omega
  simp only [State.writeAlias, ha, hbit, hkind]
  rfl

theorem shadowOf_shadowed_leave (s : State) : (s.shadowed 0 fzlCtrl s.leaveWord.toNat).regs.shadowOf s.chip 0x8004 0 = s.regs.shadowOf s.chip 0x8004 0 := by
  refine (Store.get_set (regDefault s.chip) (regKey 0x8004 0) (regKey 0x8004 0)
    (BitVec.ofNat 32 (fzlCtrl.newShadow (s.regs.shadowOf s.chip 0x8004 0).toNat s.leaveWord.toNat)) s.regs.shadow).trans ((if_pos rfl).trans ?_)
  rw [newShadow_leaveWord, BitVec.ofNat_toNat, BitVec.setWidth_eq]

/-- LEAVE starts a graceful leave, unless the device is alone in its view, and writes no field (R392, R477). -/
theorem fzlLeave_starts {s : State} (hreach : s.Reaches 0) (hpriv : s.host.privileged = true) : ∃ t, exec (.fzlLeave 0) s = .next t ∧
    t.fabric = { s.fabric with leaving := s.fabric.leaving || !s.others.isEmpty } ∧ t.regs.shadowOf s.chip 0x8004 0 = s.regs.shadowOf s.chip 0x8004 0 := by
  obtain ⟨c, hblock⟩ := blockOf_isSome s 0x8004 (by decide)
  have hctrl : s.writeFzlCtrl 0 s.leaveWord.toNat s.reachable = (s.writeRow 0 fzlCtrl s.leaveWord.toNat).startLeave := by
    rw [State.writeFzlCtrl, rowOf_fzlCtrl]
    dsimp only
    rw [bit_leaveWord s (by decide), bit_leaveWord s (by decide)]
    rfl
  have hexec : exec (.fzlLeave 0) s = .next (s.writeRow 0 fzlCtrl s.leaveWord.toNat).startLeave := by
    rw [exec, execFzlLeave, busWrite_bitRegion hreach (by decide) (by decide) (by decide)]
    exact congrArg _ ((writeAlias_w1s s 0 (by decide) (by decide) (by decide)).trans ((writeWord_of_access hblock (fun _ => privileged_zero hpriv) _).trans hctrl))
  obtain ⟨applied, faults, waiting, domains, hrow⟩ := applied_writeRow s 0 fzlCtrl s.leaveWord.toNat
  rw [hrow] at hexec
  exact ⟨_, hexec, rfl, shadowOf_shadowed_leave s⟩

/-! ## LINK boundaries -/

/-- A port of a block goes down: of the fabric, or of the net (R469). -/
def State.linkDown (fabric : Bool) (s : State) (p : Nat) : State :=
  if fabric then s.portDown p
  else { s with net := { s.net with ports := updAt p (fun (q : NetPort) => { q with up := false, at10g := false, fec := false }) s.net.ports } }

/-- Whether a port of a block is up. -/
def State.linkUp (fabric : Bool) (s : State) (p : Nat) : Bool := if fabric then (s.fzPort p).up else s.portUp p

theorem linkUp_linkDown (fabric : Bool) (s : State) (p i : Nat) : (s.linkDown fabric p).linkUp fabric i = if i = p then false else s.linkUp fabric i := by
  cases fabric with
  | false =>
    change ((updAt p _ s.net.ports)[i]?).any _ = if i = p then false else (s.net.ports[i]?).any _
    rw [getElem?_updAt]
    split
    · cases s.net.ports[i]? <;> rfl
    · rfl
  | true =>
    change (((updAt p _ s.fabric.ports)[i]?).getD {}).up = if i = p then false else ((s.fabric.ports[i]?).getD {}).up
    rw [getElem?_updAt]
    split
    · cases s.fabric.ports[i]? <;> rfl
    · rfl

/-- Ports taken down in turn are down, and only the ports change. -/
theorem linkDowns (fabric : Bool) (l : List Nat) (s : State) : ∃ net fports, l.foldl (State.linkDown fabric) s =
      { s with net := { s.net with ports := net }, fabric := { s.fabric with ports := fports } } ∧
    ∀ i, (l.foldl (State.linkDown fabric) s).linkUp fabric i = if i ∈ l then false else s.linkUp fabric i := by
  induction l generalizing s with
  | nil => exact ⟨_, _, rfl, fun i => by simp⟩
  | cons p l ih =>
    obtain ⟨net, fports, hframe, hup⟩ := ih (s.linkDown fabric p)
    obtain ⟨net', fports', hdown⟩ : ∃ net fports, s.linkDown fabric p = { s with net := { s.net with ports := net }, fabric := { s.fabric with ports := fports } } := by
      cases fabric <;> exact ⟨_, _, rfl⟩
    refine ⟨net, fports, ?_, fun i => ?_⟩
    · rw [List.foldl_cons, hframe, hdown]
    · rw [List.foldl_cons, hup, linkUp_linkDown]
      by_cases hl : i ∈ l <;> simp [hl]

/-- Whether a write that waits is one of a block's LINK registers (R470). -/
def linkWaits (fabric : Bool) (w : Nat × Nat) : Bool := decide (0x8000 ≤ w.1 ∧ w.1 < 0x9000) = fabric && (rowOf w.1).any fun r => !r.linkBits.isEmpty

/-- The ports that the LINK writes of a block take down. -/
def State.linkTaken (fabric : Bool) (s : State) : List Nat :=
  ((s.regs.waiting.filter (linkWaits fabric)).flatMap fun w => ((rowOf w.1).map fun r => s.linkHits w.1 w.2 r).getD []).eraseDups

/-- The LINK fields of a block are applied. -/
def State.linkApplied (fabric : Bool) (s : State) : State :=
  { s with regs := s.regs.applyAt s.chip (fun b => b = Bnd.link) fun off => decide (0x8000 ≤ off ∧ off < 0x9000) = fabric }

theorem exec_shadowApplyLink {fabric : Bool} {s : State} (hwaits : s.regs.waiting.any (linkWaits fabric) = true) :
    exec (.shadowApplyLink fabric) s = .next (((s.linkTaken fabric).foldl (State.linkDown fabric) s).linkApplied fabric).wakePorts := by
  refine (if_neg ?_ : execShadowApplyLink fabric s = _)
  rw [Bool.not_eq_true', Bool.not_eq_false]
  exact hwaits

/-- A boundary with one write that waits for it applies that write, and then none waits (R469, R470). -/
theorem applyAt_single {c : Chip} {p : Bnd → Bool} {q : Nat → Bool} {r : Regs} {w : Nat × Nat} {row : Row} (hw : r.waiting = [w]) (hrow : rowOf w.1 = some row)
    (hdue : dueAt p q w = true) : r.applyAt c p q =
      { r.setApplied c w.1 w.2 (BitVec.ofNat 32 (row.apply p (r.appliedOf c w.1 w.2).toNat (r.shadowOf c w.1 w.2).toNat)) with waiting := [] } := by
  have hnone : r.waiting.filter (fun x => x ≠ w) = [] := by simp [hw]
  rw [applyAt_eq]
  nth_rewrite 1 [hw]
  rw [List.foldl_cons, List.foldl_nil, Regs.applyDue, if_pos hdue, hrow, ← hnone]

theorem appliedOf_setApplied (c : Chip) (r : Regs) (off idx : Nat) (v : Word) : (r.setApplied c off idx v).appliedOf c off idx = v :=
  (Store.get_set _ _ _ _ _).trans (if_pos rfl)

/-- A LINK boundary applies the control register that waits, once the ports it affects are down (R469, R470; which ports those are, log entry 72). -/
theorem shadowApplyLink_applies {s : State} {fabric : Bool} {off : Nat} {r : Row} (hoff : off = (if fabric then 0x8004 else 0x5000)) (hrow : rowOf off = some r)
    (hwait : s.regs.waiting = [(off, 0)]) : ∃ t, exec (.shadowApplyLink fabric) s = .next t ∧ t.regs.waiting = [] ∧
      t.regs.appliedOf s.chip off 0 = BitVec.ofNat 32 (r.apply (fun b => b = .link) (s.regs.appliedOf s.chip off 0).toNat (s.regs.shadowOf s.chip off 0).toNat) ∧
      (∀ p ∈ s.linkHits off 0 r, (if fabric then (t.fzPort p).up else t.portUp p) = false) ∧ t.ops = s.ops ∧ t.rings = s.rings := by
  obtain ⟨hmine, hdue⟩ : linkWaits fabric (off, 0) = true ∧ dueAt (fun b => b = .link) (fun off => decide (0x8000 ≤ off ∧ off < 0x9000) = fabric) (off, 0) = true := by
    cases fabric <;> rw [hoff] <;> decide
  have htaken : s.linkTaken fabric = (s.linkHits off 0 r).eraseDups := by
    rw [State.linkTaken, hwait, List.filter_cons_of_pos hmine, List.filter_nil, List.flatMap_singleton, hrow]
    rfl
  have hexec := exec_shadowApplyLink (s := s) (fabric := fabric) (by rw [hwait, List.any_cons, hmine, Bool.true_or])
  obtain ⟨net, fports, hframe, hup⟩ := linkDowns fabric (s.linkTaken fabric) s
  rw [hframe] at hexec hup
  obtain ⟨domains, hwoken⟩ := woken_wakePorts (State.linkApplied fabric { s with net := { s.net with ports := net }, fabric := { s.fabric with ports := fports } })
  rw [hwoken] at hexec
  have hregs := applyAt_single (c := s.chip) hwait hrow hdue
  refine ⟨_, hexec, ?_, ?_, fun p hp => ?_, rfl, rfl⟩
  · exact congrArg Regs.waiting hregs
  · exact (congrArg (fun x : Regs => x.appliedOf s.chip off 0) hregs).trans (appliedOf_setApplied s.chip s.regs off 0 _)
  · refine (hup p).trans (if_pos ?_)
    rw [htaken, List.mem_eraseDups]
    exact hp

/-! ## Ports of the net -/

section NetPort

variable {s : State} {p : Nat} {q : NetPort} (hq : s.net.ports[p]? = some q)
include hq

theorem netPort_updAt (f : NetPort → NetPort) : (updAt p f s.net.ports)[p]? = some (f q) := by rw [getElem?_updAt, if_pos rfl, hq, Option.map_some]

theorem netLinkChange_down : ∃ t, exec (.netLinkChange p false) s = .next t ∧ t.net.ports[p]? = some { q with up := false, at10g := false, fec := false } ∧
    t = { s with net := { s.net with ports := t.net.ports } } :=
  ⟨_, rfl, netPort_updAt hq _, rfl⟩

/-- An enabled port goes up at the speed and with the FEC that NET_CTRL sets (R365, R377). -/
theorem netLinkChange_up (hup : s.netUp = true) (hen : bit (s.reg 0x5000 0) p = true) (hon : s.domOn 4 = true) : ∃ t r, exec (.netLinkChange p true) s = .next t ∧
    t.net.ports[p]? = some r ∧ r.up = true ∧ r.at10g = bit (s.reg 0x5000 0) (2 + p) ∧
    r.fec = (!bit (s.reg 0x5000 0) (2 + p) && bit (s.reg 0x5000 0) (4 + p)) ∧ r.queue = q.queue ∧ t = { s with net := { s.net with ports := t.net.ports } } := by
  have hok : (true && s.netUp && bit (s.reg 0x5000 0) p && s.domOn 4) = true := by rw [hup, hen, hon]; rfl
  refine ⟨_, _, rfl, netPort_updAt hq _, ?_⟩
  dsimp only
  rw [if_pos hok]
  exact ⟨rfl, Bool.not_not _, rfl, rfl, rfl⟩

end NetPort

/-- Settles O35: each command by its lemma. The speed and FEC of a net port are those of R365 and R377, LEAVE on a lone device that of log entry 34, and the
members that a forced view holds those of log entry 76. -/
theorem fabricControlAndLinksTakeEffect : Obligations.FabricControlAndLinksTakeEffect := by
  unfold Obligations.FabricControlAndLinksTakeEffect
  refine ⟨fun s hreach hpriv => ⟨forceView_forms hreach hpriv, fzlLeave_starts hreach hpriv⟩, fun s => ⟨fun fabric off r => shadowApplyLink_applies, ?net⟩⟩
  case net => exact fun p q hq => ⟨netLinkChange_down hq, netLinkChange_up hq⟩

end Sys2Proof.Machine

/-! # Register writes: keys, guarding and fields

What a permitted write of a key, a mode, HOST_TAG or a row of the register table changes, what a refused one changes (R444, R465 to R471, R477), and the
bridge to the spring (R474). -/

namespace Sys2Proof.Machine

/-! ## Writes that reach their register -/

theorem ofNat_toNat_word (v : Word) : BitVec.ofNat 32 v.toNat = v := by rw [BitVec.ofNat_toNat, BitVec.setWidth_eq]

/-- Whether an offset lies in a block that every part has (R3, R464). -/
abbrev inEveryPart (off : Nat) : Bool :=
  (capTable.filter fun c => !([0x11, 0x20, 0x22, 0x41].contains c.id)).any fun c => decide (c.base ≤ off ∧ off < c.base + c.size)

/-- A write of PF0 in privileged mode reaches a register that every part has. -/
theorem busWrite_privileged {s : State} {off : Nat} (hreach : s.Reaches 0) (hpriv : s.host.privileged = true) (halign : off % 4 = 0) (hlow : off < 0x40000)
    (hblock : inEveryPart off = true) (v : Nat) : s.busWrite 0 off 4 v = s.writeReg 0 off (BitVec.ofNat 32 v) := by
  obtain ⟨c, hc⟩ := blockOf_isSome s off hblock
  exact busWrite_reg hreach halign hlow hc fun _ => privileged_zero hpriv

/-- A write of any function reaches a register that every part has and that is not guarded. -/
theorem busWrite_unguarded {s : State} {fn off : Nat} (hreach : s.Reaches fn) (hopen : isGuarded off = false) (halign : off % 4 = 0) (hlow : off < 0x40000)
    (hblock : inEveryPart off = true) (v : Nat) : s.busWrite fn off 4 v = s.writeReg fn off (BitVec.ofNat 32 v) := by
  obtain ⟨c, hc⟩ := blockOf_isSome s off hblock
  exact busWrite_reg hreach halign hlow hc fun h => absurd h (ne_true_of_eq_false hopen)

/-- A guarded write without access is a guarded access, and nothing else (R467). -/
theorem busWrite_refused {s : State} {fn off : Nat} {c : Cap} (hreach : s.Reaches fn) (halign : off % 4 = 0) (hlow : off < 0x40000)
    (hblock : s.blockOf off = some c) (hguarded : isGuarded off = true) (hpriv : s.privileged fn = false) (v : Nat) :
    s.busWrite fn off 4 v = s.guardedAccess fn off := by
  obtain ⟨hhost, hstalled⟩ := hreach
  rw [State.busWrite, hhost, springReady_of_none hstalled]
  simp only [Bool.not_true, Bool.false_eq_true, if_false, halign, and_true, if_true, State.write4, hlow, State.writeWord, hblock, hguarded, hpriv, Bool.not_false,
    Bool.and_self]
  rfl

/-! ## Refusals -/

/-- A lock violation after a change of the host interface: counted, with that change left (R471). -/
theorem lockViolation_of_host (s : State) (h : HostIf) (fn off : Nat) :
    (State.lockViolation { s with host := h } fn off).host = h ∧
      (State.lockViolation { s with host := h } fn off).counter 0x104 0 = (s.counter 0x104 0 + 1) % 2 ^ 64 ∧
      State.lockViolation { s with host := h } fn off =
        { s with host := (State.lockViolation { s with host := h } fn off).host, tally := (State.lockViolation { s with host := h } fn off).tally } := by
  obtain ⟨hcount, htally⟩ := lockViolation_spec { s with host := h } fn off
  have hhost : (State.lockViolation { s with host := h } fn off).host = h := by rw [htally]
  refine ⟨hhost, hcount, ?_⟩
  rw [hhost]
  exact htally

/-! ## PRIV_KEY and PRIV_CTRL -/

section Priv

variable {s : State} {fn : Nat} (hreach : s.Reaches fn)
include hreach

theorem exec_privKeyWrite (v : Word) : exec (.privKeyWrite fn v) s = .next (s.writePrivKey fn v) := by
  have hwrite := busWrite_unguarded (off := 0x11C) hreach (by decide) rfl (by decide) (by decide) v.toNat
  rw [ofNat_toNat_word] at hwrite
  exact congrArg Host.Outcome.next hwrite

theorem exec_privCtrlWrite (v : Word) : exec (.registerWrite fn 0x120 4 v.toNat) s = .next (s.writePrivCtrl fn v) := by
  have hwrite := busWrite_unguarded (off := 0x120) hreach (by decide) rfl (by decide) (by decide) v.toNat
  rw [ofNat_toNat_word] at hwrite
  exact congrArg Host.Outcome.next hwrite

theorem exec_privEnter : exec (.privEnter fn) s = .next (s.writePrivCtrl fn 1) := exec_privCtrlWrite hreach 1

theorem exec_privLeave : exec (.privLeave fn) s = .next (s.writePrivCtrl fn 2) := exec_privCtrlWrite hreach 2

end Priv

/-- The device with the key of privileged mode used up (R466). -/
def State.privKeyUsed (s : State) : State := { s with host := { s.host with privKeyAt := none } }

theorem writePrivCtrl_enter (s : State) : s.writePrivCtrl 0 1 =
    if s.keyFresh s.host.privKeyAt then { s with host := { s.host with privileged := true, privKeyAt := none } } else s.privKeyUsed.lockViolation 0 0x120 := by
  unfold State.writePrivCtrl
  rw [if_neg (not_not.mpr rfl), if_pos rfl]
  rfl

theorem writePrivCtrl_other (s : State) {v : Word} (henter : v ≠ 1) (hleave : v ≠ 2) : s.writePrivCtrl 0 v = s.privKeyUsed := by
  unfold State.writePrivCtrl
  rw [if_neg (not_not.mpr rfl), if_neg henter, if_neg hleave]
  rfl

/-- Another function's write of a key or of a mode is a guarded access (R466). -/
theorem writePriv_refused (s : State) {fn : Nat} (hfn : fn ≠ 0) (v : Word) :
    s.writePrivKey fn v = s.guardedAccess fn 0x11C ∧ s.writePrivCtrl fn v = s.guardedAccess fn 0x120 := ⟨if_pos hfn, if_pos hfn⟩

/-- A FUNCTION reset of PF0 leaves privileged mode (R441, R466). -/
theorem functionReset_privileged (s : State) : (s.functionReset 0).host.privileged = false := by
  obtain ⟨v, hv, hpriv⟩ : ∃ v : State, s.functionReset 0 = v.syncPool.freeParcels ∧ v.host.privileged = false := ⟨_, rfl, rfl⟩
  obtain ⟨-, -, hhost⟩ := outside_of_spine ((State.freeParcels_spine v.syncPool).trans (State.syncPool_spine v))
  rw [hv, hhost, hpriv]

/-- Settles O15: each write is that of its register, and what a write of PRIV_CTRL does depends on the word and on the key's age (R466). -/
theorem privilegedModeNeedsKey : Obligations.PrivilegedModeNeedsKey := by
  intro s
  refine ⟨fun hreach => ⟨?key, fun hfresh => ?enter, fun hstale => ?late, ?leave, fun v henter hleave => ?other⟩, fun _ => rfl, rfl,
    fun fn hfn hreach v => ⟨?keyOf, ?enterOf, ?leaveOf⟩, functionReset_privileged s, fun _ => ⟨rfl, rfl⟩, fun _ _ => rfl⟩
  case key => exact ⟨_, exec_privKeyWrite hreach _, rfl⟩
  case enter => exact ⟨_, exec_privEnter hreach, by rw [writePrivCtrl_enter, if_pos hfresh]⟩
  case late =>
    refine ⟨_, exec_privEnter hreach, ?_⟩
    rw [writePrivCtrl_enter, if_neg (ne_true_of_eq_false hstale)]
    exact lockViolation_of_host s _ _ _
  case leave => exact ⟨_, exec_privLeave hreach, rfl⟩
  case other => exact ⟨_, exec_privCtrlWrite hreach v, writePrivCtrl_other s henter hleave⟩
  case keyOf =>
    refine ⟨_, exec_privKeyWrite hreach v, ?_⟩
    rw [(writePriv_refused s hfn v).1]
    exact guardedAccess_spec s _ _
  case enterOf =>
    refine ⟨_, exec_privEnter hreach, ?_⟩
    rw [(writePriv_refused s hfn 1).2]
    exact guardedAccess_spec s _ _
  case leaveOf =>
    refine ⟨_, exec_privLeave hreach, ?_⟩
    rw [(writePriv_refused s hfn 2).2]
    exact guardedAccess_spec s _ _

/-! ## HOST_TAG and guarded registers -/

theorem exec_hostTagWrite {s : State} (hreach : s.Reaches 0) (hpriv : s.host.privileged = true) (v : Word) :
    exec (.hostTagWrite 0 v) s = .next (s.writeHostTag 0 v) := by
  have hwrite := busWrite_privileged (off := 0x12C) hreach hpriv rfl (by decide) (by decide) v.toNat
  rw [ofNat_toNat_word] at hwrite
  exact congrArg Host.Outcome.next hwrite

/-- Settles O16: HOST_TAG is written once (R465, R471), and a guarded write without access is a guarded access alone (R467). -/
theorem guardedRegistersRefuse : Obligations.GuardedRegistersRefuse := by
  refine ⟨fun s v hreach hpriv => ⟨fun hfirst => ?first, fun hset => ?again⟩, fun s fn off v c hreach halign hlow hblock hguarded hpriv => ?guarded⟩
  case first => exact ⟨_, exec_hostTagWrite hreach hpriv v, if_neg (ne_true_of_eq_false hfirst)⟩
  case again =>
    refine ⟨_, exec_hostTagWrite hreach hpriv v, ?_⟩
    rw [State.writeHostTag, if_pos hset]
    exact lockViolation_spec s _ _
  case guarded =>
    refine ⟨_, congrArg Host.Outcome.next (busWrite_refused hreach halign hlow hblock hguarded hpriv v), ?_⟩
    exact guardedAccess_spec s _ _

/-! ## RESET_KEY and RESET_CTRL -/

section ResetCtrl

variable {s : State} (hreach : s.Reaches 0) (hpriv : s.host.privileged = true)
include hreach hpriv

theorem exec_resetKeyWrite (v : Word) : exec (.resetKeyWrite 0 v) s = .next (s.writeResetKey v) := by
  have hwrite := busWrite_privileged (off := 0x13018) hreach hpriv rfl (by decide) (by decide) v.toNat
  rw [ofNat_toNat_word] at hwrite
  exact congrArg Host.Outcome.next hwrite

theorem exec_resetCtrlWrite (v : Word) : exec (.registerWrite 0 0x1301C 4 v.toNat) s = .next (s.writeResetCtrl 0 v) := by
  have hwrite := busWrite_privileged (off := 0x1301C) hreach hpriv rfl (by decide) (by decide) v.toNat
  rw [ofNat_toNat_word] at hwrite
  exact congrArg Host.Outcome.next hwrite

theorem exec_resetCtrlWarm : exec (.resetCtrlWarm 0) s = .next (s.writeResetCtrl 0 1) := exec_resetCtrlWrite hreach hpriv 1

theorem exec_resetCtrlCold : exec (.resetCtrlCold 0) s = .next (s.writeResetCtrl 0 2) := exec_resetCtrlWrite hreach hpriv 2

end ResetCtrl

/-- The device with the key of a reset used up (R444). -/
def State.resetKeyUsed (s : State) : State := { s with host := { s.host with resetKeyAt := none } }

/-- With a fresh key RESET_CTRL takes the reset that its LEVEL names, if any (R444). -/
theorem writeResetCtrl_fresh {s : State} (hfresh : s.keyFresh s.host.resetKeyAt = true) (v : Word) : s.writeResetCtrl 0 v =
    if bits v.toNat 1 0 = 1 then s.resetKeyUsed.warmReset 4 else if bits v.toNat 1 0 = 2 then s.resetKeyUsed.coldReset 4 else s.resetKeyUsed := by
  rw [State.writeResetCtrl, hfresh]
  rfl

theorem writeResetCtrl_stale {s : State} (hstale : s.keyFresh s.host.resetKeyAt = false) (v : Word) :
    s.writeResetCtrl 0 v = s.resetKeyUsed.lockViolation 0 0x1301C := by
  rw [State.writeResetCtrl, hstale]
  rfl

theorem boot_warmReset_ne_running (s : State) (cause : Nat) : (s.warmReset cause).power.boot ≠ .running := by
  by_cases hheld : s.power.boot = .heldInReset <;> simp [State.warmReset, State.resetDomains, hheld]

theorem boot_coldReset_ne_running (s : State) (cause : Nat) : (s.coldReset cause).power.boot ≠ .running := by
  by_cases hheld : s.power.boot = .heldInReset <;> simp [State.coldReset, State.resetDomains, hheld]

theorem level_warmReset {s : State} (h : s.power.boot ≠ .heldInReset) (cause : Nat) : (s.warmReset cause).power.level = .warm := if_neg h

/-- Settles O17: a fresh key permits one write, which takes the reset that it names; a stale one is refused and used up (R444). -/
theorem resetNeedsKey : Obligations.ResetNeedsKey := by
  intro s hreach hpriv
  refine ⟨⟨_, exec_resetKeyWrite hreach hpriv _, rfl⟩, fun hfresh => ⟨?warm, ?cold, fun v hwarm hcold => ?other⟩, fun hstale c hc => ?stale⟩
  case warm =>
    refine ⟨_, exec_resetCtrlWarm hreach hpriv, ?_⟩
    rw [writeResetCtrl_fresh hfresh, if_pos (by decide)]
    exact ⟨rfl, boot_warmReset_ne_running _ _, fun h => level_warmReset (s := s.resetKeyUsed) h 4⟩
  case cold =>
    refine ⟨_, exec_resetCtrlCold hreach hpriv, ?_⟩
    rw [writeResetCtrl_fresh hfresh, if_neg (by decide), if_pos (by decide)]
    exact ⟨rfl, boot_coldReset_ne_running _ _, rfl⟩
  case other =>
    refine ⟨_, exec_resetCtrlWrite hreach hpriv v, ?_⟩
    rw [writeResetCtrl_fresh hfresh, if_neg hwarm, if_neg hcold]
    rfl
  case stale =>
    obtain ⟨v, hexec⟩ : ∃ v, exec c s = .next (s.writeResetCtrl 0 v) := by
      obtain rfl | rfl := hc
      · exact ⟨1, exec_resetCtrlWarm hreach hpriv⟩
      · exact ⟨2, exec_resetCtrlCold hreach hpriv⟩
    rw [writeResetCtrl_stale hstale] at hexec
    obtain ⟨hhost, hcount, hframe⟩ := lockViolation_of_host s { s.host with resetKeyAt := none } 0 0x1301C
    exact ⟨_, hexec, hcount, (congrArg State.power hframe :), hhost, hframe⟩

/-! ## Rows of the register table whose fields apply at once -/

/-- Whether a write of the register at an offset does more than set a row's fields (R461). -/
def actsOnWrite (off : Nat) : Bool :=
  decide (off = 0x11C) || decide (off = 0x120) || decide (off = 0x12C) || decide (0x1004 ≤ off ∧ off < 0x1018) || decide (off = 0x1024) ||
    decide (0x2000 ≤ off ∧ off < 0x2018) || decide (off = 0x3010 ∨ off = 0x3014) || decide (off = 0x6020) || decide (off = 0x6028) || decide (off = 0x8004) ||
    decide (off = 0x11010 ∨ off = 0x11014) || decide (off = 0x12004) || decide (off = 0x13018) || decide (off = 0x1301C)

theorem writeReg_of_row (s : State) (fn : Nat) {off : Nat} {r : Row} (hrow : rowOf off = some r) (hplain : actsOnWrite off = false) (v : Word) :
    s.writeReg fn off v = s.writeRow fn r v.toNat := by
  simp only [actsOnWrite, Bool.or_eq_false_iff, decide_eq_false_iff_not] at hplain
  simp only [State.writeReg, hplain, if_false, hrow]

/-- Registers of the table stand at word boundaries below the MSI-X table; only those with a boundary LINK act on a write, or wake ports (R458, R469). -/
theorem regTable_offsets : ∀ r ∈ regTable, r.off % 4 = 0 ∧ r.off < 0x40000 ∧
    ((∀ f ∈ r.fields, f.at_ = .imm) → actsOnWrite r.off = false ∧ ¬ (r.off = 0x5000 ∨ r.off = 0x8004)) := by decide

theorem rowOf_off {off : Nat} {r : Row} (h : rowOf off = some r) : r ∈ regTable ∧ r.off = off :=
  ⟨List.mem_of_find?_eq_some h, by simpa using List.find?_some h⟩

/-- The registers after a word is written to a row whose fields apply at once: shadow and value in force (R469). -/
def Regs.written (c : Chip) (g : Regs) (r : Row) (i val : Nat) : Regs :=
  let new := BitVec.ofNat 32 (r.newShadow (g.shadowOf c r.off i).toNat val)
  (g.setShadow c r.off i new).setApplied c r.off i (BitVec.ofNat 32 (r.apply (fun b => b = .imm) (g.appliedOf c r.off i).toNat new.toNat))

/-- The device after such a write by a function. -/
def State.rowWritten (s : State) (fn : Nat) (r : Row) (val : Nat) : State := { s with regs := s.regs.written s.chip r (s.instOf fn r) val }

theorem linkBits_of_imm {r : Row} (himm : ∀ f ∈ r.fields, f.at_ = .imm) : r.linkBits = [] := by
  rw [Row.linkBits, List.filter_eq_nil_iff.mpr fun f hf => by simp [himm f hf], List.flatMap_nil]

theorem writeRow_of_imm (s : State) (fn : Nat) {r : Row} (himm : ∀ f ∈ r.fields, f.at_ = .imm) (hports : ¬ (r.off = 0x5000 ∨ r.off = 0x8004)) (val : Nat) :
    s.writeRow fn r val = s.rowWritten fn r val := by
  have hlate : (r.fields.any fun f => f.acc = .rw && f.at_ != .imm && f.at_ != .link) = false := List.any_eq_false.mpr fun f hf => by simp [himm f hf]
  simp only [State.writeRow, linkBits_of_imm himm, hlate, State.applied, if_neg hports]
  rfl

/-- A permitted write of such a register. -/
theorem busWrite_row {s : State} {fn off : Nat} {c : Cap} {r : Row} (hreach : s.Reaches fn) (hrow : rowOf off = some r) (himm : ∀ f ∈ r.fields, f.at_ = .imm)
    (hblock : s.blockOf off = some c) (haccess : isGuarded off = true → s.privileged fn = true) (v : Word) :
    s.writeReg fn off v = s.rowWritten fn r v.toNat ∧ ∀ n, s.busWrite fn off 4 n = s.writeReg fn off (BitVec.ofNat 32 n) := by
  obtain ⟨hmem, rfl⟩ := rowOf_off hrow
  obtain ⟨halign, hlow, hplain⟩ := regTable_offsets r hmem
  obtain ⟨hacts, hports⟩ := hplain himm
  exact ⟨(writeReg_of_row s fn hrow hacts v).trans (writeRow_of_imm s fn himm hports _), fun n => busWrite_reg hreach halign hlow hblock haccess⟩

theorem bit_ofNat (x : Nat) {i : Nat} (hi : i < 32) : bit (BitVec.ofNat 32 x).toNat i = bit x i := by
  rw [BitVec.toNat_ofNat, bit, Nat.testBit_mod_two_pow, decide_eq_true hi, Bool.true_and]
  rfl

section Written

variable (c : Chip) (g : Regs) (r : Row) (i val : Nat)

theorem shadowOf_written : (g.written c r i val).shadowOf c r.off i = BitVec.ofNat 32 (r.newShadow (g.shadowOf c r.off i).toNat val) :=
  (Store.get_set _ _ _ _ _).trans (if_pos rfl)

theorem appliedOf_written : (g.written c r i val).appliedOf c r.off i =
    BitVec.ofNat 32 (r.apply (fun b => b = .imm) (g.appliedOf c r.off i).toNat ((g.written c r i val).shadowOf c r.off i).toNat) := by
  rw [shadowOf_written]
  exact (Store.get_set _ _ _ _ _).trans (if_pos rfl)

/-- A register of another offset or index keeps its shadow and its value in force. -/
theorem written_others {o j : Nat} (hi : i < 64) (hj : j < 64) (h : o ≠ r.off ∨ j ≠ i) :
    (g.written c r i val).shadowOf c o j = g.shadowOf c o j ∧ (g.written c r i val).appliedOf c o j = g.appliedOf c o j := by
  have hkey : regKey o j ≠ regKey r.off i := by
    unfold regKey
    omega
  exact ⟨(Store.get_set _ _ _ _ _).trans (if_neg hkey), (Store.get_set _ _ _ _ _).trans (if_neg hkey)⟩

/-- A bit of the shadow after a write: the written bit in a read-write field, else its old value (R461, R468). -/
theorem bit_shadow_written {j : Nat} (hj : j < 32) : bit ((g.written c r i val).shadowOf c r.off i).toNat j =
    if r.fields.any (fun f => f.acc = .rw && decide (f.lo ≤ j ∧ j ≤ f.hi)) then bit val j else bit (g.shadowOf c r.off i).toNat j := by
  rw [shadowOf_written, bit_ofNat _ hj, Row.newShadow, bit_mergeFields]

/-- A bit of the value in force after a write of a row whose fields apply at once (R469). -/
theorem bit_applied_written (himm : ∀ f ∈ r.fields, f.at_ = .imm) {j : Nat} (hj : j < 32) : bit ((g.written c r i val).appliedOf c r.off i).toNat j =
    if r.fields.any (fun f => f.acc = .rw && decide (f.lo ≤ j ∧ j ≤ f.hi)) then bit val j else bit (g.appliedOf c r.off i).toNat j := by
  have hsame : (r.fields.any fun f => (f.acc = .rw && decide (f.at_ = .imm)) && decide (f.lo ≤ j ∧ j ≤ f.hi)) =
      r.fields.any fun f => f.acc = .rw && decide (f.lo ≤ j ∧ j ≤ f.hi) :=
    Bool.eq_iff_iff.mpr (by simp only [List.any_eq_true]; exact exists_congr fun f => and_congr_right fun hf => by simp [himm f hf])
  rw [appliedOf_written, bit_ofNat _ hj, Row.apply, bit_mergeFields, hsame]
  split
  · next hcovered => rw [bit_shadow_written c g r i val hj, if_pos hcovered]
  · rfl

end Written

theorem readReg_of_row (s : State) (fn : Nat) {off : Nat} {r : Row} (hrow : rowOf off = some r) (htrig : off ≠ 0x700C) (hctrl : off ≠ 0x8004) :
    s.readReg fn off = (s.regs.shadowOf s.chip off (s.instOf fn r)).toNat := by
  rw [State.readReg, hrow]
  exact (if_neg htrig).trans (if_neg hctrl)

/-- A read-write bit written alone is a write of its register as it reads, with that bit as written (R477). -/
theorem writeAlias_rw (s : State) (fn : Nat) {a i : Nat} (halign : a % 4 = 0) (hi : i < 32) (hkind : aliasKind a i = (true, false))
    (hspring : ¬ (a = 0x11010 ∨ a = 0x11014)) (hctrl : a ≠ 0x8004) (b : Bool) :
    s.writeAlias fn (0x800000 + (a * 8 + i) * 4) (if b then 1 else 0) =
      s.writeWord fn a fun s => s.writeReg fn a (BitVec.ofNat 32 (setBit (s.readReg fn a) i b)) := by
  have ha : (0x800000 + (a * 8 + i) * 4 - 0x800000) / 4 / 32 * 4 = a := by omega
  have hbit : (0x800000 + (a * 8 + i) * 4 - 0x800000) / 4 % 32 = i := by omega
  simp only [State.writeAlias, ha, hbit, hkind, if_neg hspring, if_neg hctrl]
  cases b <;> rfl

theorem aliasKind_of_rw {off i : Nat} {r : Row} {f : Field} (hrow : rowOf off = some r) (hfield : r.fields.find? (fun f => f.lo ≤ i && i ≤ f.hi) = some f)
    (hacc : f.acc = .rw) (hres : f.reserved = false) : aliasKind off i = (true, false) := by
  simp [aliasKind, hrow, hfield, hacc, hres]

section SingleBit

variable {s : State} {fn off i : Nat} {c : Cap} {r : Row} {f : Field} (hreach : s.Reaches fn) (hrow : rowOf off = some r) (himm : ∀ f ∈ r.fields, f.at_ = .imm)
  (htrig : off ≠ 0x700C) (hctrl : off ≠ 0x8004) (hblock : s.blockOf off = some c) (haccess : isGuarded off = true → s.privileged fn = true) (hi : i < 32)
  (hfield : r.fields.find? (fun f => f.lo ≤ i && i ≤ f.hi) = some f) (hacc : f.acc = .rw) (hres : f.reserved = false)
include hreach hrow himm htrig hctrl hblock haccess hi hfield hacc hres

theorem exec_bitAliasWrite (b : Bool) : exec (.bitAliasWrite fn (0x800000 + (off * 8 + i) * 4) (if b then 1 else 0)) s =
    .next (s.rowWritten fn r (BitVec.ofNat 32 (setBit (s.regs.shadowOf s.chip off (s.instOf fn r)).toNat i b)).toNat) := by
  obtain ⟨hmem, hoff⟩ := rowOf_off hrow
  obtain ⟨halign, hlow, hplain⟩ := hoff ▸ regTable_offsets r hmem
  have hspring : ¬ (off = 0x11010 ∨ off = 0x11014) := fun h => by
    have hacts := (hplain himm).1
    simp [actsOnWrite, h] at hacts
  rw [exec, execBitAliasWrite, if_pos ⟨by omega, by omega⟩, busWrite_bitRegion hreach (by omega) (by omega) (by omega), ofNat_toNat_word,
    writeAlias_rw s fn halign hi (aliasKind_of_rw hrow hfield hacc hres) hspring hctrl b, writeWord_of_access hblock haccess, readReg_of_row s fn hrow htrig hctrl,
    (busWrite_row hreach hrow himm hblock haccess _).1]

/-- A bit written alone changes that bit of its register, and nothing else (R477). -/
theorem bitAliasWrite_sets (b : Bool) : ∃ t, exec (.bitAliasWrite fn (0x800000 + (off * 8 + i) * 4) (if b then 1 else 0)) s = .next t ∧ t = { s with regs := t.regs } ∧
    ∀ j, j < 32 → bit (t.regs.shadowOf s.chip off (s.instOf fn r)).toNat j = if j = i then b else bit (s.regs.shadowOf s.chip off (s.instOf fn r)).toNat j := by
  refine ⟨_, exec_bitAliasWrite hreach hrow himm htrig hctrl hblock haccess hi hfield hacc hres b, rfl, fun j hj => ?_⟩
  have hoff := (rowOf_off hrow).2
  subst hoff
  refine (bit_shadow_written s.chip s.regs r (s.instOf fn r) _ hj).trans ?_
  rw [bit_ofNat _ hj, bit_setBit]
  by_cases hji : j = i
  · have hcovered : r.fields.any (fun f => f.acc = .rw && decide (f.lo ≤ j ∧ j ≤ f.hi)) = true := by
      have hf : (decide (f.lo ≤ i) && decide (i ≤ f.hi)) = true := List.find?_some (p := fun f : Field => decide (f.lo ≤ i) && decide (i ≤ f.hi)) hfield
      exact List.any_eq_true.mpr ⟨f, List.mem_of_find?_eq_some hfield, by simpa [hacc, hji] using hf⟩
    rw [if_pos hcovered, if_pos hji]
  · rw [if_neg hji, ite_self]

end SingleBit

/-- Settles O18: a write of a row whose fields apply at once sets its shadow and its value in force (`writeRow_of_imm`), bit by bit as its fields say, and a
write of a single bit is such a write of the register as it reads. That reserved bits of read-write fields take the written bit is log entry 69. -/
theorem registerWritesTakeTheirFields : Obligations.RegisterWritesTakeTheirFields := by
  refine ⟨fun s fn off v c r hreach hrow himm hblock haccess hinst => ?whole, fun s fn off i b c r f hreach hrow himm htrig hctrl hblock haccess hi _ _ hfield hacc hres =>
    bitAliasWrite_sets hreach hrow himm htrig hctrl hblock haccess hi hfield hacc hres b⟩
  case whole =>
    obtain ⟨hreg, hbus⟩ := busWrite_row hreach hrow himm hblock haccess (BitVec.ofNat 32 v)
    have hexec : exec (.registerWrite fn off 4 v) s = _ := congrArg Host.Outcome.next ((hbus v).trans hreg)
    obtain ⟨-, rfl⟩ := rowOf_off hrow
    refine ⟨_, hexec, rfl, fun j hj => ?_, fun j hj => ?_, fun o j hj h => written_others s.chip s.regs r (s.instOf fn r) _ hinst hj h⟩
    · refine (bit_shadow_written s.chip s.regs r (s.instOf fn r) _ hj).trans ?_
      rw [bit_ofNat _ hj]
    · refine (bit_applied_written s.chip s.regs r (s.instOf fn r) _ himm hj).trans ?_
      rw [bit_ofNat _ hj]

/-! ## The bridge to the spring -/

theorem exec_springRegisterWrite {s : State} (hreach : s.Reaches 0) (hpriv : s.host.privileged = true) (v : Word) :
    exec (.springRegisterWrite 0 0x11010 v) s = .next (s.springWrite (0, 0x11010, v)) := by
  have hwrite := busWrite_privileged (off := 0x11010) hreach hpriv rfl (by decide) (by decide) v.toNat
  rw [ofNat_toNat_word] at hwrite
  rw [exec, execSpringRegisterWrite, if_pos (.inl rfl), hwrite]
  rfl

theorem springEffect_alertMask (s : State) (fn : Nat) (v : Word) : s.springEffect (fn, 0x11010, v) = { s with tally := { s.tally with alertMask := v } } := by
  have hmask : BitVec.ofNat 32 (if 0x11010 / 0x100000 = 0 then v.toNat else setBit s.tally.alertMask.toNat (0x11010 / 0x100000 - 1) (bit v.toNat 0)) = v :=
    (congrArg _ (if_pos (by decide))).trans (ofNat_toNat_word v)
  exact congrArg (fun w => ({ s with tally := { s.tally with alertMask := w } } : State)) hmask

/-- The arrival of the only write at the bridge takes it from the queue and has its effect (R474). -/
theorem springArrive_one {s : State} {w : Nat × Nat × Word} (hqueue : s.regs.springQueue = [w]) (hstalled : s.regs.springStalled = []) :
    s.springArrive = State.springEffect { s with regs := { s.regs with springQueue := [] } } w := by
  have hregs : ({ s.regs with springQueue := [], springStalled := [] } : Regs) = { s.regs with springQueue := [] } := by simp [hstalled]
  rw [State.springArrive, hqueue, hstalled]
  exact congrArg (fun g : Regs => State.springEffect { s with regs := g } w) hregs

/-- Settles O19: a write joins the queue of the bridge, and its arrival is its effect (R474). -/
theorem springWriteArrivesLater : Obligations.SpringWriteArrivesLater := by
  refine fun s fn v => ⟨fun hreach hpriv hroom => ⟨_, exec_springRegisterWrite hreach hpriv v, if_pos hroom⟩, fun hqueue hstalled => ?arrives⟩
  case arrives => exact ⟨_, congrArg Host.Outcome.next ((springArrive_one hqueue hstalled).trans (springEffect_alertMask _ fn v)), rfl, rfl, rfl⟩

end Sys2Proof.Machine

/-! # Resets and bring-up

What a WARM and a COLD reset leave (R441), the commands and events that take one (R439, R444, R447, R450, R451, R484, R490), the reset pins (R436, R440, R455),
and the steps of bring-up (R445, R448, R449, R454). -/

namespace Sys2Proof.Machine

/-! ## Reset levels -/

/-- Outside RESET_N a WARM reset starts bring-up again and keeps the log and the counters (R441). -/
theorem wasReset_warmReset {s : State} (hheld : s.power.boot ≠ .heldInReset) (cause : Nat) : WasReset s (s.warmReset cause) cause .warm := by
  have hclock : (s.warmReset cause).clock.state = .unset ∨ (s.warmReset cause).clock.state = .holdover := ite_eq_or_eq _ _ _
  refine ⟨rfl, if_neg hheld, ?boot, rfl, rfl, rfl, rfl, rfl, rfl, rfl, rfl, rfl, rfl, rfl, nofun, fun _ => hclock, rfl⟩
  case boot => simp [State.warmReset, State.resetDomains, hheld]

/-- Outside RESET_N a COLD reset starts bring-up again and clears the log, the counters and device time too (R441). -/
theorem wasReset_coldReset {s : State} (hheld : s.power.boot ≠ .heldInReset) (cause : Nat) : WasReset s (s.coldReset cause) cause .cold := by
  refine ⟨rfl, rfl, ?boot, rfl, rfl, rfl, rfl, rfl, rfl, rfl, rfl, rfl, rfl, rfl, fun _ => rfl, nofun, rfl⟩
  case boot => simp [State.coldReset, State.resetDomains, hheld]

/-- A reset taken from a state with the same log and queue. -/
theorem WasReset.of_tally {s u t : State} {cause : Nat} {l : Level} (h : WasReset u t cause l) (htally : u.tally = s.tally) (hpending : u.pending = s.pending) :
    WasReset s t cause l := by
  unfold WasReset at *
  rwa [htally, hpending] at h

theorem wasReset_noTamper {s t : State} {cause : Nat} {l : Level} (h : WasReset s t cause l) : WasReset s t.noTamper cause l := h

/-! ## Resets that are asked for -/

theorem exec_lcRequestWrite {s : State} (hreach : s.Reaches 0) (hpriv : s.host.privileged = true) (v : Word) :
    exec (.lcRequestWrite 0 v) s = .next (s.writeLcRequest 0 v) := by
  have hwrite := busWrite_privileged (off := 0x12004) hreach hpriv rfl (by decide) (by decide) v.toNat
  rw [ofNat_toNat_word] at hwrite
  exact congrArg Host.Outcome.next hwrite

/-- LC_REQUEST with its key makes the move that is allowed (R451, R457). -/
theorem writeLcRequest_moves {s : State} {v : Nat} {l : LifeCycle} (hkey : bits v 15 8 = 0x6C) (hv : v < 2 ^ 32) (hstate : lifeCycleOf (bits v 2 0) = some l)
    (hmove : s.mayMove l = true) : s.writeLcRequest 0 (BitVec.ofNat 32 v) = s.lifeCycleMove l := by
  have hword : (BitVec.ofNat 32 v).toNat = v := (BitVec.toNat_ofNat _ _).trans (Nat.mod_eq_of_lt hv)
  rw [State.writeLcRequest, hword, if_neg (not_not.mpr hkey), hstate]
  exact if_pos hmove

/-- A reset asked for at the management port is taken with that port's cause (R439, R484). -/
theorem mgmtResetTaken_resets {s : State} (hheld : s.power.boot ≠ .heldInReset) {l : Level} (hasked : s.mgmt.pendingReset = some l) :
    ∃ t, exec .mgmtResetTaken s = .next t ∧ WasReset s t 3 l := by
  simp only [exec, execMgmtResetTaken, hasked]
  cases l with
  | warm => exact ⟨_, rfl, (wasReset_warmReset (by exact hheld) 3).of_tally rfl rfl⟩
  | cold => exact ⟨_, rfl, (wasReset_coldReset (by exact hheld) 3).of_tally rfl rfl⟩

/-- Settles O25: RESET_CTRL with its fresh key (R444), LC_REQUEST with its key (R451, R457) and the management port (R443, R484) each take the reset that they
name, which leaves what its level says (`wasReset_warmReset`, `wasReset_coldReset`). -/
theorem commandedResetsAreTaken : Obligations.CommandedResetsAreTaken := by
  refine fun s hheld => ⟨fun hreach hpriv hfresh => ⟨?warm, ?cold⟩, fun hreach hpriv v l hkey hv hstate hmove => ?move, fun l => mgmtResetTaken_resets hheld⟩
  case warm =>
    refine ⟨_, exec_resetCtrlWarm hreach hpriv, ?_⟩
    rw [writeResetCtrl_fresh hfresh, if_pos (by decide)]
    exact (wasReset_warmReset (s := s.resetKeyUsed) hheld 4).of_tally rfl rfl
  case cold =>
    refine ⟨_, exec_resetCtrlCold hreach hpriv, ?_⟩
    rw [writeResetCtrl_fresh hfresh, if_neg (by decide), if_pos (by decide)]
    exact (wasReset_coldReset (s := s.resetKeyUsed) hheld 4).of_tally rfl rfl
  case move =>
    obtain ⟨u, hu⟩ : ∃ u : State, u = State.wipeKeys { s with chip := { s.chip with lifeCycle := l } } := ⟨_, rfl⟩
    obtain ⟨hboot, htally, hpending, hchip⟩ : u.power.boot ≠ .heldInReset ∧ u.tally = s.tally ∧ u.pending = s.pending ∧ u.chip = { s.chip with lifeCycle := l } := by
      subst hu
      exact ⟨hheld, rfl, rfl, rfl⟩
    have hexec : exec (.lcRequestWrite 0 (BitVec.ofNat 32 v)) s = .next (u.coldReset 8) := by
      rw [exec_lcRequestWrite hreach hpriv, writeLcRequest_moves hkey hv hstate hmove, State.lifeCycleMove, hu]
    exact ⟨_, hexec, (wasReset_coldReset hboot 8).of_tally htally hpending, hchip⟩

/-! ## Resets by events -/

/-- Power-on release leaves nothing volatile, and time counts from it (R439, R489). -/
theorem powerOn_resets (s : State) : ∃ t, exec .powerOn s = .next t ∧ WasReset s t 0 .cold ∧ t.clock.now = 0 ∧ t.power.tamperCause = 0 :=
  ⟨_, rfl, ⟨rfl, rfl, rfl, rfl, rfl, rfl, rfl, rfl, rfl, rfl, rfl, rfl, rfl, rfl, fun _ => rfl, nofun, rfl⟩, rfl, rfl⟩

theorem setBit_ne_zero (v i : Nat) : setBit v i true ≠ 0 := fun h => by
  have hbit := bit_setBit v i i true
  rw [h, if_pos rfl] at hbit
  exact Bool.false_ne_true ((Nat.zero_testBit i).symm.trans hbit)

/-- Outside SCRAPPED a tamper event is counted and latched, and takes a COLD reset (R450). -/
theorem tamperEvent_resets {s : State} (hlife : s.chip.lifeCycle ≠ .scrapped) (hheld : s.power.boot ≠ .heldInReset) (c : TamperCause) :
    WasReset s (s.tamperEvent c) 6 .cold ∧ (s.tamperEvent c).chip.tamperCount = min 255 (s.chip.tamperCount + 1) ∧ (s.tamperEvent c).power.tamperCause ≠ 0 := by
  unfold State.tamperEvent
  dsimp only
  rw [if_neg hlife]
  exact ⟨(wasReset_coldReset (by exact hheld) 6).of_tally rfl rfl, rfl, setBit_ne_zero _ _⟩

section Events

variable {s : State} (hheld : s.power.boot ≠ .heldInReset)
include hheld

/-- The pin of a tamper cause is sampled first (R450, R492). -/
theorem tamper_resets (hlife : s.chip.lifeCycle ≠ .scrapped) (hphase : s.power.boot ≠ .phaseA) (c : TamperCause) : ∃ t, exec (.tamper c) s = .next t ∧
    WasReset s t 6 .cold ∧ t.chip.tamperCount = min 255 (s.chip.tamperCount + 1) ∧ t.power.tamperCause ≠ 0 := by
  obtain ⟨u, hexec, hchip, hpower, htally, hpending⟩ : ∃ u : State, exec (.tamper c) s = .next (u.tamperEvent c) ∧ u.chip = s.chip ∧ u.power = s.power ∧
      u.tally = s.tally ∧ u.pending = s.pending := by
    refine ⟨_, if_neg hphase, ?_⟩
    split
    · simp
    · exact ⟨rfl, rfl, rfl, rfl⟩
  obtain ⟨hreset, hcount, hcause⟩ := tamperEvent_resets (s := u) (hchip ▸ hlife) (hpower ▸ hheld) c
  exact ⟨_, hexec, hreset.of_tally htally hpending, hchip ▸ hcount, hcause⟩

/-- Outside the recommended range for 10 µs, within the tamper window, VDD_CORE takes a COLD reset with the power-on cause (R488, R490). -/
theorem railExcursion_resets (hphase : s.power.boot ≠ .phaseA) {mV us : Nat} (hout : mV < 730 ∨ 770 < mV) (hlow : 660 ≤ mV) (hhigh : mV ≤ 840) (hlong : 10 ≤ us) :
    ∃ t, exec (.railExcursion 0 mV us) s = .next t ∧ WasReset s t 0 .cold := by
  have hexec : exec (.railExcursion 0 mV us) s = .next ((s.toTime (s.clock.now + 10000)).coldReset 0).noTamper := by
    have hwindow : ¬ (mV < 660 ∨ 840 < mV) := by omega
    simp [exec, execRailExcursion, railWindow, hphase, hwindow, hout, hlong]
  refine ⟨_, hexec, wasReset_noTamper ((wasReset_coldReset ?_ 0).of_tally (toTime_tally _ _) (toTime_pending _ _))⟩
  rwa [toTime_power]

/-- Beyond the tamper window an excursion is a tamper event (R450, R490). -/
theorem railExcursion_tampers (hphase : s.power.boot ≠ .phaseA) (hlife : s.chip.lifeCycle ≠ .scrapped) {mV : Nat} (hout : mV < 660 ∨ 840 < mV) (us : Nat) :
    ∃ t, exec (.railExcursion 0 mV us) s = .next t ∧ WasReset s t 6 .cold := by
  have hexec : exec (.railExcursion 0 mV us) s = .next (s.tamperEvent .supply) := by simp [exec, execRailExcursion, railWindow, hphase, hout]
  exact ⟨_, hexec, (tamperEvent_resets hlife hheld .supply).1⟩

theorem securityCoreRequest_resets (hcore : s.domOn 1 = true) : ∃ t, exec .securityCoreRequest s = .next t ∧ WasReset s t 7 .warm :=
  ⟨_, if_pos hcore, wasReset_warmReset hheld 7⟩

end Events

theorem watchdogExpiry_resets {s : State} (hboot : s.power.boot = .running) : ∃ t, exec .watchdogExpiry s = .next t ∧ WasReset s t 5 .warm := by
  refine ⟨_, if_pos hboot, (wasReset_warmReset ?_ 5).of_tally (toTime_tally _ _) (toTime_pending _ _)⟩
  rw [toTime_power, hboot]
  decide

/-- Settles O26: each event by its lemma. The tamper clause is R450's, and the windows of the rails are R488's and R490's. -/
theorem eventResetsAreTaken : Obligations.EventResetsAreTaken := by
  refine fun s => ⟨powerOn_resets s, watchdogExpiry_resets, fun hheld => securityCoreRequest_resets hheld, fun c hlife hheld hphase => tamper_resets hheld hlife hphase c,
    fun mV us hphase hheld hout hlow hhigh hlong => ?rail, fun mV us hphase hheld hlife hout => ?window⟩
  case rail => exact railExcursion_resets hheld hphase hout hlow hhigh hlong
  case window => exact railExcursion_tampers hheld hphase hlife hout us

/-! ## The reset pins -/

/-- RESET_N low takes a WARM reset, which holds (R439, R440). -/
theorem resetNAssert_holds {s : State} (hheld : s.power.boot ≠ .heldInReset) (hphase : s.power.boot ≠ .phaseA) : ∃ t, exec .resetNAssert s = .next t ∧
    t.power.boot = .heldInReset ∧ t.power.cause = 2 ∧ t.power.level = .warm ∧ t.ops = {} ∧ t.rings = {} ∧ t.sess = {} ∧ t.tally = s.tally ∧
      t.power.brought = decide (s.power.boot = .running) := by
  obtain ⟨u, hu⟩ : ∃ u, u = (s.toTime s.filterTime).spend 1 := ⟨_, rfl⟩
  obtain ⟨hpower, htally⟩ : u.power = s.power ∧ u.tally = s.tally := by
    simp [hu]
  have hexec : exec .resetNAssert s =
      .next { u.warmReset 1 with power := { (u.warmReset 1).power with boot := .heldInReset, brought := decide (s.power.boot = .running) } } := by
    rw [exec, execResetNAssert, if_neg (not_or.mpr ⟨hheld, hphase⟩), hu]
  exact ⟨_, hexec, rfl, rfl, level_warmReset (hpower ▸ hheld) 1, rfl, rfl, rfl, htally, rfl⟩

/-- RESET_N high lets bring-up start (R436, R440). -/
theorem resetNRelease_starts {s : State} (hheld : s.power.boot = .heldInReset) : ∃ t, exec .resetNRelease s = .next t ∧ t.power.boot = .start ∧ t.power.parked = false :=
  ⟨_, if_pos hheld, rfl, rfl⟩

/-- A reset that is held for 1 ms after a completed bring-up parks the device (R436). -/
theorem parked_darkens {s : State} (hheld : s.power.boot = .heldInReset) (hlevel : s.power.level = .warm) (hdone : s.power.brought = true)
    (hoption : s.power.options.parkOnResetN = true) (hnot : s.power.parked = false) : ∃ t, exec .parked s = .next t ∧ t.power.parked = true ∧
      t.power.domains = coldDomains s.chip ∧ s.power.resetAt + 1000000 ≤ t.clock.now := by
  refine ⟨_, if_pos (by simp [hheld, hlevel, hdone, hoption, hnot]), rfl, ?_, le_toTime s _⟩
  exact congrArg coldDomains (toTime_chip _ _)

theorem perstNAssert_takesDown {s : State} (hhigh : s.host.perstLow = false) : ∃ t, exec .perstNAssert s = .next t ∧ t.host.linkUp = false ∧ t.host.perstLow = true :=
  ⟨_, if_neg (ne_true_of_eq_false hhigh), rfl, rfl⟩

/-- PERST_N high lets the host unit train, and the link comes up at once where tidy firmware runs (R454, R455). -/
theorem perstNRelease_trains {s : State} (hlow : s.host.perstLow = true) (hon : s.domOn 3 = true) : ∃ t, exec .perstNRelease s = .next t ∧ t.host.perstLow = false ∧
    t.host.detect = true ∧ t.host.linkUp = decide (s.power.boot = .running) ∧ t = { s with host := t.host } := by
  refine ⟨_, if_pos hlow, rfl, hon, ?_, rfl⟩
  exact (congrArg (· && decide (s.power.boot = .running)) hon).trans (Bool.true_and _)

theorem hostPathFailure_takesDown {s : State} (hup : s.host.linkUp = true) : ∃ t, exec .hostPathFailure s = .next t ∧ t.host.linkUp = false :=
  ⟨_, if_pos hup, rfl⟩

/-- Settles O27: each pin by its lemma. RESET_N follows R440, PARKED R436, PERST_N R442 and R455, and the host path R415. -/
theorem resetPinsHoldAndRelease : Obligations.ResetPinsHoldAndRelease := by
  refine fun s => ⟨?assert, resetNRelease_starts, ?park, perstNAssert_takesDown, perstNRelease_trains, hostPathFailure_takesDown⟩
  case assert => exact resetNAssert_holds
  case park => exact parked_darkens

/-! ## Bring-up -/

/-- A domain that bring-up powers (R454). -/
def Domain.powered (d : Domain) : Domain := if d.state = .fused then d else { d with state := .on, released := false }

/-- Bring-up reads the options and powers the first domains, 0.8 ms after the reset (R449, R454; log entry 58). -/
theorem bringUp_powers {s : State} (hboot : s.power.boot = .start) (hfuse : s.chip.fuseProgrammed = true) (hlife : s.chip.lifeCycle ≠ .scrapped) :
    ∃ t, exec .bringUp s = .next t ∧ t.power.boot = .powered ∧ t.power.options = s.chip.optionsNow.1 ∧ t.power.optFromOtp = s.chip.optionsNow.2 ∧
      s.power.resetAt + 800000 ≤ t.clock.now ∧ t.chip = s.chip ∧ t.tally = s.tally := by
  obtain ⟨u, hu⟩ : ∃ u, u = s.toTime (s.power.resetAt + 800000) := ⟨_, rfl⟩
  have htime : s.power.resetAt + 800000 ≤ u.clock.now := hu ▸ le_toTime s _
  obtain ⟨hchip, htally⟩ : u.chip = s.chip ∧ u.tally = s.tally := by
    rw [hu]
    exact ⟨toTime_chip _ _, toTime_tally _ _⟩
  obtain ⟨t, hexec, hpowered, hoptions, hotp, hclock, htchip, httally⟩ : ∃ t, exec .bringUp s = .next t ∧ t.power.boot = .powered ∧
      t.power.options = u.chip.optionsNow.1 ∧ t.power.optFromOtp = u.chip.optionsNow.2 ∧ t.clock = (u.setDomains bringDomains Domain.powered).clock ∧
      t.chip = (u.setDomains bringDomains Domain.powered).chip ∧ t.tally = (u.setDomains bringDomains Domain.powered).tally := by
    refine ⟨_, if_pos (by simp [hboot, hfuse, hlife]), rfl, ?_⟩
    rw [← foldl_setDomain, hu]
    exact ⟨rfl, rfl, rfl, rfl, rfl⟩
  rw [hchip] at hoptions hotp
  exact ⟨t, hexec, hpowered, hoptions, hotp, hclock ▸ htime, htchip.trans hchip, httally.trans htally⟩

/-- A powered domain is released once the earlier ones are, and no other domain changes (R445). -/
theorem domainRelease_releases {s : State} {d : Nat} {x : Domain} (hx : s.power.domains[d]? = some x) (hon : x.state = .on) (hnot : x.released = false)
    (hwake : x.wakeEnds = none) (hearlier : s.earlierReleased d = true) (hclock : s.clockless d = false) : ∃ t, exec (.domainRelease d) s = .next t ∧
      t.power.domains[d]? = some { x with released := true } ∧ ∀ e, e ≠ d → t.power.domains[e]? = s.power.domains[e]? := by
  obtain ⟨u, hu⟩ : ∃ u, u = s.toTime (s.power.resetAt + 850000) := ⟨_, rfl⟩
  have hpower : u.power = s.power := hu ▸ toTime_power _ _
  obtain ⟨t, hexec, hdomains⟩ : ∃ t, exec (.domainRelease d) s = .next t ∧ t.power.domains = (u.setDomain d Domain.lit).power.domains := by
    simp only [exec, execDomainRelease, hx]
    rw [if_pos (by simp [hon, hnot, hwake, hearlier, hclock]), hu]
    refine ⟨_, rfl, ?_⟩
    dsimp only
    split <;> rfl
  have hlit : x.lit = { x with released := true } := by
    rw [Domain.lit, hon, if_neg (by decide), ← hon, ← hwake]
  rw [← hpower] at hx ⊢
  exact ⟨t, hexec, by rw [hdomains, domains_setDomain_same hx, hlit], fun e he => by rw [hdomains, domains_setDomain_ne u he]⟩

section Firmware

variable {s : State} (hboot : s.power.boot = .released)
include hboot

/-- The slot that the slot record names boots where it may (R448, R451). -/
theorem firmwareVerified_boots (hslot : s.chip.slotBoots (s.chip.slot (s.chip.slotRecord % 2)) = true) : ∃ t, exec .firmwareVerified s = .next t ∧
    t.power.boot = .verified ∧ t.power.bootSlot = s.chip.slotRecord % 2 ∧ t.fault.activeSlot = s.chip.slotRecord % 2 := by
  have hfind : ([s.chip.slotRecord % 2, 1 - s.chip.slotRecord % 2].find? fun n => s.chip.slotBoots (s.chip.slot n)) = some (s.chip.slotRecord % 2) :=
    List.find?_cons_of_pos hslot
  simp only [exec, execFirmwareVerified, hboot, if_true, toTime_chip, hfind]
  exact ⟨_, rfl, rfl, rfl, rfl⟩

/-- With no slot that may boot bring-up fails (R448). -/
theorem firmwareVerified_fails (ha : s.chip.slotBoots s.chip.slotA = false) (hb : s.chip.slotBoots s.chip.slotB = false) : ∃ t, exec .firmwareVerified s = .next t ∧
    t.power.boot = .failed ∧ t.power.bootFail = true := by
  have hnone : ∀ n, s.chip.slotBoots (s.chip.slot n) = false := fun n => by
    rw [Chip.slot]
    split
    · exact ha
    · exact hb
  have hfind : ([s.chip.slotRecord % 2, 1 - s.chip.slotRecord % 2].find? fun n => s.chip.slotBoots (s.chip.slot n)) = none :=
    List.find?_eq_none.mpr fun n _ => ne_true_of_eq_false (hnone n)
  simp only [exec, execFirmwareVerified, hboot, if_true, toTime_chip, hfind]
  exact ⟨_, rfl, rfl, rfl⟩

end Firmware

/-- Tidy firmware ends bring-up, and the link comes up from Detect, no earlier than 46.5 ms after the reset (R454; log entries 58 and 61). -/
theorem tidyFirmwareStart_runs {s : State} (hboot : s.power.boot = .verified) (hawake : (s.serving.all fun c => s.settled (15 + c) && s.settled (28 + c)) = true)
    (hlife : s.chip.lifeCycle = .provisioned ∨ s.chip.lifeCycle = .field) : ∃ t, exec .tidyFirmwareStart s = .next t ∧ t.power.boot = .running ∧
      t.host.linkUp = s.host.detect ∧ s.power.resetAt + 46500000 ≤ t.clock.now := by
  refine ⟨_, if_pos (by simpa [hboot, hawake] using hlife), rfl, ?_, le_toTime s _⟩
  exact congrArg HostIf.detect (toTime_host _ _)

/-- Settles O29: each step by its lemma. The times are lower bounds (log entry 58), and the link comes up as tidy firmware starts (log entry 61). -/
theorem bringUpStepsInOrder : Obligations.BringUpStepsInOrder := by
  refine fun s => ⟨?up, fun d x => ?release, firmwareVerified_boots, ?fail, ?start⟩
  case up => exact bringUp_powers
  case release => exact domainRelease_releases
  case fail => exact firmwareVerified_fails
  case start => exact tidyFirmwareStart_runs

end Sys2Proof.Machine

/-! # The management port

What each command of the port answers and changes (R481 to R484), and how it arms a reset (R443). -/

namespace Sys2Proof.Machine

theorem leNat_singleton (k : Byte) : leNat [k] = k.toNat := rfl

/-- A powered port runs a command that has its length (R481, R484). -/
theorem mgmtRun_of_length {s : State} (hphase : s.power.boot ≠ .phaseA) {n : Nat} {args : List Byte} (hlen : args.length = n) (code : Nat) (f : State) :
    s.mgmtRun code n args f = .next f := by
  rw [State.mgmtRun, if_neg hphase, if_neg (not_not.mpr hlen)]

/-- A powered port refuses another length with BAD_ARGUMENT (R484). -/
theorem mgmtRun_of_badLength {s : State} (hphase : s.power.boot ≠ .phaseA) {n : Nat} {args : List Byte} (hlen : args.length ≠ n) (code : Nat) (f : State) :
    s.mgmtRun code n args f = .next { s with mgmt := { s.mgmt with response := mgmtResponse code args 2 [] } } := by
  rw [State.mgmtRun, if_neg hphase, if_pos hlen]
  rfl

theorem mgmtRun_unpowered {s : State} (hphase : s.power.boot = .phaseA) (code n : Nat) (args : List Byte) (f : State) : s.mgmtRun code n args f = .next s :=
  if_pos hphase

/-- Each command but RESET_GO runs under its code and its length. -/
theorem exec_mgmtCommand (s : State) {c : List Byte → Instr} {code n : Nat}
    (h : (c = Instr.mgmtStatus ∧ code = 0x01 ∧ n = 0) ∨ (c = Instr.mgmtTemperature ∧ code = 0x02 ∧ n = 0) ∨ (c = Instr.mgmtReservoirLevel ∧ code = 0x03 ∧ n = 1) ∨
      (c = Instr.mgmtTallyRead ∧ code = 0x04 ∧ n = 4) ∨ (c = Instr.resetArm ∧ code = 0x10 ∧ n = 1)) (args : List Byte) :
    ∃ f, exec (c args) s = s.mgmtRun code n args f := by
  obtain ⟨rfl, rfl, rfl⟩ | ⟨rfl, rfl, rfl⟩ | ⟨rfl, rfl, rfl⟩ | ⟨rfl, rfl, rfl⟩ | ⟨rfl, rfl, rfl⟩ := h
  all_goals exact ⟨_, rfl⟩

section Powered

variable {s : State} (hphase : s.power.boot ≠ .phaseA)
include hphase

theorem mgmtStatus_answers : ∃ t, exec (.mgmtStatus []) s = .next t ∧ t.mgmt.response = mgmtResponse 0x01 [] 0 s.statusBytes ∧
    t = { s with mgmt := { s.mgmt with response := t.mgmt.response } } :=
  ⟨_, mgmtRun_of_length hphase rfl _ _, rfl, rfl⟩

/-- TEMPERATURE answers TJ_MAX while a domain other than the spring is on (R483). -/
theorem mgmtTemperature_answers (hon : ((s.power.domains.drop 1).any fun d => d.state = .on) = true) : ∃ t, exec (.mgmtTemperature []) s = .next t ∧
    t.mgmt.response = mgmtResponse 0x02 [] 0 (leBytes s.power.tjMax 2 ++ leBytes (s.power.powerMw / 10) 2) ∧
      t = { s with mgmt := { s.mgmt with response := t.mgmt.response }, free := t.free } := by
  refine ⟨_, mgmtRun_of_length hphase rfl _ _, ?_, rfl⟩
  rw [if_pos hon]
  rfl

theorem mgmtReservoirLevel_answers (k : Byte) : ∃ t, exec (.mgmtReservoirLevel [k]) s = .next t ∧ t = { s with mgmt := { s.mgmt with response := t.mgmt.response } } ∧
    (k.toNat < 9 → t.mgmt.response = mgmtResponse 0x03 [k] 0 (leBytes (s.sparesLeft k.toNat) 2 ++ leBytes (s.sparesFitted k.toNat) 2 ++ leBytes (s.fault.exhausted % 512) 2)) ∧
      (9 ≤ k.toNat → t.mgmt.response = mgmtResponse 0x03 [k] 2 []) := by
  refine ⟨_, mgmtRun_of_length hphase rfl _ _, ?_⟩
  rw [leNat_singleton]
  by_cases hk : k.toNat < 9
  · rw [if_pos hk]
    exact ⟨rfl, fun _ => rfl, fun h => absurd hk (Nat.not_lt.mpr h)⟩
  · rw [if_neg hk]
    exact ⟨rfl, fun h => absurd h hk, fun _ => rfl⟩

theorem mgmtTallyRead_held {args : List Byte} (hlen : args.length = 4) {e : TallyEntry} (he : s.tally.entries.find? (fun e => e.seq = leNat args) = some e) :
    ∃ t, exec (.mgmtTallyRead args) s = .next t ∧ t.mgmt.response = mgmtResponse 0x04 args 0 e.bytes ∧ t = { s with mgmt := { s.mgmt with response := t.mgmt.response } } := by
  refine ⟨_, mgmtRun_of_length hphase hlen _ _, ?_⟩
  simp only [he]
  exact ⟨rfl, rfl⟩

theorem mgmtTallyRead_notHeld {args : List Byte} (hlen : args.length = 4) (hnone : s.tally.entries.find? (fun e => e.seq = leNat args) = none) :
    ∃ t, exec (.mgmtTallyRead args) s = .next t ∧ t.mgmt.response = mgmtResponse 0x04 args 3 [] ∧ t = { s with mgmt := { s.mgmt with response := t.mgmt.response } } := by
  refine ⟨_, mgmtRun_of_length hphase hlen _ _, ?_⟩
  simp only [hnone]
  exact ⟨rfl, rfl⟩

theorem resetArm_arms : ∃ t, exec (.resetArm [0x4B]) s = .next t ∧
    t = { s with mgmt := { s.mgmt with armedAt := some s.clock.now, response := mgmtResponse 0x10 [0x4B] 0 [] } } :=
  ⟨_, mgmtRun_of_length hphase rfl _ _, if_pos rfl⟩

/-- Any byte but the key disarms the port (R484). -/
theorem resetArm_disarms {k : Byte} (hk : k ≠ 0x4B) : ∃ t, exec (.resetArm [k]) s = .next t ∧
    t = { s with mgmt := { s.mgmt with armedAt := none, response := mgmtResponse 0x10 [k] 4 [] } } := by
  refine ⟨_, mgmtRun_of_length hphase rfl _ _, if_neg fun h => hk ?_⟩
  exact BitVec.eq_of_toNat_eq h

/-- An armed port takes RESET_GO within a second, which asks for the reset and disarms it (R443). -/
theorem resetGo_of_armed (hready : s.armed = true) {k : Byte} (hk : leNat [k] = 1 ∨ leNat [k] = 2) : exec (.resetGo [k]) s =
    .next { s with mgmt := { s.mgmt with armedAt := none, pendingReset := some (if leNat [k] = 1 then .warm else .cold), pendingAt := s.clock.now, response := mgmtResponse 0x11 [k] 0 [] } } := by
  have hvalid : ¬ ([k].length ≠ 1 ∨ (leNat [k] ≠ 1 ∧ leNat [k] ≠ 2)) := by simpa using fun h => hk.resolve_left h
  rw [exec, execResetGo, if_neg hphase]
  dsimp only
  rw [if_neg hvalid, hready]
  rfl

theorem resetGo_asks {a : Nat} (harmed : s.mgmt.armedAt = some a) (hfresh : s.clock.now < a + 1000000000) {k : Byte} (hk : k = 1 ∨ k = 2) :
    ∃ t, exec (.resetGo [k]) s = .next t ∧
      t = { s with mgmt := { s.mgmt with armedAt := none, pendingReset := some (if k = 1 then .warm else .cold), pendingAt := s.clock.now, response := mgmtResponse 0x11 [k] 0 [] } } := by
  have hready : s.armed = true := by
    rw [State.armed, harmed, Option.any_some, decide_eq_true_iff]
    exact hfresh
  have hvalue (b : Byte) : leNat [k] = b.toNat ↔ k = b := BitVec.toNat_inj
  have hlevel : leNat [k] = 1 ↔ k = 1 := hvalue 1
  have hvalid : leNat [k] = 1 ∨ leNat [k] = 2 := hk.imp (hvalue 1).mpr (hvalue 2).mpr
  exact ⟨_, resetGo_of_armed hphase hready hvalid, by simp only [hlevel]⟩

theorem mgmtDynamicAddress_takes {a : Nat} (ha : a < 128) : ∃ t, exec (.mgmtDynamicAddress a) s = .next t ∧ t = { s with mgmt := { s.mgmt with dynAddr := some a } } :=
  ⟨_, if_neg (not_or.mpr ⟨hphase, Nat.not_le.mpr ha⟩), rfl⟩

end Powered

/-- The arm ends a second after RESET_ARM (R443). -/
theorem mgmtArmExpiry_disarms {s : State} {a : Nat} (harmed : s.mgmt.armedAt = some a) : ∃ t, exec .mgmtArmExpiry s = .next t ∧
    t = { s with clock := t.clock, mgmt := { s.mgmt with armedAt := none } } ∧ a + 1000000000 ≤ t.clock.now := by
  have hexec : exec .mgmtArmExpiry s = .next ((s.toTime (a + 1000000000)).arm none) := by simp only [exec, execMgmtArmExpiry, harmed]
  exact ⟨_, hexec, by rw [toTime_frame]; rfl, le_toTime s _⟩

/-- Settles O31: each command by its lemma, and the length by the run that they share. The port's commands and answers are those of R481 to R484. -/
theorem managementPortAnswers : Obligations.ManagementPortAnswers := by
  refine ⟨fun s hphase => ⟨mgmtStatus_answers hphase, mgmtTemperature_answers hphase, mgmtReservoirLevel_answers hphase, fun args hlen => ⟨fun e => ?held, ?notHeld⟩,
    resetArm_arms hphase, fun k => resetArm_disarms hphase, fun a harmed => ⟨fun hfresh k => ?go, mgmtArmExpiry_disarms harmed⟩, fun a => mgmtDynamicAddress_takes hphase⟩,
    fun s c code n hc => ⟨fun hphase args => ?unpowered, fun hphase args hlen => ?badLength⟩⟩
  case held => exact mgmtTallyRead_held hphase hlen
  case notHeld => exact mgmtTallyRead_notHeld hphase hlen
  case go => exact resetGo_asks hphase harmed hfresh
  case unpowered =>
    obtain ⟨f, hexec⟩ := exec_mgmtCommand s hc args
    rw [hexec, mgmtRun_unpowered hphase]
  case badLength =>
    obtain ⟨f, hexec⟩ := exec_mgmtCommand s hc args
    rw [hexec, mgmtRun_of_badLength hphase hlen]

end Sys2Proof.Machine

/-! # Fabric links

A port of the fabric as it trains, replays, retrains and loses lanes (R381, R384, R409). -/

namespace Sys2Proof.Machine

/-! ## Counters by their keys -/

theorem counter_bumpBy_same (s : State) (i j n : Nat) : (s.bumpBy i j n).counter i j = (s.counter i j + n) % 2 ^ 64 :=
  (Store.get_set _ _ _ _ _).trans (if_pos rfl)

theorem counter_bumpBy_ne (s : State) {i j a b : Nat} (h : ctrKey a b ≠ ctrKey i j) (n : Nat) : (s.bumpBy i j n).counter a b = s.counter a b :=
  (Store.get_set _ _ _ _ _).trans (if_neg h)

theorem tallyOnly_unitGone (s : State) (source kind spare subject : Nat) : TallyOnly s (s.unitGone source kind spare subject) :=
  (tallyOnly_bump s _).trans (tallyOnly_log _ _ _ _ _ _ _)

/-! ## Replays -/

/-- The replays of a flit in a row, with the next one (R384). -/
def FzPort.replaysOf (q : FzPort) (flit : Nat) : Nat := if q.nacked = some flit then q.replayed + 1 else 1

theorem le_replaysOf (q : FzPort) (flit : Nat) : 16 ≤ q.replaysOf flit ↔ q.nacked = some flit ∧ 15 ≤ q.replayed := by
  rw [FzPort.replaysOf]
  split
  case isTrue h => simp [h]
  case isFalse h => simp [h]

/-- A port before it may retrain: the replay is counted at the tally and at the port, and its flits stand on the wire (R384). -/
def State.replaying (s : State) (p flit : Nat) : State :=
  { s.bumpBy Ctr.fzlReplay p 1 with
    fabric := { s.fabric with ports := updAt p (fun q => { q with nacked := some flit, replayed := (s.fzPort p).replaysOf flit }) s.fabric.ports }
    out := { s.out with replays := (p, flit) :: s.out.replays
                        flits := (((s.fzPort p).flits.kept.dropWhile fun k => k.1 ≠ flit).map fun k => (p, k.2)).reverse ++ s.out.flits } }

/-- A port that retrains: counted, and not in agreement with the far end (R384). -/
def State.retrain (s : State) (p : Nat) : State :=
  (s.bumpBy Ctr.fzlRetrain p 1).updPort p fun q => { q with retraining := true, retrainAt := s.clock.now, replayed := 0, agreed := false }

/-- The port retrains at the 16th replay of one flit (R384). -/
theorem replayFrom_eq (s : State) (p flit : Nat) : s.replayFrom p flit = if 16 ≤ (s.fzPort p).replaysOf flit then (s.replaying p flit).retrain p else s.replaying p flit :=
  rfl

/-- A replay changes nothing but its port, the counters, and what stands on the wire. -/
theorem replayFrom_frame (s : State) (p flit : Nat) : s.replayFrom p flit =
    { s with fabric := { s.fabric with ports := (s.replayFrom p flit).fabric.ports }, tally := (s.replayFrom p flit).tally, out := (s.replaying p flit).out } := by
  rw [replayFrom_eq]
  split <;> rfl

/-- A replay is counted once (R384). -/
theorem counter_replayFrom (s : State) (p flit : Nat) : (s.replayFrom p flit).counter 0x605 p = (s.counter 0x605 p + 1) % 2 ^ 64 := by
  have hkey : ctrKey 0x605 p ≠ ctrKey Ctr.fzlRetrain p := by
    unfold ctrKey Ctr.fzlRetrain
    omega
  have hcount : (s.replaying p flit).counter 0x605 p = (s.counter 0x605 p + 1) % 2 ^ 64 := counter_bumpBy_same s 0x605 p 1
  rw [replayFrom_eq]
  split
  · exact (counter_bumpBy_ne _ hkey 1).trans hcount
  · exact hcount

theorem retraining_replayFrom {s : State} {p : Nat} {q : FzPort} (hq : s.fabric.ports[p]? = some q) (hidle : q.retraining = false) (flit : Nat) :
    ∃ r, (s.replayFrom p flit).fabric.ports[p]? = some r ∧ r.retraining = (decide (q.nacked = some flit) && decide (15 ≤ q.replayed)) := by
  have hcount : (decide (q.nacked = some flit) && decide (15 ≤ q.replayed)) = decide (16 ≤ q.replaysOf flit) := by
    rw [← Bool.decide_and, decide_eq_decide]
    exact (le_replaysOf q flit).symm
  have hreplaying : (s.replaying p flit).fabric.ports[p]? = some { q with nacked := some flit, replayed := (s.fzPort p).replaysOf flit } := ports_updPort hq _
  rw [hcount, replayFrom_eq, fzPort_of hq]
  by_cases hmany : 16 ≤ q.replaysOf flit
  · rw [if_pos hmany, decide_eq_true hmany]
    exact ⟨_, ports_updPort hreplaying _, rfl⟩
  · rw [if_neg hmany, decide_eq_false hmany]
    exact ⟨_, hreplaying, hidle⟩

/-! ## The events of a port -/

section Port

variable {s : State} {p : Nat} {q : FzPort} (hq : s.fabric.ports[p]? = some q)
include hq

theorem fzlLinkUp_sets (husable : s.portUsable p = true) (hon : s.domOn (5 + p) = true) : ∃ t, exec (.fzlLinkUp p) s = .next t ∧
    t.fabric.ports[p]? = some { q with up := true, retraining := false, agreed := false, isolated := false, lanes := if q.lanes = 0 then 31 else q.lanes } ∧
      t = { s with fabric := { s.fabric with ports := t.fabric.ports } } :=
  ⟨_, if_pos ⟨husable, hon⟩, ports_updPort hq _, rfl⟩

theorem flitNak_replays (hup : q.up = true) (hidle : q.retraining = false) (a : Nat) : ∃ t, exec (.flitNak p a) s = .next t ∧
    t.out.replays = (p, (a + 1) % 4096) :: s.out.replays ∧
      t.out.flits = ((q.flits.kept.dropWhile fun k => k.1 ≠ (a + 1) % 4096).map fun k => (p, k.2)).reverse ++ s.out.flits ∧
        t = { s with fabric := { s.fabric with ports := t.fabric.ports }, tally := t.tally, out := { s.out with replays := t.out.replays, flits := t.out.flits } } := by
  have hgo : ((s.fzPort p).up && !(s.fzPort p).retraining) = true := by rw [fzPort_of hq, hup, hidle]; rfl
  have hkept : ((s.updPort p fun q => { q with ackSeq := a % 4096 }).fzPort p).flits.kept = q.flits.kept := by rw [fzPort_of (ports_updPort hq _)]
  refine ⟨_, if_pos hgo, ?_⟩
  rw [replayFrom_frame]
  refine ⟨rfl, ?_, rfl⟩
  exact congrArg (fun l : List (Nat × List Byte) => ((l.dropWhile fun k => k.1 ≠ (a + 1) % 4096).map fun k => (p, k.2)).reverse ++ s.out.flits) hkept

theorem flitReplayTimeout_replays (hup : q.up = true) (hidle : q.retraining = false) (hwaits : q.txSeq ≠ (q.ackSeq + 1) % 4096) :
    ∃ t, exec (.flitReplayTimeout p) s = .next t ∧ t.out.replays = (p, (q.ackSeq + 1) % 4096) :: s.out.replays ∧
      t.counter 0x605 p = (s.counter 0x605 p + 1) % 2 ^ 64 ∧
        ∃ r, t.fabric.ports[p]? = some r ∧ r.retraining = (decide (q.nacked = some ((q.ackSeq + 1) % 4096)) && decide (15 ≤ q.replayed)) := by
  have hexec : exec (.flitReplayTimeout p) s = .next (s.replayFrom p ((q.ackSeq + 1) % 4096)) := by
    rw [exec, execFlitReplayTimeout, fzPort_of hq]
    exact if_pos (by simp [hup, hidle, hwaits])
  refine ⟨_, hexec, ?_, counter_replayFrom s p _, retraining_replayFrom hq hidle _⟩
  rw [replayFrom_frame]
  rfl

theorem flitReceiveError_naks (hup : q.up = true) (x : Nat) : ∃ t, exec (.flitReceiveError p x) s = .next t ∧ t.out.naks = (p, (x + 4095) % 4096) :: s.out.naks ∧
    t.fabric.ports[p]? = some { q with rxNext := x % 4096 } :=
  ⟨_, if_pos (by rw [fzPort_of hq]; exact hup), rfl, ports_updPort hq _⟩

theorem portRetrainTimeout_takesDown (hretrain : q.retraining = true) : ∃ t r, exec (.portRetrainTimeout p) s = .next t ∧ t.fabric.ports[p]? = some r ∧ r.up = false ∧
    q.retrainAt + 100000000 ≤ t.clock.now := by
  have hexec : exec (.portRetrainTimeout p) s = .next ((s.toTime (q.retrainAt + 100000000)).portDown p) := by
    rw [exec, execPortRetrainTimeout, fzPort_of hq]
    exact if_pos hretrain
  exact ⟨_, _, hexec, ports_updPort (by rw [toTime_fabric]; exact hq) _, rfl, le_toTime s _⟩

section Lane

variable {lane : Nat} (hlane : lane < 5) (hup : q.up = true) (hgood : bit q.lanes lane = true) (hspare : q.spareUsed = false)
include hlane hup hgood

/-- A lane that carries traffic and fails is out of use (R381). -/
theorem laneFailure_notIgnored : (!(s.fzPort p).up || decide (5 ≤ lane) || !bit (s.fzPort p).lanes lane) = false := by
  rw [fzPort_of hq, hup, hgood, decide_eq_false (Nat.not_le.mpr hlane)]
  rfl

include hspare

/-- The spare lane's own failure costs no spare (R381). -/
theorem laneFailure_ofSpare (hfour : lane = 4) : ∃ t, exec (.laneFailure p lane) s = .next t ∧ t.fabric.ports[p]? = some { q with lanes := setBit q.lanes lane false } ∧
    t.tally = s.tally := by
  have hexec : exec (.laneFailure p lane) s = .next (s.updPort p fun q => { q with lanes := setBit q.lanes lane false }) := by
    rw [exec, execLaneFailure]
    dsimp only
    rw [if_neg (ne_true_of_eq_false (laneFailure_notIgnored hq hlane hup hgood)), fzPort_of hq]
    exact if_pos (by simp [hspare, hfour])
  exact ⟨_, hexec, ports_updPort hq _, rfl⟩

/-- The spare lane takes over from another (R381, R409). -/
theorem laneFailure_usesSpare (hother : lane ≠ 4) (hfree : bit q.lanes 4 = true) : ∃ t, exec (.laneFailure p lane) s = .next t ∧
    t.fabric.ports[p]? = some { q with lanes := setBit q.lanes lane false, spareUsed := true } ∧ t.sparesLeft 6 = s.sparesLeft 6 - 1 := by
  obtain ⟨u, hu⟩ : ∃ u, u = (((s.updPort p fun q => { q with lanes := setBit q.lanes lane false }).updPort p fun q => { q with spareUsed := true }).laneSwap p).bumpBy
      Ctr.fzlLaneRepair p 1 := ⟨_, rfl⟩
  have hexec : exec (.laneFailure p lane) s = .next ((u.useSpare 6).unitGone (dieUnit 7) 6 0xFFFF p) := by
    rw [exec, execLaneFailure]
    dsimp only
    rw [if_neg (ne_true_of_eq_false (laneFailure_notIgnored hq hlane hup hgood)), fzPort_of hq, hspare, hfree, hu]
    exact (if_neg (by simp [hother])).trans (if_pos rfl)
  have hport : u.fabric.ports[p]? = some { q with lanes := setBit q.lanes lane false, spareUsed := true } := by
    rw [hu]
    exact ports_updPort (ports_updPort hq _) _
  have hleft : u.sparesLeft 6 = s.sparesLeft 6 := by
    rw [hu]
    rfl
  have hgone : ((u.useSpare 6).unitGone (dieUnit 7) 6 0xFFFF p).sparesLeft 6 = (u.useSpare 6).sparesLeft 6 := by
    rw [tallyOnly_unitGone]
    rfl
  refine ⟨_, hexec, ?_, ?_⟩
  · rw [sparesTaken_replaced u (dieUnit 7) 6 0xFFFF p]
    exact hport
  · rw [hgone, sparesLeft_useSpare, hleft]

end Lane

end Port

/-- Settles O32: each event of the port by its lemma. The replayed flits stand on the wire at once and in order (log entry 183). -/
theorem fabricPortTrainsAndReplays : Obligations.FabricPortTrainsAndReplays := by
  refine fun s p q hq => ⟨fzlLinkUp_sets hq, fun hup hidle => ⟨flitNak_replays hq hup hidle, flitReplayTimeout_replays hq hup hidle⟩, flitReceiveError_naks hq,
    portRetrainTimeout_takesDown hq, fun lane hlane hup hgood hspare => ⟨?own, ?other⟩⟩
  case own => exact laneFailure_ofSpare hq hlane hup hgood hspare
  case other => exact laneFailure_usesSpare hq hlane hup hgood hspare

end Sys2Proof.Machine

/-! # HELLO and forwarding

What HELLO isolates and agrees (R380, R389), when it is sent, and what becomes of a message for another member (R385 to R387). -/

namespace Sys2Proof.Machine

/-! ## Ports after messages -/

theorem all_updAt {α : Type} {k : α → Bool} {f : α → α} (h : ∀ x, k (f x) = k x) (i : Nat) (l : List α) : (updAt i f l).all k = l.all k := by
  induction l generalizing i with
  | nil => rw [updAt]
  | cons x r ih =>
    cases i with
    | zero => rw [updAt, List.all_cons, List.all_cons, h]
    | succ j => rw [updAt, List.all_cons, List.all_cons, ih]

/-- A message that a port takes leaves every port but for its flits and the flits it counts (R383). -/
theorem fzPort_taken (s : State) (p cls n i : Nat) : ∃ x flits, (s.taken p cls n).fzPort i = { s.fzPort i with rxNext := x, flits := flits } := by
  rw [State.fzPort, State.taken, getElem?_updAt, State.fzPort]
  by_cases hi : i = p
  · cases s.fabric.ports[i]? with
    | none => exact ⟨_, _, by rw [if_pos hi]; rfl⟩
    | some q =>
      rw [if_pos hi, Option.map_some, Option.getD_some, Option.getD_some]
      split
      · exact ⟨_, _, rfl⟩
      · exact ⟨q.rxNext, q.flits, rfl⟩
  · exact ⟨_, _, by rw [if_neg hi]⟩

/-- Flits that are put at a port leave every other part of the ports. -/
theorem ports_putFlits {s : State} {i : Nat} {q : FzPort} (h : s.fabric.ports[i]? = some q) (p : Nat) (l : List Flit) :
    ∃ flits, (s.putFlits p l).fabric.ports[i]? = some { q with flits := flits } := by
  rw [State.putFlits, getElem?_updAt, h]
  split
  · exact ⟨_, rfl⟩
  · exact ⟨q.flits, rfl⟩

theorem ports_sendFz {s : State} {i : Nat} {q : FzPort} (h : s.fabric.ports[i]? = some q) (type cls dst xid : Nat) (body : List Byte) :
    ∃ flits, (s.sendFz type cls dst xid body).fabric.ports[i]? = some { q with flits := flits } := by
  unfold State.sendFz
  split
  · split
    · exact ports_putFlits h _ _
    · exact ⟨q.flits, h⟩
  · exact ⟨q.flits, h⟩

/-- A JOIN leaves the ports but for their flits, and the fabric but for them and for the note of the JOIN (R392). -/
theorem sendJoin_fabric (s : State) (p leader : Nat) : ∃ ports seen, (s.sendJoin p leader).fabric = { s.fabric with ports := ports, joinSeen := seen } ∧
    ∀ (i : Nat) (q : FzPort), s.fabric.ports[i]? = some q → ∃ flits, ports[i]? = some { q with flits := flits } := by
  unfold State.sendJoin
  split
  · rw [sendFz_frame]
    exact ⟨_, _, rfl, fun i q h => ports_sendFz (by exact h) _ _ _ _ _⟩
  · exact ⟨s.fabric.ports, s.fabric.joinSeen, rfl, fun i q h => ⟨q.flits, h⟩⟩

/-! ## HELLO -/

theorem coordClaimed_taken (s : State) (p cls n : Nat) (h : Hello) : (s.taken p cls n).coordClaimed p h = s.coordClaimed p h := by
  unfold State.coordClaimed
  refine congrArg (List.any _) (funext fun i => ?_)
  obtain ⟨x, flits, hport⟩ := fzPort_taken s p cls n i
  rw [hport]

/-- Whether a HELLO isolates its port does not depend on the flits that carry it. -/
theorem helloCause_taken (s : State) (p cls n : Nat) (h : Hello) : (s.taken p cls n).helloCause p h = s.helloCause p h := by
  unfold State.helloCause
  rw [coordClaimed_taken]
  rfl

theorem lowestSeen_taken (s : State) (p cls n : Nat) (h : Hello) : (s.taken p cls n).lowestSeen h = s.lowestSeen h := by
  unfold State.lowestSeen
  refine congrArg (_ && _ && ·) (all_updAt (fun q => ?_) p s.fabric.ports)
  split <;> rfl

/-- Whether the device takes a coordinate from a HELLO: its neighbour's, or (0,0,0) with the lowest ID (R380; log entries 35 and 77). -/
def State.learnsCoord (s : State) (h : Hello) : Bool := !s.fabric.coordValid && (h.coordValid || s.lowestSeen h)

/-- The device after a HELLO without a cause, before it may send a JOIN (R380, R389). -/
def State.agreeing (s : State) (p : Nat) (h : Hello) : State :=
  { s with fabric := { s.fabric with
      coordValid := s.fabric.coordValid || s.learnsCoord h
      coord := if !s.learnsCoord h then s.fabric.coord else if h.coordValid then s.coordFrom p h.coord else 0
      ports := updAt p (fun q => { q with isolated := false, agreed := h.coordValid && (s.fabric.coordValid || s.learnsCoord h), neighbour := h.arrayId, neighbourKnown := true,
                                          coord := if h.coordValid then some h.coord else none }) s.fabric.ports } }

section Port

variable {s : State} {p : Nat} {q : FzPort} (hq : s.fabric.ports[p]? = some q)
include hq

section Up

variable (hrun : s.running = true) (hfabric : s.fabricUp = true) (hup : q.up = true)
include hrun hfabric hup

/-- A HELLO at a port that is up is read (R389). -/
theorem hello_notIgnored : (!((s.taken p 0 16).fzPort p).up || !(s.taken p 0 16).running || !(s.taken p 0 16).fabricUp) = false := by
  obtain ⟨x, flits, hport⟩ := fzPort_taken s p 0 16 p
  have hrun' : (s.taken p 0 16).running = true := hrun
  have hfabric' : (s.taken p 0 16).fabricUp = true := hfabric
  rw [hport, fzPort_of hq, hrun', hfabric', hup]
  rfl

/-- A HELLO with a cause isolates its port (R389). -/
theorem hello_isolates {h : Hello} {c : Nat} (hcause : s.helloCause p h = some c) : ∃ t r, exec (.hello p h) s = .next t ∧ t.fabric.ports[p]? = some r ∧
    r.isolated = true ∧ r.agreed = false ∧ r.neighbour = h.arrayId ∧ r.neighbourKnown = true ∧
      t = { s with fabric := { s.fabric with ports := t.fabric.ports }, tally := t.tally } := by
  obtain ⟨u, hu⟩ : ∃ u, u = (s.taken p 0 16).updPort p fun q => { q with isolated := true, agreed := false, neighbour := h.arrayId, neighbourKnown := true } := ⟨_, rfl⟩
  have hexec : exec (.hello p h) s = .next (u.log (dieUnit 7) 0x0042 4 255 0 (p + c * 65536)) := by
    rw [exec, execHello]
    dsimp only
    rw [if_neg (ne_true_of_eq_false (hello_notIgnored hq hrun hfabric hup)), helloCause_taken, hcause, hu]
  obtain ⟨x, flits, htaken⟩ := ports_taken hq 0 16
  have hport := ports_updPort htaken fun q => { q with isolated := true, agreed := false, neighbour := h.arrayId, neighbourKnown := true }
  rw [← hu] at hport
  refine ⟨_, _, hexec, by rw [log_fabric]; exact hport, rfl, rfl, rfl, rfl, ?_⟩
  rw [tallyOnly_log, hu]
  rfl

/-- A HELLO without a cause gives the coordinates of `State.agreeing`, whatever is sent after it. -/
theorem hello_agrees {h : Hello} (hcause : s.helloCause p h = none) : ∃ t r, exec (.hello p h) s = .next t ∧ t.fabric.ports[p]? = some r ∧ r.isolated = false ∧
    r.neighbour = h.arrayId ∧ r.agreed = (h.coordValid && (s.fabric.coordValid || s.learnsCoord h)) ∧ t.fabric.coordValid = (s.fabric.coordValid || s.learnsCoord h) ∧
      t.fabric.coord = if !s.learnsCoord h then s.fabric.coord else if h.coordValid then s.coordFrom p h.coord else 0 := by
  have hlearns : (s.taken p 0 16).learnsCoord h = s.learnsCoord h := by
    rw [State.learnsCoord, lowestSeen_taken]
    rfl
  have hexec : exec (.hello p h) s = .next (((s.taken p 0 16).agreeing p h).sendJoin p h.leader) := by
    rw [exec, execHello]
    dsimp only
    rw [if_neg (ne_true_of_eq_false (hello_notIgnored hq hrun hfabric hup)), helloCause_taken, hcause]
    rfl
  obtain ⟨ports, seen, hsent, hports⟩ := sendJoin_fabric ((s.taken p 0 16).agreeing p h) p h.leader
  obtain ⟨x, flits, htaken⟩ := ports_taken hq 0 16
  obtain ⟨left, hport⟩ := hports p _ (ports_updPort htaken _)
  refine ⟨_, _, hexec, (congrArg (fun f : Fabric => f.ports[p]?) hsent).trans hport, rfl, rfl, ?_, ?_, ?_⟩
  · rw [hlearns]
    rfl
  · rw [hsent, State.agreeing, hlearns]
    rfl
  · rw [hsent, State.agreeing, hlearns]
    rfl

end Up

theorem helloTimer_sends (hrun : s.running = true) (hfabric : s.fabricUp = true) (hup : q.up = true) (hidle : q.retraining = false) (hopen : q.agreed = false) :
    ∃ t m, exec (.helloTimer p) s = .next t ∧ t.out.fzl = m :: s.out.fzl ∧ m.hdr.type = 0x50 ∧ m.port = p ∧ m.body = s.helloBody p :=
  ⟨_, _, if_pos (by rw [fzPort_of hq, hup, hidle, hopen, hrun, hfabric]; rfl), rfl, rfl, rfl, rfl⟩

/-! ## Forwarding -/

section Forward

variable (hrun : s.running = true) (hfabric : s.fabricUp = true) (hup : q.up = true) (hopen : q.isolated = false) (hidle : q.retraining = false)
  {h : FzlHeader} (hdst : h.dst ≠ s.self) (htype : fzType h.type = true) (hlen : fzLenOk h.type h.bodyLen = true) (hroutable : h.type ∉ [0x40, 0x41, 0x42, 0x50])
include hrun hfabric hup hopen hidle hdst htype hlen hroutable

/-- A well-formed message for another member is forwarded while it has hops left and a route (R386). -/
theorem messageForward_eq : exec (.messageForward p h) s =
    if h.hops ≤ 1 then .next ((s.taken p h.cls h.bodyLen).bumpBy Ctr.fzlHopsExpired p 1)
    else match s.route h.dst with
    | some r => .next ({ s.taken p h.cls h.bodyLen with out := { s.out with fzl := { hdr := { h with hops := h.hops - 1 }, port := r, body := [] } :: s.out.fzl } }.putFlits r
        (flitsOf { h with hops := h.hops - 1 } ((List.range h.bodyLen).map fun i => BitVec.ofNat 8 (Config.given 386 [(h.xid : Int), h.src, i]))))
    | none => .next (s.taken p h.cls h.bodyLen) := by
  obtain ⟨x, flits, hport⟩ := fzPort_taken s p h.cls h.bodyLen p
  have hcarries : ((s.taken p h.cls h.bodyLen).fzPort p).carries = true := by
    rw [hport, fzPort_of hq, FzPort.carries, hup, hopen, hidle]
    rfl
  have hgo : (!((s.taken p h.cls h.bodyLen).fzPort p).carries || !(s.taken p h.cls h.bodyLen).running || !(s.taken p h.cls h.bodyLen).fabricUp) = false := by
    have hrun' : (s.taken p h.cls h.bodyLen).running = true := hrun
    have hfabric' : (s.taken p h.cls h.bodyLen).fabricUp = true := hfabric
    rw [hcarries, hrun', hfabric']
    rfl
  have hwell : (!fzType h.type || !fzLenOk h.type h.bodyLen) = false := by
    rw [htype, hlen]
    rfl
  have hother : ¬ (decide (h.dst = (s.taken p h.cls h.bodyLen).self) || [0x40, 0x41, 0x42, 0x50].contains h.type) = true := by
    simpa using ⟨hdst, by simpa using hroutable⟩
  rw [exec, execMessageForward]
  dsimp only
  rw [if_neg (ne_true_of_eq_false hgo), if_neg (ne_true_of_eq_false hwell), if_neg hother, route_taken]
  rfl

/-- At the end of its hops a message is dropped and counted (R386). -/
theorem messageForward_drops (hlast : h.hops ≤ 1) : ∃ t, exec (.messageForward p h) s = .next t ∧ t.counter 0x607 p = (s.counter 0x607 p + 1) % 2 ^ 64 ∧
    t = { s.taken p h.cls h.bodyLen with tally := t.tally } := by
  refine ⟨_, (messageForward_eq hq hrun hfabric hup hopen hidle hdst htype hlen hroutable).trans (if_pos hlast), ?_, rfl⟩
  exact counter_bumpBy_same (s.taken p h.cls h.bodyLen) 0x607 p 1

/-- Otherwise it leaves by its route with one hop less, and with no body (R386; log entry 42). -/
theorem messageForward_forwards {r : Nat} (hmore : 1 < h.hops) (hroute : s.route h.dst = some r) : ∃ t, exec (.messageForward p h) s = .next t ∧
    t = { s with fabric := { s.fabric with ports := t.fabric.ports }
                 out := { s.out with fzl := { hdr := { h with hops := h.hops - 1 }, port := r, body := [] } :: s.out.fzl } } := by
  have hexec := messageForward_eq hq hrun hfabric hup hopen hidle hdst htype hlen hroutable
  rw [if_neg (Nat.not_le.mpr hmore), hroute] at hexec
  exact ⟨_, hexec, rfl⟩

end Forward

end Port

/-- Settles O33: HELLO by `hello_isolates` and `hello_agrees`, and a message for another member by `messageForward_eq`. Coordinates agree where both ends' are valid
(log entry 35), a forwarded message has no body (log entry 42), and who takes (0,0,0) is the model's choice (log entry 77). -/
theorem helloAgreesCoordinates : Obligations.HelloAgreesCoordinates := by
  refine fun s p q hq hrun hfabric hup => ⟨fun h c => hello_isolates hq hrun hfabric hup, fun h hcause => ?agrees, fun hidle hopen => ?timer,
    fun hopen hidle h hdst htype hlen hroutable => ⟨fun hlast _ => ?drops, fun r => ?forwards⟩⟩
  case agrees =>
    obtain ⟨t, r, hexec, hport, hisolated, hneighbour, hagreed, hvalid, hcoord⟩ := hello_agrees hq hrun hfabric hup hcause
    refine ⟨t, r, hexec, hport, hisolated, hneighbour, fun hown => ?_, fun hown hheard => ?_, fun hown hheard => ?_⟩
    all_goals
      simp only [State.learnsCoord, hown] at hagreed hvalid hcoord
    · simpa using And.intro hcoord hagreed
    · simpa [hheard] using And.intro hcoord (And.intro hvalid hagreed)
    · simpa [hheard] using And.intro hvalid hagreed
  case timer => exact helloTimer_sends hq hrun hfabric hup hidle hopen
  case drops => exact messageForward_drops hq hrun hfabric hup hopen hidle hdst htype hlen hroutable hlast
  case forwards => exact messageForward_forwards hq hrun hfabric hup hopen hidle hdst htype hlen hroutable

end Sys2Proof.Machine

/-! # Membership

The view that a device takes and forms, heartbeats, joins and leaves (R390 to R392). -/

namespace Sys2Proof.Machine

/-! ## Views -/

theorem leader_of_spine {s t : State} (h : s.spine = t.spine) : s.fabric.leader = t.fabric.leader := by
  simp only [State.spine, Prod.mk.injEq] at h
  obtain ⟨-, -, -, -, -, -, -, -, -, hleader, -⟩ := h
  exact hleader

/-- A view that is taken has the lowest of its members as its leader (R390). -/
theorem leader_adopt (s : State) (viewNo members : Nat) : (s.adopt viewNo members).fabric.leader = (lowestBit members 64).getD s.self := by
  unfold State.adopt
  extract_lets gone beats f u v lost w x
  have hleader : u.fabric.leader = (lowestBit members 64).getD s.self := rfl
  have hspine : ((x.membersLost gone).resendStreams).acksDone.spine = u.spine := by
    simp only [State.acksDone_spine, State.resendStreams_spine, State.membersLost_spine]
    refine (foldl_spine _ _ _ fun s i => State.peerGone_spine s i).trans ((foldl_spine _ _ _ fun s t => State.dropHandover_spine s t).trans ?_)
    exact State.log_spine _ _ _ _ _ _ _
  exact (leader_of_spine hspine).trans hleader

/-- A valid view that the device forms has the next number and its members (R390, R391). -/
theorem formView_of_valid {s : State} {m : Nat} (hvalid : validView s.fabric.members m = true) : (s.formView m).fabric.viewNo = (s.fabric.viewNo + 1) % 65536 ∧
    (s.formView m).fabric.members = m := by
  obtain ⟨u, l, hform⟩ : ∃ (u : State) (l : List Nat), s.formView m = l.foldl State.tellTables (u.adopt ((s.fabric.viewNo + 1) % 65536) m) := ⟨_, _, if_pos hvalid⟩
  obtain ⟨hview, hmembers⟩ := view_of_spine (foldl_spine State.tellTables l (u.adopt ((s.fabric.viewNo + 1) % 65536) m) State.tellTables_spine)
  obtain ⟨hnumber, hset⟩ := view_adopt u ((s.fabric.viewNo + 1) % 65536) m
  rw [hform]
  exact ⟨hview.trans (hnumber.trans (Nat.mod_mod _ _)), hmembers.trans hset⟩

/-- Without a valid view the device is isolated (R391). -/
theorem formView_of_invalid {s : State} {m : Nat} (hinvalid : validView s.fabric.members m = false) : s.formView m = s.isolate :=
  if_neg (ne_true_of_eq_false hinvalid)

/-- The device sends by the route that it has (R386). -/
theorem sendFz_of_route {s : State} {dst p : Nat} (hup : s.fabricUp = true) (hroute : s.route dst = some p) (type cls xid : Nat) (body : List Byte) :
    s.sendFz type cls dst xid body = s.sendOn p type cls dst xid body := by
  rw [State.sendFz, if_pos hup, hroute]

/-! ## Views that are received -/

section Fabric

variable {s : State} (hrun : s.running = true) (hup : s.fabricUp = true)
include hrun hup

theorem fabric_notIgnored (p cls n : Nat) : (!(s.taken p cls n).running || !(s.taken p cls n).fabricUp) = false := by
  have hrun' : (s.taken p cls n).running = true := hrun
  have hup' : (s.taken p cls n).fabricUp = true := hup
  rw [hrun', hup']
  rfl

/-- A new view with the device that is a valid successor is taken (R390, R391). -/
theorem view_taken {n m leader : Nat} (hn : n < 65536) (hself : bit m s.self = true) (hnew : n ≠ s.fabric.viewNo) (hvalid : validView s.fabric.members m = true) :
    ∃ t, exec (.view n leader m) s = .next t ∧ t.fabric.viewNo = n ∧ t.fabric.members = m ∧ t.fabric.leader = (lowestBit m 64).getD s.self := by
  obtain ⟨u, hu⟩ : ∃ u, u = s.taken (s.portOf leader) 0 12 := ⟨_, rfl⟩
  obtain ⟨hfabric, huself⟩ : (u.fabric.viewNo = s.fabric.viewNo ∧ u.fabric.members = s.fabric.members) ∧ u.self = s.self := by
    rw [hu]
    exact ⟨⟨rfl, rfl⟩, rfl⟩
  obtain ⟨hview, hmembers⟩ := hfabric
  have hexec : exec (.view n leader m) s = .next ((u.adopt n m).sendFz 0x54 0 leader 0 (beBytes (n % 65536) 2)) := by
    rw [exec, execView]
    rw [if_neg (ne_true_of_eq_false (fabric_notIgnored hrun hup _ _ _)), ← hu, huself, if_neg (by simp [hself]), if_pos (by simp [hview, hmembers, hnew, hvalid])]
  have hspine := State.sendFz_spine (u.adopt n m) 0x54 0 leader 0 (beBytes (n % 65536) 2)
  obtain ⟨hsent, hset⟩ := view_of_spine hspine
  obtain ⟨hnumber, hwho⟩ := view_adopt u n m
  refine ⟨_, hexec, hsent.trans (hnumber.trans (Nat.mod_eq_of_lt hn)), hset.trans hwho, ?_⟩
  rw [leader_of_spine hspine, leader_adopt, huself]

/-- The next view without the device isolates it, where the device had other members (R391). -/
theorem view_isolates {m : Nat} (leader : Nat) (hself : bit m s.self = false) (hothers : s.others ≠ []) :
    ∃ t, exec (.view ((s.fabric.viewNo + 1) % 65536) leader m) s = .next t ∧ t = (s.taken (s.portOf leader) 0 12).isolate := by
  have hexec : exec (.view ((s.fabric.viewNo + 1) % 65536) leader m) s = .next (s.taken (s.portOf leader) 0 12).isolate := by
    have hself' : bit m (s.taken (s.portOf leader) 0 12).self = false := hself
    have hnext : (decide ((s.fabric.viewNo + 1) % 65536 = ((s.taken (s.portOf leader) 0 12).fabric.viewNo + 1) % 65536) &&
        !(s.taken (s.portOf leader) 0 12).others.isEmpty) = true := by
      have hothers' : (s.taken (s.portOf leader) 0 12).others.isEmpty = false := by
        rw [List.isEmpty_eq_false_iff]
        exact hothers
      rw [hothers']
      exact (Bool.and_true _).trans (decide_eq_true rfl)
    rw [exec, execView]
    rw [if_neg (ne_true_of_eq_false (fabric_notIgnored hrun hup _ _ _)), hself']
    exact (if_pos rfl).trans (congrArg Host.Outcome.next (if_pos hnext))
  exact ⟨_, hexec, rfl⟩

/-- A member's heartbeat goes to the leader (R387, R390). -/
theorem heartbeatTimer_sends (hin : s.fabric.isolated = false) (hleader : s.fabric.leader ≠ s.self) {p : Nat} (hroute : s.route s.fabric.leader = some p) :
    ∃ t m, exec .heartbeatTimer s = .next t ∧ t.out.fzl = m :: s.out.fzl ∧ m.hdr.type = 0x55 ∧ m.hdr.dst = s.fabric.leader ∧ m.port = p ∧
      m.body = beBytes s.fabric.viewNo 2 ++ beBytes (b2n s.fabric.leaving) 1 := by
  have hexec : exec .heartbeatTimer s = .next (s.sendOn p 0x55 0 s.fabric.leader 0 (beBytes s.fabric.viewNo 2 ++ beBytes (b2n s.fabric.leaving) 1)) := by
    rw [exec, execHeartbeatTimer, hrun, hin, if_neg hleader, ← sendFz_of_route hup hroute]
    rfl
  exact ⟨_, _, hexec, rfl, rfl, rfl, rfl, rfl⟩

/-! ## Joins -/

/-- JOIN is answered at the leader, and the next view admits the device that may join (R392). -/
theorem join_eq (hleader : s.fabric.leader = s.self) (src : Nat) (h : Hello) : ∃ code, (code = 0 ↔ s.helloCode h = 0 ∧ bit s.fabric.members src = false ∧ s.fabric.isolated = false) ∧
    exec (.join src h) s = .next (if code = 0 then
      ((s.taken (s.portOf src) 0 16).sendFz 0x52 0 src 0 (beBytes code 1)).formView
        (setBit ((s.taken (s.portOf src) 0 16).sendFz 0x52 0 src 0 (beBytes code 1)).fabric.members src true)
      else (s.taken (s.portOf src) 0 16).sendFz 0x52 0 src 0 (beBytes code 1)) := by
  obtain ⟨code, hcode⟩ : ∃ code, code = if s.helloCode h = 1 then 1 else if bit s.fabric.members src then 2 else if s.helloCode h ≠ 0 then s.helloCode h
      else if s.fabric.isolated then 6 else 0 := ⟨_, rfl⟩
  refine ⟨code, ?_, ?_⟩
  · rw [hcode]
    by_cases hmember : bit s.fabric.members src = true
    · by_cases hone : s.helloCode h = 1 <;> simp [hmember, hone]
    · by_cases hone : s.helloCode h = 1
      · simp [hone]
      · by_cases hzero : s.helloCode h = 0 <;> simp [hmember, hone, hzero]
  · have hgo : (!(s.taken (s.portOf src) 0 16).running || !(s.taken (s.portOf src) 0 16).fabricUp ||
        decide ((s.taken (s.portOf src) 0 16).fabric.leader ≠ (s.taken (s.portOf src) 0 16).self)) = false := by
      rw [fabric_notIgnored hrun hup]
      exact decide_eq_false (not_not.mpr hleader)
    rw [exec, execJoin]
    dsimp only
    rw [if_neg (ne_true_of_eq_false hgo), hcode]
    rfl

theorem join_admits (hleader : s.fabric.leader = s.self) {src : Nat} {h : Hello} (hagrees : s.helloCode h = 0) (hnew : bit s.fabric.members src = false)
    (hin : s.fabric.isolated = false) (hvalid : validView s.fabric.members (setBit s.fabric.members src true) = true) :
    ∃ t, exec (.join src h) s = .next t ∧ t.fabric.viewNo = (s.fabric.viewNo + 1) % 65536 ∧ t.fabric.members = setBit s.fabric.members src true := by
  obtain ⟨code, hcode, hexec⟩ := join_eq hrun hup hleader src h
  obtain rfl : code = 0 := hcode.mpr ⟨hagrees, hnew, hin⟩
  obtain ⟨u, hu⟩ : ∃ u, u = (s.taken (s.portOf src) 0 16).sendFz 0x52 0 src 0 (beBytes 0 1) := ⟨_, rfl⟩
  obtain ⟨hview, hmembers⟩ : u.fabric.viewNo = s.fabric.viewNo ∧ u.fabric.members = s.fabric.members := by
    rw [hu]
    exact view_of_spine ((State.sendFz_spine _ _ _ _ _ _).trans (State.taken_spine _ _ _ _))
  rw [if_pos rfl, ← hu, hmembers] at hexec
  obtain ⟨hnumber, hset⟩ := formView_of_valid (s := u) (m := setBit s.fabric.members src true) (by rw [hmembers]; exact hvalid)
  exact ⟨_, hexec, by rw [hnumber, hview], hset⟩

theorem join_refuses (hleader : s.fabric.leader = s.self) (src : Nat) {h : Hello} (hdiffers : s.helloCode h ≠ 0) :
    ∃ t, exec (.join src h) s = .next t ∧ t.fabric.viewNo = s.fabric.viewNo ∧ t.fabric.members = s.fabric.members := by
  obtain ⟨code, hcode, hexec⟩ := join_eq hrun hup hleader src h
  rw [if_neg fun hzero => hdiffers (hcode.mp hzero).1] at hexec
  exact ⟨_, hexec, view_of_spine ((State.sendFz_spine _ _ _ _ _ _).trans (State.taken_spine _ _ _ _))⟩

end Fabric

section Running

variable {s : State} (hrun : s.running = true)
include hrun

theorem joinReply_ends (hsent : s.fabric.joinSeen = true) {code : Nat} (hcode : code ≠ 0) : ∃ t, exec (.joinReply code) s = .next t ∧
    t = { s with fabric := { s.fabric with ports := (s.taken (s.portOf s.fabric.leader) 0 1).fabric.ports, joinSeen := false } } := by
  have hgo : ((s.taken (s.portOf s.fabric.leader) 0 1).running && (s.taken (s.portOf s.fabric.leader) 0 1).fabric.joinSeen && decide (code ≠ 0)) = true := by
    have hrun' : (s.taken (s.portOf s.fabric.leader) 0 1).running = true := hrun
    have hsent' : (s.taken (s.portOf s.fabric.leader) 0 1).fabric.joinSeen = true := hsent
    rw [hrun', hsent', decide_eq_true hcode]
    rfl
  exact ⟨_, if_pos hgo, rfl⟩

/-! ## Members -/

section Member

variable {src : Nat} (hsrc : src ∈ s.others)
include hsrc

/-- A message of the device's view from another member is read (R390). -/
theorem member_heard (p cls n : Nat) : ((s.taken p cls n).running && (s.taken p cls n).others.contains src &&
    decide (s.fabric.viewNo = (s.taken p cls n).fabric.viewNo)) = true := by
  have hrun' : (s.taken p cls n).running = true := hrun
  have hsrc' : (s.taken p cls n).others.contains src = true := List.contains_iff_mem.mpr hsrc
  rw [hrun', hsrc']
  exact decide_eq_true rfl

theorem viewAck_kept : ∃ t, exec (.viewAck src s.fabric.viewNo) s = .next t ∧ src ∈ t.fabric.acks ∧ (∀ i, i ≠ src → (i ∈ t.fabric.acks ↔ i ∈ s.fabric.acks)) ∧
    t = { s with fabric := { s.fabric with ports := (s.taken (s.portOf src) 0 2).fabric.ports, acks := t.fabric.acks } } := by
  refine ⟨_, if_pos (member_heard hrun hsrc _ _ _), ?_, fun i hi => ?_, rfl⟩
  · exact List.mem_append_right _ (List.mem_singleton_self src)
  · have hacks : (s.taken (s.portOf src) 0 2).fabric.acks = s.fabric.acks := rfl
    simp [hacks, hi]

theorem heartbeat_kept (leaving : Bool) : ∃ t, exec (.heartbeat src s.fabric.viewNo leaving) s = .next t ∧ Store.get (fun _ => 0) src t.fabric.lastBeat = s.clock.now ∧
    (src ∈ t.fabric.leavers ↔ leaving = true) ∧
      t = { s with fabric := { s.fabric with ports := (s.taken (s.portOf src) 0 3).fabric.ports, lastBeat := t.fabric.lastBeat, leavers := t.fabric.leavers } } := by
  refine ⟨_, if_pos (member_heard hrun hsrc _ _ _), (Store.get_set _ _ _ _ _).trans (if_pos rfl), ?_, rfl⟩
  cases leaving <;> simp

section Leader

variable (hin : s.fabric.isolated = false) (hleader : s.fabric.leader = s.self)
include hin hleader

/-- The leader forms the next view without a member whose heartbeat is missing (R390). -/
theorem memberTimeout_eq : exec (.memberTimeout src) s =
    .next ((s.toTime (Store.get (fun _ => 0) src s.fabric.lastBeat + s.memberTimeout * 1000000)).formView (setBit s.fabric.members src false)) := by
  have hgo : (s.running && !s.fabric.isolated && s.others.contains src && (decide (s.fabric.leader = s.self) ||
      (decide (src = s.fabric.leader) && decide (s.formerWithout src = some s.self)))) = true := by
    rw [hrun, hin, List.contains_iff_mem.mpr hsrc, decide_eq_true hleader]
    rfl
  refine (if_pos hgo).trans ?_
  rw [toTime_fabric]

/-- The leader forms the next view without a member that leaves (R390). -/
theorem leave_eq (reason : Nat) : exec (.leave src reason) s = .next ((s.taken (s.portOf src) 0 1).formView (setBit s.fabric.members src false)) := by
  obtain ⟨u, hu⟩ : ∃ u, u = s.taken (s.portOf src) 0 1 := ⟨_, rfl⟩
  obtain ⟨hrun', hin', hsrc', hleader'⟩ : u.running = true ∧ u.fabric.isolated = false ∧ u.others.contains src = true ∧ u.fabric.leader = u.self := by
    rw [hu]
    exact ⟨hrun, hin, List.contains_iff_mem.mpr hsrc, hleader⟩
  have hgo : (u.running && !u.fabric.isolated && u.others.contains src && (decide (u.fabric.leader = u.self) ||
      (decide (src = u.fabric.leader) && decide (u.formerWithout src = some u.self)))) = true := by
    rw [hrun', hin', hsrc', decide_eq_true hleader']
    rfl
  rw [hu] at hgo
  exact if_pos hgo

theorem memberLost_formsView (hvalid : validView s.fabric.members (setBit s.fabric.members src false) = true) :
    (∃ t, exec (.memberTimeout src) s = .next t ∧ t.fabric.viewNo = (s.fabric.viewNo + 1) % 65536 ∧ t.fabric.members = setBit s.fabric.members src false) ∧
      ∀ reason, ∃ t, exec (.leave src reason) s = .next t ∧ t.fabric.viewNo = (s.fabric.viewNo + 1) % 65536 ∧ t.fabric.members = setBit s.fabric.members src false := by
  refine ⟨⟨_, memberTimeout_eq hrun hsrc hin hleader, ?_⟩, fun reason => ⟨_, leave_eq hrun hsrc hin hleader reason, formView_of_valid hvalid⟩⟩
  have hform := formView_of_valid (s := s.toTime (Store.get (fun _ => 0) src s.fabric.lastBeat + s.memberTimeout * 1000000)) (m := setBit s.fabric.members src false)
    (by rw [toTime_fabric]; exact hvalid)
  rwa [toTime_fabric] at hform

theorem memberLost_isolates (hinvalid : validView s.fabric.members (setBit s.fabric.members src false) = false) :
    (∃ t, exec (.memberTimeout src) s = .next t ∧ t.fabric = { s.fabric with isolated := true } ∧
      Store.get (fun _ => 0) src s.fabric.lastBeat + s.memberTimeout * 1000000 ≤ t.clock.now) ∧
    ∀ reason, ∃ t, exec (.leave src reason) s = .next t ∧ t = (s.taken (s.portOf src) 0 1).isolate := by
  refine ⟨⟨_, memberTimeout_eq hrun hsrc hin hleader, ?_⟩, fun reason => ⟨_, leave_eq hrun hsrc hin hleader reason, formView_of_invalid hinvalid⟩⟩
  rw [formView_of_invalid (by rw [toTime_fabric]; exact hinvalid)]
  exact ⟨congrArg (fun f : Fabric => { f with isolated := true }) (toTime_fabric s _), le_toTime s _⟩

end Leader

end Member

end Running

/-! ## What ends the sessions leaves the log -/

/-- Power and the entries of the log. -/
def State.logged (s : State) : Power × List TallyEntry := (s.power, s.tally.entries)

/-- Steps that keep a part of the state keep it together. -/
theorem foldl_keeps {α β : Type} {g : State → β} {f : State → α → State} (h : ∀ s a, g (f s a) = g s) (l : List α) (s : State) : g (l.foldl f s) = g s := by
  induction l generalizing s with
  | nil => rfl
  | cons a r ih => exact (ih _).trans (h s a)

theorem event_logged (s : State) (sid code data : Nat) : (s.event sid code data).logged = s.logged := by
  have hserve (s : State) (o : Op) : (s.serveWait o).logged = s.logged := by
    unfold State.serveWait
    extract_lets r
    split <;> rfl
  refine (foldl_keeps (g := State.logged) hserve _ _).trans ?_
  unfold State.queueEvent
  split
  · rfl
  · split <;> rfl

theorem enterClosed_logged (s : State) (sid reason : Nat) : (s.enterClosed sid reason).logged = s.logged := by
  refine (event_logged _ _ _ _).trans ?_
  unfold State.quiesce
  split <;> rfl

theorem closeSession_logged (s : State) (sid reason : Nat) : (s.closeSession sid reason).logged = s.logged :=
  (foldl_keeps (g := State.logged) (fun (s : State) (o : Op) => (rfl : (s.finish o.id Res.lost).logged = s.logged)) _ _).trans (enterClosed_logged s sid reason)

theorem sendLeave_logged (s : State) (reason : Nat) : (s.sendLeave reason).logged = s.logged := foldl_keeps (g := State.logged) (fun s _ => by rw [sendFz_frame]; rfl) _ s

/-! ## Leaving -/

/-- A device that leaves and holds no tile ends alone in its view, and isolated (R392; log entry 34). -/
theorem gracefulLeaveComplete_leaves {s : State} (hrun : s.running = true) (hleaving : s.fabric.leaving = true)
    (hnone : ∀ t ∈ s.map.cur.tiles ++ s.map.latest.tiles, t.owner ≠ s.self ∧ t.mirror ≠ some s.self) : ∃ t, exec .gracefulLeaveComplete s = .next t ∧
      t.fabric.leaving = false ∧ t.fabric.isolated = true ∧ t.fabric.members = setBit 0 s.self true ∧ t.fabric.leader = s.self := by
  obtain ⟨u, hu⟩ : ∃ u, u = ((s.sendLeave 1).sess.list.filter fun x => x.state != .closed).foldl (fun (s : State) x => s.closeSession x.id 0x04) (s.sendLeave 1) := ⟨_, rfl⟩
  have hself : u.self = s.self := by
    have hpower : u.power = s.power := hu ▸ congrArg Prod.fst ((foldl_keeps (g := State.logged) (fun s x => closeSession_logged s _ _) _ _).trans (sendLeave_logged s 1))
    rw [State.self, State.self, hpower]
  have hfree (v : MapView) (hv : ∀ t ∈ v.tiles, t ∈ s.map.cur.tiles ++ s.map.latest.tiles) : (!(v.tiles.any fun t => decide (t.owner = s.self) || decide (t.mirror = some s.self))) = true := by
    rw [Bool.not_eq_true', List.any_eq_false]
    intro t ht
    obtain ⟨howner, hmirror⟩ := hnone t (hv t ht)
    simp [howner, hmirror]
  have hexec : exec .gracefulLeaveComplete s = .next { u with fabric := { u.fabric with
      leaving := false, members := setBit 0 u.self true, leader := u.self, isolated := true, lastBeat := [], readySent := false, readys := [], barrier := none
      outStreams := [], inStreams := [] } } := by
    rw [hu]
    refine if_pos ?_
    rw [Bool.and_eq_true, Bool.and_eq_true, Bool.and_eq_true]
    exact ⟨⟨⟨hrun, hleaving⟩, hfree _ fun t => List.mem_append_left _⟩, hfree _ fun t => List.mem_append_right _⟩
  exact ⟨_, hexec, rfl, rfl, congrArg (setBit 0 · true) hself, hself⟩

/-- Settles O34: each message and timer by its lemma. A device that has left is alone in its view and isolated (log entry 34), and HEARTBEAT has R387's body. -/
theorem viewsFollowMembership : Obligations.ViewsFollowMembership := by
  refine fun s hrun hup => ⟨fun n m leader => view_taken hrun hup, fun m leader => view_isolates hrun hup leader, fun src hsrc => ⟨viewAck_kept hrun hsrc, heartbeat_kept hrun hsrc⟩,
    fun hin hleader p => heartbeatTimer_sends hrun hup hin hleader, fun hin hleader src hsrc => ⟨?valid, ?invalid⟩, fun hleader src h => join_admits hrun hup hleader,
    fun hleader src h => join_refuses hrun hup hleader src, fun hsent code => joinReply_ends hrun hsent, gracefulLeaveComplete_leaves hrun⟩
  case valid => exact memberLost_formsView hrun hsrc hin hleader
  case invalid => exact memberLost_isolates hrun hsrc hin hleader

end Sys2Proof.Machine

/-! # Safe hold

What the entry into safe hold ends: the sessions, the ports and every operation in flight (R412, R413). -/

namespace Sys2Proof.Machine

/-! ## Steps over a list -/

/-- What each step brings about for the ID it names, and no step undoes, holds of every ID that is named. -/
theorem foldl_reaches {α : Type} {P : State → Nat → Prop} {f : State → α → State} {key : α → Nat} (hkeep : ∀ s a i, P s i → P (f s a) i)
    (hreach : ∀ s a, P (f s a) (key a)) {l : List α} {s : State} {i : Nat} (h : P s i ∨ ∃ a ∈ l, key a = i) : P (l.foldl f s) i := by
  induction l generalizing s with
  | nil => exact h.resolve_right fun ⟨a, ha, _⟩ => absurd ha List.not_mem_nil
  | cons b r ih =>
    obtain hnow | ⟨a, ha, rfl⟩ := h
    · exact ih (Or.inl (hkeep s b i hnow))
    · obtain rfl | hr := List.mem_cons.mp ha
      · exact ih (Or.inl (hreach s a))
      · exact ih (Or.inr ⟨a, hr, rfl⟩)

/-! ## Sessions -/

/-- The state of a session that there is (R114). -/
def State.sessState (s : State) (i : Nat) : Option SessState := (s.session i).map (·.state)

/-- A session is neither OPEN nor SILENT (R114). -/
def State.Shut (s : State) (i : Nat) : Prop := s.sessState i ≠ some .opened ∧ s.sessState i ≠ some .silent

/-- What the steps of safe hold after the log's entry leave: power, the entries of the log, and the state of each session. -/
def State.endings (s : State) : (Power × List TallyEntry) × List (Nat × SessState) := (s.logged, s.sess.list.map fun x => (x.id, x.state))

/-- The state of a session is read off the list of IDs and states. -/
theorem sessState_of_list {s t : State} (h : (t.sess.list.map fun x => (x.id, x.state)) = s.sess.list.map fun x => (x.id, x.state)) (i : Nat) :
    t.sessState i = s.sessState i := by
  have hfind (u : State) : u.sessState i = ((u.sess.list.map fun x => (x.id, x.state)).find? fun p => p.1 = i).map (·.2) := by
    simp [State.sessState, State.session, List.find?_map, Function.comp_def]
  rw [hfind, hfind, h]

theorem sessState_of_endings {s t : State} (h : t.endings = s.endings) (i : Nat) : t.sessState i = s.sessState i := sessState_of_list (congrArg Prod.snd h) i

theorem entries_of_endings {s t : State} (h : t.endings = s.endings) : t.tally.entries = s.tally.entries := congrArg (fun e => e.1.2) h

theorem sessState_of_sessions {s t : State} (h : t.sessions (·.state) = s.sessions (·.state)) (i : Nat) : t.sessState i = s.sessState i :=
  sessState_of_list (congrArg (·.2.2) h) i

theorem quiesce_states (s : State) (sid : Nat) : (s.quiesce sid).sessions (·.state) = s.sessions (·.state) := by
  unfold State.quiesce
  split
  · rfl
  · exact updSession_sessions s

/-- A session that is closed is in no other state, and the other sessions stay in theirs (R114). -/
theorem sessState_updSession_closed (s : State) (sid i : Nat) : (s.updSession sid fun x => { x with state := .closed, declLoad := 0 }).sessState i =
    if i = sid then (s.sessState i).map fun _ => .closed else s.sessState i := by
  by_cases hi : i = sid
  · have hfind : (s.updSession sid fun x => { x with state := .closed, declLoad := 0 }).session sid = (s.session sid).map fun x => { x with state := .closed, declLoad := 0 } :=
      find_updFirst_same _ _ _ fun x hx => hx
    rw [if_pos hi, hi, State.sessState, hfind, Option.map_map, State.sessState, Option.map_map]
    rfl
  · have hfind : (s.updSession sid fun x => { x with state := .closed, declLoad := 0 }).session i = s.session i := session_updSession_ne s (fun _ h => h) hi
    rw [if_neg hi, State.sessState, hfind, State.sessState]

theorem sessState_enterClosed (s : State) (sid reason i : Nat) :
    (s.enterClosed sid reason).sessState i = if i = sid then (s.sessState i).map fun _ => .closed else s.sessState i := by
  rw [← sessState_of_sessions (quiesce_states s sid), ← sessState_updSession_closed]
  exact sessState_of_sessions (event_sessions (fun _ _ => rfl) _ sid 0x03 reason) i

theorem shut_enterClosed (s : State) (sid reason : Nat) : (s.enterClosed sid reason).Shut sid := by
  rw [State.Shut, sessState_enterClosed, if_pos rfl]
  cases s.sessState sid <;> simp

theorem shut_enterClosed_of_shut {s : State} {i : Nat} (h : s.Shut i) (sid reason : Nat) : (s.enterClosed sid reason).Shut i := by
  by_cases hi : i = sid
  · exact hi ▸ shut_enterClosed s sid reason
  · rwa [State.Shut, sessState_enterClosed, if_neg hi]

theorem sendUsp_endings (s : State) (sid kind : Nat) (body : List Byte) : (s.sendUsp sid kind body).endings = s.endings := by
  unfold State.sendUsp
  split
  · rfl
  · split
    · rfl
    · split
      · extract_lets a u
        split <;> rfl
      · rfl

/-- The CLOSE that a session on the net path sends before safe hold closes it (R413 step 2). -/
def State.closeSent (s : State) (x : Session) : State := if !x.hostPath then s.sendUsp x.id 0x8 (leBytes 0x04 1 ++ zeros 3) else s

theorem closeSent_endings (s : State) (x : Session) : (s.closeSent x).endings = s.endings := by
  unfold State.closeSent
  split
  · exact sendUsp_endings s _ _ _
  · rfl

theorem closeAll_eq (s : State) :
    s.closeAll = (s.sess.list.filter fun x => x.state = .opened || x.state = .silent).foldl (fun s x => (s.closeSent x).enterClosed x.id 0x04) s := rfl

theorem closeAll_logged (s : State) : s.closeAll.logged = s.logged := by
  rw [closeAll_eq]
  exact foldl_keeps (fun s x => (enterClosed_logged _ _ _).trans (congrArg Prod.fst (closeSent_endings s x))) _ s

/-- Every session is closed that was OPEN or SILENT (R413 step 2). -/
theorem shut_closeAll (s : State) (i : Nat) : s.closeAll.Shut i := by
  have hshut (s : State) (x : Session) (i : Nat) (h : s.Shut i) : (s.closeSent x).Shut i := by
    rwa [State.Shut, sessState_of_endings (closeSent_endings s x)]
  rw [closeAll_eq]
  refine foldl_reaches (P := State.Shut) (key := Session.id) (fun s x i h => shut_enterClosed_of_shut (hshut s x i h) _ _) (fun s x => shut_enterClosed _ _ _) ?_
  cases hx : s.session i with
  | none =>
    rw [State.Shut, State.sessState, hx]
    exact Or.inl (by decide)
  | some x =>
    by_cases hlive : x.state = .opened ∨ x.state = .silent
    · exact Or.inr ⟨x, List.mem_filter.mpr ⟨List.mem_of_find?_eq_some hx, by simpa using hlive⟩, session_id hx⟩
    · rw [State.Shut, State.sessState, hx]
      exact Or.inl (by simpa using hlive)

theorem shut_of_endings {s t : State} (h : t.endings = s.endings) {i : Nat} (hs : s.Shut i) : t.Shut i := by
  rwa [State.Shut, sessState_of_endings h]

theorem State.Shut.state {s : State} {i : Nat} (h : s.Shut i) {x : Session} (hx : s.session i = some x) : x.state ≠ .opened ∧ x.state ≠ .silent := by
  rw [State.Shut, State.sessState, hx, Option.map_some] at h
  simpa using h

/-! ## Messages and frames that still leave -/

theorem sendLeave_endings (s : State) (reason : Nat) : (s.sendLeave reason).endings = s.endings := foldl_keeps (fun s _ => by rw [sendFz_frame]; rfl) _ s

theorem complete_endings (s : State) (id : Nat) (r : Res) : (s.complete id r).endings = s.endings := by
  unfold State.complete
  split
  · split <;> rfl
  · rfl

theorem sendFrame_endings (s : State) (p : Nat) (f : TxFrame) (at_ : Nat) : (s.sendFrame p f at_).endings = s.endings := by
  unfold State.sendFrame
  extract_lets late tx u v stamp w y
  have htime (n : Nat) : (s.toTime n).endings = s.endings := by
    rw [toTime_frame]
    rfl
  have hv : v.endings = s.endings := htime (at_ / 100)
  split
  · split
    · exact hv
    · exact hv
  · split
    · exact hv
    · exact (complete_endings _ _ _).trans hv

theorem drainPort_endings (s : State) (p : Nat) : (s.drainPort p).endings = s.endings := foldl_keeps (fun s f => sendFrame_endings s p f _) _ s

/-- A port without frames sends none. -/
theorem drainPort_of_empty {s : State} (h : ∀ q ∈ s.net.ports, q.queue = []) (p : Nat) : s.drainPort p = s := by
  have hnone : ((s.net.ports[p]?).map (·.queue)).getD [] = [] := by
    cases hq : s.net.ports[p]? with
    | none => rfl
    | some q => exact h q (List.mem_of_getElem? hq)
  rw [State.drainPort, hnone]
  simp

theorem drainFabric_frame (s : State) : s.drainFabric = { s with clock := s.drainFabric.clock, fabric := s.drainFabric.fabric, out := s.drainFabric.out } := by
  unfold State.drainFabric
  extract_lets n
  generalize List.range n = l
  induction l generalizing s with
  | nil => rfl
  | cons a r ih =>
    rw [List.foldl_cons, ih, toTime_frame]
    rfl

/-! ## Operations -/

/-- An operation has no outcome but that of safe hold, with the index of its entry in the log (R413 step 4). -/
def State.HeldOut (s : State) (idx i : Nat) : Prop := ∀ o, s.findOp i = some o → o.phase = .final ∧ o.status = St.safeHold ∧ o.count = 0 ∧ o.detail = idx

/-- An operation's outcome is final, where it is in flight. -/
def State.Over (s : State) (i : Nat) : Prop := ∀ o, s.findOp i = some o → o.phase = .final

/-- The step of safe hold over operations (R413 step 4). -/
def State.holdOp (s : State) (idx id : Nat) : State := (s.dropWork id).finish id { status := St.safeHold, detail := idx }

theorem holdOps_eq (s : State) (idx : Nat) : s.holdOps idx = (s.ops.list.filter fun o => o.phase != .final).foldl (fun s o => s.holdOp idx o.id) s := rfl

theorem findOp_holdOp_ne (s : State) (idx : Nat) {id i : Nat} (hi : i ≠ id) : (s.holdOp idx id).findOp i = s.findOp i := findOp_finish_ne (s.dropWork id) id i _ hi

theorem heldOut_holdOp (s : State) (idx id : Nat) : (s.holdOp idx id).HeldOut idx id := by
  intro o ho
  rw [State.holdOp, findOp_finish, Option.map_eq_some_iff] at ho
  obtain ⟨p, -, rfl⟩ := ho
  exact ⟨rfl, rfl, rfl, rfl⟩

theorem heldOut_keeps {s : State} {idx i : Nat} (h : s.HeldOut idx i) (id : Nat) : (s.holdOp idx id).HeldOut idx i := by
  by_cases hi : i = id
  · exact hi ▸ heldOut_holdOp s idx id
  · unfold State.HeldOut
    rwa [findOp_holdOp_ne s idx hi]

theorem over_holdOp {s : State} {i : Nat} (h : s.Over i) (idx id : Nat) : (s.holdOp idx id).Over i := by
  by_cases hi : i = id
  · exact fun o ho => (heldOut_holdOp s idx id o (hi ▸ ho)).1
  · unfold State.Over
    rwa [findOp_holdOp_ne s idx hi]

theorem mem_heldOps {s : State} {i : Nat} {o : Op} (ho : s.findOp i = some o) (hopen : o.phase ≠ .final) : ∃ a ∈ s.ops.list.filter (fun o => o.phase != .final), a.id = i :=
  ⟨o, List.mem_filter.mpr ⟨List.mem_of_find?_eq_some ho, bne_iff_ne.mpr hopen⟩, findOp_id ho⟩

/-- An operation in flight without an outcome ends with that of safe hold. -/
theorem heldOut_holdOps {s : State} {i : Nat} {o : Op} (ho : s.findOp i = some o) (hopen : o.phase ≠ .final) (idx : Nat) : (s.holdOps idx).HeldOut idx i := by
  rw [holdOps_eq]
  exact foldl_reaches (P := fun s i => s.HeldOut idx i) (key := Op.id) (fun s a i h => heldOut_keeps h a.id) (fun s a => heldOut_holdOp s idx a.id) (Or.inr (mem_heldOps ho hopen))

/-- No operation in flight is left without an outcome. -/
theorem over_holdOps (s : State) (idx i : Nat) : (s.holdOps idx).Over i := by
  rw [holdOps_eq]
  refine foldl_reaches (P := State.Over) (key := Op.id) (fun s a i h => over_holdOp h idx a.id) (fun s a o ho => (heldOut_holdOp s idx a.id o ho).1) ?_
  by_cases hover : s.Over i
  · exact Or.inl hover
  · obtain ⟨o, ho, hopen⟩ : ∃ o, s.findOp i = some o ∧ o.phase ≠ .final := by simpa [State.Over] using hover
    exact Or.inr (mem_heldOps ho hopen)

/-- What safe hold leaves of the rest of the device while operations end. -/
theorem holdOps_stopped (s : State) (idx : Nat) : ((s.holdOps idx).net.stopped, (s.holdOps idx).fabric.stopped, (s.holdOps idx).endings) = (s.net.stopped, s.fabric.stopped, s.endings) :=
  foldl_keeps (g := fun s : State => (s.net.stopped, s.fabric.stopped, s.endings)) (f := fun s (o : Op) => s.holdOp idx o.id) (fun _ _ => rfl) _ s

/-- An operation in flight stays in flight. -/
theorem ended_holdOps {s : State} {i : Nat} {o : Op} (ho : s.findOp i = some o) (hopen : o.phase ≠ .final) (idx : Nat) : (s.holdOps idx).Ended i St.safeHold 0 idx := by
  obtain ⟨p, hp⟩ := findOp_of_spine (State.holdOps_spine s idx) ho
  exact ⟨p, hp, heldOut_holdOps ho hopen idx p hp⟩

/-! ## The entry into safe hold -/

/-- The ports and triggers stop, and device time that runs goes over to holdover (R413 step 3). -/
def State.darken (s : State) : State :=
  { s with
    net := { s.net with stopped := true, ports := s.net.ports.map fun q => { q with up := false, queue := [] }, trigs := s.net.trigs.map fun g => { g with running := false } }
    fabric := { s.fabric with stopped := true, ports := s.fabric.ports.map fun q => { q with up := false } }
    clock := if s.clock.state = TimeState.unset then s.clock else { s.clock with state := .holdover, holdoverSince := s.clock.now } }

/-- The device as safe hold has ended the sessions and sent what it still sends (R413). -/
def State.silenced (s : State) : State := (((s.closeAll.sendLeave 2).drainPort 0).drainPort 1).drainFabric

theorem silenced_logged (s : State) : s.silenced.endings.1 = s.logged := by
  rw [State.silenced, drainFabric_frame]
  refine (congrArg Prod.fst ((drainPort_endings _ 1).trans ((drainPort_endings _ 0).trans (sendLeave_endings _ 2)))).trans ?_
  exact closeAll_logged s

theorem shut_silenced (s : State) (i : Nat) : s.silenced.Shut i := by
  have hends : s.silenced.endings = s.closeAll.endings := by
    rw [State.silenced, drainFabric_frame]
    exact (drainPort_endings _ 1).trans ((drainPort_endings _ 0).trans (sendLeave_endings _ 2))
  exact shut_of_endings hends (shut_closeAll s i)

/-- Without sessions and frames the operations in flight are not touched before they end. -/
theorem silenced_ops {s : State} (hsess : s.sess.list = []) (hports : ∀ q ∈ s.net.ports, q.queue = []) : s.silenced.ops = s.ops := by
  have hclosed : s.closeAll = s := by rw [closeAll_eq, hsess]; rfl
  have hsent : s.sendLeave 2 = { s with out := (s.sendLeave 2).out, fabric := (s.sendLeave 2).fabric } :=
    List.foldlRecOn (motive := fun u : State => u = { s with out := u.out, fabric := u.fabric }) s.others _ rfl fun u hu p _ => by
      rw [sendFz_frame, hu]
  have hempty : ∀ q ∈ (s.sendLeave 2).net.ports, q.queue = [] := by
    rw [hsent]
    exact hports
  rw [State.silenced, hclosed, drainPort_of_empty hempty, drainPort_of_empty hempty, drainFabric_frame, hsent]

theorem enterSafeHold_eq {s : State} (hrun : s.running = true) (code : Nat) : s.enterSafeHold code =
    { (((s.log (dieUnit 15) 0x00F0 3 255 0 code).silenced.darken).holdOps (s.tally.head % 65536)) with
      fault := { (((s.log (dieUnit 15) 0x00F0 3 255 0 code).silenced.darken).holdOps (s.tally.head % 65536)).fault with safeHold := true } } := by
  obtain ⟨hboot, hhold⟩ : s.power.boot = .running ∧ s.fault.safeHold = false := by simpa [State.running] using hrun
  have hguard : (s.fault.safeHold || s.power.boot != .running) = false := by simp [hboot, hhold]
  rw [State.enterSafeHold, if_neg (ne_true_of_eq_false hguard)]
  rfl

/-- Safe hold ends all work (R412, R413). -/
theorem enterSafeHold_ends {s : State} (hrun : s.running = true) (code : Nat) : ∃ e, (s.enterSafeHold code).fault.safeHold = true ∧ (s.enterSafeHold code).net.stopped = true ∧
    (s.enterSafeHold code).fabric.stopped = true ∧ (∀ i o, (s.enterSafeHold code).findOp i = some o → o.phase = .final) ∧
      (∀ i x, (s.enterSafeHold code).session i = some x → x.state ≠ .opened ∧ x.state ≠ .silent) ∧ e ∈ (s.enterSafeHold code).tally.entries ∧ e.code = 0x00F0 ∧
        (s.sess.list = [] → (∀ q ∈ s.net.ports, q.queue = []) → ∀ i o, s.findOp i = some o → o.phase ≠ .final →
          (s.enterSafeHold code).Ended i St.safeHold 0 (s.tally.head % 65536)) := by
  obtain ⟨u, hu⟩ : ∃ u, u = s.log (dieUnit 15) 0x00F0 3 255 0 code := ⟨_, rfl⟩
  obtain ⟨e, hlast, hcode, -⟩ := log_last_names s (dieUnit 15) 0x00F0 3 255 0 code
  obtain ⟨h, hh⟩ : ∃ h, h = u.silenced.darken.holdOps (s.tally.head % 65536) := ⟨_, rfl⟩
  have heq : s.enterSafeHold code = { h with fault := { h.fault with safeHold := true } } := by rw [hh, hu, enterSafeHold_eq hrun]
  have hstopped := holdOps_stopped u.silenced.darken (s.tally.head % 65536)
  rw [← hh, Prod.mk.injEq, Prod.mk.injEq] at hstopped
  obtain ⟨hnet, hfabric, hends⟩ := hstopped
  have hentries : h.tally.entries = u.tally.entries := (entries_of_endings (s := u.silenced) hends).trans (congrArg Prod.snd (silenced_logged u))
  rw [heq]
  refine ⟨e, rfl, hnet, hfabric, fun i o ho => ?ops, fun i x hx => ?shut, ?entry, hcode, fun hsess hports i o ho hopen => ?ended⟩
  case ops => exact over_holdOps u.silenced.darken (s.tally.head % 65536) i o (hh ▸ ho)
  case shut => exact (shut_of_endings (s := u.silenced) (t := h) hends (shut_silenced u i)).state hx
  case entry =>
    rw [← hu] at hlast
    exact hentries ▸ List.mem_of_getLast? hlast
  case ended =>
    have hops : u.silenced.ops = s.ops := by
      rw [silenced_ops (by rw [hu, log_sess]; exact hsess) (by rw [hu, log_net]; exact hports), hu, log_ops]
    exact hh ▸ ended_holdOps (s := u.silenced.darken) ((findOp_of_ops hops i).trans ho) hopen _

end Sys2Proof.Machine

/-! # Firmware

Staging, activation and reversion of firmware (R417, R418), and the switch at the boundary of its epoch. -/

namespace Sys2Proof.Machine

/-! ## What edits of the map leave -/

/-- From s to t the map was edited: operations, faults and all else that is neither the map nor the fabric's streams stay. -/
def Edited (s t : State) : Prop := t = { s with map := t.map, fabric := t.fabric, out := t.out }

theorem Edited.refl (s : State) : Edited s s := rfl

theorem Edited.trans {a b c : State} (h1 : Edited a b) (h2 : Edited b c) : Edited a c := by
  unfold Edited at *
  rw [h2, h1]

theorem edited_foldl {α : Type} {f : State → α → State} (hf : ∀ s a, Edited s (f s a)) (l : List α) (s : State) : Edited s (l.foldl f s) := by
  induction l generalizing s with
  | nil => exact Edited.refl s
  | cons a r ih => exact (hf s a).trans (ih _)

theorem edited_setCur (s : State) (v : MapView) : Edited s (s.setCur v) := rfl

theorem edited_record (s : State) (t : Tile) : Edited s (s.record t) := by
  refine Edited.trans (b := s.setCur (s.map.cur.setTile t)) rfl (edited_foldl (fun u peer => ?_) _ _)
  rw [State.sendItem, sendFz_frame]
  rfl

theorem edited_applyRestore (s : State) (o : Op) (data : List Byte) : Edited s (s.applyRestore o data).1 := by
  fun_cases State.applyRestore
  case case6 => exact (edited_setCur s _).trans (edited_record _ _)
  all_goals exact Edited.refl s

theorem edited_purge (s : State) (key : Nat) (removed : List Observation) : Edited s (s.purge key removed).1 := by
  unfold State.purge
  refine List.foldlRecOn (motive := fun r : State × Nat => Edited s r.1) _ _ (Edited.refl s) fun r hr t _ => ?_
  dsimp only
  split
  · exact hr
  · exact hr.trans (edited_record _ _)

theorem edited_applyDelete (s : State) (o : Op) (data : List Byte) : Edited s (s.applyDelete o data).1 := by
  fun_cases State.applyDelete
  · exact Edited.refl s
  · exact (edited_setCur s _).trans (edited_purge _ _ _)

theorem edited_applyPose (s : State) (o : Op) (data : List Byte) : Edited s (s.applyPose o data).1 := by
  fun_cases State.applyPose
  · exact Edited.refl s
  · exact edited_record s _

theorem edited_applyLinkAdd (s : State) (o : Op) (data : List Byte) : Edited s (s.applyLinkAdd o data).1 := by
  fun_cases State.applyLinkAdd
  case case3 => exact edited_record s _
  all_goals exact Edited.refl s

theorem edited_applyLinkDelete (s : State) (o : Op) : Edited s (s.applyLinkDelete o).1 := by
  fun_cases State.applyLinkDelete
  case case3 => exact edited_record s _
  all_goals exact Edited.refl s

theorem edited_applyQuarantine (s : State) (o : Op) (data : List Byte) (on : Bool) : Edited s (s.applyQuarantine o data on).1 := by
  unfold State.applyQuarantine
  refine (edited_setCur s _).trans (edited_foldl (fun u t => ?_) _ _)
  split
  · exact edited_record u _
  · exact Edited.refl u

theorem edited_recordMoves (s : State) (base : MapView) (moves : List PoseMove) (links : List Link) : Edited s (s.recordMoves base moves links) := by
  unfold State.recordMoves
  refine (edited_foldl (fun u m => ?_) _ _).trans (edited_foldl (fun u l => ?_) _ _)
  all_goals
    split
    · exact Edited.refl u
    · split
      · exact Edited.refl u
      · exact edited_record u _

/-! ## Outcomes that stay while changes come due -/

/-- From s to t no fault state changed, and operations that had ended keep their outcome. -/
def OutcomesKept (s t : State) : Prop := t.fault = s.fault ∧ ∀ id status count detail, s.Ended id status count detail → t.Ended id status count detail

theorem OutcomesKept.trans {a b c : State} (h1 : OutcomesKept a b) (h2 : OutcomesKept b c) : OutcomesKept a c := by
  obtain ⟨hfault1, hend1⟩ := h1
  obtain ⟨hfault2, hend2⟩ := h2
  exact ⟨hfault2.trans hfault1, fun id status count detail h => hend2 _ _ _ _ (hend1 _ _ _ _ h)⟩

theorem outcomesKept_foldl {α : Type} {f : State → α → State} (hf : ∀ s a, OutcomesKept s (f s a)) (l : List α) (s : State) : OutcomesKept s (l.foldl f s) := by
  induction l generalizing s with
  | nil => exact ⟨rfl, fun _ _ _ _ h => h⟩
  | cons a r ih => exact (hf s a).trans (ih _)

theorem Edited.outcomesKept {s t : State} (h : Edited s t) : OutcomesKept s t := by
  have hops : t.ops = s.ops := by rw [h]
  exact ⟨by rw [h], fun id status count detail hend => ended_of_ops hops hend⟩

theorem outcomesKept_complete (s : State) (id : Nat) (r : Res) : OutcomesKept s (s.complete id r) :=
  ⟨by rw [complete_frame], fun _ _ _ _ h => ended_complete_of_ended id r h⟩

theorem outcomesKept_applyDrop (s : State) (o : Op) : OutcomesKept s (s.applyDrop o).1 := by
  unfold State.applyDrop
  refine ((edited_setCur s _).outcomesKept.trans (outcomesKept_foldl (fun u f => ?_) _ _)).trans (outcomesKept_foldl (fun u op => outcomesKept_complete u op _) _ _)
  exact outcomesKept_foldl (fun u op => outcomesKept_complete u op _) _ u

theorem outcomesKept_applyEdit (s : State) (o : Op) (data : List Byte) : OutcomesKept s (s.applyEdit o data).1 := by
  fun_cases State.applyEdit
  case case1 => exact (edited_applyRestore s o data).outcomesKept
  case case2 => exact (edited_applyDelete s o data).outcomesKept
  case case3 => exact (edited_applyPose s o data).outcomesKept
  case case4 => exact (edited_applyLinkAdd s o data).outcomesKept
  case case5 => exact (edited_applyLinkDelete s o).outcomesKept
  case case6 => exact (edited_applyQuarantine s o data true).outcomesKept
  case case7 => exact (edited_applyQuarantine s o data false).outcomesKept
  case case8 =>
    refine Edited.outcomesKept ?_
    unfold State.applyCreate
    split <;> rfl
  case case9 => exact outcomesKept_applyDrop s o
  case case10 => exact (edited_setCur s _).outcomesKept

theorem outcomesKept_carryOut (s : State) (base : MapView) (o : Op) (data : List Byte) : OutcomesKept s (s.carryOut base o data).1 := by
  unfold State.carryOut
  split
  · exact (edited_recordMoves s _ _ _).outcomesKept
  · exact outcomesKept_applyEdit s o data

theorem outcomesKept_inSealed (s : State) {f : State → State} (hf : ∀ s, OutcomesKept s (f s)) : OutcomesKept s (s.inSealed f) := by
  unfold State.inSealed
  split
  · exact ⟨rfl, fun _ _ _ _ h => h⟩
  · exact hf _

theorem outcomesKept_applyChange (s : State) (epoch : Nat) (o : Op) (data : List Byte) : OutcomesKept s (s.applyChange epoch o data) := by
  unfold State.applyChange
  split
  · exact (outcomesKept_inSealed s fun u => outcomesKept_carryOut u _ _ _).trans (outcomesKept_carryOut _ _ _ _)
  · exact outcomesKept_carryOut s _ _ _

theorem outcomesKept_dueChanges (s : State) : OutcomesKept s s.dueChanges :=
  outcomesKept_foldl (f := fun (s : State) (h : HeldCommit) => (s.unhold h.peer h.id).applyChange (h.epoch.getD 0) { desc := h.desc } h.data)
    (fun s h => OutcomesKept.trans (b := s.unhold h.peer h.id) ⟨rfl, fun _ _ _ _ hend => ended_of_ops rfl hend⟩ (outcomesKept_applyChange _ _ _ _)) _ s

/-! ## The boundary -/

/-- What the steps up to a boundary's own work leave of operations, time and faults. -/
theorem atBoundary_work (u : State) (b : Nat) : ((u.atBoundary b).ops, (u.atBoundary b).fault, (u.atBoundary b).chip, (u.atBoundary b).clock) =
    (u.ops, u.fault, u.chip, { u.clock with lastBoundary := b }) :=
  foldl_keeps (g := fun u : State => (u.ops, u.fault, u.chip, u.clock)) (f := fun (s : State) (c : Cluster) => s.placed c.idx) (fun _ _ => rfl) _ _

theorem toBoundary_work (s : State) : s.toBoundary.ops = s.ops ∧ s.toBoundary.fault = s.fault ∧ s.toBoundary.chip = s.chip ∧
    ∀ o, s.toBoundary.overdue o = (s.toDev (s.nextBoundary * 1000000)).overdue o := by
  have hwork := atBoundary_work (s.toDev (s.nextBoundary * 1000000)) s.nextBoundary
  rw [Prod.mk.injEq, Prod.mk.injEq, Prod.mk.injEq, toDev_ops, toDev_fault, toDev_chip] at hwork
  obtain ⟨hops, hfault, hchip, hclock⟩ := hwork
  refine ⟨hops, hfault, hchip, fun o => ?_⟩
  rw [State.overdue, State.toBoundary, hclock, State.overdue]

/-- The version in a slot (R417). -/
def Chip.versionIn (c : Chip) (k : Nat) : Nat := if k = 0 then c.slotA.version else c.slotB.version

/-- A switch that is due makes the other slot active and ends its operation with the version there (R418). -/
theorem switchFirmware_switches {s : State} {id e epoch : Nat} {o : Op} (hasked : s.fault.switchOp = some (id, e)) (hdue : e ≤ epoch) (ho : s.findOp id = some o)
    (hopen : o.phase ≠ .final) (hearly : s.overdue o = false) : (s.switchFirmware epoch).fault = { s.fault with activeSlot := 1 - s.fault.activeSlot, switchOp := none } ∧
      (s.switchFirmware epoch).Ended id St.ok 0 (s.chip.versionIn (1 - s.fault.activeSlot)) := by
  obtain ⟨u, hswitch, hfault, hops, hclock⟩ : ∃ u : State, s.switchFirmware epoch = u.complete id (Res.ok 0 (s.chip.versionIn (1 - s.fault.activeSlot))) ∧
      u.fault = { s.fault with activeSlot := 1 - s.fault.activeSlot, switchOp := none } ∧ u.ops = s.ops ∧ u.clock = s.clock := by
    rw [State.switchFirmware, hasked]
    dsimp only
    rw [if_neg (Nat.not_lt.mpr hdue)]
    refine ⟨_, rfl, ?_, log_ops _ _ _ _ _ _ _, log_clock _ _ _ _ _ _ _⟩
    exact congrArg (fun f : FaultS => { f with activeSlot := 1 - s.fault.activeSlot, switchOp := none }) (log_fault _ _ _ _ _ _ _)
  rw [hswitch]
  exact ⟨by rw [complete_frame, ← hfault], ended_complete ho hopen hearly hops hclock _⟩

/-- At the boundary of its epoch a pending switch is made (R418). -/
theorem epochBoundary_switches {s : State} (hrun : s.running = true) {id e : Nat} {o : Op} (hasked : s.fault.switchOp = some (id, e)) (hdue : e ≤ s.map.published + 1)
    (hin : s.fabric.isolated = false) (hbarrier : s.fabric.barrier = none) (hothers : s.others ≠ []) (ho : s.findOp id = some o) (hopen : o.phase ≠ .final)
    (hearly : (s.toDev (s.nextBoundary * 1000000)).overdue o = false) : ∃ t, exec .epochBoundary s = .next t ∧ t.fault.activeSlot = 1 - s.fault.activeSlot ∧
      t.fault.switchOp = none ∧ t.Ended id St.ok 0 (if 1 - s.fault.activeSlot = 0 then s.chip.slotA.version else s.chip.slotB.version) := by
  obtain ⟨-, hfabric, -⟩ := boundaryKept_toBoundary s
  obtain ⟨-, -, hmembers⟩ := sealNext_kept s
  obtain ⟨hops, hfault, hchip, hoverdue⟩ := toBoundary_work s
  have hepochs := dueChanges_epochs s.sealNext
  simp only [State.epochs, Prod.mk.injEq] at hepochs
  obtain ⟨-, -, -, -, hdueMembers⟩ := hepochs
  have hexec : exec .epochBoundary s = .next s.sealNext.dueChanges := by
    have hmore : s.sealNext.dueChanges.others.isEmpty = false := by
      rw [hdueMembers, hmembers]
      simpa using hothers
    rw [exec_epochBoundary hrun, hfabric, hin, hbarrier, hmore]
    rfl
  obtain ⟨hswitched, hended⟩ := switchFirmware_switches (s := s.toBoundary) (epoch := s.map.published + 1) (by rw [hfault]; exact hasked) hdue
    ((findOp_of_ops hops id).trans ho) hopen (by rw [hoverdue]; exact hearly)
  rw [hchip, hfault] at hended
  rw [hfault] at hswitched
  obtain ⟨hkept, houtcomes⟩ := outcomesKept_dueChanges s.sealNext
  have hsealed : s.sealNext.fault = { s.fault with activeSlot := 1 - s.fault.activeSlot, switchOp := none } := hswitched
  refine ⟨_, hexec, by rw [hkept, hsealed], by rw [hkept, hsealed], houtcomes _ _ _ _ (ended_of_ops ?_ hended)⟩
  rfl

/-! ## FIRMWARE_STAGE -/

section Stage

variable {s : State} {id : Nat} {o : Op}

/-- An image of a size that fits is refused where it is not signed or its security version has passed, and else staged (R417). -/
theorem exec_stage (h : s.RunsSub id 0x4B 1 o) (hmin : 4096 ≤ o.u32 32) (hmax : o.u32 32 ≤ 16777216) (signed : Bool) (version sec : Nat) :
    exec (.stage id signed version sec) s = .next (if !signed then s.finish id (Res.field 24)
      else if sec < s.chip.minSecVersion then s.finish id (Res.bound 0x71)
      else if s.fault.switchOp.isSome then s.finish id (Res.bound 0x73)
      else
        let slot : Slot := { signed := true, version := version, secVersion := sec, returnAuth := Config.freeNat s.free % 2 = 1 }
        let chip := if s.fault.activeSlot = 0 then { s.chip with slotB := slot } else { s.chip with slotA := slot }
        (({ s with chip := chip, fault := { s.fault with stagedValid := true } }.spend 1).commit id).finish id (Res.ok 0 version)) := by
  rw [exec, execStage, runSub_of h, if_neg (not_or.mpr ⟨Nat.not_lt.mpr hmin, Nat.not_lt.mpr hmax⟩)]

/-- The image goes into the slot that is not active (R417). -/
theorem stage_writes (h : s.RunsSub id 0x4B 1 o) (hmin : 4096 ≤ o.u32 32) (hmax : o.u32 32 ≤ 16777216) {version sec : Nat} (hsec : s.chip.minSecVersion ≤ sec)
    (hidle : s.fault.switchOp = none) : ∃ t x, exec (.stage id true version sec) s = .next t ∧
      x = (if s.fault.activeSlot = 0 then t.chip.slotB else t.chip.slotA) ∧ x.signed = true ∧ x.version = version ∧ x.secVersion = sec ∧
        (if s.fault.activeSlot = 0 then t.chip.slotA = s.chip.slotA else t.chip.slotB = s.chip.slotB) ∧ t.fault.stagedValid = true ∧ t.Ended id St.ok 0 version ∧
          t.power = s.power := by
  have hcommitted (u : State) (hu : u.ops = s.ops) : (u.commit id).findOp id = some { o with committed := true } := by
    rw [findOp_commit, findOp_of_ops hu, h.1.1]
    rfl
  have hexec := exec_stage h hmin hmax true version sec
  rw [Bool.not_true, if_neg Bool.false_ne_true, if_neg (Nat.not_lt.mpr hsec), hidle, if_neg (by decide)] at hexec
  obtain ⟨slot, t, hsigned, hversion, hsecurity, hrun, hchip, hvalid, hpower, hended⟩ : ∃ (slot : Slot) (t : State), slot.signed = true ∧ slot.version = version ∧
      slot.secVersion = sec ∧ exec (.stage id true version sec) s = .next t ∧
        t.chip = (if s.fault.activeSlot = 0 then { s.chip with slotB := slot } else { s.chip with slotA := slot }) ∧ t.fault.stagedValid = true ∧ t.power = s.power ∧
          t.Ended id St.ok 0 version :=
    ⟨{ signed := true, version := version, secVersion := sec, returnAuth := Config.freeNat s.free % 2 = 1 }, _, rfl, rfl, rfl, hexec, rfl, rfl, rfl, ended_finish (hcommitted _ rfl) _⟩
  have hwritten : (if s.fault.activeSlot = 0 then t.chip.slotB else t.chip.slotA) = slot ∧
      (if s.fault.activeSlot = 0 then t.chip.slotA = s.chip.slotA else t.chip.slotB = s.chip.slotB) := by
    rw [hchip]
    by_cases hslot : s.fault.activeSlot = 0 <;> simp [hslot]
  exact ⟨t, slot, hrun, hwritten.1.symm, hsigned, hversion, hsecurity, hwritten.2, hvalid, hended, hpower⟩

end Stage

/-! ## ACTIVATE and REVERT -/

section Switch

variable {s : State} {id sub : Nat} {o : Op} {c : Instr} {ready : Bool} (hexec : exec c s = s.runSub id 0x4B sub fun o => s.askSwitch o ready) (h : s.RunsSub id 0x4B sub o)
include hexec h

theorem exec_askSwitch : exec c s = .next (s.askSwitch o ready) := hexec.trans (runSub_of h _)

/-- An epoch that is published already is refused (R417). -/
theorem askSwitch_past (hepoch : o.u64 40 ≠ 0) (hpast : o.u64 40 ≤ s.map.published) : ∃ t, exec c s = .next t ∧ JustEnded s t id (Res.field 40) := by
  have hask : s.askSwitch o ready = s.finish id (Res.field 40) := by
    rw [← findOp_id h.1.1]
    exact if_pos ⟨hepoch, hpast⟩
  exact ⟨_, (exec_askSwitch hexec h).trans (congrArg _ hask), justEnded_finish h.1.1 _⟩

/-- Without an image to switch to the operation ends (R417). -/
theorem askSwitch_unready (hepoch : o.u64 40 = 0) (hready : ready = false) : ∃ t, exec c s = .next t ∧ JustEnded s t id (Res.bound 0x72) := by
  have hask : s.askSwitch o ready = s.finish id (Res.bound 0x72) := by
    rw [← findOp_id h.1.1, hready]
    exact if_neg fun hh => hh.1 hepoch
  exact ⟨_, (exec_askSwitch hexec h).trans (congrArg _ hask), justEnded_finish h.1.1 _⟩

/-- Otherwise the switch waits for its epoch (R417, R418). -/
theorem askSwitch_waits (hfuture : o.u64 40 = 0 ∨ s.map.published < o.u64 40) (hready : ready = true) (hidle : s.fault.switchOp = none) : ∃ t, exec c s = .next t ∧
    t.findOp id = some { o with phase := .waiting, began := true } ∧ t.fault.switchOp = some (id, if o.u64 40 = 0 then s.nextEpoch else o.u64 40) ∧
      t = { s with ops := t.ops, fault := t.fault } := by
  obtain ⟨u, hu⟩ : ∃ u : State, u = { s with fault := { s.fault with switchOp := some (id, if o.u64 40 = 0 then s.nextEpoch else o.u64 40) } } := ⟨_, rfl⟩
  have hask : s.askSwitch o ready = u.await id := by
    have hnot : ¬ (o.u64 40 ≠ 0 ∧ o.u64 40 ≤ s.map.published) := by omega
    rw [State.askSwitch, if_neg hnot, hready, hidle, findOp_id h.1.1, hu]
    rfl
  refine ⟨_, (exec_askSwitch hexec h).trans (congrArg _ hask), ?_, by rw [hu]; rfl, by rw [hu]; rfl⟩
  have hfind : u.findOp id = some o := (findOp_of_ops (by rw [hu]) id).trans h.1.1
  rw [findOp_await, hfind]
  rfl

end Switch

/-- Settles O59: safe hold by `enterSafeHold_ends`, however it is asked for; firmware by the outcomes of FIRMWARE_STAGE, and its switch by
`epochBoundary_switches`. -/
theorem safeHoldStopsAndFirmwareSwitches : Obligations.SafeHoldStopsAndFirmwareSwitches := by
  refine fun s hrun => ⟨⟨fun code => ?hold, ?thermal, fun id o h => ?action⟩, fun id o signed version sec h hmin hmax => ⟨?unsigned, ?old, ?staged⟩,
    fun id o => ⟨fun h => ?activate, fun h => ?revert⟩, fun id e o hasked hdue hin hbarrier hothers ho hopen => epochBoundary_switches hrun hasked hdue hin hbarrier hothers ho hopen⟩
  case hold => exact ⟨_, rfl, enterSafeHold_ends hrun code⟩
  case thermal => exact ⟨_, rfl, enterSafeHold_ends hrun 0⟩
  case action => exact ⟨_, runSub_of h _, enterSafeHold_ends hrun 0⟩
  case unsigned =>
    rintro rfl
    exact ⟨_, exec_stage h hmin hmax false version sec, justEnded_finish h.1.1 _⟩
  case old =>
    rintro rfl hold
    exact ⟨_, (exec_stage h hmin hmax true version sec).trans (congrArg _ (if_pos hold)), justEnded_finish h.1.1 _⟩
  case staged =>
    rintro rfl hsec hidle
    exact stage_writes h hmin hmax hsec hidle
  case activate => exact ⟨askSwitch_past rfl h, askSwitch_unready rfl h, askSwitch_waits rfl h⟩
  case revert => exact ⟨askSwitch_past rfl h, askSwitch_unready rfl h, askSwitch_waits rfl h⟩

end Sys2Proof.Machine
